-- ==== Sys2Proof/Word.lean ====
section
/-! DEFINITION. Word types of the FVN-9216 and their plainest arithmetic: little-endian bytes (R4), bit ranges
numbered from bit 0 (R5) and two's complement (R6). -/

namespace Sys2Proof

abbrev Byte := BitVec 8
abbrev Word := BitVec 32
abbrev Reg64 := BitVec 64
/-- A 16-bit status code (R19). -/
abbrev Status := BitVec 16
abbrev TileId := BitVec 8
abbrev HartId := BitVec 10
abbrev CoreId := BitVec 7
abbrev NodeId := BitVec 14
abbrev CtxId := BitVec 8
abbrev PortId := Fin 20
abbrev QId := Fin 4
/-- A memory controller: 0 to 11 are the HBM3 stacks, 12 to 43 the LPDDR5X packages. -/
abbrev CtrlId := Fin 44
abbrev FwpId := Fin 6
abbrev LinkId := Fin 9
abbrev DieId := Fin 7
abbrev EthId := Fin 2
/-- A pick number (R26). -/
abbrev Pick := BitVec 48

/-- The pick number that means "outside a running pick" (R26). -/
def noPick : Pick := BitVec.allOnes 48

end Sys2Proof
end

