-- ==== Sys2Proof/Syntax.lean ====
section
/-! DEFINITION. The commands that the block takes, one constructor per row of spec/opcode_table.json, and the shapes
of their operands. An operand is what arrives from outside with the command: the fields of an instruction, of a
fabric message or of a host request, the value of a register write, and, for an event in time, the time counter at
which it happens (assumption log 2). -/

namespace Sys2Proof

/-- Who makes a register access (R421, R436, R696 and the access notes of the register blocks). -/
inductive Requester where
  /-- A hart, in whatever mode it stands. -/
  | hart (h : HartId)
  /-- The copy engine of a tile. -/
  | copy (t : TileId)
  /-- The shuttle of a tile, at its own register block (R117). -/
  | shuttle (t : TileId)
  /-- A firmware processor (Table 15-1): 0 BSC, 1 PTC, 2 MRC, 3 RCC, 4 FBC0, 5 FBC1. -/
  | fw (p : FwpId)
  /-- The mailbox, for a host REG_READ. -/
  | host
deriving DecidableEq, Repr

/-- Direction of a message or event that the node both sends and receives. -/
inductive Dir where
  | send | recv
deriving DecidableEq, Repr

/-- The fields of an engine-issue instruction other than funct3 and the opcode (R120, R-type). -/
structure RInst where
  funct7 : BitVec 7
  rd : BitVec 5
  rs1 : BitVec 5
  rs2 : BitVec 5
deriving DecidableEq, Repr

inductive MemSize where
  | b | h | w | d
deriving DecidableEq, Repr

/-- A load or store of the shuttle (RV32IMC). `short` marks a 16-bit encoding of the C extension. -/
structure ShMem where
  store : Bool
  size : MemSize
  signed : Bool
  reg : BitVec 5
  base : BitVec 5
  imm : BitVec 12
  short : Bool
deriving DecidableEq, Repr

/-- A scalar load or store of a core; `fp` names an f register. -/
structure CoreMem where
  size : MemSize
  signed : Bool
  fp : Bool
  reg : BitVec 5
  base : BitVec 5
  imm : BitVec 12
  short : Bool
deriving DecidableEq, Repr

inductive AmoOp where
  | swap | add | xor | and | or | min | max | minu | maxu
deriving DecidableEq, Repr

/-- An AMO, LR or SC instruction of a core; `dword` selects .D width. -/
structure AmoInst where
  op : AmoOp
  dword : Bool
  rd : BitVec 5
  rs1 : BitVec 5
  rs2 : BitVec 5
deriving DecidableEq, Repr

inductive CsrOp where
  | rw | rs | rc
deriving DecidableEq, Repr

/-- A CSR instruction; `useImm` marks the immediate forms, whose operand is `rs1` itself. -/
structure CsrInst where
  op : CsrOp
  useImm : Bool
  csr : BitVec 12
  rd : BitVec 5
  rs1 : BitVec 5
deriving DecidableEq, Repr

/-- The fields of a 64-bit FVX instruction other than OPC and the length code (Table 8-3). -/
structure FvxWord where
  imm : BitVec 10
  resv : BitVec 1
  nm : BitVec 3
  sat : BitVec 1
  fmt2 : BitVec 4
  fmt : BitVec 4
  g : BitVec 2
  z : BitVec 1
  pg : BitVec 3
  vc : BitVec 5
  vb : BitVec 5
  va : BitVec 5
  vd : BitVec 5
deriving DecidableEq, Repr

/-- Where the deadline event of a SOLVE fires in its course (Table 7-8). -/
inductive DlPoint where
  | never
  | factor
  | resid (k : Nat)
  | test (k : Nat)
  | corr (k : Nat)
  | update (k : Nat)
deriving DecidableEq, Repr

/-- What the code of a memory word shows when it is read (R112, R376, R377). -/
inductive EccObs where
  | clean | corrected | uncorrectable
deriving DecidableEq, Repr

/-- A PTP message on an Ethernet port of a time root (R506). -/
inductive PtpKind where
  /-- Announce of a master: its rank in the best master clock algorithm (lower is better) and its identity. -/
  | announce (rank : Nat) (master : Nat)
  /-- A completed Sync and Delay exchange: the measured offset in units of 2^-8 ns. -/
  | measure (offset : Int)
  /-- Any message the profile does not support: ignored. -/
  | other
deriving DecidableEq, Repr

/-- A fabric message (Table 10-3). `resv` is the OR of the reserved header bits. -/
structure Msg where
  loc : Bool
  dst : NodeId
  src : NodeId
  vc : BitVec 3
  rsp : Bool
  cong : Bool
  resv : Bool
  space : BitVec 2
  opc : BitVec 8
  len : BitVec 9
  addr : BitVec 48
  tag : BitVec 16
  data : List Byte
deriving DecidableEq, Repr

/-- Why a port leaves service (R408). -/
inductive DownCause where
  | failures | lockLoss | firmware
deriving DecidableEq, Repr

/-- The link exchange message of the far end (R639): its nonce, certificate, signature and position word, and the
key of the certificate, with whether the peer is a switch unit and its port. -/
structure LinkProof where
  switch : Bool
  position : BitVec 16
  port : BitVec 5
  nonce : List Byte
  cert : List Byte
  certSig : List Byte
  key : List Byte
  sig : List Byte
deriving DecidableEq, Repr

/-- Who asks the NAND controller for blocks (R394). -/
inductive FlashReq where
  | resilience | rcc | bsc
deriving DecidableEq, Repr

inductive Tier where
  | skein | flash
deriving DecidableEq, Repr

/-- Name of a skein chunk (Table 14-8). -/
structure ChunkId where
  gen : BitVec 64
  member : BitVec 16
  stripe : Nat
  chunk : Nat
deriving DecidableEq, Repr

/-- COMMIT (Table 14-8). -/
structure CommitMsg where
  gen : BitVec 64
  tier : Tier
  commitPick : Pick
  every : BitVec 16
  fromPick : Pick
deriving DecidableEq, Repr

/-- MIRROR: a page, or MIRROR_END with the pick and digest (R594, R595). -/
inductive MirrorMsg where
  | page (page : Nat) (bytes : List Byte)
  | stop (pick : Pick) (digest : List Byte)
deriving DecidableEq, Repr

/-- Roles of R645, in rising order. -/
inductive Role where
  | observer | operator | administrator
deriving DecidableEq, Repr

def Role.level : Role → Nat
  | .observer => 0
  | .operator => 1
  | .administrator => 2

/-- The header fields of a Dripol request that reached its service (Table 15-6). SESSION 0 means no session. -/
structure Dripol where
  session : BitVec 32
  seq : BitVec 32
  major : BitVec 8
deriving DecidableEq, Repr

/-- POLICY_SET (Table 15-7). An absent item is left as it is. -/
structure HostPolicy where
  sigRequired : Option Bool
  jobKeys : Option (List (List Byte))
  vcMin : Option (List Byte)
  ckptCfg : Option (BitVec 64)
deriving DecidableEq, Repr

/-- A named window set (R540): entries as values of FAB_WIN_CTL, FAB_WIN_BASE and FAB_WIN_LIMIT. -/
structure WindowSet where
  name : List Byte
  jobTag : BitVec 64
  entries : List (BitVec 64 × BitVec 64 × BitVec 64)
deriving DecidableEq, Repr

/-- One record in the form of the GROUP section (Table 13-4). -/
structure GroupRec where
  groupId : BitVec 32
  ctx : CtxId
  forceRing : Bool
  thresh : BitVec 16
  members : List (BitVec 16)
deriving DecidableEq, Repr

/-- JOB_START (Table 15-7). -/
structure JobStart where
  jobTag : BitVec 64
  totalSize : BitVec 64
  digest : List Byte
  mapDigest : List Byte
  nmembers : BitVec 16
  ackTimeout : BitVec 16
  chains : List (BitVec 6)
deriving DecidableEq, Repr

/-- RESTORE (R612): from the newest valid flash generation, or from a store image in the staging region; the shape
that wrote it (R568). -/
structure RestoreReq where
  fromStore : Bool
  nmembers : BitVec 16
  draft : List Byte
  shape : Nat
deriving DecidableEq, Repr

/-- RESET request (Table 15-7). -/
inductive ResetReq where
  | pkg | cmp | fab | fwp (p : FwpId)
deriving DecidableEq, Repr

/-- Where a temperature limit is met (Table 16-13). -/
inductive ThermSite where
  | die (d : DieId)
  | stack (k : Fin 12)
  | package (k : Fin 32)
deriving DecidableEq, Repr

/-- What the limiter measures at one update (Table 16-12): the hottest junction of dies 0 to 6, the memory devices
(stacks 0 to 11, then packages 0 to 31), all in 1/16 °C, mean input power (W) and input current (100 mA). -/
structure LimiterIn where
  dies : List Int
  devices : List Int
  power : Nat
  current : Nat
deriving DecidableEq, Repr

/-- Operations of the IEEE 1149.1 port (R663). -/
inductive JtagOp where
  | bypass | idcode | sample | extest | extestPulse | extestTrain | clamp | highz
deriving DecidableEq, Repr

/-- The commands of the block: one constructor per row of the opcode table, in the table's order. -/
inductive Instr where
  /-- EISSUE (R120). -/
  | eissue (t : TileId) (i : RInst)
  /-- EWAIT (R122). -/
  | ewait (t : TileId) (i : RInst)
  /-- CWAIT (R123). -/
  | cwait (t : TileId) (i : RInst)
  /-- CSET (R120). -/
  | cset (t : TileId) (i : RInst)
  /-- CADD (R120). -/
  | cadd (t : TileId) (i : RInst)
  /-- TWAIT (R124). -/
  | twait (t : TileId) (i : RInst)
  /-- EFENCE (R120). -/
  | efence (t : TileId) (i : RInst)
  /-- SHUTTLE_WFI (R701). -/
  | shuttleWfi (t : TileId)
  /-- SHUTTLE_ECALL_EBREAK (R701). -/
  | shuttleEcallEbreak (t : TileId) (brk : Bool)
  /-- SHUTTLE_REG_STORE (R118). -/
  | shuttleRegStore (t : TileId) (i : ShMem)
  /-- SHUTTLE_REG_LOAD (R118). -/
  | shuttleRegLoad (t : TileId) (i : ShMem)
  /-- SEQ_CTRL_RUN (R129). -/
  | seqCtrlRun (q : Requester) (t : TileId) (v : BitVec 64)
  /-- SHUTTLE_DEFERRED_START (R677). -/
  | shuttleDeferredStart (t : TileId)
  /-- COPY_ARRIVE_WRITE (R139). -/
  | copyArriveWrite (q : Requester) (t : TileId) (n : BitVec 6) (v : BitVec 64) (same : Nat)
  /-- LINEAR (R130). -/
  | linear (t : TileId) (k : QId)
  /-- GATHER (R131). -/
  | gather (t : TileId) (k : QId)
  /-- SCATTER (R131). -/
  | scatter (t : TileId) (k : QId)
  /-- FILL (R702). -/
  | fill (t : TileId) (k : QId)
  /-- ROUTE (R132). -/
  | route (t : TileId) (k : QId)
  /-- COPY_COMPLETE (R134). -/
  | copyComplete (t : TileId) (k : QId)
  /-- MATMUL (R156). -/
  | matmul (t : TileId)
  /-- TENSOR_COMPLETE (R177). -/
  | tensorComplete (t : TileId) (bank withheld : Nat)
  /-- CHAIN (R248). -/
  | chain (t : TileId)
  /-- ELEM_COMPLETE (R251). -/
  | elemComplete (t : TileId) (bank withheld : Nat)
  /-- CHOL (R275). -/
  | chol (t : TileId)
  /-- LDLT (R275). -/
  | ldlt (t : TileId)
  /-- LU (R276). -/
  | lu (t : TileId)
  /-- QR (R277). -/
  | qr (t : TileId)
  /-- TRSV (R275). -/
  | trsv (t : TileId)
  /-- MV (R275). -/
  | mv (t : TileId)
  /-- ASSEMBLE (R286). -/
  | assemble (t : TileId)
  /-- SOLVE (R291). -/
  | solve (t : TileId) (dl : DlPoint)
  /-- SOLVER_COMPLETE (R298). -/
  | solverComplete (t : TileId) (bank withheld : Nat)
  /-- PUSH (R207). -/
  | push (t : TileId)
  /-- POP (R210). -/
  | pop (t : TileId)
  /-- BOBBIN_RESET (R213). -/
  | bobbinReset (t : TileId)
  /-- BOBBIN_COMPLETE (R214). -/
  | bobbinComplete (t : TileId)
  /-- SCHEDULE_ENTRY_ISSUE (R186). -/
  | scheduleEntryIssue (t : TileId)
  /-- PICK_START (R511). -/
  | pickStart (now : BitVec 64)
  /-- TIMETABLE_EVENT_FIRE (R516). -/
  | timetableEventFire (i : BitVec 7) (now : BitVec 64)
  /-- SNAPSHOT_MARK (R578). -/
  | snapshotMark (now : BitVec 64)
  /-- DIGEST_BANK_HANDOFF (R527). -/
  | digestBankHandoff (t : TileId)
  /-- DIGEST_RECORD_WRITE (R527). -/
  | digestRecordWrite
  /-- TIME_NOW_READ (R499). -/
  | timeNowRead (q : Requester)
  /-- TIME_REBASE_AT_WRITE (R513). -/
  | timeRebaseAtWrite (q : Requester) (v : BitVec 64)
  /-- TIME_DIGLOG_TAIL_WRITE (R528). -/
  | timeDiglogTailWrite (q : Requester) (v : BitVec 64)
  /-- TIME_REQ (R507). -/
  | timeReq (d : Dir) (p : PortId) (src : NodeId) (tag : BitVec 16) (stamp1 stamp2 : BitVec 64)
  /-- TIME_RSP (R507). -/
  | timeRsp (p : PortId) (src : NodeId) (t1 t2 t3 t4 : Int)
  /-- PTP_MESSAGE (R506). -/
  | ptpMessage (e : EthId) (k : PtpKind) (now : BitVec 64)
  /-- ANNOUNCE_TIMEOUT (R509). -/
  | announceTimeout (now : BitVec 64)
  /-- TIME_HOLDOVER (R510). -/
  | timeHoldover
  /-- REPLAY_EVENT_FIRE (R605). -/
  | replayEventFire (i : BitVec 7)
  /-- VLD (R334). -/
  | vld (h : HartId) (f : FvxWord)
  /-- VST (R334). -/
  | vst (h : HartId) (f : FvxWord)
  /-- VLDS (R334). -/
  | vlds (h : HartId) (f : FvxWord)
  /-- VSTS (R337). -/
  | vsts (h : HartId) (f : FvxWord)
  /-- VLDX (R334). -/
  | vldx (h : HartId) (f : FvxWord)
  /-- VSTX (R337). -/
  | vstx (h : HartId) (f : FvxWord)
  /-- VLDSEG (R338). -/
  | vldseg (h : HartId) (f : FvxWord)
  /-- VSTSEG (R338). -/
  | vstseg (h : HartId) (f : FvxWord)
  /-- VLDBC (R334). -/
  | vldbc (h : HartId) (f : FvxWord)
  /-- VLDP (R334). -/
  | vldp (h : HartId) (f : FvxWord)
  /-- VSTP (R334). -/
  | vstp (h : HartId) (f : FvxWord)
  /-- VCAS (R339). -/
  | vcas (h : HartId) (f : FvxWord)
  /-- VADD (R334). -/
  | vadd (h : HartId) (f : FvxWord)
  /-- VSUB (R334). -/
  | vsub (h : HartId) (f : FvxWord)
  /-- VMUL (R334). -/
  | vmul (h : HartId) (f : FvxWord)
  /-- VMULH (R334). -/
  | vmulh (h : HartId) (f : FvxWord)
  /-- VFMA (R334). -/
  | vfma (h : HartId) (f : FvxWord)
  /-- VMAX (R334). -/
  | vmax (h : HartId) (f : FvxWord)
  /-- VMIN (R334). -/
  | vmin (h : HartId) (f : FvxWord)
  /-- VNEG (R334). -/
  | vneg (h : HartId) (f : FvxWord)
  /-- VABS (R334). -/
  | vabs (h : HartId) (f : FvxWord)
  /-- VAND (R334). -/
  | vand (h : HartId) (f : FvxWord)
  /-- VOR (R334). -/
  | vor (h : HartId) (f : FvxWord)
  /-- VXOR (R334). -/
  | vxor (h : HartId) (f : FvxWord)
  /-- VNOT (R334). -/
  | vnot (h : HartId) (f : FvxWord)
  /-- VSHL (R334). -/
  | vshl (h : HartId) (f : FvxWord)
  /-- VSHR (R334). -/
  | vshr (h : HartId) (f : FvxWord)
  /-- VSRA (R334). -/
  | vsra (h : HartId) (f : FvxWord)
  /-- VCLS (R334). -/
  | vcls (h : HartId) (f : FvxWord)
  /-- VCMP (R334). -/
  | vcmp (h : HartId) (f : FvxWord)
  /-- VSEL (R334). -/
  | vsel (h : HartId) (f : FvxWord)
  /-- VWMUL (R334). -/
  | vwmul (h : HartId) (f : FvxWord)
  /-- VWMAC (R345). -/
  | vwmac (h : HartId) (f : FvxWord)
  /-- VDOT (R345). -/
  | vdot (h : HartId) (f : FvxWord)
  /-- VFXMAC (R345). -/
  | vfxmac (h : HartId) (f : FvxWord)
  /-- VCVT (R343). -/
  | vcvt (h : HartId) (f : FvxWord)
  /-- VACCOUT (R346). -/
  | vaccout (h : HartId) (f : FvxWord)
  /-- VEXP2 (R341). -/
  | vexp2 (h : HartId) (f : FvxWord)
  /-- VLOG2 (R341). -/
  | vlog2 (h : HartId) (f : FvxWord)
  /-- VRCP (R341). -/
  | vrcp (h : HartId) (f : FvxWord)
  /-- VRSQRT (R341). -/
  | vrsqrt (h : HartId) (f : FvxWord)
  /-- VREDSUM (R347). -/
  | vredsum (h : HartId) (f : FvxWord)
  /-- VREDMAX (R334). -/
  | vredmax (h : HartId) (f : FvxWord)
  /-- VREDMIN (R334). -/
  | vredmin (h : HartId) (f : FvxWord)
  /-- VPERM (R334). -/
  | vperm (h : HartId) (f : FvxWord)
  /-- VSLIDE (R334). -/
  | vslide (h : HartId) (f : FvxWord)
  /-- VCOMPRESS (R334). -/
  | vcompress (h : HartId) (f : FvxWord)
  /-- VEXPAND (R334). -/
  | vexpand (h : HartId) (f : FvxWord)
  /-- VMVXS (R334). -/
  | vmvxs (h : HartId) (f : FvxWord)
  /-- VMVSX (R334). -/
  | vmvsx (h : HartId) (f : FvxWord)
  /-- VBCAST (R334). -/
  | vbcast (h : HartId) (f : FvxWord)
  /-- VPAND (R334). -/
  | vpand (h : HartId) (f : FvxWord)
  /-- VPOR (R334). -/
  | vpor (h : HartId) (f : FvxWord)
  /-- VPXOR (R334). -/
  | vpxor (h : HartId) (f : FvxWord)
  /-- VPNOT (R334). -/
  | vpnot (h : HartId) (f : FvxWord)
  /-- VPWHILE (R334). -/
  | vpwhile (h : HartId) (f : FvxWord)
  /-- VPCNT (R334). -/
  | vpcnt (h : HartId) (f : FvxWord)
  /-- REMOTE_AMO (R317). -/
  | remoteAmo (h : HartId) (i : AmoInst)
  /-- THREAD_RESUME (R320). -/
  | threadResume (h : HartId)
  /-- THREAD_TIMESLICE (R321). -/
  | threadTimeslice (c : CoreId)
  /-- CORE_WFI (R321). -/
  | coreWfi (h : HartId)
  /-- CPU_START_GO (R306). -/
  | cpuStartGo (q : Requester) (v : BitVec 64)
  /-- MEM_READ (R370). -/
  | memRead (a : BitVec 48) (len : Nat) (obs : EccObs)
  /-- MEM_WRITE (R368). -/
  | memWrite (a : BitVec 48) (d : List Byte)
  /-- WCB_ENTRY_DRAIN (R371). -/
  | wcbEntryDrain (c : CtrlId) (now : BitVec 64)
  /-- DRAIN (R372). -/
  | drain (q : Requester) (c : CtrlId) (v : BitVec 64)
  /-- PATROL_SCRUB (R378). -/
  | patrolScrub (c : CtrlId) (a : BitVec 48) (obs : EccObs) (last : Bool)
  /-- MEM_CE_RATE (R379). -/
  | memCeRate (c : CtrlId)
  /-- HBM_TEMP_READ (R381). -/
  | hbmTempRead (k : Fin 12) (temp : Int)
  /-- MEM_TRAINING_LOST (R380). -/
  | memTrainingLost (c : CtrlId)
  /-- GUARD_COPY (R390). -/
  | guardCopy (page : Nat)
  /-- NAND_READ (R396). -/
  | nandRead (p : FlashReq) (lba : Nat) (n : Nat) (retry bad : Bool)
  /-- NAND_WRITE (R395). -/
  | nandWrite (p : FlashReq) (lba : Nat) (d : List Byte)
  /-- D2D_FLIT_RETRY (R37). -/
  | d2dFlitRetry (k : LinkId) (consecutive : Nat)
  /-- FLIT_RECEIVE (R406). -/
  | flitReceive (p : PortId) (flit : List Byte)
  /-- ACK_TIMEOUT_RESEND (R406). -/
  | ackTimeoutResend (p : PortId)
  /-- PORT_LEAVES_SERVICE (R408). -/
  | portLeavesService (p : PortId) (why : DownCause) (now : BitVec 64)
  /-- PORT_TRAINED (R409). -/
  | portTrained (p : PortId) (peerPort : BitVec 5) (ok : Bool) (now : BitVec 64)
  /-- LINK_EXCHANGE (R639). -/
  | linkExchange (p : PortId) (x : LinkProof)
  /-- RD (R413). -/
  | rd (p : PortId) (m : Msg) (now : BitVec 64)
  /-- WR (R414). -/
  | wr (p : PortId) (m : Msg) (now : BitVec 64)
  /-- ATOM (R450). -/
  | atom (p : PortId) (m : Msg) (now : BitVec 64)
  /-- ARRIVE (R414). -/
  | arrive (p : PortId) (m : Msg) (now : BitVec 64)
  /-- LEDGER_SYNC (R454). -/
  | ledgerSync (p : PortId) (m : Msg) (now : BitVec 64)
  /-- FABRIC_RESPONSE (R429). -/
  | fabricResponse (p : PortId) (m : Msg) (now : BitVec 64)
  /-- ATOM_RETRANSMIT (R452). -/
  | atomRetransmit (tag : BitVec 16) (now : BitVec 64)
  /-- REQUEST_TIMEOUT (R455). -/
  | requestTimeout (tag : BitVec 16) (now : BitVec 64)
  /-- REPLAY_CACHE_EXPIRY (R451). -/
  | replayCacheExpiry (now : BitVec 64)
  /-- CONG_EXPIRY (R438). -/
  | congExpiry (dst : NodeId) (now : BitVec 64)
  /-- GETS (R445). -/
  | gets (p : PortId) (m : Msg)
  /-- GETM (R445). -/
  | getm (p : PortId) (m : Msg)
  /-- PUTM (R445). -/
  | putm (p : PortId) (m : Msg)
  /-- FWD_GETS (R445). -/
  | fwdGets (p : PortId) (m : Msg)
  /-- FWD_GETM (R445). -/
  | fwdGetm (p : PortId) (m : Msg)
  /-- INV (R446). -/
  | inv (p : PortId) (m : Msg)
  /-- DATA (R445). -/
  | data (p : PortId) (m : Msg)
  /-- ACK (R445). -/
  | ack (p : PortId) (m : Msg)
  /-- SW_ASSIGN (R420). -/
  | swAssign (p : PortId) (m : Msg)
  /-- NODE_ANNOUNCE (R420). -/
  | nodeAnnounce (p : PortId) (m : Msg)
  /-- FAB_WINDOW_WRITE (R436). -/
  | fabWindowWrite (q : Requester) (off : BitVec 24) (v : BitVec 64)
  /-- COL_SUBMIT (R462). -/
  | colSubmit (q : Requester) (v : BitVec 64)
  /-- COLLECTIVE_HEAD (R466). -/
  | collectiveHead (c : CtxId) (now : BitVec 64)
  /-- COL_DATA (R482). -/
  | colData (p : PortId) (m : Msg)
  /-- COL_CREDIT (R482). -/
  | colCredit (p : PortId) (m : Msg)
  /-- COL_ABORT (R487). -/
  | colAbort (p : PortId) (m : Msg)
  /-- COLLECTIVE_TIMEOUT (R486). -/
  | collectiveTimeout (c : CtxId) (now : BitVec 64)
  /-- COLLECTIVE_COMPLETE (R492). -/
  | collectiveComplete (c : CtxId) (now : BitVec 64)
  /-- COL_CTX_RESET (R488). -/
  | colCtxReset (q : Requester) (c : CtxId) (v : BitVec 64)
  /-- COL_CTX_DESTROY (R458). -/
  | colCtxDestroy (q : Requester) (c : CtxId) (v : BitVec 64)
  /-- COL_CTX_POLICY_WRITE (R479). -/
  | colCtxPolicyWrite (q : Requester) (c : CtxId) (v : BitVec 64)
  /-- DRAFT_BEGIN (R554). -/
  | draftBegin (p : PortId) (m : Msg) (now : BitVec 64)
  /-- DRAFT_CHUNK (R551). -/
  | draftChunk (p : PortId) (m : Msg) (now : BitVec 64)
  /-- DRAFT_VALIDATE (R543). -/
  | draftValidate (now : BitVec 64)
  /-- DRAFT_ACK (R553). -/
  | draftAck (p : PortId) (m : Msg) (now : BitVec 64)
  /-- DRAFT_ACK_TIMEOUT (R553). -/
  | draftAckTimeout (now : BitVec 64)
  /-- TREE_UPDATE (R557). -/
  | treeUpdate (p : PortId) (m : Msg) (now : BitVec 64)
  /-- JOB_GO (R560). -/
  | jobGo (p : PortId) (m : Msg) (now : BitVec 64)
  /-- JOB_ABANDON (R558). -/
  | jobAbandon (p : PortId) (m : Msg) (now : BitVec 64)
  /-- JOB_DRAIN (R561). -/
  | jobDrain (p : PortId) (m : Msg) (now : BitVec 64)
  /-- DRAIN_COMPLETE (R562). -/
  | drainComplete (now : BitVec 64)
  /-- DRAIN_DONE (R548). -/
  | drainDone (p : PortId) (m : Msg) (now : BitVec 64)
  /-- TEARDOWN (R563). -/
  | teardown (p : PortId) (m : Msg) (now : BitVec 64)
  /-- TEARDOWN_DONE (R548). -/
  | teardownDone (p : PortId) (m : Msg) (now : BitVec 64)
  /-- RDMA_WRITE (R546). -/
  | rdmaWrite (e : EthId) (off : BitVec 48) (d : List Byte)
  /-- RDMA_SEND (R546). -/
  | rdmaSend (e : EthId) (d : List Byte)
  /-- SNAPSHOT_BACKGROUND_COPY (R578). -/
  | snapshotBackgroundCopy (stripe : Nat)
  /-- CHUNK_WR (R575). -/
  | chunkWr (src : NodeId) (a : BitVec 48) (d : List Byte) (id : ChunkId)
  /-- CHUNK_ACK (R578). -/
  | chunkAck (src : NodeId) (id : ChunkId)
  /-- READY (R584). -/
  | ready (src : NodeId) (gen : BitVec 64) (tier : Tier) (members : Nat) (now : BitVec 64)
  /-- COMMIT (R584). -/
  | commit (src : NodeId) (c : CommitMsg)
  /-- ABANDON (R584). -/
  | abandon (src : NodeId) (gen : BitVec 64) (tier : Tier)
  /-- COMMIT_REC (R583). -/
  | commitRec (src : NodeId) (a : BitVec 48) (d : List Byte)
  /-- LOG_APPEND (R589). -/
  | logAppend (src : NodeId) (a : BitVec 48) (d : List Byte)
  /-- LOG_ACK (R590). -/
  | logAck (src : NodeId) (lsn : BitVec 64)
  /-- MIRROR (R594). -/
  | mirror (src : NodeId) (x : MirrorMsg)
  /-- HEARTBEAT (R599). -/
  | heartbeat (d : Dir) (p : PortId) (src : NodeId) (pick : BitVec 48) (st : BitVec 4) (now : BitVec 64)
  /-- HEARTBEAT_SILENCE (R600). -/
  | heartbeatSilence (peer : NodeId) (now : BitVec 64)
  /-- SUSPECT (R600). -/
  | suspect (src : NodeId) (node : NodeId) (now : BitVec 64)
  /-- PROBE (R600). -/
  | probe (src : NodeId)
  /-- PROBE_REPLY (R600). -/
  | probeReply (src : NodeId) (pick : BitVec 48)
  /-- PROBE_TIMEOUT (R600). -/
  | probeTimeout (node : NodeId) (now : BitVec 64)
  /-- FATAL (R600). -/
  | fatal (src : NodeId) (status : BitVec 16) (now : BitVec 64)
  /-- DECLARE (R601). -/
  | declare (src : NodeId) (lost : List NodeId) (now : BitVec 64)
  /-- HALT (R602). -/
  | halt (src : NodeId) (pick : BitVec 48)
  /-- HALT_ACK (R602). -/
  | haltAck (src : NodeId) (pick barrier : BitVec 48)
  /-- CHUNK_RD (R604). -/
  | chunkRd (src : NodeId) (id : ChunkId)
  /-- CHUNK_DATA (R604). -/
  | chunkData (src : NodeId) (id : ChunkId) (d : List Byte)
  /-- PICK_RESTART (R598). -/
  | pickRestart
  /-- RESUME (R607). -/
  | resume (src : NodeId) (r : BitVec 48) (base : BitVec 64) (now : BitVec 64)
  /-- HELLO (R644). -/
  | hello (r : Dripol) (nonce key : List Byte) (role : Role)
  /-- HOST_PROOF (R645). -/
  | hostProof (r : Dripol) (sig : List Byte)
  /-- CLOSE (R649). -/
  | close (r : Dripol)
  /-- ENROLL (R650). -/
  | enroll (r : Dripol) (key secret : List Byte)
  /-- RELEASE (R650). -/
  | release (r : Dripol) (sig : List Byte)
  /-- STATUS_GET (R651). -/
  | statusGet (r : Dripol)
  /-- REG_READ (R651). -/
  | regRead (r : Dripol) (offs : List (BitVec 48))
  /-- REG_WRITE (R651). -/
  | regWrite (r : Dripol) (ws : List (BitVec 48 × BitVec 64))
  /-- EVENT_READ (R651). -/
  | eventRead (r : Dripol) (start n : Nat)
  /-- EVENT_ACK (R655). -/
  | eventAck (r : Dripol) (upto : Nat)
  /-- EVENT_SUBSCRIBE (R651). -/
  | eventSubscribe (r : Dripol) (on : Bool)
  /-- EVENT_NOTIFY (R656). -/
  | eventNotify (session : BitVec 32)
  /-- HOSTKEY_SET (R645). -/
  | hostkeySet (r : Dripol) (hash : List Byte) (role : Role) (remove : Bool)
  /-- POLICY_SET (R651). -/
  | policySet (r : Dripol) (p : HostPolicy)
  /-- WINDOW_SET_INSTALL (R540). -/
  | windowSetInstall (r : Dripol) (w : WindowSet)
  /-- WINDOW_SET_REMOVE (R542). -/
  | windowSetRemove (r : Dripol) (name : List Byte)
  /-- TIME_ROOT_SET (R504). -/
  | timeRootSet (r : Dripol) (v : BitVec 64)
  /-- PLAN_SET (R690). -/
  | planSet (r : Dripol) (clock cap : BitVec 8)
  /-- NODE_ASSIGN (R420). -/
  | nodeAssign (r : Dripol) (chain : BitVec 6) (span : BitVec 4)
  /-- PORT_ENABLE (R408). -/
  | portEnable (r : Dripol) (p : PortId)
  /-- GROUP_CREATE (R458). -/
  | groupCreate (r : Dripol) (g : GroupRec)
  /-- GROUP_DESTROY (R458). -/
  | groupDestroy (r : Dripol) (c : CtxId)
  /-- JOB_START (R550). -/
  | jobStart (r : Dripol) (j : JobStart) (now : BitVec 64)
  /-- JOB_SUBSTITUTE (R556). -/
  | jobSubstitute (r : Dripol) (subs : List (BitVec 16 × NodeId))
  /-- DRIPOL_JOB_GO (R651). -/
  | dripolJobGo (r : Dripol) (tag : BitVec 64) (base : BitVec 64) (first : BitVec 48) (now : BitVec 64)
  /-- DRIPOL_JOB_ABANDON (R651). -/
  | dripolJobAbandon (r : Dripol) (tag : BitVec 64) (status : BitVec 16) (now : BitVec 64)
  /-- DRIPOL_JOB_DRAIN (R651). -/
  | dripolJobDrain (r : Dripol) (tag : BitVec 64) (last : BitVec 48) (snap : Bool) (now : BitVec 64)
  /-- JOB_TEARDOWN (R651). -/
  | jobTeardown (r : Dripol) (tag : BitVec 64) (scrub : Bool) (now : BitVec 64)
  /-- SPARE_HOLD (R603). -/
  | spareHold (r : Dripol) (tag : BitVec 64)
  /-- FENCE_CLEAR (R601). -/
  | fenceClear (r : Dripol) (node : NodeId)
  /-- RESTORE (R612). -/
  | restore (r : Dripol) (x : RestoreReq)
  /-- STORE_EXPORT (R651). -/
  | storeExport (r : Dripol) (gen : BitVec 64) (page : Nat)
  /-- FW_STAGE (R629). -/
  | fwStage (r : Dripol) (off : Nat) (d : List Byte) (last : Bool)
  /-- FW_ACTIVATE (R630). -/
  | fwActivate (r : Dripol)
  /-- FW_COMMIT (R633). -/
  | fwCommit (r : Dripol)
  /-- FW_REVERT (R633). -/
  | fwRevert (r : Dripol)
  /-- MAINT_ENTER (R630). -/
  | maintEnter (r : Dripol)
  /-- MAINT_EXIT (R631). -/
  | maintExit (r : Dripol)
  /-- ATTEST (R638). -/
  | attest (r : Dripol) (nonce : List Byte)
  /-- MEASURE_LOG_GET (R637). -/
  | measureLogGet (r : Dripol)
  /-- IDENTITY_GET (R634). -/
  | identityGet (r : Dripol)
  /-- RESET (R678). -/
  | reset (r : Dripol) (c : ResetReq)
  /-- REMOVE (R652). -/
  | remove (r : Dripol) (force : Bool)
  /-- DRIPOL_SEGMENT (R641). -/
  | dripolSegment (e : EthId) (src : Nat) (seg : List Byte) (now : BitVec 64)
  /-- REASSEMBLY_TIMEOUT (R641). -/
  | reassemblyTimeout (now : BitVec 64)
  /-- SESSION_IDLE_TIMEOUT (R649). -/
  | sessionIdleTimeout (session : BitVec 32) (now : BitVec 64)
  /-- DEFERRED_ACTIVATION (R631). -/
  | deferredActivation
  /-- TRIAL_REVERT (R632). -/
  | trialRevert
  /-- BOOT (R625). -/
  | boot (now : BitVec 64)
  /-- KICK (R619). -/
  | kick (p : FwpId) (now : BitVec 64)
  /-- WATCHDOG_RESTART (R619). -/
  | watchdogRestart (p : FwpId) (now : BitVec 64)
  /-- PWR_EN_RISE (R672). -/
  | pwrEnRise (slot : BitVec 6) (vin : BitVec 16) (now : BitVec 64)
  /-- PWR_EN_FALL (R674). -/
  | pwrEnFall (now : BitVec 64)
  /-- PRESENT_N_RISE (R674). -/
  | presentNRise
  /-- NODE_RESET_N_LOW (R661). -/
  | nodeResetNLow (us : Nat) (slot : BitVec 6)
  /-- LOW_INPUT (R664). -/
  | lowInput (mv : BitVec 16) (us : Nat)
  /-- INPUT_UNDERVOLTAGE (R664). -/
  | inputUndervoltage (mv : BitVec 16) (us : Nat)
  /-- INPUT_OVERVOLTAGE (R664). -/
  | inputOvervoltage (mv : BitVec 16) (us : Nat)
  /-- OVERCURRENT (R664). -/
  | overcurrent (ma100 : BitVec 16) (limit : Bool) (us : Nat)
  /-- INPUT_RESTART (R666). -/
  | inputRestart (mv : BitVec 16) (goodMs : Nat) (now : BitVec 64)
  /-- RAIL_FAULT (R670). -/
  | railFault (us : Nat)
  /-- THERMAL_TRIP (R689). -/
  | thermalTrip (where_ : ThermSite) (temp : Int)
  /-- LIMITER_UPDATE (R688). -/
  | limiterUpdate (x : LimiterIn)
  /-- DROOP_EVENT (R687). -/
  | droopEvent (t : TileId) (mv : BitVec 16)
  /-- PWR_STATE_TARGET (R682). -/
  | pwrStateTarget (q : Requester) (v : BitVec 64)
  /-- POWER_STATE_CHANGE_DONE (R681). -/
  | powerStateChangeDone
  /-- PWR_RESET_PKG (R678). -/
  | pwrResetPkg (q : Requester) (v : BitVec 64)
  /-- PWR_RESET_CMP (R678). -/
  | pwrResetCmp (q : Requester) (v : BitVec 64)
  /-- PWR_RESET_FAB (R678). -/
  | pwrResetFab (q : Requester) (v : BitVec 64)
  /-- PWR_RESET_FWP (R678). -/
  | pwrResetFwp (q : Requester) (v : BitVec 64)
  /-- RESET_COMPLETE (R680). -/
  | resetComplete
  /-- READ_CLEAR_REGISTER (R14). -/
  | readClearRegister (q : Requester) (a : BitVec 48) (size : Nat)
  /-- REGISTER_WRITE (R12). -/
  | registerWrite (q : Requester) (a : BitVec 48) (size : Nat) (v : BitVec 64)
  /-- CORE_LOAD (R309). -/
  | coreLoad (h : HartId) (i : CoreMem)
  /-- CORE_STORE (R309). -/
  | coreStore (h : HartId) (i : CoreMem)
  /-- AMO (R317). -/
  | amo (h : HartId) (i : AmoInst)
  /-- LR_SC (R315). -/
  | lrSc (h : HartId) (sc : Bool) (i : AmoInst)
  /-- FENCE (R316). -/
  | fence (h : HartId) (pred succ : BitVec 4)
  /-- FVX_CSR_ACCESS (R349). -/
  | fvxCsrAccess (h : HartId) (i : CsrInst)
  /-- SHUTTLE_LOAD_STORE (R701). -/
  | shuttleLoadStore (t : TileId) (i : ShMem)
  /-- POWER_EMERGENCY_EXIT (R691). -/
  | powerEmergencyExit (mv : BitVec 16) (us : Nat)
  /-- NO_SPARE (R614). -/
  | noSpare
  /-- JTAG_INSTRUCTION (R663). -/
  | jtagInstruction (i : JtagOp)
  /-- ETH_LINK_CHANGE (R676). -/
  | ethLinkChange (e : EthId) (up : Bool)
deriving DecidableEq, Repr

end Sys2Proof
end

