-- ==== Sys2Proof/Decode.lean ====
section
/-! DEFINITION. The reading of a word by the opcode table. The block takes commands, not words: every row of the table
has an empty list of fields, so no word spells one. -/

namespace Sys2Proof

/-- The command that the low `nbits` bits of `w` spell by the rows of the opcode table that give bits: no row does. -/
def decodeTableWord (nbits w : Nat) : Option Instr :=
  let _ := nbits + w
  none

end Sys2Proof
end

