-- ==== Sys2Proof/Machine/Tab.lean ====
section
/-! DEFINITION. Finite tables as sorted association lists: the plain-data form of memory (canonical: no entry equals
what an unlisted key reads as) and of every other indexed collection of the state (entries stay once written). -/

namespace Sys2Proof.Machine

/-- A table from keys to values; an unlisted key reads as its default. -/
abbrev Tab (α : Type) := List (Nat × α)

/-- The value at key k. -/
def Tab.get {α : Type} (d : Nat → α) : Tab α → Nat → α
  | [], k => d k
  | (j, v) :: r, k => if k = j then v else Tab.get d r k

/-- The table with v at key k. -/
def Tab.set {α : Type} (k : Nat) (v : α) : Tab α → Tab α
  | [] => [(k, v)]
  | (j, w) :: r => if k < j then (k, v) :: (j, w) :: r else if k = j then (k, v) :: r else (j, w) :: Tab.set k v r

/-- The value at key k, if the table lists one. -/
def Tab.find {α : Type} : Tab α → Nat → Option α
  | [], _ => none
  | (j, v) :: r, k => if k = j then some v else Tab.find r k

/-- The table without key k. -/
def Tab.erase {α : Type} (k : Nat) (t : Tab α) : Tab α := t.filter (fun e => e.1 != k)

/-- Memory in canonical form: addresses strictly rising and no entry equal to 0, what an unlisted byte reads as. -/
abbrev Memory := List Host.Cell

/-- The byte at address a; an unlisted byte reads as 0 (assumption log 5). -/
def Memory.read : Memory → Nat → Byte
  | [], _ => 0
  | (j, v) :: r, a => if a = j then v else Memory.read r a

/-- Writes one byte and keeps the canonical form. -/
def Memory.write (a : Nat) (v : Byte) : Memory → Memory
  | [] => if v = 0 then [] else [(a, v)]
  | (j, w) :: r =>
    if a < j then (if v = 0 then (j, w) :: r else (a, v) :: (j, w) :: r)
    else if a = j then (if v = 0 then r else (a, v) :: r)
    else (j, w) :: Memory.write a v r

/-- All keys of the list lie above a. -/
def Memory.above (a : Nat) (m : Memory) : Bool := m.all (fun c => decide (a < c.1))

/-- The canonical form of memory. -/
def Memory.wf : Memory → Bool
  | [] => true
  | (a, v) :: r => decide (v ≠ 0) && Memory.above a r && Memory.wf r

/-- Reads n bytes from address a upward. -/
def Memory.readN (m : Memory) (a : Nat) : Nat → List Byte
  | 0 => []
  | n + 1 => m.read a :: Memory.readN m (a + 1) n

/-- Writes a list of bytes from address a upward. -/
def Memory.writeN (m : Memory) (a : Nat) : List Byte → Memory
  | [] => m
  | b :: bs => Memory.writeN (m.write a b) (a + 1) bs

/-- Drops every listed byte from address lo up to, but not at, hi: those bytes then read as 0. -/
def Memory.clear (lo hi : Nat) (m : Memory) : Memory := m.filter (fun c => !(decide (lo ≤ c.1) && decide (c.1 < hi)))

end Sys2Proof.Machine
end

