-- ==== Sys2Proof/Machine/Operands.lean ====
section
/-! DEFINITION. Operands: little-endian bytes (R4), two's-complement fields (R6), the storable formats (Table 2-1), and
the exact value that the bits of an element stand for (R61 to R71). -/

namespace Sys2Proof.Machine

/-- The k bytes of n, least significant first (R4); higher bits of n are dropped. -/
def leBytes : Nat → Nat → List Byte
  | 0, _ => []
  | k + 1, n => BitVec.ofNat 8 n :: leBytes k (n / 256)

/-- The number that a list of bytes spells, least significant first (R4). -/
def leNat : List Byte → Nat
  | [] => 0
  | b :: r => b.toNat + 256 * leNat r

/-- The number in n bytes of a byte list from offset o; bytes beyond its end read as 0. -/
def bytesAt (d : List Byte) (o n : Nat) : Nat := leNat ((d.drop o).take n)

/-- Bits hi down to lo of a number. -/
def bitsN (n hi lo : Nat) : Nat := n / 2 ^ lo % 2 ^ (hi + 1 - lo)

/-- Bit i of a number. -/
def bitN (n i : Nat) : Bool := n / 2 ^ i % 2 == 1

/-- A bit as a number. -/
def natOf (b : Bool) : Nat := if b then 1 else 0

/-- The two's-complement value of the low w bits of n (R6). -/
def signed (w n : Nat) : Int :=
  let m := n % 2 ^ w
  if m < 2 ^ (w - 1) then (m : Int) else (m : Int) - (2 ^ w : Nat)

/-- The low w bits of an integer as a number. -/
def wrapN (w : Nat) (i : Int) : Nat := (i % ((2 ^ w : Nat) : Int)).toNat

/-- The byte list with n zero bytes after it. -/
def zeros (n : Nat) : List Byte := List.replicate n 0

/-- n rounded up to a multiple of k. -/
def alignUp (n k : Nat) : Nat := (n + k - 1) / k * k

/-- Quotient rounded up. -/
def ceilDiv (n k : Nat) : Nat := (n + k - 1) / k

/-- Storable formats (Table 2-1). -/
inductive Fmt where
  | f16 | f32 | i8 | i16 | i32 | i64 | fx32 | fx64
deriving DecidableEq, Repr

/-- The format of a format code; reserved codes and ACC128 name none (R59). -/
def Fmt.ofCode : Nat → Option Fmt
  | 1 => some .f16
  | 2 => some .f32
  | 3 => some .i8
  | 4 => some .i16
  | 5 => some .i32
  | 6 => some .i64
  | 7 => some .fx32
  | 8 => some .fx64
  | _ => none

/-- Width of an element in bytes (Table 2-1). -/
def Fmt.bytes : Fmt → Nat
  | .f16 => 2
  | .f32 => 4
  | .i8 => 1
  | .i16 => 2
  | .i32 => 4
  | .i64 => 8
  | .fx32 => 4
  | .fx64 => 8

def Fmt.bits (f : Fmt) : Nat := 8 * f.bytes

def Fmt.isFloat : Fmt → Bool
  | .f16 => true
  | .f32 => true
  | _ => false

def Fmt.isFx : Fmt → Bool
  | .fx32 => true
  | .fx64 => true
  | _ => false

def Fmt.isInt (f : Fmt) : Bool := !f.isFloat && !f.isFx

/-- Fraction bits of a floating-point format (Table 2-2); of the others, of no use. -/
def Fmt.frac : Fmt → Nat
  | .f16 => 10
  | _ => 23

/-- Bias of a floating-point format (Table 2-2). -/
def Fmt.bias : Fmt → Nat
  | .f16 => 15
  | _ => 127

/-- An exact value: a NaN, an infinity, or the signed m × 2^e. -/
inductive Num where
  | nan
  | inf (neg : Bool)
  | fin (neg : Bool) (m : Nat) (e : Int)
deriving DecidableEq, Repr

/-- The integer i as m × 2^e with e given; zero is +0. -/
def Num.ofInt (i : Int) (e : Int) : Num := .fin (decide (i < 0)) i.natAbs e

/-- The signed mantissa of a finite value. -/
def Num.mant : Num → Int
  | .fin true m _ => -(m : Int)
  | .fin false m _ => m
  | _ => 0

def Num.isNan : Num → Bool
  | .nan => true
  | _ => false

def Num.isZero : Num → Bool
  | .fin _ 0 _ => true
  | _ => false

def Num.neg? : Num → Bool
  | .inf n => n
  | .fin n _ _ => n
  | .nan => false

/-- The value of a floating-point encoding (R61, R62, R65). -/
def decodeFloat (f : Fmt) (w : Nat) : Num :=
  let fr := w % 2 ^ f.frac
  let ex := w / 2 ^ f.frac % (2 * (f.bias + 1))
  let sg := bitN w (f.bits - 1)
  if ex = 2 * f.bias + 1 then (if fr = 0 then .inf sg else .nan)
  else if ex = 0 then .fin sg fr (1 - (f.bias : Int) - f.frac)
  else .fin sg (fr + 2 ^ f.frac) ((ex : Int) - f.bias - f.frac)

/-- The value of an element's bits in format f; e is its block's scale exponent, used by the FX formats (R66, R67). -/
def decodeNum (f : Fmt) (e : Int) (w : Nat) : Num :=
  if f.isFloat then decodeFloat f w
  else if f.isFx then .ofInt (signed f.bits w) e
  else .ofInt (signed f.bits w) 0

/-- The canonical quiet NaN (Table 2-3, R63). -/
def canonNan (f : Fmt) : Nat := (2 * f.bias + 1) * 2 ^ f.frac + 2 ^ (f.frac - 1)

/-- An infinity's bits (Table 2-3). -/
def infBits (f : Fmt) (neg : Bool) : Nat := natOf neg * 2 ^ (f.bits - 1) + (2 * f.bias + 1) * 2 ^ f.frac

/-- The largest finite value's bits (Table 2-3). -/
def maxBits (f : Fmt) (neg : Bool) : Nat := natOf neg * 2 ^ (f.bits - 1) + (2 * f.bias + 1) * 2 ^ f.frac - 1

/-- A zero's bits. -/
def zeroBits (f : Fmt) (neg : Bool) : Nat := natOf neg * 2 ^ (f.bits - 1)

/-- Exact sum. Opposite infinities give a NaN; an exact zero sum is −0 only of two zeros or values both negative
(Table 2-6). -/
def Num.add : Num → Num → Num
  | .nan, _ => .nan
  | _, .nan => .nan
  | .inf a, .inf b => if a = b then .inf a else .nan
  | .inf a, .fin _ _ _ => .inf a
  | .fin _ _ _, .inf b => .inf b
  | .fin a m e, .fin b n g =>
    if m = 0 ∧ n = 0 then .fin (a && b) 0 0
    else if m = 0 then .fin b n g
    else if n = 0 then .fin a m e
    else
      let l := min e g
      let x := Num.mant (.fin a m e) * (2 ^ (e - l).toNat : Nat) + Num.mant (.fin b n g) * (2 ^ (g - l).toNat : Nat)
      .ofInt x l

/-- Exact product (Table 2-6). -/
def Num.mul : Num → Num → Num
  | .nan, _ => .nan
  | _, .nan => .nan
  | .inf a, .inf b => .inf (a != b)
  | .inf a, .fin b n _ => if n = 0 then .nan else .inf (a != b)
  | .fin a m _, .inf b => if m = 0 then .nan else .inf (a != b)
  | .fin a m e, .fin b n g => .fin (a != b) (m * n) (e + g)

def Num.negate : Num → Num
  | .nan => .nan
  | .inf n => .inf (!n)
  | .fin n m e => .fin (!n) m e

/-- Is x < y? False of a NaN; −0 and +0 are equal (Table 2-7). -/
def Num.lt : Num → Num → Bool
  | .nan, _ => false
  | _, .nan => false
  | .inf a, .inf b => a && !b
  | .inf a, .fin _ _ _ => a
  | .fin _ _ _, .inf b => !b
  | .fin a m e, .fin b n g =>
    let l := min e g
    decide (Num.mant (.fin a m e) * (2 ^ (e - l).toNat : Nat) < Num.mant (.fin b n g) * (2 ^ (g - l).toNat : Nat))

/-- Is x = y? False of a NaN. -/
def Num.eq (x y : Num) : Bool := !x.isNan && !y.isNan && !x.lt y && !y.lt x

end Sys2Proof.Machine
end

