-- ==== Sys2Proof/Machine/Flags.lean ====
section
/-! DEFINITION. Rounding, the numeric modes (Table 2-4), conversions (Table 2-5) and the two numeric events that every
result reports (R96, R97): saturation and flush. -/

namespace Sys2Proof.Machine

/-- NMODE without its reserved bit (Table 2-4). -/
structure NMode where
  ftz : Bool
  satf : Bool
  rtz : Bool
deriving DecidableEq, Repr

/-- The modes of a 3-bit or 4-bit NMODE field. -/
def NMode.of (n : Nat) : NMode := ⟨bitN n 2, bitN n 1, bitN n 0⟩

/-- IEEE default behaviour (R79). -/
def NMode.ieee : NMode := ⟨false, false, false⟩

/-- Numeric events of one output element (R96 to R98). -/
structure Ev where
  sat : Bool
  flush : Bool
deriving DecidableEq, Repr

def Ev.none : Ev := ⟨false, false⟩
def Ev.both (a b : Ev) : Ev := ⟨a.sat || b.sat, a.flush || b.flush⟩

/-- m × 2^−k rounded to an integer, to nearest with ties to even or toward zero. A shift of more than the bits of m
gives what any longer shift gives. -/
def shiftRound (rtz : Bool) (m : Nat) (k : Int) : Nat :=
  if k ≤ 0 then m * 2 ^ (-k).toNat
  else
    let k := min k.toNat (m.log2 + 3)
    let q := m / 2 ^ k
    let r := m % 2 ^ k
    if rtz then q
    else if 2 * r < 2 ^ k then q
    else if 2 ^ k < 2 * r then q + 1
    else q + q % 2

/-- The encoding of an exact value in a floating-point format under a rounding direction, with its events: overflow
(R81, R82), tininess judged after rounding with unbounded exponent (R83), the canonical NaN (R63). -/
def roundFloat (f : Fmt) (md : NMode) : Num → Nat × Ev
  | .nan => (canonNan f, Ev.none)
  | .inf n => (infBits f n, Ev.none)
  | .fin n m e =>
    if m = 0 then (zeroBits f n, Ev.none)
    else
      let p : Int := f.frac + 1
      let bl : Int := m.log2 + 1
      let r0 := shiftRound md.rtz m (bl - p)
      let carry := r0 == 2 ^ (f.frac + 1)
      let r := if carry then 2 ^ f.frac else r0
      let ex : Int := e + bl - 1 + natOf carry
      if (f.bias : Int) < ex then
        ((if md.satf || md.rtz then maxBits f n else infBits f n), ⟨true, false⟩)
      else if 1 - (f.bias : Int) ≤ ex then
        (natOf n * 2 ^ (f.bits - 1) + (ex + f.bias).toNat * 2 ^ f.frac + (r - 2 ^ f.frac), Ev.none)
      else if md.ftz then (zeroBits f n, ⟨false, true⟩)
      else
        (natOf n * 2 ^ (f.bits - 1) + shiftRound md.rtz m (1 - (f.bias : Int) - f.frac - e), ⟨false, true⟩)

/-- Clamps an integer into the range of a two's-complement width, and says whether it lay outside. -/
def clampInt (w : Nat) (i : Int) : Int × Bool :=
  if ((2 ^ (w - 1) : Nat) : Int) ≤ i then ((2 ^ (w - 1) : Nat) - 1, true)
  else if i < -((2 ^ (w - 1) : Nat) : Int) then (-((2 ^ (w - 1) : Nat) : Int), true)
  else (i, false)

/-- floor(i × 2^−k), computed exactly for every shift distance (R84). `w` bounds the result's width: a left shift of a
nonzero i by more than w bits is outside the range of every mantissa whatever its length. -/
def shiftFloor (w : Nat) (i k : Int) : Int :=
  if k ≤ 0 then i * (2 ^ (min (-k).toNat (w + 1)) : Nat)
  else i / ((2 ^ (min k.toNat (i.natAbs.log2 + 2)) : Nat) : Int)

/-- Conversion into an FX mantissa of w bits with destination exponent et (R84 to R86), with its events. -/
def toFx (w : Nat) (et : Int) : Num → Int × Ev
  | .nan => (0, ⟨true, false⟩)
  | .inf n => ((clampInt w (if n then -((2 ^ w : Nat) : Int) else (2 ^ w : Nat))).1, ⟨true, false⟩)
  | .fin n m e =>
    let r := clampInt w (shiftFloor w (Num.mant (.fin n m e)) (et - e))
    (r.1, ⟨r.2, m != 0 && r.1 == 0⟩)

/-- Conversion into an integer format of w bits (R88), rounding toward zero or to nearest. -/
def toInt (w : Nat) (rtz : Bool) : Num → Int × Ev
  | .nan => (0, ⟨true, false⟩)
  | .inf n => ((clampInt w (if n then -((2 ^ w : Nat) : Int) else (2 ^ w : Nat))).1, ⟨true, false⟩)
  | .fin n m e =>
    let a := shiftRound rtz m (-(min e (w + 1)))
    let r := clampInt w (if n then -(a : Int) else a)
    (r.1, ⟨r.2, m != 0 && r.1 == 0⟩)

/-- Conversion of an exact value of a source in format `src` (none: the accumulator image) to format `dst` with
destination exponent et (Table 2-5). NMODE.RTZ acts only where the source is floating point or integer (R80, R87). -/
def convertNum (src : Option Fmt) (dst : Fmt) (et : Int) (md : NMode) (x : Num) : Nat × Ev :=
  let fx := match src with | none => true | some f => f.isFx
  let rtz := md.rtz && !fx
  if dst.isFloat then roundFloat dst { md with rtz := rtz } x
  else if dst.isFx then
    let r := toFx dst.bits et x
    (wrapN dst.bits r.1, r.2)
  else
    let r := toInt dst.bits rtz x
    (wrapN dst.bits r.1, r.2)

/-- Saturating addition into a 128-bit accumulator, and whether it saturated (R73). -/
def accAdd (a b : Int) : Int × Bool := clampInt 128 (a + b)

/-- Maximum (minimum) of two floating-point encodings: IEEE 754-2019 clause 9.6 with the canonical NaN; +0 is greater
than −0 (Table 2-7). It returns an operand's bits. -/
def floatMax (f : Fmt) (least : Bool) (a b : Nat) : Nat :=
  let x := decodeFloat f a
  let y := decodeFloat f b
  if x.isNan || y.isNan then canonNan f
  else if x.lt y then (if least then a else b)
  else if y.lt x then (if least then b else a)
  else if x.neg? then (if least then a else b)
  else (if least then b else a)

/-- Saturating sum of event counts at 32 bits (R100). -/
def satAdd32 (a b : Nat) : Nat := min (a + b) 0xFFFFFFFF

/-- Number of elements with a saturation event. -/
def countSat (l : List Ev) : Nat := (l.filter (fun e => e.sat)).length
/-- Number of elements with a flush event. -/
def countFlush (l : List Ev) : Nat := (l.filter (fun e => e.flush)).length

end Sys2Proof.Machine
end

