-- ==== Sys2Proof/Config.lean ====
section
/-! DEFINITION. What one part fixes and the manual does not: fuse contents, live sensors, the signature scheme, and
the free values. Every constant here is opaque, so no proof can depend on its value (assumption log 3 and 4). -/

namespace Sys2Proof.Config

/-- The free value drawn at position n: stands for every result the manual calls undefined while the machine goes on. -/
opaque freeValue : Nat → BitVec 64
/-- The bits that an approximated function returns on this hardware, where they lie inside the bound of Table 6-6.
The arguments are the function number, the format width, NMODE.RTZ and the input bits: the same input gives the same
bits on every node (R242). -/
opaque approxBits : Nat → Nat → Bool → Nat → Nat
/-- SLH-DSA verification of FIPS 205 (parameter set, public key, context, message, signature). -/
opaque slhVerify : Nat → List Byte → List Byte → List Byte → List Byte → Bool
/-- SLH-DSA signature of FIPS 205 by the identity key (context, message). -/
opaque slhSign : List Byte → List Byte → List Byte
/-- The identity public key that SEC derives from the seeds of R635. -/
opaque identityPk : List Byte → List Byte
/-- The device identity certificate of R634. -/
opaque certificate : List Byte
/-- A number drawn at random by the node (CHALLENGE nonce and SESSION of R644). -/
opaque random : Nat → List Byte
/-- Is a signature that of RELEASE under the owner key? The manual names neither the message nor the context (R650). -/
opaque releaseSigned : List Byte → List Byte → Bool
opaque randomSession : Nat → BitVec 32
/-- SERIAL fuse (Table 15-3). -/
opaque serial : BitVec 64
/-- VENDOR_KEY_HASH fuse (Table 15-3). -/
opaque vendorKeyHash : List Byte
/-- IDENTITY_SEED fuse (Table 15-3). -/
opaque identitySeed : List Byte
/-- Fused FMAX of a die above 1,900 MHz (MON_DIE, GLB_CAPS). -/
opaque fmaxExtra : Nat → Nat
/-- mtval of an illegal-instruction exception: the RISC-V privileged architecture leaves zero or the bits. -/
opaque illegalTval : BitVec 64 → BitVec 64

/-- misa, mvendorid, marchid, mimpid and mconfigptr by CSR number: the manual gives no value. -/
opaque machineId : Nat → BitVec 64

/-- What FBC0 knows of a peer's time source: 1 a root, 2 its parent is a root, else neither. The manual does not say how
it learns this (R505). -/
opaque peerTime : Nat → NodeId → Nat

/-- The set of a fabric die's span directory that a line falls into, and the way that a new line evicts (R442: the manual
gives 16 ways, not the index). -/
opaque dirSet : Nat → Nat
opaque dirVictim : Nat → Fin 16

end Sys2Proof.Config
end

