-- ==== Sys2Proof/Machine/State.lean ====
section
/-! DEFINITION. The state of one FVN-9216 node: every register, memory, queue, counter, mode and pin the manual gives
it, as plain data, with the queue of waiting commands and the outputs it has produced. -/

namespace Sys2Proof.Machine

/-- Reasons a command stops the block. -/
inductive Fault where
  /-- FLIT_RECEIVE of a byte list that is not 256 bytes long, which no port can deliver (R403). Safe. -/
  | notAFlit
deriving DecidableEq, Repr

/-- Reasons a command has no meaning. -/
inductive Refusal where
  /-- An arm of exec that has no meaning yet. Safe. -/
  | notModelled (mnemonic : String)
deriving DecidableEq, Repr

/-- Event record (Table 0-8); `fatal` marks the events the manual calls fatal. -/
structure EventRec where
  ts : BitVec 64
  source : BitVec 16
  code : Status
  pick : Pick
  detail : List Byte
  fatal : Bool
deriving DecidableEq, Repr

/-! ### The tile -/

/-- What a shuttle instruction waits for, unretired. An event is named by its index and pick, none standing for the next
pick to start; `released` marks a wait whose event fired while the shuttle waited. -/
inductive Wait where
  | queue (code : BitVec 7)
  | ticket (code : BitVec 7) (n : Word)
  | counter (n : BitVec 6) (target : Word) (lim : Option (BitVec 7 × Option Pick))
  | event (i : BitVec 7) (p : Option Pick)
  | released (i : BitVec 7) (p : Pick)
  | fence (mask : BitVec 8)
  | bank
deriving DecidableEq, Repr

/-- A descriptor in an engine queue: its copy (R155, R230, R270), whether its read was uncorrectable, and the digest
bank (pick) it was issued into (R526, R704). -/
structure QEntry where
  ticket : Word
  desc : List Byte
  bad : Bool
  bank : Option Pick
deriving DecidableEq, Repr

/-- An operation that has executed and not yet completed. x1 to x4 are the engine's own record fields (element:
ACTIVE; bobbin: TAG, LEN, FLAGS, DEPTH; solver: FLAGS, COUNT, INDEX, RESID). `work` is its occupancy in cycles,
`cycles` its time without contention, `outcome` the SEQ and K of a SOLVE that took a SEQ. -/
structure EngRun where
  ticket : Word
  status : Status
  nsat : Nat
  nflush : Nat
  crec : Option Nat
  cycles : Nat
  work : Nat
  x1 : Nat
  x2 : Nat
  x3 : Nat
  x4 : Nat
  bank : Option Pick
  outcome : Option (Word × Word)
deriving DecidableEq, Repr

inductive CopyPhase where
  | queued | moving | moved
deriving DecidableEq, Repr

/-- A part of a copy that crosses the fabric: source and destination (global addresses; the source of a FILL is its
pattern), its bytes, its place in its row. -/
structure CopyPiece where
  src : BitVec 64
  dst : BitVec 64
  len : Nat
  pos : Nat
deriving DecidableEq, Repr

/-- A descriptor in a copy queue. `moved` says that bytes have begun to move, `waits` counts responses still due, `left`
holds the parts not yet requested, `gets` the reads under way by tag, `marker` says that its ARRIVE has been sent. -/
structure CopyEntry where
  ticket : Word
  desc : List Byte
  bad : Bool
  phase : CopyPhase
  status : Status
  moved : Bool
  waits : Nat
  left : List CopyPiece
  gets : List (BitVec 16 × CopyPiece)
  marker : Bool
deriving DecidableEq, Repr

/-- A partition of SRAM_MAP (R113, Table 13-4). -/
structure Part where
  off : Nat
  size : Nat
  engines : BitVec 8
deriving DecidableEq, Repr

/-- A digest bank of one pick: slot accumulators, the slots added to, whether it has closed, whether late. -/
structure Bank where
  pick : Pick
  acc : Tab Nat
  closed : Bool
  late : Bool
deriving DecidableEq, Repr

/-- An outstanding schedule entry: list (0 FWD, 1 DX, 2 DW), index, engine code, tickets still open. `push` is the
bobbin ticket of its push once issued. -/
structure SchedOut where
  list : Nat
  index : Nat
  engine : Nat
  tickets : List Word
  push : Option Word
deriving DecidableEq, Repr

/-- Progress of the product schedule (R182 to R193). -/
structure Sched where
  idx : Tab Nat
  out : List SchedOut
  done : List (Nat × Nat)
  base : Tab Word
  pop : Option Word
  recompLeft : Option Nat
  parts : List (List Byte)
  stopUntil : Option Pick
  /-- The first failed status of the schedule and the DETAIL of its event, until the outstanding entries end (R189). -/
  failed : Option (Status × List Byte)
deriving DecidableEq, Repr

/-- A bobbin entry: its stack offset (LPDDR5X offsets follow the HBM share), the bytes it occupies, TAG, LEN and DROP of
its header (R206). -/
structure BobEntry where
  off : Nat
  occ : Nat
  tag : Nat
  len : Nat
  drop : Bool
deriving DecidableEq, Repr

structure Tile where
  /-- Shuttle instruction memory (0x0_0000) and data memory (0x1_0000), by shuttle address (R117). -/
  smem : Memory
  /-- Shuttle registers x1 to x31. -/
  x : Tab Word
  pc : Word
  /-- The draft has a TILE_PROGRAM for the tile. -/
  program : Bool
  waiting : Option Wait
  /-- The shuttle's current pick (R124). -/
  cur : Option Pick
  /-- The latest pick whose digest bank has closed (R526). -/
  shut : Option Pick
  /-- Write latch and read latch of R118: register offset and word. -/
  wlatch : Option (Nat × Word)
  rlatch : Option (Nat × Word)
  /-- Queues of engine codes 0 to 3 (tensor, element, solver, bobbin). -/
  q : Tab (List QEntry)
  /-- Tickets issued since the last CMP reset, by engine code, counted without wrapping (R122). -/
  issued : Tab Nat
  /-- Statuses of completed operations among the 64 most recent tickets, by engine code (R121). -/
  hist : Tab (List (Word × Status))
  /-- Operation executed and not yet completed, by engine code 0 to 3. -/
  run : Tab (Option EngRun)
  cq : Tab (List CopyEntry)
  /-- Tile registers T0 to T31: byte b of Tn at 1024 n + b (R219). -/
  treg : Memory
  parts : List Part
  banks : List Bank
  /-- Bobbin stacks, top entry first. -/
  bobStacks : Tab (List BobEntry)
  sched : Sched
  /-- Late-phase records already raised, by pick and event (R519). -/
  lateSeen : List (Pick × Nat)
  /-- Late-phase records owed when the running operation ends (R55): event index, KIND, scheduled time. -/
  lateOwed : List (Nat × Nat × Nat)
deriving DecidableEq, Repr

def Sched.reset : Sched := ⟨[], [], [], [], none, none, [], none, none⟩

def Tile.reset : Tile :=
  { smem := [], x := [], pc := 0, program := false, waiting := none, cur := none, shut := none, wlatch := none, rlatch := none,
    q := [], issued := [], hist := [], run := [], cq := [], treg := [], parts := [], banks := [], bobStacks := [],
    sched := Sched.reset, lateSeen := [], lateOwed := [] }

/-! ### The cores -/

inductive HartState where
  | notStarted | ready | running | parked | wfi
deriving DecidableEq, Repr

/-- Operations of Table 8-4. -/
inductive FvxOp where
  | vld | vst | vlds | vsts | vldx | vstx | vldseg | vstseg | vldbc | vldp | vstp | vcas
  | vadd | vsub | vmul | vmulh | vfma | vmax | vmin | vneg | vabs | vand | vor | vxor | vnot
  | vshl | vshr | vsra | vcls | vcmp | vsel | vwmul | vwmac | vdot | vfxmac | vcvt | vaccout
  | vexp2 | vlog2 | vrcp | vrsqrt | vredsum | vredmax | vredmin
  | vperm | vslide | vcompress | vexpand | vmvxs | vmvsx | vbcast
  | vpand | vpor | vpxor | vpnot | vpwhile | vpcnt
deriving DecidableEq, Repr

/-- An instruction that a parked thread completes when its replies are in. -/
inductive CoreCmd where
  | load (i : CoreMem)
  | store (i : CoreMem)
  | amo (i : AmoInst)
  | lrsc (sc : Bool) (i : AmoInst)
  | fvx (op : FvxOp) (f : FvxWord)
deriving DecidableEq, Repr

/-- A parked thread: the instruction, the tags of replies still due, the bytes that have arrived or been acknowledged (by
the key of their line's address) and the failures (first byte, bytes, status). -/
structure Park where
  cmd : CoreCmd
  waits : List (BitVec 16)
  got : List Host.Cell
  fails : List (Nat × Nat × Status)
deriving DecidableEq, Repr

structure Hart where
  x : Tab (BitVec 64)
  f : Tab Word
  v : Tab (BitVec 512)
  p : Tab (BitVec 64)
  pc : BitVec 64
  machineMode : Bool
  mstatus : BitVec 64
  mie : BitVec 64
  mtvec : BitVec 64
  mepc : BitVec 64
  mcause : BitVec 64
  mtval : BitVec 64
  mscratch : BitVec 64
  /-- frm in bits 7 to 5, fflags in bits 4 to 0 (R305). -/
  fcsr : BitVec 64
  fvctl : BitVec 64
  fvnsat : BitVec 64
  fvnflush : BitVec 64
  fvrstat : BitVec 64
  fvcycle : BitVec 64
  st : HartState
  /-- The reservation of an LR: the key of its first byte, and its bytes. -/
  resv : Option (Nat × Nat)
  park : Option Park
  /-- Remote accesses since the last mark (KEY of READ entries, Table 14-4). -/
  remoteCount : Word
deriving DecidableEq, Repr

def Hart.reset : Hart :=
  { x := [], f := [], v := [], p := [], pc := 0, machineMode := true, mstatus := 0, mie := 0, mtvec := 0, mepc := 0,
    mcause := 0, mtval := 0, mscratch := 0, fcsr := 0, fvctl := 0, fvnsat := 0, fvnflush := 0, fvrstat := 0, fvcycle := 0,
    st := .notStarted, resv := none, park := none, remoteCount := 0 }

/-! ### Memory system -/

/-- A write-combining entry (R367): its granule, the valid bytes (offset in the granule, byte), its age. -/
structure WcbEntry where
  granule : Nat
  bytes : List (Nat × Byte)
  born : Nat
deriving DecidableEq, Repr

/-- A write held by the guard (R390). -/
structure HeldWrite where
  addr : Nat
  data : List Byte
deriving DecidableEq, Repr

/-! ### Fabric -/

/-- Who waits for the response to a request. -/
inductive Owner where
  | hart (h : HartId)
  | copy (t : TileId) (k : QId) (ticket : Word)
  | coh (line : Nat)
  | node
deriving DecidableEq, Repr

/-- An outstanding request (R429, R452, R455). -/
structure Req where
  msg : Msg
  sentAt : Nat
  sends : Nat
  owner : Owner
deriving DecidableEq, Repr

structure Port where
  txSeq : BitVec 16
  rxSeq : BitVec 16
  /-- A damaged or out-of-order flit has been met and the expected one has not arrived. -/
  nak : Bool
  /-- Unacknowledged DATA flits, oldest first: sequence number and the 15 slots. -/
  unacked : List (BitVec 16 × List Byte)
  /-- Flits that have left on the port, oldest first. -/
  tx : List (List Byte)
  /-- Acknowledged slots of a message that has not been acknowledged whole. -/
  txPart : List Byte
  /-- Slots that wait for room in the retry buffer. -/
  backlog : List Byte
  /-- Received slot bytes that do not yet complete a message. -/
  rxSlots : List Byte
  /-- Messages delivered in order and not yet taken. -/
  rxMsgs : List Msg
  credits : Tab Nat
  /-- Consecutive failures of the flit expected next, and resends of the oldest unacknowledged one (R408). -/
  fails : Nat
  txFails : Nat
  retrains : List Nat
  asym : Int
  proof : Bool
  peerSwitch : Bool
  heard : Nat
deriving DecidableEq, Repr

def Port.reset : Port :=
  { txSeq := 0, rxSeq := BitVec.allOnes 16, nak := false, unacked := [], tx := [], txPart := [], backlog := [], rxSlots := [], rxMsgs := [],
    credits := [], fails := 0, txFails := 0, retrains := [], asym := 0, proof := false, peerSwitch := false, heard := 0 }

/-- A message that left the node. `args` carries the fields of messages whose bytes the manual does not lay out; `fwd`
names the source of a message that the node forwards. -/
structure OutMsg where
  fwd : Option NodeId
  space : Nat
  port : Option PortId
  loc : Bool
  dst : NodeId
  vc : Nat
  opc : Nat
  rsp : Bool
  cong : Bool
  addr : Nat
  len : Nat
  tag : BitVec 16
  data : List Byte
  args : List Nat
deriving DecidableEq, Repr

/-- Directory state of a line of this node (Table 10-9); state I is an absent entry. -/
inductive DirState where
  | shared (set : List NodeId)
  | owned (o : NodeId)
deriving DecidableEq, Repr

/-- A transaction at the home: the line, the state it then takes (none: I), the holders still to answer with the tags of
what they were sent, and the requests that wait in order of arrival with their ports (R444). -/
structure DirTrans where
  line : Nat
  next : Option DirState
  acks : List (NodeId × BitVec 16)
  waiting : List (PortId × Msg)
deriving DecidableEq, Repr

/-- A line of another span member held by the cores: modified or shared, and its bytes. -/
structure CohLine where
  modified : Bool
  bytes : List Byte
deriving DecidableEq, Repr

/-- One result of the replay cache (R451). -/
structure Replay where
  src : NodeId
  seq : Word
  result : List Byte
  applied : Nat
deriving DecidableEq, Repr

/-- A response, effect or output that waits for log entries to be acknowledged (R56, R590). -/
inductive Held where
  | respond (lsn : Nat) (m : OutMsg)
  | arrive (lsn : Nat) (t : TileId) (c : BitVec 6) (m : OutMsg)
  | colDone (lsn : Nat) (c : CtxId)
  | output (lsn : Nat) (m : OutMsg)
deriving DecidableEq, Repr

/-! ### Collectives -/

/-- One step of an algorithm at one member: to each receiver the ranges (first, count) of wire elements it is sent, and
from each sender whether what arrives is combined, and into which ranges. -/
structure ColStep where
  step : Nat
  sends : List (Nat × List (Nat × Nat))
  recvs : List (Nat × Bool × List (Nat × Nat))
deriving DecidableEq, Repr

/-- A received credit (R482, R483): which step of which collective, from which member, for which landing slot, and the
digest and algorithm that came with it. -/
structure ColCredit where
  seq : Word
  phase : Nat
  step : Nat
  peer : Nat
  slot : Nat
  ddig : Word
  alg : Nat
deriving DecidableEq, Repr

structure ColQ where
  seq : Word
  addr : Nat
  desc : List Byte
deriving DecidableEq, Repr

/-- The collective at the head of a context: its input as read, the phase (0 pre-pass, 1 data, 2 synchronisation), the
steps left in it, by peer the bytes that have arrived and been sent in the step, the wire values with their status
bits, the block exponents, the start time, and the status once it has one. -/
structure ColRun where
  seq : Word
  addr : Nat
  desc : List Byte
  alg : Nat
  prealg : Nat
  ddig : Word
  src : List Byte
  phase : Nat
  steps : List ColStep
  got : List (Nat × Nat × Memory)
  sent : List (Nat × Nat)
  wire : Tab Int
  st : Tab Nat
  expo : Tab Int
  start : Nat
  status : Option Status
  nsat : Nat
  nflush : Nat
  replayed : Bool
deriving DecidableEq, Repr

structure Ctx where
  gid : Word
  members : List NodeId
  byHost : Bool
  queue : List ColQ
  run : Option ColRun
  credits : List ColCredit
  aborts : List (Word × Status)
deriving DecidableEq, Repr

/-! ### Drafts and jobs -/

structure TtEntry where
  offset : Nat
  index : Nat
  kind : Nat
  every : Nat
  phase : Nat
deriving DecidableEq, Repr

/-- The acknowledgement of a subtree (Table 13-6). -/
structure AckInfo where
  child : NodeId
  accepted : Nat
  status : Status
  reason : Nat
  lowest : Nat
  missing : List NodeId
deriving DecidableEq, Repr

/-- The draft that the node receives or holds. -/
structure Draft where
  jobTag : BitVec 64
  total : Nat
  digest : List Byte
  mapDigest : List Byte
  nmembers : Nat
  ackTimeout : Nat
  source : Option NodeId
  root : Bool
  chains : List Nat
  /-- Host session that asked a root to start (0: none). -/
  session : BitVec 32
  /-- Image and map bytes received, those of the map, the chunks in order of arrival until they have been forwarded. -/
  got : Nat
  mapGot : Nat
  arrived : List (Nat × Nat)
  forwarded : Bool
  digestAt : Option Nat
  outcome : Option (Status × Nat × List Nat)
  acks : List AckInfo
  acked : Bool
  map : List NodeId
  member : Nat
  loaded : Bool
  windows : List Nat
  snapshotMap : List (Nat × Nat × Nat)
  ring : Nat × Nat
  nent : Nat
  dids : List Nat
  key : Nat
  firstPick : Pick
  drainLast : Option (Pick × Bool)
  drainAsked : Pick
  /-- Children that have finished draining: members done and status; whether this node has. -/
  drainDone : List (NodeId × Nat × Status)
  drained : Bool
  tearDone : List (NodeId × Nat)
  scrub : Bool
deriving DecidableEq, Repr

/-! ### Resilience -/

inductive GenPhase where
  | idle | copying | prepared
deriving DecidableEq, Repr

/-- The commit record of a generation (Table 14-3) without its digests' positions: stripes as (GEN_WRITTEN, SLOT,
digests) and references. -/
structure CommitRec where
  committed : Bool
  tier : Tier
  member : Nat
  gen : Nat
  markPick : Pick
  markIndex : Nat
  commitPick : Pick
  cut : Nat
  stripes : List (Nat × Nat × List (List Byte))
  refs : List (Nat × Nat × Nat × Nat)
deriving DecidableEq, Repr

/-- Input log entry (Table 14-4). -/
structure LogEntry where
  type : Nat
  pos : Nat
  pick : Pick
  lsn : Nat
  key : Nat
  payload : List Byte
deriving DecidableEq, Repr

/-- A log ring that this node holds for another (R589, R591): its entries as LSN, address and bytes, the LSNs not yet
acknowledged, and whether LOG_FULL has been raised since it last had room. -/
structure LogRing where
  owner : NodeId
  entries : List (Nat × Nat × List Byte)
  due : List Nat
  full : Bool
deriving DecidableEq, Repr

/-- A chunk that this node holds: its slot address and the bytes of it that have arrived (R575). -/
structure Hold where
  id : ChunkId
  base : Nat
  got : Nat
deriving DecidableEq, Repr

/-- State of the resilience engine and of RCC. -/
structure Resil where
  /-- The resilience area: first byte and bytes (R572); the member's shard regions as address, pages and whether they are
  bobbin pages (R569); the stripes of every member of its logical span. -/
  area : Nat × Nat
  regions : List (Nat × Nat × Bool)
  stripes : List Nat
  lsn : Nat
  ackedLsn : Nat
  log : List LogEntry
  logRings : List LogRing
  held : List Held
  /-- Bytes logged since load; bytes logged since the last commit and the time of it. -/
  logPos : Nat
  inputBytes : Nat
  inputSince : Nat
  gen : Nat
  phase : GenPhase
  flashGen : Bool
  /-- Bobbin pages with an occupied byte at the mark. -/
  bobPages : List Nat
  stripesLeft : List Nat
  chunksDue : List (Nat × Nat)
  /-- The records being prepared, of the skein and of a flash generation. -/
  newRec : Option CommitRec
  newFlash : Option CommitRec
  recs : List CommitRec
  replicas : List (NodeId × List Byte)
  /-- Copies of this member's own records that reach a spare, by sender (R585). -/
  recSeen : List (NodeId × List Byte)
  /-- READY at the coordinator: generation, tier, sender, members; and the interval that the next COMMIT carries (R610). -/
  readys : List (Nat × Tier × NodeId × Nat)
  everyNext : Nat
  commits : List CommitMsg
  holds : List Hold
  /-- A mark that acts holds its waits; its time; its pick, or that of the last mark that acted. -/
  markHeld : Bool
  markAt : Nat
  markPick : Pick
  stall : Nat
  lateCost : Nat
  costs : List Nat
  pickRec : Option (List Byte)
  /-- Entries that a restarted pick applies again (R598). -/
  reapply : List LogEntry
  dirtySkein : List Nat
  dirtyFlash : List Nat
  dirtyTwin : List Nat
  /-- The partner's shard pages mirrored since its last MIRROR_END, whose old contents lie in the undo buffer in this
  order, and the pick of that MIRROR_END. -/
  undo : List Nat
  mirrorPick : Option Pick
  heard : List (NodeId × Nat)
  suspects : List (NodeId × NodeId)
  probing : List (NodeId × Nat)
  lost : List NodeId
  fence : List NodeId
  losses : Nat
  runSince : Nat
  haltAcked : Bool
  haltAcks : List (NodeId × Pick × Pick)
  lastBarrier : Option Pick
  restartPick : Option Pick
  rebuildRec : Option CommitRec
  rebuilt : List (Nat × Nat × List Byte)
  missing : List (Nat × Nat)
  logGib : Nat
  spareHold : Option (BitVec 64)
  noSpare : Bool
  /-- A RESTORE has set the tiles to the mark of a generation (R612). -/
  restored : Bool
deriving DecidableEq, Repr

def Resil.reset : Resil :=
  { area := (0, 0), regions := [], stripes := [], lsn := 0, ackedLsn := 0, log := [], logRings := [], held := [], logPos := 0,
    inputBytes := 0, inputSince := 0, gen := 0, phase := .idle, flashGen := false, bobPages := [], stripesLeft := [],
    chunksDue := [], newRec := none, newFlash := none, recs := [], replicas := [], recSeen := [], readys := [], everyNext := 0, commits := [], holds := [], markHeld := false,
    markAt := 0, markPick := noPick, stall := 0, lateCost := 0, costs := [], pickRec := none, reapply := [], dirtySkein := [],
    dirtyFlash := [], dirtyTwin := [], undo := [], mirrorPick := none, heard := [], suspects := [],
    probing := [], lost := [], fence := [], losses := 0, runSince := 0, haltAcked := false, haltAcks := [],
    lastBarrier := none, restartPick := none, rebuildRec := none, rebuilt := [], missing := [], logGib := 128, spareHold := none,
    noSpare := false, restored := false }

/-! ### Host protocol and firmware -/

/-- A Dripol message that the node sent. -/
structure HostMsg where
  session : BitVec 32
  type : Nat
  seq : BitVec 32
  status : Status
  notify : Bool
  args : List Nat
  data : List Byte
deriving DecidableEq, Repr

/-- A session, open or being opened (R644 to R649). -/
structure Session where
  id : BitVec 32
  opened : Bool
  role : Role
  hostKey : List Byte
  transcript : List Byte
  key : List Byte
  high : Option (BitVec 32)
  cache : List (BitVec 32 × HostMsg)
  subscribed : Bool
  notified : Nat
  noteSeq : BitVec 32
  lastValid : Nat
deriving DecidableEq, Repr

/-- A message under reassembly: sender, SEQ, segment count, segments, first arrival (R641). -/
structure Reasm where
  src : Nat
  seq : BitVec 32
  count : Nat
  segs : Tab (List Byte)
  first : Nat
deriving DecidableEq, Repr

/-- A request that has been received whole and accepted, waiting for its service. -/
structure Taken where
  session : BitVec 32
  seq : BitVec 32
  type : Nat
  payload : List Byte
deriving DecidableEq, Repr

/-- State of BSC, SEC and the mailbox. -/
structure Firmware where
  /-- The two boot slots in NAND: bundle bytes, empty when marked empty. -/
  slots : Tab (List Byte)
  /-- Bytes of the bundle being staged. -/
  staging : Memory
  stagingLen : Nat
  deferred : Bool
  /-- The node has reverted to the other slot and the event of it is due (R632). -/
  reverted : Bool
  trialSince : Option Nat
  measure : List (List Byte)
  restarts : Tab (List Nat)
  kicked : Tab Nat
  ownerKey : List Byte
  ownerSecret : List Byte
  hostKeys : List (List Byte × Role)
  sigRequired : Bool
  jobKeys : List (List Byte)
  vcMin : List Byte
  windowSets : List WindowSet
  sessions : List Session
  reasm : List Reasm
  taken : List Taken
  /-- REMOVE has been accepted, at this time (Table 16-6). -/
  removing : Option Nat
  draws : Nat
deriving DecidableEq, Repr

def Firmware.reset : Firmware :=
  { slots := [], staging := [], stagingLen := 0, deferred := false, reverted := false, trialSince := none, measure := [], restarts := [],
    kicked := [], ownerKey := [], ownerSecret := [], hostKeys := [], sigRequired := false, jobKeys := [], vcMin := [], windowSets := [],
    sessions := [], reasm := [], taken := [], removing := none, draws := 0 }

/-- The event rings (R653): the host ring with its first index, the firmware ring, the ring in BSC SRAM. -/
structure Rings where
  host : List EventRec
  first : Nat
  fw : List EventRec
  bsc : List EventRec
deriving DecidableEq, Repr

/-- Why the input switch is open, and what a restart needs (R666). -/
inductive OffCause where
  | lockout | latched | trip | removed
deriving DecidableEq, Repr

/-- Pins, input stage and resets. -/
structure Power where
  /-- The rails are up: the node executes. -/
  on : Bool
  pwrEn : Bool
  presentN : Bool
  thermtripN : Bool
  pwrGood : Bool
  nodeResetN : Bool
  slotPins : BitVec 6
  slotId : BitVec 6
  off : Option OffCause
  enLowSince : Option Nat
  emergencyInput : Bool
  emergencyThermal : Bool
  /-- Dies (0 to 6), stacks (0x10 + k) and packages (0x20 + k) whose heat demands withholding. -/
  throttling : List Nat
  /-- Withheld cycles below one unit of PWR_WITHHELD, by die: for temperature, for power and current. -/
  withheld : Tab (Nat × Nat)
  /-- Resets and state exits whose completion has not been reported: class, p, trigger (R680). -/
  resets : List (Nat × Nat × Nat)
  /-- A reset or power-state change requested and not yet performed. -/
  stateTarget : Option Nat
  /-- A reset performed once the node has returned to P0 (R679). -/
  resetAfter : Option (Nat × Nat × Nat)
  jtag : JtagOp
  stopped : Bool
deriving DecidableEq, Repr

/-- The timebase. -/
structure Clock where
  /-- NS of the time counter (R499). -/
  ns : BitVec 64
  /-- Its fraction in units of 2^-32 ns; FRAC is the upper 16 bits. -/
  frac : BitVec 32
  /-- Servo adjustment of the step in units of 2^-32 ns (R500). -/
  adj : Int
  lockRun : Nat
  /-- Remaining offset to slew, units of 2^-8 ns. -/
  slew : Int
  masters : Tab (Nat × Nat)
  announced : Tab Nat
  /-- Events of the current pick that have fired, by index. -/
  fired : List Nat
  timetable : List TtEntry
  everyPending : Option (Nat × Pick)
  /-- A rebase taken while halted for recovery is pending: its pick is the next to start (R513). -/
  rebaseForced : Bool
  /-- Digest sums per pick: pick, DID sums and tile counts, tiles that handed on, late flag. -/
  digests : List (Pick × Tab (Nat × Nat) × List Nat × Bool)
  /-- Digest log records written since the draft was loaded. -/
  records : Nat
  children : List NodeId
  parent : Option NodeId
  /-- The parent is a time root (R505). -/
  parentRoot : Bool
deriving DecidableEq, Repr

structure State where
  /-- The block's own memory: HBM3, LPDDR5X and the tile SRAM window, by node-local address (Table 9-1). -/
  mem : Memory
  /-- First addresses of the poisoned words: tile SRAM by 8-byte word (R112), DRAM by 32-byte sector (R377). -/
  poison : List Nat
  /-- Device registers by offset in space type 01; an unlisted one holds its reset value (Table 17-1). -/
  regs : Tab (BitVec 64)
  tiles : Tab Tile
  harts : Tab Hart
  /-- Last running thread of each core (CPU_CORE_STAT.RUNNING). -/
  running : Tab Nat
  /-- Lines the cores hold modified (R312): line address and its 64 bytes. -/
  dirty : Tab (List Byte)
  wcb : Tab (List WcbEntry)
  /-- By controller: the one-second interval of the last corrected error, its count, whether the event of R379 was raised. -/
  ceCount : Tab (Nat × Nat × Bool)
  /-- Guarded pages (R386), by node-local address div 65,536. -/
  guard : List Nat
  /-- Shadow slots in use (R390): page and slot. -/
  shadow : List (Nat × Nat)
  heldWrites : List HeldWrite
  /-- GUARD_POOL_EMPTY has been raised for the present snapshot (R392). -/
  poolEvent : Bool
  /-- NAND contents by byte (block 4,096 bytes), and the bytes written over its life. -/
  flash : Memory
  flashBytes : Nat
  flashRegion : Tab (Nat × Nat)
  ports : Tab Port
  reqs : List Req
  nextTag : BitVec 16
  outbox : List OutMsg
  /-- Congestion tables and overflow queues (R438): fabric die, destination, time of its last CONG mark. -/
  cong : List (Nat × NodeId × Nat)
  overflow : List (Nat × NodeId × Nat)
  dir : Tab DirState
  dirTrans : List DirTrans
  /-- Lines of other nodes that the cores cache, by key. -/
  coh : Tab CohLine
  ledger : Tab Word
  replays : List Replay
  atomSeq : Tab Word
  synced : List NodeId
  mustSync : Bool
  ctxs : Tab Ctx
  draft : Option Draft
  resil : Resil
  fw : Firmware
  rings : Rings
  hostOut : List HostMsg
  power : Power
  clock : Clock
  /-- Free values drawn so far (the model's own; assumption log 3). -/
  free : Nat
  /-- The commands that wait, first in, first out. -/
  pending : List Instr
deriving DecidableEq, Repr

/-- The node right after POR has been released in the standby domain (Table 16-5): every register at its reset value,
BSC about to start from ROM. -/
def State.reset : State :=
  { mem := [], poison := [], regs := [], tiles := [], harts := [], running := [], dirty := [], wcb := [], ceCount := [],
    guard := [], shadow := [], heldWrites := [], poolEvent := false, flash := [], flashBytes := 0, flashRegion := [], ports := [],
    reqs := [], nextTag := 0, outbox := [], cong := [], overflow := [], dir := [], dirTrans := [], coh := [],
    ledger := [], replays := [], atomSeq := [], synced := [], mustSync := true, ctxs := [], draft := none,
    resil := Resil.reset, fw := Firmware.reset,
    rings := ⟨[], 0, [], []⟩, hostOut := [],
    power := { on := true, pwrEn := true, presentN := false, thermtripN := true, pwrGood := true, nodeResetN := true,
               slotPins := 0, slotId := 0, off := none, enLowSince := none, emergencyInput := false,
               emergencyThermal := false, throttling := [], withheld := [], resets := [(1, 0, 5)], stateTarget := none, resetAfter := none,
               jtag := .bypass, stopped := false },
    clock := { ns := 0, frac := 0, adj := 0, lockRun := 0, slew := 0, masters := [], announced := [], fired := [],
               timetable := [], everyPending := none, rebaseForced := false, digests := [], records := 0, children := [], parent := none, parentRoot := false },
    free := 0, pending := [] }

end Sys2Proof.Machine
end

