-- ==== Sys2Proof/Machine/Regs.lean ====
section
/-! DEFINITION. The register map (chapters 3 to 17): every register with its offset, its fields, their access codes
(Table 0-4), reset classes (Table 0-5) and reset values, as data; and the names F.REGISTER_FIELD by which the rest of
the model reads and sets fields. Where a field states no reset value it resets to 0 (R17). Fuse-loaded and live fields
(class —) start at the constant the manual gives, else at the overlay of RegBus.lean, else at 0 (assumption log 6). -/

namespace Sys2Proof.Machine

/-- Access codes of Table 0-4. -/
inductive Acc where
  | ro | rw | wo | w1c | w1s | rc
deriving DecidableEq, Repr

/-- Reset classes of Table 0-5; `never` is the class —. -/
inductive RClass where
  | por | pkg | cmp | fab | fwp | never
deriving DecidableEq, Repr

/-- Register blocks of Table 17-1. -/
inductive Block where
  | tile | cpu | mem | nand | fab | col | time | eth | pwr | mbx | ckpt | sec | glb
deriving DecidableEq, Repr

/-- A field: its bits, access code, reset class and reset value. -/
structure FieldDesc where
  hi : Nat
  lo : Nat
  acc : Acc
  cls : RClass
  rst : Nat
deriving DecidableEq, Repr

/-- A register: its block, the offset of index 0 in the block, the step from index to index, the number of indices. -/
structure RegDesc where
  block : Block
  off : Nat
  step : Nat
  count : Nat
  fields : List FieldDesc
deriving DecidableEq, Repr

/-- A field named by its register's offset in space type 01 and its bits. -/
structure Fld where
  off : Nat
  hi : Nat
  lo : Nat
deriving DecidableEq, Repr

/-- The same field of the register n bytes further on. -/
def Fld.plus (f : Fld) (n : Nat) : Fld := { f with off := f.off + n }

/-! Offsets in space type 01 of index 0 of each register, in the first block of its kind. -/

def R.SEQ_CTRL : Nat := 0x0
def R.SEQ_TRAP : Nat := 0x8
def R.SEQ_ROUTE : Nat := 0x400
def R.COPY_QSTAT : Nat := 0x4000
def R.COPY_ARRIVE : Nat := 0x4100
def R.NUM_NSAT : Nat := 0x6000
def R.NUM_NFLUSH : Nat := 0x6008
def R.MON_THERM : Nat := 0x8000
def R.MON_DROOP : Nat := 0x8008
def R.MON_PROC : Nat := 0x8010
def R.MON_SRAM_ECC : Nat := 0x8018
def R.TENSOR_STAT : Nat := 0x1000
def R.TENSOR_ACTIVE : Nat := 0x1008
def R.TENSOR_STALL : Nat := 0x1010
def R.TENSOR_OPS : Nat := 0x1018
def R.BOBBIN_STAT : Nat := 0x5000
def R.BOBBIN_HBM : Nat := 0x5008
def R.BOBBIN_LP : Nat := 0x5010
def R.BOBBIN_OPS : Nat := 0x5018
def R.BOBBIN_SPILL : Nat := 0x5020
def R.BOBBIN_TOP : Nat := 0x5040
def R.ELEM_STAT : Nat := 0x2000
def R.ELEM_ACTIVE : Nat := 0x2008
def R.ELEM_STALL : Nat := 0x2010
def R.ELEM_OPS : Nat := 0x2018
def R.SOLVER_STAT : Nat := 0x3000
def R.SOLVER_ACTIVE : Nat := 0x3008
def R.SOLVER_STALL : Nat := 0x3010
def R.SOLVER_OPS : Nat := 0x3018
def R.SOLVER_OUTCOME : Nat := 0x3020
def R.SOLVER_SEQ : Nat := 0x3028
def R.CPU_COHDOM : Nat := 0x1000000
def R.CPU_START : Nat := 0x1000008
def R.CPU_CACHE_ECC : Nat := 0x1000010
def R.CPU_CORE_STAT : Nat := 0x1001000
def R.CPU_CORE_PARKS : Nat := 0x1001800
def R.MEM_STAT : Nat := 0x2000000
def R.MEM_ECC : Nat := 0x2000008
def R.MEM_ERR_ADDR : Nat := 0x2000010
def R.MEM_WCB : Nat := 0x2000018
def R.MEM_TEMP : Nat := 0x2000020
def R.MEM_SCRUB : Nat := 0x2000028
def R.NAND_STAT : Nat := 0x2300000
def R.NAND_WEAR : Nat := 0x2300008
def R.NAND_ECC : Nat := 0x2300010
def R.FAB_NODE_ID : Nat := 0x3000000
def R.FAB_TIMEOUT : Nat := 0x3000008
def R.FAB_VC_CAP : Nat := 0x3000010
def R.FAB_ATOM : Nat := 0x3000018
def R.FAB_COH : Nat := 0x3000020
def R.FAB_CONG : Nat := 0x3000028
def R.FAB_WIN_REFUSED : Nat := 0x3000030
def R.FAB_PORT_STAT : Nat := 0x3000100
def R.FAB_PORT_ERR : Nat := 0x3000180
def R.FAB_VC_WEIGHT : Nat := 0x3000200
def R.FAB_WIN_CTL : Nat := 0x3001000
def R.FAB_WIN_BASE : Nat := 0x3001008
def R.FAB_WIN_LIMIT : Nat := 0x3001010
def R.COL_STAT : Nat := 0x3800000
def R.COL_SUBMIT : Nat := 0x3800008
def R.COL_CFG : Nat := 0x3800010
def R.COL_ERR : Nat := 0x3800018
def R.COL_CTX_STAT : Nat := 0x3801000
def R.COL_CTX_ID : Nat := 0x3801800
def R.COL_CTX_POLICY : Nat := 0x3802000
def R.COL_CTX_CTL : Nat := 0x3802800
def R.TIME_NOW : Nat := 0x4000000
def R.TIME_FRAC : Nat := 0x4000008
def R.TIME_STAT : Nat := 0x4000010
def R.TIME_PTP_CFG : Nat := 0x4000018
def R.TIME_PICK : Nat := 0x4000020
def R.TIME_PICK_BASE : Nat := 0x4000028
def R.TIME_PICK_CFG : Nat := 0x4000030
def R.TIME_REBASE_AT : Nat := 0x4000038
def R.TIME_REBASE_BASE : Nat := 0x4000040
def R.TIME_DIGLOG : Nat := 0x4000048
def R.TIME_DIGLOG_TAIL : Nat := 0x4000050
def R.DIGEST_STAT : Nat := 0x7000
def R.DIGEST_CFG : Nat := 0x7040
def R.DIGEST_ACC : Nat := 0x7100
def R.CKPT_STAT : Nat := 0x7000000
def R.CKPT_CFG : Nat := 0x7000008
def R.CKPT_INTERVAL : Nat := 0x7000010
def R.CKPT_GEN : Nat := 0x7000018
def R.CKPT_LOG : Nat := 0x7000020
def R.CKPT_LOG_CFG : Nat := 0x7000028
def R.CKPT_AREA : Nat := 0x7000030
def R.CKPT_COST : Nat := 0x7000038
def R.CKPT_EVENTS : Nat := 0x7000040
def R.MBX_STAT : Nat := 0x6000000
def R.MBX_EVQ : Nat := 0x6000008
def R.FWP_STAT : Nat := 0x6001000
def R.FWP_WDT : Nat := 0x6001040
def R.SEC_STAT : Nat := 0x8000000
def R.SEC_FUSE : Nat := 0x8000008
def R.SEC_BUNDLE : Nat := 0x8000010
def R.PWR_PLAN : Nat := 0x5000000
def R.PWR_STATE : Nat := 0x5000008
def R.PWR_INPUT : Nat := 0x5000010
def R.PWR_OFF_CAUSE : Nat := 0x5000018
def R.PWR_RESET : Nat := 0x5000020
def R.PWR_WITHHELD : Nat := 0x5000040
def R.MON_DIE : Nat := 0x5000100
def R.MON_LIMITS : Nat := 0x5000200
def R.ETH_PORT_STAT : Nat := 0x4100000
def R.GLB_ID : Nat := 0x9000000
def R.GLB_SERIAL : Nat := 0x9000008
def R.GLB_CAPS : Nat := 0x9000010
def R.GLB_FUNC_READY : Nat := 0x9000020
def R.GLB_JOB : Nat := 0x9000030
def R.GLB_JOB_TAG : Nat := 0x9000038
def R.GLB_ERR_SUMMARY : Nat := 0x9000040
def R.GLB_TILE_ERR : Nat := 0x9000048
def R.GLB_FATAL : Nat := 0x9000068
def R.GLB_D2D_ERR : Nat := 0x9000100

/-! Fields. -/

def F.SEQ_CTRL_TRAP : Fld := ⟨0x0, 2, 2⟩
def F.SEQ_CTRL_HALTED : Fld := ⟨0x0, 1, 1⟩
def F.SEQ_CTRL_RUN : Fld := ⟨0x0, 0, 0⟩
def F.SEQ_TRAP_TVAL : Fld := ⟨0x8, 63, 32⟩
def F.SEQ_TRAP_CAUSE : Fld := ⟨0x8, 7, 0⟩
def F.SEQ_ROUTE_VALID : Fld := ⟨0x400, 63, 63⟩
def F.SEQ_ROUTE_DEST_TILE : Fld := ⟨0x400, 47, 40⟩
def F.SEQ_ROUTE_DEST_BASE : Fld := ⟨0x400, 39, 17⟩
def F.SEQ_ROUTE_DEST_SIZE : Fld := ⟨0x400, 16, 0⟩
def F.COPY_QSTAT_FIRST_STATUS : Fld := ⟨0x4000, 63, 48⟩
def F.COPY_QSTAT_TICKET : Fld := ⟨0x4000, 47, 16⟩
def F.COPY_QSTAT_PENDING : Fld := ⟨0x4000, 15, 8⟩
def F.COPY_QSTAT_ERR : Fld := ⟨0x4000, 0, 0⟩
def F.COPY_ARRIVE_COUNT : Fld := ⟨0x4100, 31, 0⟩
def F.NUM_NSAT_COUNT : Fld := ⟨0x6000, 63, 0⟩
def F.NUM_NFLUSH_COUNT : Fld := ⟨0x6008, 63, 0⟩
def F.MON_THERM_T_SRAM : Fld := ⟨0x8000, 31, 16⟩
def F.MON_THERM_T_TENSOR : Fld := ⟨0x8000, 15, 0⟩
def F.MON_DROOP_VMIN : Fld := ⟨0x8008, 47, 32⟩
def F.MON_DROOP_EVENTS : Fld := ⟨0x8008, 31, 0⟩
def F.MON_PROC_OSC : Fld := ⟨0x8010, 19, 0⟩
def F.MON_SRAM_ECC_UNCORR : Fld := ⟨0x8018, 63, 32⟩
def F.MON_SRAM_ECC_CORR : Fld := ⟨0x8018, 31, 0⟩
def F.TENSOR_STAT_FIRST_STATUS : Fld := ⟨0x1000, 63, 48⟩
def F.TENSOR_STAT_LAST_DONE : Fld := ⟨0x1000, 47, 16⟩
def F.TENSOR_STAT_PENDING : Fld := ⟨0x1000, 15, 8⟩
def F.TENSOR_STAT_BUSY : Fld := ⟨0x1000, 1, 1⟩
def F.TENSOR_STAT_ERR : Fld := ⟨0x1000, 0, 0⟩
def F.TENSOR_ACTIVE_CYCLES : Fld := ⟨0x1008, 63, 0⟩
def F.TENSOR_STALL_WITHHELD : Fld := ⟨0x1010, 63, 32⟩
def F.TENSOR_STALL_BANK : Fld := ⟨0x1010, 31, 0⟩
def F.TENSOR_OPS_FAILED : Fld := ⟨0x1018, 63, 32⟩
def F.TENSOR_OPS_DONE : Fld := ⟨0x1018, 31, 0⟩
def F.BOBBIN_STAT_FIRST_STATUS : Fld := ⟨0x5000, 63, 48⟩
def F.BOBBIN_STAT_LAST_DONE : Fld := ⟨0x5000, 47, 16⟩
def F.BOBBIN_STAT_PENDING : Fld := ⟨0x5000, 15, 8⟩
def F.BOBBIN_STAT_FAULTED : Fld := ⟨0x5000, 2, 2⟩
def F.BOBBIN_STAT_BUSY : Fld := ⟨0x5000, 1, 1⟩
def F.BOBBIN_STAT_ERR : Fld := ⟨0x5000, 0, 0⟩
def F.BOBBIN_HBM_SIZE : Fld := ⟨0x5008, 63, 48⟩
def F.BOBBIN_HBM_BASE : Fld := ⟨0x5008, 47, 16⟩
def F.BOBBIN_HBM_NSTACKS : Fld := ⟨0x5008, 1, 0⟩
def F.BOBBIN_LP_SIZE : Fld := ⟨0x5010, 63, 48⟩
def F.BOBBIN_LP_BASE : Fld := ⟨0x5010, 47, 16⟩
def F.BOBBIN_OPS_PUSHES : Fld := ⟨0x5018, 63, 32⟩
def F.BOBBIN_OPS_POPS : Fld := ⟨0x5018, 31, 0⟩
def F.BOBBIN_SPILL_DROPS : Fld := ⟨0x5020, 63, 32⟩
def F.BOBBIN_SPILL_OVERFLOWS : Fld := ⟨0x5020, 31, 0⟩
def F.BOBBIN_TOP_DEPTH : Fld := ⟨0x5040, 63, 40⟩
def F.BOBBIN_TOP_USED : Fld := ⟨0x5040, 39, 0⟩
def F.ELEM_STAT_FIRST_STATUS : Fld := ⟨0x2000, 63, 48⟩
def F.ELEM_STAT_LAST_DONE : Fld := ⟨0x2000, 47, 16⟩
def F.ELEM_STAT_PENDING : Fld := ⟨0x2000, 15, 8⟩
def F.ELEM_STAT_BUSY : Fld := ⟨0x2000, 1, 1⟩
def F.ELEM_STAT_ERR : Fld := ⟨0x2000, 0, 0⟩
def F.ELEM_ACTIVE_CYCLES : Fld := ⟨0x2008, 63, 0⟩
def F.ELEM_STALL_WITHHELD : Fld := ⟨0x2010, 63, 32⟩
def F.ELEM_STALL_BANK : Fld := ⟨0x2010, 31, 0⟩
def F.ELEM_OPS_FAILED : Fld := ⟨0x2018, 63, 32⟩
def F.ELEM_OPS_DONE : Fld := ⟨0x2018, 31, 0⟩
def F.SOLVER_STAT_FIRST_STATUS : Fld := ⟨0x3000, 63, 48⟩
def F.SOLVER_STAT_LAST_DONE : Fld := ⟨0x3000, 47, 16⟩
def F.SOLVER_STAT_PENDING : Fld := ⟨0x3000, 15, 8⟩
def F.SOLVER_STAT_REPLAY : Fld := ⟨0x3000, 2, 2⟩
def F.SOLVER_STAT_BUSY : Fld := ⟨0x3000, 1, 1⟩
def F.SOLVER_STAT_ERR : Fld := ⟨0x3000, 0, 0⟩
def F.SOLVER_ACTIVE_CYCLES : Fld := ⟨0x3008, 63, 0⟩
def F.SOLVER_STALL_WITHHELD : Fld := ⟨0x3010, 63, 32⟩
def F.SOLVER_STALL_BANK : Fld := ⟨0x3010, 31, 0⟩
def F.SOLVER_OPS_FAILED : Fld := ⟨0x3018, 63, 32⟩
def F.SOLVER_OPS_DONE : Fld := ⟨0x3018, 31, 0⟩
def F.SOLVER_OUTCOME_PARTIAL : Fld := ⟨0x3020, 63, 48⟩
def F.SOLVER_OUTCOME_DEADLINE : Fld := ⟨0x3020, 47, 32⟩
def F.SOLVER_OUTCOME_ITER_LIMIT : Fld := ⟨0x3020, 31, 16⟩
def F.SOLVER_OUTCOME_WSR : Fld := ⟨0x3020, 15, 0⟩
def F.SOLVER_SEQ_SEQ : Fld := ⟨0x3028, 31, 0⟩
def F.CPU_COHDOM_SPAN0 : Fld := ⟨0x1000000, 29, 16⟩
def F.CPU_COHDOM_MEMBERS : Fld := ⟨0x1000000, 15, 0⟩
def F.CPU_START_ADDR : Fld := ⟨0x1000008, 63, 2⟩
def F.CPU_START_STARTED : Fld := ⟨0x1000008, 1, 1⟩
def F.CPU_START_GO : Fld := ⟨0x1000008, 0, 0⟩
def F.CPU_CACHE_ECC_UNCORR : Fld := ⟨0x1000010, 63, 32⟩
def F.CPU_CACHE_ECC_CORR : Fld := ⟨0x1000010, 31, 0⟩
def F.CPU_CORE_STAT_HALTED : Fld := ⟨0x1001000, 39, 32⟩
def F.CPU_CORE_STAT_PARKED : Fld := ⟨0x1001000, 31, 24⟩
def F.CPU_CORE_STAT_READY : Fld := ⟨0x1001000, 23, 16⟩
def F.CPU_CORE_STAT_IDLE : Fld := ⟨0x1001000, 3, 3⟩
def F.CPU_CORE_STAT_RUNNING : Fld := ⟨0x1001000, 2, 0⟩
def F.CPU_CORE_PARKS_PARKS : Fld := ⟨0x1001800, 63, 32⟩
def F.CPU_CORE_PARKS_SWITCHES : Fld := ⟨0x1001800, 31, 0⟩
def F.MEM_STAT_FAILED : Fld := ⟨0x2000000, 7, 7⟩
def F.MEM_STAT_SELF_REFRESH : Fld := ⟨0x2000000, 3, 3⟩
def F.MEM_STAT_HOT_REFRESH : Fld := ⟨0x2000000, 2, 2⟩
def F.MEM_STAT_READY : Fld := ⟨0x2000000, 1, 1⟩
def F.MEM_STAT_ERR : Fld := ⟨0x2000000, 0, 0⟩
def F.MEM_ECC_UNCORR : Fld := ⟨0x2000008, 63, 32⟩
def F.MEM_ECC_CORR : Fld := ⟨0x2000008, 31, 0⟩
def F.MEM_ERR_ADDR_VALID : Fld := ⟨0x2000010, 63, 63⟩
def F.MEM_ERR_ADDR_UNC : Fld := ⟨0x2000010, 62, 62⟩
def F.MEM_ERR_ADDR_ADDR : Fld := ⟨0x2000010, 47, 0⟩
def F.MEM_WCB_RMW : Fld := ⟨0x2000018, 63, 40⟩
def F.MEM_WCB_OCCUPIED : Fld := ⟨0x2000018, 15, 6⟩
def F.MEM_WCB_DRAIN : Fld := ⟨0x2000018, 0, 0⟩
def F.MEM_TEMP_TEMP : Fld := ⟨0x2000020, 15, 0⟩
def F.MEM_SCRUB_CE_LIMIT : Fld := ⟨0x2000028, 63, 48⟩
def F.MEM_SCRUB_PERIOD : Fld := ⟨0x2000028, 39, 32⟩
def F.MEM_SCRUB_PASSES : Fld := ⟨0x2000028, 31, 0⟩
def F.NAND_STAT_CH_READY : Fld := ⟨0x2300000, 63, 56⟩
def F.NAND_STAT_READ_ONLY : Fld := ⟨0x2300000, 2, 2⟩
def F.NAND_STAT_READY : Fld := ⟨0x2300000, 1, 1⟩
def F.NAND_STAT_ERR : Fld := ⟨0x2300000, 0, 0⟩
def F.NAND_WEAR_HOST_WRITTEN : Fld := ⟨0x2300008, 63, 32⟩
def F.NAND_WEAR_SPARE : Fld := ⟨0x2300008, 15, 8⟩
def F.NAND_WEAR_WEAR : Fld := ⟨0x2300008, 7, 0⟩
def F.NAND_ECC_UNCORR : Fld := ⟨0x2300010, 63, 32⟩
def F.NAND_ECC_RETRIES : Fld := ⟨0x2300010, 31, 0⟩
def F.FAB_NODE_ID_VALID : Fld := ⟨0x3000000, 63, 63⟩
def F.FAB_NODE_ID_NODE : Fld := ⟨0x3000000, 13, 0⟩
def F.FAB_TIMEOUT_REQ : Fld := ⟨0x3000008, 15, 0⟩
def F.FAB_VC_CAP_VC7 : Fld := ⟨0x3000010, 15, 8⟩
def F.FAB_VC_CAP_VC0 : Fld := ⟨0x3000010, 7, 0⟩
def F.FAB_ATOM_REPLAYED : Fld := ⟨0x3000018, 63, 32⟩
def F.FAB_ATOM_UNKNOWN : Fld := ⟨0x3000018, 31, 16⟩
def F.FAB_ATOM_EARLY_EVICT : Fld := ⟨0x3000018, 15, 0⟩
def F.FAB_COH_RECALLS : Fld := ⟨0x3000020, 63, 32⟩
def F.FAB_COH_REFUSED : Fld := ⟨0x3000020, 31, 0⟩
def F.FAB_CONG_MARKS : Fld := ⟨0x3000028, 63, 32⟩
def F.FAB_CONG_ENTRIES : Fld := ⟨0x3000028, 7, 0⟩
def F.FAB_WIN_REFUSED_WRITES : Fld := ⟨0x3000030, 63, 32⟩
def F.FAB_WIN_REFUSED_BLOCKED : Fld := ⟨0x3000030, 31, 0⟩
def F.FAB_PORT_STAT_PEER : Fld := ⟨0x3000100, 49, 36⟩
def F.FAB_PORT_STAT_PEER_PORT : Fld := ⟨0x3000100, 35, 31⟩
def F.FAB_PORT_STAT_PEER_VALID : Fld := ⟨0x3000100, 5, 5⟩
def F.FAB_PORT_STAT_DISABLED : Fld := ⟨0x3000100, 4, 4⟩
def F.FAB_PORT_STAT_AUTH : Fld := ⟨0x3000100, 3, 3⟩
def F.FAB_PORT_STAT_TRAINING : Fld := ⟨0x3000100, 2, 2⟩
def F.FAB_PORT_STAT_UP : Fld := ⟨0x3000100, 1, 1⟩
def F.FAB_PORT_STAT_DOWN_EV : Fld := ⟨0x3000100, 0, 0⟩
def F.FAB_PORT_ERR_RETRAINS : Fld := ⟨0x3000180, 63, 56⟩
def F.FAB_PORT_ERR_RETRIES : Fld := ⟨0x3000180, 55, 32⟩
def F.FAB_PORT_ERR_MALFORMED : Fld := ⟨0x3000180, 31, 16⟩
def F.FAB_PORT_ERR_FEC_UNCORR : Fld := ⟨0x3000180, 15, 0⟩
def F.FAB_VC_WEIGHT_VC6 : Fld := ⟨0x3000200, 47, 40⟩
def F.FAB_VC_WEIGHT_VC5 : Fld := ⟨0x3000200, 39, 32⟩
def F.FAB_VC_WEIGHT_VC4 : Fld := ⟨0x3000200, 31, 24⟩
def F.FAB_VC_WEIGHT_VC3 : Fld := ⟨0x3000200, 23, 16⟩
def F.FAB_VC_WEIGHT_VC2 : Fld := ⟨0x3000200, 15, 8⟩
def F.FAB_VC_WEIGHT_VC1 : Fld := ⟨0x3000200, 7, 0⟩
def F.FAB_WIN_CTL_VALID : Fld := ⟨0x3001000, 63, 63⟩
def F.FAB_WIN_CTL_READ : Fld := ⟨0x3001000, 62, 62⟩
def F.FAB_WIN_CTL_WRITE : Fld := ⟨0x3001000, 61, 61⟩
def F.FAB_WIN_CTL_ATOMIC : Fld := ⟨0x3001000, 60, 60⟩
def F.FAB_WIN_CTL_VCMASK : Fld := ⟨0x3001000, 57, 50⟩
def F.FAB_WIN_CTL_NODE_HI : Fld := ⟨0x3001000, 49, 36⟩
def F.FAB_WIN_CTL_NODE_LO : Fld := ⟨0x3001000, 35, 22⟩
def F.FAB_WIN_BASE_BASE : Fld := ⟨0x3001008, 47, 16⟩
def F.FAB_WIN_LIMIT_LIMIT : Fld := ⟨0x3001010, 47, 16⟩
def F.COL_STAT_FIRST_STATUS : Fld := ⟨0x3800000, 63, 48⟩
def F.COL_STAT_ACTIVE : Fld := ⟨0x3800000, 40, 32⟩
def F.COL_STAT_CONTEXTS : Fld := ⟨0x3800000, 31, 23⟩
def F.COL_STAT_REPLAY : Fld := ⟨0x3800000, 1, 1⟩
def F.COL_STAT_ERR : Fld := ⟨0x3800000, 0, 0⟩
def F.COL_SUBMIT_ADDR : Fld := ⟨0x3800008, 47, 6⟩
def F.COL_CFG_TIMEOUT : Fld := ⟨0x3800010, 15, 0⟩
def F.COL_ERR_STALE : Fld := ⟨0x3800018, 63, 32⟩
def F.COL_ERR_UNKNOWN_GROUP : Fld := ⟨0x3800018, 31, 16⟩
def F.COL_ERR_ABORTS : Fld := ⟨0x3800018, 15, 0⟩
def F.COL_CTX_STAT_VALID : Fld := ⟨0x3801000, 63, 63⟩
def F.COL_CTX_STAT_STATE : Fld := ⟨0x3801000, 62, 61⟩
def F.COL_CTX_STAT_HIER : Fld := ⟨0x3801000, 60, 60⟩
def F.COL_CTX_STAT_FORCE_RING : Fld := ⟨0x3801000, 59, 59⟩
def F.COL_CTX_STAT_PENDING : Fld := ⟨0x3801000, 55, 51⟩
def F.COL_CTX_STAT_REASON : Fld := ⟨0x3801000, 47, 32⟩
def F.COL_CTX_STAT_SEQ : Fld := ⟨0x3801000, 31, 0⟩
def F.COL_CTX_ID_SIZE : Fld := ⟨0x3801800, 60, 46⟩
def F.COL_CTX_ID_INDEX : Fld := ⟨0x3801800, 45, 32⟩
def F.COL_CTX_ID_GROUP_ID : Fld := ⟨0x3801800, 31, 0⟩
def F.COL_CTX_POLICY_FROM_SEQ : Fld := ⟨0x3802000, 63, 32⟩
def F.COL_CTX_POLICY_NEXT_RING : Fld := ⟨0x3802000, 31, 31⟩
def F.COL_CTX_POLICY_NEXT_THRESH : Fld := ⟨0x3802000, 30, 16⟩
def F.COL_CTX_POLICY_CUR_RING : Fld := ⟨0x3802000, 15, 15⟩
def F.COL_CTX_POLICY_CUR_THRESH : Fld := ⟨0x3802000, 14, 0⟩
def F.COL_CTX_CTL_RESET : Fld := ⟨0x3802800, 63, 63⟩
def F.COL_CTX_CTL_DESTROY : Fld := ⟨0x3802800, 62, 62⟩
def F.COL_CTX_CTL_SEQ : Fld := ⟨0x3802800, 31, 0⟩
def F.TIME_NOW_NS : Fld := ⟨0x4000000, 63, 0⟩
def F.TIME_FRAC_FRAC : Fld := ⟨0x4000008, 15, 0⟩
def F.TIME_STAT_OFFSET : Fld := ⟨0x4000010, 63, 32⟩
def F.TIME_STAT_PARENT_PORT : Fld := ⟨0x4000010, 11, 7⟩
def F.TIME_STAT_SOURCE : Fld := ⟨0x4000010, 6, 5⟩
def F.TIME_STAT_PRIMARY : Fld := ⟨0x4000010, 4, 4⟩
def F.TIME_STAT_HOLDOVER : Fld := ⟨0x4000010, 3, 3⟩
def F.TIME_STAT_LOCKED : Fld := ⟨0x4000010, 2, 2⟩
def F.TIME_STAT_COARSE : Fld := ⟨0x4000010, 1, 1⟩
def F.TIME_STAT_EV : Fld := ⟨0x4000010, 0, 0⟩
def F.TIME_PTP_CFG_PORT_EN : Fld := ⟨0x4000018, 10, 9⟩
def F.TIME_PTP_CFG_ROOT : Fld := ⟨0x4000018, 8, 8⟩
def F.TIME_PTP_CFG_DOMAIN : Fld := ⟨0x4000018, 6, 0⟩
def F.TIME_PICK_LATE : Fld := ⟨0x4000020, 63, 48⟩
def F.TIME_PICK_PICK : Fld := ⟨0x4000020, 47, 0⟩
def F.TIME_PICK_BASE_BASE : Fld := ⟨0x4000028, 63, 0⟩
def F.TIME_PICK_CFG_PERIOD_US : Fld := ⟨0x4000030, 25, 0⟩
def F.TIME_REBASE_AT_PENDING : Fld := ⟨0x4000038, 63, 63⟩
def F.TIME_REBASE_AT_PICK : Fld := ⟨0x4000038, 47, 0⟩
def F.TIME_REBASE_BASE_BASE : Fld := ⟨0x4000040, 63, 0⟩
def F.TIME_DIGLOG_LOST : Fld := ⟨0x4000048, 63, 32⟩
def F.TIME_DIGLOG_HEAD : Fld := ⟨0x4000048, 31, 0⟩
def F.TIME_DIGLOG_TAIL_TAIL : Fld := ⟨0x4000050, 31, 0⟩
def F.DIGEST_STAT_LAST_PICK : Fld := ⟨0x7000, 63, 16⟩
def F.DIGEST_STAT_LATE : Fld := ⟨0x7000, 15, 8⟩
def F.DIGEST_STAT_STALL : Fld := ⟨0x7000, 0, 0⟩
def F.DIGEST_CFG_VALID : Fld := ⟨0x7040, 63, 63⟩
def F.DIGEST_CFG_DID : Fld := ⟨0x7040, 15, 0⟩
def F.DIGEST_ACC_ACC : Fld := ⟨0x7100, 60, 0⟩
def F.CKPT_STAT_FIRST_STATUS : Fld := ⟨0x7000000, 63, 48⟩
def F.CKPT_STAT_COORD : Fld := ⟨0x7000000, 7, 7⟩
def F.CKPT_STAT_TWIN : Fld := ⟨0x7000000, 6, 6⟩
def F.CKPT_STAT_STATE : Fld := ⟨0x7000000, 5, 2⟩
def F.CKPT_STAT_DEGRADED : Fld := ⟨0x7000000, 1, 1⟩
def F.CKPT_STAT_ERR : Fld := ⟨0x7000000, 0, 0⟩
def F.CKPT_CFG_MTBF_PRIOR : Fld := ⟨0x7000008, 63, 40⟩
def F.CKPT_CFG_CAP : Fld := ⟨0x7000008, 39, 24⟩
def F.CKPT_CFG_FLASH_EVERY : Fld := ⟨0x7000008, 23, 16⟩
def F.CKPT_CFG_TWIN : Fld := ⟨0x7000008, 0, 0⟩
def F.CKPT_INTERVAL_FROM_PICK : Fld := ⟨0x7000010, 63, 16⟩
def F.CKPT_INTERVAL_EVERY : Fld := ⟨0x7000010, 15, 0⟩
def F.CKPT_GEN_COMMITTED : Fld := ⟨0x7000018, 63, 32⟩
def F.CKPT_GEN_WRITING : Fld := ⟨0x7000018, 31, 0⟩
def F.CKPT_LOG_FILL : Fld := ⟨0x7000020, 63, 56⟩
def F.CKPT_LOG_LSN : Fld := ⟨0x7000020, 47, 0⟩
def F.CKPT_LOG_CFG_SIZE : Fld := ⟨0x7000028, 9, 0⟩
def F.CKPT_AREA_SIZE : Fld := ⟨0x7000030, 63, 48⟩
def F.CKPT_AREA_BASE : Fld := ⟨0x7000030, 47, 16⟩
def F.CKPT_COST_COST : Fld := ⟨0x7000038, 63, 32⟩
def F.CKPT_COST_STALL : Fld := ⟨0x7000038, 31, 0⟩
def F.CKPT_EVENTS_LOSSES : Fld := ⟨0x7000040, 63, 48⟩
def F.CKPT_EVENTS_CHUNK_BAD : Fld := ⟨0x7000040, 47, 32⟩
def F.CKPT_EVENTS_ABANDONED : Fld := ⟨0x7000040, 31, 16⟩
def F.CKPT_EVENTS_RESTARTS : Fld := ⟨0x7000040, 15, 0⟩
def F.MBX_STAT_TAG_FAILED : Fld := ⟨0x6000000, 63, 32⟩
def F.MBX_STAT_SESSIONS : Fld := ⟨0x6000000, 11, 8⟩
def F.MBX_STAT_MAINT : Fld := ⟨0x6000000, 0, 0⟩
def F.MBX_EVQ_DROPPED : Fld := ⟨0x6000008, 63, 48⟩
def F.MBX_EVQ_PENDING : Fld := ⟨0x6000008, 16, 0⟩
def F.FWP_STAT_RESTARTS : Fld := ⟨0x6001000, 63, 32⟩
def F.FWP_STAT_HELD : Fld := ⟨0x6001000, 2, 2⟩
def F.FWP_STAT_RESTARTING : Fld := ⟨0x6001000, 1, 1⟩
def F.FWP_STAT_RUNNING : Fld := ⟨0x6001000, 0, 0⟩
def F.FWP_WDT_PERIOD : Fld := ⟨0x6001040, 15, 1⟩
def F.FWP_WDT_KICK : Fld := ⟨0x6001040, 0, 0⟩
def F.SEC_STAT_RECOVERY : Fld := ⟨0x8000000, 3, 3⟩
def F.SEC_STAT_SIG_REQUIRED : Fld := ⟨0x8000000, 2, 2⟩
def F.SEC_STAT_IDENTITY : Fld := ⟨0x8000000, 1, 1⟩
def F.SEC_STAT_ENROLLED : Fld := ⟨0x8000000, 0, 0⟩
def F.SEC_FUSE_FW_CTR : Fld := ⟨0x8000008, 15, 8⟩
def F.SEC_FUSE_BOOT_CTR : Fld := ⟨0x8000008, 7, 0⟩
def F.SEC_BUNDLE_VERSION : Fld := ⟨0x8000010, 63, 32⟩
def F.SEC_BUNDLE_SLOT : Fld := ⟨0x8000010, 2, 2⟩
def F.SEC_BUNDLE_TRIAL : Fld := ⟨0x8000010, 1, 1⟩
def F.SEC_BUNDLE_STAGED : Fld := ⟨0x8000010, 0, 0⟩
def F.PWR_PLAN_CAP : Fld := ⟨0x5000000, 15, 8⟩
def F.PWR_PLAN_CLOCK : Fld := ⟨0x5000000, 1, 0⟩
def F.PWR_STATE_REFUSED : Fld := ⟨0x5000008, 7, 7⟩
def F.PWR_STATE_BUSY : Fld := ⟨0x5000008, 6, 6⟩
def F.PWR_STATE_TARGET : Fld := ⟨0x5000008, 3, 2⟩
def F.PWR_STATE_CUR : Fld := ⟨0x5000008, 1, 0⟩
def F.PWR_INPUT_VIN : Fld := ⟨0x5000010, 63, 48⟩
def F.PWR_INPUT_IIN : Fld := ⟨0x5000010, 47, 32⟩
def F.PWR_INPUT_PIN : Fld := ⟨0x5000010, 31, 16⟩
def F.PWR_OFF_CAUSE_CODE : Fld := ⟨0x5000018, 63, 48⟩
def F.PWR_OFF_CAUSE_VALID : Fld := ⟨0x5000018, 0, 0⟩
def F.PWR_RESET_LAST_CLASS : Fld := ⟨0x5000020, 63, 56⟩
def F.PWR_RESET_LAST_TRIGGER : Fld := ⟨0x5000020, 55, 48⟩
def F.PWR_RESET_FWP_INDEX : Fld := ⟨0x5000020, 11, 8⟩
def F.PWR_RESET_REQUEST : Fld := ⟨0x5000020, 2, 0⟩
def F.PWR_WITHHELD_LEVEL : Fld := ⟨0x5000040, 63, 56⟩
def F.PWR_WITHHELD_THERMAL : Fld := ⟨0x5000040, 55, 28⟩
def F.PWR_WITHHELD_POWER : Fld := ⟨0x5000040, 27, 0⟩
def F.MON_DIE_FMAX : Fld := ⟨0x5000100, 63, 48⟩
def F.MON_DIE_THROTTLE : Fld := ⟨0x5000100, 16, 16⟩
def F.MON_DIE_TMAX : Fld := ⟨0x5000100, 15, 0⟩
def F.MON_LIMITS_TRIP : Fld := ⟨0x5000200, 47, 32⟩
def F.MON_LIMITS_THROTTLE : Fld := ⟨0x5000200, 31, 16⟩
def F.MON_LIMITS_RELEASE : Fld := ⟨0x5000200, 15, 0⟩
def F.ETH_PORT_STAT_FEC_UNCORR : Fld := ⟨0x4100000, 63, 32⟩
def F.ETH_PORT_STAT_PTP : Fld := ⟨0x4100000, 2, 2⟩
def F.ETH_PORT_STAT_ADDR : Fld := ⟨0x4100000, 1, 1⟩
def F.ETH_PORT_STAT_UP : Fld := ⟨0x4100000, 0, 0⟩
def F.GLB_ID_MODEL : Fld := ⟨0x9000000, 63, 48⟩
def F.GLB_ID_STEPPING : Fld := ⟨0x9000000, 47, 40⟩
def F.GLB_ID_COOLING : Fld := ⟨0x9000000, 39, 32⟩
def F.GLB_SERIAL_SERIAL : Fld := ⟨0x9000008, 63, 0⟩
def F.GLB_CAPS_FMAX_MIN : Fld := ⟨0x9000010, 63, 48⟩
def F.GLB_CAPS_LP_GIB : Fld := ⟨0x9000010, 47, 32⟩
def F.GLB_CAPS_HBM_GIB : Fld := ⟨0x9000010, 31, 16⟩
def F.GLB_CAPS_TILES : Fld := ⟨0x9000010, 15, 0⟩
def F.GLB_FUNC_READY_READY : Fld := ⟨0x9000020, 63, 0⟩
def F.GLB_JOB_MEMBER : Fld := ⟨0x9000030, 45, 32⟩
def F.GLB_JOB_NMEMBERS : Fld := ⟨0x9000030, 31, 17⟩
def F.GLB_JOB_STATE : Fld := ⟨0x9000030, 3, 0⟩
def F.GLB_JOB_TAG_JOB_TAG : Fld := ⟨0x9000038, 63, 0⟩
def F.GLB_ERR_SUMMARY_FATAL : Fld := ⟨0x9000040, 16, 16⟩
def F.GLB_ERR_SUMMARY_D2D : Fld := ⟨0x9000040, 13, 13⟩
def F.GLB_ERR_SUMMARY_SEC : Fld := ⟨0x9000040, 12, 12⟩
def F.GLB_ERR_SUMMARY_CKPT : Fld := ⟨0x9000040, 11, 11⟩
def F.GLB_ERR_SUMMARY_FWP : Fld := ⟨0x9000040, 10, 10⟩
def F.GLB_ERR_SUMMARY_PWR : Fld := ⟨0x9000040, 9, 9⟩
def F.GLB_ERR_SUMMARY_ETH : Fld := ⟨0x9000040, 8, 8⟩
def F.GLB_ERR_SUMMARY_TIME : Fld := ⟨0x9000040, 7, 7⟩
def F.GLB_ERR_SUMMARY_COL : Fld := ⟨0x9000040, 6, 6⟩
def F.GLB_ERR_SUMMARY_FAB : Fld := ⟨0x9000040, 5, 4⟩
def F.GLB_ERR_SUMMARY_NAND : Fld := ⟨0x9000040, 3, 3⟩
def F.GLB_ERR_SUMMARY_MEM : Fld := ⟨0x9000040, 2, 2⟩
def F.GLB_ERR_SUMMARY_CPU : Fld := ⟨0x9000040, 1, 1⟩
def F.GLB_ERR_SUMMARY_TILE : Fld := ⟨0x9000040, 0, 0⟩
def F.GLB_TILE_ERR_TILES : Fld := ⟨0x9000048, 63, 0⟩
def F.GLB_FATAL_CODE : Fld := ⟨0x9000068, 63, 48⟩
def F.GLB_FATAL_VALID : Fld := ⟨0x9000068, 0, 0⟩
def F.GLB_D2D_ERR_RETRIES : Fld := ⟨0x9000100, 63, 32⟩
def F.GLB_D2D_ERR_REPAIRED : Fld := ⟨0x9000100, 31, 24⟩
def F.GLB_D2D_ERR_FAILED : Fld := ⟨0x9000100, 0, 0⟩

/-! The registers of each block. -/

def regsTile0 : List RegDesc := [
  -- SEQ_CTRL
  ⟨.tile, 0x0, 0, 1, [⟨63, 3, .ro, .cmp, 0⟩, ⟨2, 2, .w1c, .cmp, 0⟩, ⟨1, 1, .ro, .cmp, 0x1⟩, ⟨0, 0, .rw, .cmp, 0⟩]⟩,
  -- SEQ_TRAP
  ⟨.tile, 0x8, 0, 1, [⟨63, 32, .ro, .cmp, 0⟩, ⟨31, 8, .ro, .cmp, 0⟩, ⟨7, 0, .ro, .cmp, 0⟩]⟩,
  -- SEQ_ROUTE
  ⟨.tile, 0x400, 8, 16, [⟨63, 63, .ro, .cmp, 0⟩, ⟨62, 48, .ro, .cmp, 0⟩, ⟨47, 40, .ro, .cmp, 0⟩, ⟨39, 17, .ro, .cmp, 0⟩, ⟨16, 0, .ro, .cmp, 0⟩]⟩,
  -- COPY_QSTAT
  ⟨.tile, 0x4000, 8, 4, [⟨63, 48, .ro, .cmp, 0⟩, ⟨47, 16, .ro, .cmp, 0⟩, ⟨15, 8, .ro, .cmp, 0⟩, ⟨7, 1, .ro, .cmp, 0⟩, ⟨0, 0, .w1c, .cmp, 0⟩]⟩,
  -- COPY_ARRIVE
  ⟨.tile, 0x4100, 8, 64, [⟨63, 32, .ro, .cmp, 0⟩, ⟨31, 0, .rw, .cmp, 0⟩]⟩,
  -- NUM_NSAT
  ⟨.tile, 0x6000, 0, 1, [⟨63, 0, .rc, .cmp, 0⟩]⟩,
  -- NUM_NFLUSH
  ⟨.tile, 0x6008, 0, 1, [⟨63, 0, .rc, .cmp, 0⟩]⟩,
  -- MON_THERM
  ⟨.tile, 0x8000, 0, 1, [⟨63, 32, .ro, .never, 0⟩, ⟨31, 16, .ro, .never, 0⟩, ⟨15, 0, .ro, .never, 0⟩]⟩,
  -- MON_DROOP
  ⟨.tile, 0x8008, 0, 1, [⟨63, 48, .ro, .cmp, 0⟩, ⟨47, 32, .rc, .cmp, 0xffff⟩, ⟨31, 0, .rc, .cmp, 0⟩]⟩,
  -- MON_PROC
  ⟨.tile, 0x8010, 0, 1, [⟨63, 20, .ro, .never, 0⟩, ⟨19, 0, .ro, .never, 0⟩]⟩,
  -- MON_SRAM_ECC
  ⟨.tile, 0x8018, 0, 1, [⟨63, 32, .rc, .cmp, 0⟩, ⟨31, 0, .rc, .cmp, 0⟩]⟩,
  -- TENSOR_STAT
  ⟨.tile, 0x1000, 0, 1, [⟨63, 48, .ro, .cmp, 0⟩, ⟨47, 16, .ro, .cmp, 0xffffffff⟩, ⟨15, 8, .ro, .cmp, 0⟩, ⟨7, 2, .ro, .cmp, 0⟩, ⟨1, 1, .ro, .cmp, 0⟩, ⟨0, 0, .w1c, .cmp, 0⟩]⟩,
  -- TENSOR_ACTIVE
  ⟨.tile, 0x1008, 0, 1, [⟨63, 0, .rc, .cmp, 0⟩]⟩,
  -- TENSOR_STALL
  ⟨.tile, 0x1010, 0, 1, [⟨63, 32, .rc, .cmp, 0⟩, ⟨31, 0, .rc, .cmp, 0⟩]⟩]
def regsTile1 : List RegDesc := [
  -- TENSOR_OPS
  ⟨.tile, 0x1018, 0, 1, [⟨63, 32, .rc, .cmp, 0⟩, ⟨31, 0, .rc, .cmp, 0⟩]⟩,
  -- BOBBIN_STAT
  ⟨.tile, 0x5000, 0, 1, [⟨63, 48, .ro, .cmp, 0⟩, ⟨47, 16, .ro, .cmp, 0xffffffff⟩, ⟨15, 8, .ro, .cmp, 0⟩, ⟨7, 3, .ro, .cmp, 0⟩, ⟨2, 2, .ro, .cmp, 0⟩, ⟨1, 1, .ro, .cmp, 0⟩, ⟨0, 0, .w1c, .cmp, 0⟩]⟩,
  -- BOBBIN_HBM
  ⟨.tile, 0x5008, 0, 1, [⟨63, 48, .ro, .cmp, 0⟩, ⟨47, 16, .ro, .cmp, 0⟩, ⟨15, 2, .ro, .cmp, 0⟩, ⟨1, 0, .ro, .cmp, 0⟩]⟩,
  -- BOBBIN_LP
  ⟨.tile, 0x5010, 0, 1, [⟨63, 48, .ro, .cmp, 0⟩, ⟨47, 16, .ro, .cmp, 0⟩, ⟨15, 0, .ro, .cmp, 0⟩]⟩,
  -- BOBBIN_OPS
  ⟨.tile, 0x5018, 0, 1, [⟨63, 32, .rc, .cmp, 0⟩, ⟨31, 0, .rc, .cmp, 0⟩]⟩,
  -- BOBBIN_SPILL
  ⟨.tile, 0x5020, 0, 1, [⟨63, 32, .rc, .cmp, 0⟩, ⟨31, 0, .rc, .cmp, 0⟩]⟩,
  -- BOBBIN_TOP
  ⟨.tile, 0x5040, 8, 4, [⟨63, 40, .ro, .cmp, 0⟩, ⟨39, 0, .ro, .cmp, 0⟩]⟩,
  -- ELEM_STAT
  ⟨.tile, 0x2000, 0, 1, [⟨63, 48, .ro, .cmp, 0⟩, ⟨47, 16, .ro, .cmp, 0xffffffff⟩, ⟨15, 8, .ro, .cmp, 0⟩, ⟨7, 2, .ro, .cmp, 0⟩, ⟨1, 1, .ro, .cmp, 0⟩, ⟨0, 0, .w1c, .cmp, 0⟩]⟩,
  -- ELEM_ACTIVE
  ⟨.tile, 0x2008, 0, 1, [⟨63, 0, .rc, .cmp, 0⟩]⟩,
  -- ELEM_STALL
  ⟨.tile, 0x2010, 0, 1, [⟨63, 32, .rc, .cmp, 0⟩, ⟨31, 0, .rc, .cmp, 0⟩]⟩,
  -- ELEM_OPS
  ⟨.tile, 0x2018, 0, 1, [⟨63, 32, .rc, .cmp, 0⟩, ⟨31, 0, .rc, .cmp, 0⟩]⟩,
  -- SOLVER_STAT
  ⟨.tile, 0x3000, 0, 1, [⟨63, 48, .ro, .cmp, 0⟩, ⟨47, 16, .ro, .cmp, 0xffffffff⟩, ⟨15, 8, .ro, .cmp, 0⟩, ⟨7, 3, .ro, .cmp, 0⟩, ⟨2, 2, .ro, .cmp, 0⟩, ⟨1, 1, .ro, .cmp, 0⟩, ⟨0, 0, .w1c, .cmp, 0⟩]⟩,
  -- SOLVER_ACTIVE
  ⟨.tile, 0x3008, 0, 1, [⟨63, 0, .rc, .cmp, 0⟩]⟩,
  -- SOLVER_STALL
  ⟨.tile, 0x3010, 0, 1, [⟨63, 32, .rc, .cmp, 0⟩, ⟨31, 0, .rc, .cmp, 0⟩]⟩]
def regsTile2 : List RegDesc := [
  -- SOLVER_OPS
  ⟨.tile, 0x3018, 0, 1, [⟨63, 32, .rc, .cmp, 0⟩, ⟨31, 0, .rc, .cmp, 0⟩]⟩,
  -- SOLVER_OUTCOME
  ⟨.tile, 0x3020, 0, 1, [⟨63, 48, .rc, .cmp, 0⟩, ⟨47, 32, .rc, .cmp, 0⟩, ⟨31, 16, .rc, .cmp, 0⟩, ⟨15, 0, .rc, .cmp, 0⟩]⟩,
  -- SOLVER_SEQ
  ⟨.tile, 0x3028, 0, 1, [⟨63, 32, .ro, .cmp, 0⟩, ⟨31, 0, .ro, .cmp, 0⟩]⟩,
  -- DIGEST_STAT
  ⟨.tile, 0x7000, 0, 1, [⟨63, 16, .ro, .cmp, 0xffffffffffff⟩, ⟨15, 8, .rc, .cmp, 0⟩, ⟨7, 1, .ro, .cmp, 0⟩, ⟨0, 0, .ro, .cmp, 0⟩]⟩,
  -- DIGEST_CFG
  ⟨.tile, 0x7040, 8, 16, [⟨63, 63, .ro, .cmp, 0⟩, ⟨62, 16, .ro, .cmp, 0⟩, ⟨15, 0, .ro, .cmp, 0⟩]⟩,
  -- DIGEST_ACC
  ⟨.tile, 0x7100, 8, 16, [⟨63, 61, .ro, .cmp, 0⟩, ⟨60, 0, .ro, .cmp, 0⟩]⟩]
def regsCpu : List RegDesc := [
  -- CPU_COHDOM
  ⟨.cpu, 0x0, 0, 1, [⟨63, 30, .ro, .pkg, 0⟩, ⟨29, 16, .rw, .pkg, 0⟩, ⟨15, 0, .rw, .pkg, 0⟩]⟩,
  -- CPU_START
  ⟨.cpu, 0x8, 0, 1, [⟨63, 2, .rw, .cmp, 0⟩, ⟨1, 1, .ro, .cmp, 0⟩, ⟨0, 0, .wo, .cmp, 0⟩]⟩,
  -- CPU_CACHE_ECC
  ⟨.cpu, 0x10, 0, 1, [⟨63, 32, .rc, .cmp, 0⟩, ⟨31, 0, .rc, .cmp, 0⟩]⟩,
  -- CPU_CORE_STAT
  ⟨.cpu, 0x1000, 8, 128, [⟨63, 40, .ro, .cmp, 0⟩, ⟨39, 32, .ro, .cmp, 0xff⟩, ⟨31, 24, .ro, .cmp, 0⟩, ⟨23, 16, .ro, .cmp, 0⟩, ⟨15, 4, .ro, .cmp, 0⟩, ⟨3, 3, .ro, .cmp, 0x1⟩, ⟨2, 0, .ro, .cmp, 0⟩]⟩,
  -- CPU_CORE_PARKS
  ⟨.cpu, 0x1800, 8, 128, [⟨63, 32, .rc, .cmp, 0⟩, ⟨31, 0, .rc, .cmp, 0⟩]⟩]
def regsMem : List RegDesc := [
  -- MEM_STAT
  ⟨.mem, 0x0, 0, 1, [⟨63, 8, .ro, .pkg, 0⟩, ⟨7, 7, .ro, .pkg, 0⟩, ⟨6, 4, .ro, .pkg, 0⟩, ⟨3, 3, .ro, .pkg, 0⟩, ⟨2, 2, .ro, .pkg, 0⟩, ⟨1, 1, .ro, .pkg, 0⟩, ⟨0, 0, .w1c, .pkg, 0⟩]⟩,
  -- MEM_ECC
  ⟨.mem, 0x8, 0, 1, [⟨63, 32, .rc, .pkg, 0⟩, ⟨31, 0, .rc, .pkg, 0⟩]⟩,
  -- MEM_ERR_ADDR
  ⟨.mem, 0x10, 0, 1, [⟨63, 63, .w1c, .pkg, 0⟩, ⟨62, 62, .ro, .pkg, 0⟩, ⟨61, 48, .ro, .pkg, 0⟩, ⟨47, 0, .ro, .pkg, 0⟩]⟩,
  -- MEM_WCB
  ⟨.mem, 0x18, 0, 1, [⟨63, 40, .rc, .pkg, 0⟩, ⟨39, 16, .ro, .pkg, 0⟩, ⟨15, 6, .ro, .pkg, 0⟩, ⟨5, 1, .ro, .pkg, 0⟩, ⟨0, 0, .wo, .pkg, 0⟩]⟩,
  -- MEM_TEMP
  ⟨.mem, 0x20, 0, 1, [⟨63, 16, .ro, .never, 0⟩, ⟨15, 0, .ro, .never, 0⟩]⟩,
  -- MEM_SCRUB
  ⟨.mem, 0x28, 0, 1, [⟨63, 48, .rw, .pkg, 0x100⟩, ⟨47, 40, .ro, .pkg, 0⟩, ⟨39, 32, .rw, .pkg, 0x18⟩, ⟨31, 0, .rc, .pkg, 0⟩]⟩]
def regsNand : List RegDesc := [
  -- NAND_STAT
  ⟨.nand, 0x0, 0, 1, [⟨63, 56, .ro, .pkg, 0⟩, ⟨55, 3, .ro, .pkg, 0⟩, ⟨2, 2, .ro, .pkg, 0⟩, ⟨1, 1, .ro, .pkg, 0⟩, ⟨0, 0, .w1c, .pkg, 0⟩]⟩,
  -- NAND_WEAR
  ⟨.nand, 0x8, 0, 1, [⟨63, 32, .ro, .never, 0⟩, ⟨31, 16, .ro, .never, 0⟩, ⟨15, 8, .ro, .never, 0x7⟩, ⟨7, 0, .ro, .never, 0⟩]⟩,
  -- NAND_ECC
  ⟨.nand, 0x10, 0, 1, [⟨63, 32, .rc, .pkg, 0⟩, ⟨31, 0, .rc, .pkg, 0⟩]⟩]
def regsFab : List RegDesc := [
  -- FAB_NODE_ID
  ⟨.fab, 0x0, 0, 1, [⟨63, 63, .rw, .pkg, 0⟩, ⟨62, 14, .ro, .pkg, 0⟩, ⟨13, 0, .rw, .pkg, 0⟩]⟩,
  -- FAB_TIMEOUT
  ⟨.fab, 0x8, 0, 1, [⟨63, 16, .ro, .pkg, 0⟩, ⟨15, 0, .rw, .pkg, 0x14⟩]⟩,
  -- FAB_VC_CAP
  ⟨.fab, 0x10, 0, 1, [⟨63, 16, .ro, .fab, 0⟩, ⟨15, 8, .rw, .fab, 0x5⟩, ⟨7, 0, .rw, .fab, 0x3⟩]⟩,
  -- FAB_ATOM
  ⟨.fab, 0x18, 0, 1, [⟨63, 32, .rc, .pkg, 0⟩, ⟨31, 16, .rc, .pkg, 0⟩, ⟨15, 0, .rc, .pkg, 0⟩]⟩,
  -- FAB_COH
  ⟨.fab, 0x20, 0, 1, [⟨63, 32, .rc, .pkg, 0⟩, ⟨31, 0, .rc, .pkg, 0⟩]⟩,
  -- FAB_CONG
  ⟨.fab, 0x28, 0, 1, [⟨63, 32, .rc, .fab, 0⟩, ⟨31, 8, .ro, .fab, 0⟩, ⟨7, 0, .ro, .fab, 0⟩]⟩,
  -- FAB_WIN_REFUSED
  ⟨.fab, 0x30, 0, 1, [⟨63, 32, .rc, .pkg, 0⟩, ⟨31, 0, .rc, .pkg, 0⟩]⟩,
  -- FAB_PORT_STAT
  ⟨.fab, 0x100, 8, 10, [⟨63, 50, .ro, .fab, 0⟩, ⟨49, 36, .ro, .fab, 0⟩, ⟨35, 31, .ro, .fab, 0⟩, ⟨30, 6, .ro, .fab, 0⟩, ⟨5, 5, .ro, .fab, 0⟩, ⟨4, 4, .ro, .fab, 0⟩, ⟨3, 3, .ro, .fab, 0⟩, ⟨2, 2, .ro, .fab, 0⟩, ⟨1, 1, .ro, .fab, 0⟩, ⟨0, 0, .w1c, .fab, 0⟩]⟩,
  -- FAB_PORT_ERR
  ⟨.fab, 0x180, 8, 10, [⟨63, 56, .rc, .fab, 0⟩, ⟨55, 32, .rc, .fab, 0⟩, ⟨31, 16, .rc, .fab, 0⟩, ⟨15, 0, .rc, .fab, 0⟩]⟩,
  -- FAB_VC_WEIGHT
  ⟨.fab, 0x200, 8, 10, [⟨63, 48, .ro, .fab, 0⟩, ⟨47, 40, .rw, .fab, 0x8⟩, ⟨39, 32, .rw, .fab, 0x20⟩, ⟨31, 24, .rw, .fab, 0x20⟩, ⟨23, 16, .rw, .fab, 0x40⟩, ⟨15, 8, .rw, .fab, 0x20⟩, ⟨7, 0, .rw, .fab, 0x10⟩]⟩,
  -- FAB_WIN_CTL
  ⟨.fab, 0x1000, 32, 64, [⟨63, 63, .rw, .pkg, 0⟩, ⟨62, 62, .rw, .pkg, 0⟩, ⟨61, 61, .rw, .pkg, 0⟩, ⟨60, 60, .rw, .pkg, 0⟩, ⟨59, 58, .ro, .pkg, 0⟩, ⟨57, 50, .rw, .pkg, 0⟩, ⟨49, 36, .rw, .pkg, 0⟩, ⟨35, 22, .rw, .pkg, 0⟩, ⟨21, 0, .ro, .pkg, 0⟩]⟩,
  -- FAB_WIN_BASE
  ⟨.fab, 0x1008, 32, 64, [⟨63, 48, .ro, .pkg, 0⟩, ⟨47, 16, .rw, .pkg, 0⟩, ⟨15, 0, .ro, .pkg, 0⟩]⟩,
  -- FAB_WIN_LIMIT
  ⟨.fab, 0x1010, 32, 64, [⟨63, 48, .ro, .pkg, 0⟩, ⟨47, 16, .rw, .pkg, 0⟩, ⟨15, 0, .ro, .pkg, 0⟩]⟩]
def regsCol : List RegDesc := [
  -- COL_STAT
  ⟨.col, 0x0, 0, 1, [⟨63, 48, .ro, .fab, 0⟩, ⟨47, 41, .ro, .fab, 0⟩, ⟨40, 32, .ro, .fab, 0⟩, ⟨31, 23, .ro, .fab, 0⟩, ⟨22, 2, .ro, .fab, 0⟩, ⟨1, 1, .ro, .fab, 0⟩, ⟨0, 0, .w1c, .fab, 0⟩]⟩,
  -- COL_SUBMIT
  ⟨.col, 0x8, 0, 1, [⟨63, 48, .wo, .fab, 0⟩, ⟨47, 6, .wo, .fab, 0⟩, ⟨5, 0, .wo, .fab, 0⟩]⟩,
  -- COL_CFG
  ⟨.col, 0x10, 0, 1, [⟨63, 16, .ro, .pkg, 0⟩, ⟨15, 0, .rw, .pkg, 0x3e8⟩]⟩,
  -- COL_ERR
  ⟨.col, 0x18, 0, 1, [⟨63, 32, .rc, .fab, 0⟩, ⟨31, 16, .rc, .fab, 0⟩, ⟨15, 0, .rc, .fab, 0⟩]⟩,
  -- COL_CTX_STAT
  ⟨.col, 0x1000, 8, 256, [⟨63, 63, .ro, .fab, 0⟩, ⟨62, 61, .ro, .fab, 0⟩, ⟨60, 60, .ro, .fab, 0⟩, ⟨59, 59, .ro, .fab, 0⟩, ⟨58, 56, .ro, .fab, 0⟩, ⟨55, 51, .ro, .fab, 0⟩, ⟨50, 48, .ro, .fab, 0⟩, ⟨47, 32, .ro, .fab, 0⟩, ⟨31, 0, .ro, .fab, 0⟩]⟩,
  -- COL_CTX_ID
  ⟨.col, 0x1800, 8, 256, [⟨63, 61, .ro, .fab, 0⟩, ⟨60, 46, .ro, .fab, 0⟩, ⟨45, 32, .ro, .fab, 0⟩, ⟨31, 0, .ro, .fab, 0⟩]⟩,
  -- COL_CTX_POLICY
  ⟨.col, 0x2000, 8, 256, [⟨63, 32, .rw, .fab, 0⟩, ⟨31, 31, .rw, .fab, 0⟩, ⟨30, 16, .rw, .fab, 0x100⟩, ⟨15, 15, .ro, .fab, 0⟩, ⟨14, 0, .ro, .fab, 0x100⟩]⟩,
  -- COL_CTX_CTL
  ⟨.col, 0x2800, 8, 256, [⟨63, 63, .wo, .fab, 0⟩, ⟨62, 62, .wo, .fab, 0⟩, ⟨61, 32, .wo, .fab, 0⟩, ⟨31, 0, .wo, .fab, 0⟩]⟩]
def regsTime : List RegDesc := [
  -- TIME_NOW
  ⟨.time, 0x0, 0, 1, [⟨63, 0, .ro, .never, 0⟩]⟩,
  -- TIME_FRAC
  ⟨.time, 0x8, 0, 1, [⟨63, 16, .ro, .never, 0⟩, ⟨15, 0, .ro, .never, 0⟩]⟩,
  -- TIME_STAT
  ⟨.time, 0x10, 0, 1, [⟨63, 32, .ro, .pkg, 0⟩, ⟨31, 12, .ro, .pkg, 0⟩, ⟨11, 7, .ro, .pkg, 0⟩, ⟨6, 5, .ro, .pkg, 0⟩, ⟨4, 4, .ro, .pkg, 0⟩, ⟨3, 3, .ro, .pkg, 0⟩, ⟨2, 2, .ro, .pkg, 0⟩, ⟨1, 1, .ro, .pkg, 0⟩, ⟨0, 0, .w1c, .pkg, 0⟩]⟩,
  -- TIME_PTP_CFG
  ⟨.time, 0x18, 0, 1, [⟨63, 11, .ro, .pkg, 0⟩, ⟨10, 9, .rw, .pkg, 0x3⟩, ⟨8, 8, .rw, .pkg, 0⟩, ⟨7, 7, .ro, .pkg, 0⟩, ⟨6, 0, .rw, .pkg, 0⟩]⟩,
  -- TIME_PICK
  ⟨.time, 0x20, 0, 1, [⟨63, 48, .rc, .cmp, 0⟩, ⟨47, 0, .ro, .cmp, 0xffffffffffff⟩]⟩,
  -- TIME_PICK_BASE
  ⟨.time, 0x28, 0, 1, [⟨63, 0, .ro, .cmp, 0⟩]⟩,
  -- TIME_PICK_CFG
  ⟨.time, 0x30, 0, 1, [⟨63, 26, .ro, .cmp, 0⟩, ⟨25, 0, .ro, .cmp, 0⟩]⟩,
  -- TIME_REBASE_AT
  ⟨.time, 0x38, 0, 1, [⟨63, 63, .ro, .cmp, 0⟩, ⟨62, 48, .ro, .cmp, 0⟩, ⟨47, 0, .rw, .cmp, 0⟩]⟩,
  -- TIME_REBASE_BASE
  ⟨.time, 0x40, 0, 1, [⟨63, 0, .rw, .cmp, 0⟩]⟩,
  -- TIME_DIGLOG
  ⟨.time, 0x48, 0, 1, [⟨63, 32, .rc, .cmp, 0⟩, ⟨31, 0, .ro, .cmp, 0⟩]⟩,
  -- TIME_DIGLOG_TAIL
  ⟨.time, 0x50, 0, 1, [⟨63, 32, .ro, .cmp, 0⟩, ⟨31, 0, .rw, .cmp, 0⟩]⟩]
def regsCkpt : List RegDesc := [
  -- CKPT_STAT
  ⟨.ckpt, 0x0, 0, 1, [⟨63, 48, .ro, .pkg, 0⟩, ⟨47, 8, .ro, .pkg, 0⟩, ⟨7, 7, .ro, .pkg, 0⟩, ⟨6, 6, .ro, .pkg, 0⟩, ⟨5, 2, .ro, .pkg, 0⟩, ⟨1, 1, .ro, .pkg, 0⟩, ⟨0, 0, .w1c, .pkg, 0⟩]⟩,
  -- CKPT_CFG
  ⟨.ckpt, 0x8, 0, 1, [⟨63, 40, .rw, .pkg, 0x2a30⟩, ⟨39, 24, .rw, .pkg, 0x3c⟩, ⟨23, 16, .rw, .pkg, 0x8⟩, ⟨15, 1, .ro, .pkg, 0⟩, ⟨0, 0, .rw, .pkg, 0⟩]⟩,
  -- CKPT_INTERVAL
  ⟨.ckpt, 0x10, 0, 1, [⟨63, 16, .ro, .cmp, 0⟩, ⟨15, 0, .ro, .cmp, 0⟩]⟩,
  -- CKPT_GEN
  ⟨.ckpt, 0x18, 0, 1, [⟨63, 32, .ro, .pkg, 0⟩, ⟨31, 0, .ro, .pkg, 0⟩]⟩,
  -- CKPT_LOG
  ⟨.ckpt, 0x20, 0, 1, [⟨63, 56, .ro, .pkg, 0⟩, ⟨55, 48, .ro, .pkg, 0⟩, ⟨47, 0, .ro, .pkg, 0⟩]⟩,
  -- CKPT_LOG_CFG
  ⟨.ckpt, 0x28, 0, 1, [⟨63, 10, .ro, .pkg, 0⟩, ⟨9, 0, .rw, .pkg, 0x80⟩]⟩,
  -- CKPT_AREA
  ⟨.ckpt, 0x30, 0, 1, [⟨63, 48, .ro, .pkg, 0⟩, ⟨47, 16, .ro, .pkg, 0⟩, ⟨15, 0, .ro, .pkg, 0⟩]⟩,
  -- CKPT_COST
  ⟨.ckpt, 0x38, 0, 1, [⟨63, 32, .ro, .pkg, 0⟩, ⟨31, 0, .ro, .pkg, 0⟩]⟩,
  -- CKPT_EVENTS
  ⟨.ckpt, 0x40, 0, 1, [⟨63, 48, .rc, .pkg, 0⟩, ⟨47, 32, .rc, .pkg, 0⟩, ⟨31, 16, .rc, .pkg, 0⟩, ⟨15, 0, .rc, .pkg, 0⟩]⟩]
def regsMbx : List RegDesc := [
  -- MBX_STAT
  ⟨.mbx, 0x0, 0, 1, [⟨63, 32, .rc, .pkg, 0⟩, ⟨31, 12, .ro, .pkg, 0⟩, ⟨11, 8, .ro, .pkg, 0⟩, ⟨7, 1, .ro, .pkg, 0⟩, ⟨0, 0, .ro, .pkg, 0⟩]⟩,
  -- MBX_EVQ
  ⟨.mbx, 0x8, 0, 1, [⟨63, 48, .rc, .pkg, 0⟩, ⟨47, 32, .ro, .pkg, 0⟩, ⟨31, 17, .ro, .pkg, 0⟩, ⟨16, 0, .ro, .pkg, 0⟩]⟩,
  -- FWP_STAT
  ⟨.mbx, 0x1000, 8, 6, [⟨63, 32, .ro, .pkg, 0⟩, ⟨31, 3, .ro, .pkg, 0⟩, ⟨2, 2, .ro, .pkg, 0⟩, ⟨1, 1, .ro, .pkg, 0⟩, ⟨0, 0, .ro, .pkg, 0⟩]⟩,
  -- FWP_WDT
  ⟨.mbx, 0x1040, 8, 6, [⟨63, 16, .ro, .fwp, 0⟩, ⟨15, 1, .rw, .fwp, 0x64⟩, ⟨0, 0, .wo, .fwp, 0⟩]⟩]
def regsSec : List RegDesc := [
  -- SEC_STAT
  ⟨.sec, 0x0, 0, 1, [⟨63, 4, .ro, .never, 0⟩, ⟨3, 3, .ro, .never, 0⟩, ⟨2, 2, .ro, .never, 0⟩, ⟨1, 1, .ro, .never, 0⟩, ⟨0, 0, .ro, .never, 0⟩]⟩,
  -- SEC_FUSE
  ⟨.sec, 0x8, 0, 1, [⟨63, 16, .ro, .never, 0⟩, ⟨15, 8, .ro, .never, 0⟩, ⟨7, 0, .ro, .never, 0⟩]⟩,
  -- SEC_BUNDLE
  ⟨.sec, 0x10, 0, 1, [⟨63, 32, .ro, .never, 0⟩, ⟨31, 3, .ro, .never, 0⟩, ⟨2, 2, .ro, .never, 0⟩, ⟨1, 1, .ro, .never, 0⟩, ⟨0, 0, .ro, .never, 0⟩]⟩]
def regsPwr : List RegDesc := [
  -- PWR_PLAN
  ⟨.pwr, 0x0, 0, 1, [⟨63, 16, .ro, .pkg, 0⟩, ⟨15, 8, .rw, .pkg, 0x1a⟩, ⟨7, 2, .ro, .pkg, 0⟩, ⟨1, 0, .rw, .pkg, 0⟩]⟩,
  -- PWR_STATE
  ⟨.pwr, 0x8, 0, 1, [⟨63, 8, .ro, .pkg, 0⟩, ⟨7, 7, .w1c, .pkg, 0⟩, ⟨6, 6, .ro, .pkg, 0⟩, ⟨5, 4, .ro, .pkg, 0⟩, ⟨3, 2, .rw, .pkg, 0⟩, ⟨1, 0, .ro, .pkg, 0⟩]⟩,
  -- PWR_INPUT
  ⟨.pwr, 0x10, 0, 1, [⟨63, 48, .ro, .never, 0⟩, ⟨47, 32, .ro, .never, 0⟩, ⟨31, 16, .ro, .never, 0⟩, ⟨15, 0, .ro, .never, 0⟩]⟩,
  -- PWR_OFF_CAUSE
  ⟨.pwr, 0x18, 0, 1, [⟨63, 48, .ro, .never, 0⟩, ⟨47, 1, .ro, .never, 0⟩, ⟨0, 0, .w1c, .never, 0⟩]⟩,
  -- PWR_RESET
  ⟨.pwr, 0x20, 0, 1, [⟨63, 56, .ro, .por, 0x1⟩, ⟨55, 48, .ro, .por, 0x5⟩, ⟨47, 12, .ro, .por, 0⟩, ⟨11, 8, .wo, .por, 0⟩, ⟨7, 3, .wo, .por, 0⟩, ⟨2, 0, .wo, .por, 0⟩]⟩,
  -- PWR_WITHHELD
  ⟨.pwr, 0x40, 8, 5, [⟨63, 56, .ro, .cmp, 0⟩, ⟨55, 28, .rc, .cmp, 0⟩, ⟨27, 0, .rc, .cmp, 0⟩]⟩,
  -- MON_DIE
  ⟨.pwr, 0x100, 8, 7, [⟨63, 48, .ro, .never, 0⟩, ⟨47, 17, .ro, .never, 0⟩, ⟨16, 16, .ro, .never, 0⟩, ⟨15, 0, .ro, .never, 0⟩]⟩,
  -- MON_LIMITS
  ⟨.pwr, 0x200, 0, 1, [⟨63, 48, .ro, .never, 0⟩, ⟨47, 32, .ro, .never, 0x730⟩, ⟨31, 16, .ro, .never, 0x690⟩, ⟨15, 0, .ro, .never, 0x660⟩]⟩]
def regsEth : List RegDesc := [
  -- ETH_PORT_STAT
  ⟨.eth, 0x0, 8, 2, [⟨63, 32, .rc, .pkg, 0⟩, ⟨31, 3, .ro, .pkg, 0⟩, ⟨2, 2, .ro, .pkg, 0⟩, ⟨1, 1, .ro, .pkg, 0⟩, ⟨0, 0, .ro, .pkg, 0⟩]⟩]
def regsGlb : List RegDesc := [
  -- GLB_ID
  ⟨.glb, 0x0, 0, 1, [⟨63, 48, .ro, .never, 0x9216⟩, ⟨47, 40, .ro, .never, 0xb0⟩, ⟨39, 32, .ro, .never, 0x1⟩, ⟨31, 0, .ro, .never, 0⟩]⟩,
  -- GLB_SERIAL
  ⟨.glb, 0x8, 0, 1, [⟨63, 0, .ro, .never, 0⟩]⟩,
  -- GLB_CAPS
  ⟨.glb, 0x10, 0, 1, [⟨63, 48, .ro, .never, 0x76c⟩, ⟨47, 32, .ro, .never, 0x800⟩, ⟨31, 16, .ro, .never, 0x1b0⟩, ⟨15, 0, .ro, .never, 0x100⟩]⟩,
  -- GLB_FUNC_READY
  ⟨.glb, 0x20, 8, 2, [⟨63, 0, .ro, .never, 0⟩]⟩,
  -- GLB_JOB
  ⟨.glb, 0x30, 0, 1, [⟨63, 46, .ro, .pkg, 0⟩, ⟨45, 32, .ro, .pkg, 0⟩, ⟨31, 17, .ro, .pkg, 0⟩, ⟨16, 4, .ro, .pkg, 0⟩, ⟨3, 0, .ro, .pkg, 0⟩]⟩,
  -- GLB_JOB_TAG
  ⟨.glb, 0x38, 0, 1, [⟨63, 0, .ro, .pkg, 0⟩]⟩,
  -- GLB_ERR_SUMMARY
  ⟨.glb, 0x40, 0, 1, [⟨63, 17, .ro, .never, 0⟩, ⟨16, 16, .ro, .never, 0⟩, ⟨15, 14, .ro, .never, 0⟩, ⟨13, 13, .ro, .never, 0⟩, ⟨12, 12, .ro, .never, 0⟩, ⟨11, 11, .ro, .never, 0⟩, ⟨10, 10, .ro, .never, 0⟩, ⟨9, 9, .ro, .never, 0⟩, ⟨8, 8, .ro, .never, 0⟩, ⟨7, 7, .ro, .never, 0⟩, ⟨6, 6, .ro, .never, 0⟩, ⟨5, 4, .ro, .never, 0⟩, ⟨3, 3, .ro, .never, 0⟩, ⟨2, 2, .ro, .never, 0⟩, ⟨1, 1, .ro, .never, 0⟩, ⟨0, 0, .ro, .never, 0⟩]⟩,
  -- GLB_TILE_ERR
  ⟨.glb, 0x48, 8, 4, [⟨63, 0, .ro, .never, 0⟩]⟩,
  -- GLB_FATAL
  ⟨.glb, 0x68, 0, 1, [⟨63, 48, .ro, .pkg, 0⟩, ⟨47, 1, .ro, .pkg, 0⟩, ⟨0, 0, .ro, .pkg, 0⟩]⟩,
  -- GLB_D2D_ERR
  ⟨.glb, 0x100, 8, 9, [⟨63, 32, .rc, .pkg, 0⟩, ⟨31, 24, .ro, .pkg, 0⟩, ⟨23, 1, .ro, .pkg, 0⟩, ⟨0, 0, .ro, .pkg, 0⟩]⟩]

/-- The registers of a block. -/
def regsOf : Block → List RegDesc
  | .tile => regsTile0 ++ regsTile1 ++ regsTile2
  | .cpu => regsCpu
  | .mem => regsMem
  | .nand => regsNand
  | .fab => regsFab
  | .col => regsCol
  | .time => regsTime
  | .ckpt => regsCkpt
  | .mbx => regsMbx
  | .sec => regsSec
  | .pwr => regsPwr
  | .eth => regsEth
  | .glb => regsGlb

/-- The block that holds an offset and the offset inside it (R693); offsets outside every window have none. -/
def blockAt (off : Nat) : Option (Block × Nat) :=
  if off < 0x1000000 then some (.tile, off % 0x10000)
  else if off < 0x1010000 then some (.cpu, off - 0x1000000)
  else if 0x2000000 ≤ off ∧ off < 0x20C0000 then some (.mem, off % 0x10000)
  else if 0x2100000 ≤ off ∧ off < 0x2300000 then some (.mem, off % 0x10000)
  else if 0x2300000 ≤ off ∧ off < 0x2310000 then some (.nand, off - 0x2300000)
  else if 0x3000000 ≤ off ∧ off < 0x3800000 then some (.fab, off % 0x400000)
  else if 0x3800000 ≤ off ∧ off < 0x3810000 then some (.col, off - 0x3800000)
  else if 0x4000000 ≤ off ∧ off < 0x4010000 then some (.time, off - 0x4000000)
  else if 0x4100000 ≤ off ∧ off < 0x4110000 then some (.eth, off - 0x4100000)
  else if 0x5000000 ≤ off ∧ off < 0x5010000 then some (.pwr, off - 0x5000000)
  else if 0x6000000 ≤ off ∧ off < 0x6010000 then some (.mbx, off - 0x6000000)
  else if 0x7000000 ≤ off ∧ off < 0x7010000 then some (.ckpt, off - 0x7000000)
  else if 0x8000000 ≤ off ∧ off < 0x8010000 then some (.sec, off - 0x8000000)
  else if 0x9000000 ≤ off ∧ off < 0x9010000 then some (.glb, off - 0x9000000)
  else none

/-- Does the register lie at offset o of its block, at some index? -/
def RegDesc.hits (r : RegDesc) (o : Nat) : Bool :=
  if r.count = 1 then o == r.off
  else decide (r.off ≤ o) && decide (o < r.off + r.step * r.count) && ((o - r.off) % r.step == 0)

/-- The register at an offset of space type 01, if one occupies it (R10). -/
def regAt (off : Nat) : Option RegDesc :=
  match blockAt off with
  | none => none
  | some (b, o) => (regsOf b).find? (fun r => r.hits o)

/-- Bits hi down to lo of a word. -/
def bitsOf (v : BitVec 64) (hi lo : Nat) : Nat := v.toNat / 2 ^ lo % 2 ^ (hi - lo + 1)

/-- The word with n placed at bits hi down to lo. -/
def withBits (v : BitVec 64) (hi lo n : Nat) : BitVec 64 :=
  BitVec.ofNat 64 (v.toNat - bitsOf v hi lo * 2 ^ lo + n % 2 ^ (hi - lo + 1) * 2 ^ lo)

/-- The word with each field of l at its reset value and the other bits of v. -/
def resetFields (v : BitVec 64) : List FieldDesc → BitVec 64
  | [] => v
  | f :: l => resetFields (withBits v f.hi f.lo f.rst) l

/-- The reset value of the register at an offset (R17); 0 where no register is. -/
def resetVal (off : Nat) : BitVec 64 :=
  match regAt off with
  | none => 0
  | some r => resetFields 0 r.fields

/-- Does a reset of class c clear a field of class k (R16)? Every class that contains k clears it too. -/
def RClass.clears (c k : RClass) : Bool :=
  match k, c with
  | .never, _ => false
  | .por, .por => true
  | .por, _ => false
  | .pkg, .por => true
  | .pkg, .pkg => true
  | .pkg, _ => false
  | .cmp, .por => true
  | .cmp, .pkg => true
  | .cmp, .cmp => true
  | .cmp, _ => false
  | .fab, .por => true
  | .fab, .pkg => true
  | .fab, .fab => true
  | .fab, _ => false
  | .fwp, .por => true
  | .fwp, .pkg => true
  | .fwp, .fwp => true
  | .fwp, _ => false

/-- The stored word of the register at an offset. -/
def State.reg (s : State) (off : Nat) : BitVec 64 := Tab.get resetVal s.regs off

/-- Stores a word in the register at an offset. -/
def State.setReg (s : State) (off : Nat) (v : BitVec 64) : State := { s with regs := Tab.set off v s.regs }

/-- The stored value of a field. -/
def State.fld (s : State) (f : Fld) : Nat := bitsOf (s.reg f.off) f.hi f.lo

/-- Is a one-bit field set? -/
def State.bit (s : State) (f : Fld) : Bool := s.fld f != 0

/-- Sets a field; bits of n beyond the field's width are dropped. -/
def State.setFld (s : State) (f : Fld) (n : Nat) : State := s.setReg f.off (withBits (s.reg f.off) f.hi f.lo n)

/-- Adds to a field that stops at its greatest value. -/
def State.count (s : State) (f : Fld) (n : Nat) : State :=
  s.setFld f (min (s.fld f + n) (2 ^ (f.hi - f.lo + 1) - 1))

/-- Adds to a field whose text gives no stop: it wraps (assumption log 7). -/
def State.countWrap (s : State) (f : Fld) (n : Nat) : State := s.setFld f (s.fld f + n)

/-- Resets every field of class k of the register word at an offset. -/
def resetWord (c : RClass) (off : Nat) (v : BitVec 64) : BitVec 64 :=
  match regAt off with
  | none => v
  | some r => resetFields v (r.fields.filter (fun f => c.clears f.cls))

/-- Every register after a reset of class c, except those outside the window lo to hi. -/
def resetRegs (c : RClass) (lo hi : Nat) (t : Tab (BitVec 64)) : Tab (BitVec 64) :=
  t.map (fun e => if lo ≤ e.1 ∧ e.1 < hi then (e.1, resetWord c e.1 e.2) else e)

/-- Base of a tile's block. -/
def tileBase (t : TileId) : Nat := t.toNat * 0x10000
/-- Base of a memory controller's block, less that of stack 0. -/
def ctrlBase (c : CtrlId) : Nat := if c.val < 12 then c.val * 0x10000 else 0x100000 + (c.val - 12) * 0x10000
/-- Base of a fabric die's block, less that of die 0. -/
def dieBase (d : Nat) : Nat := d * 0x400000

end Sys2Proof.Machine
end

