-- ==== Sys2Proof/Machine/Ops.lean ====
section
/-! DEFINITION. Named operations over the state that every family uses: the parts of the state by tile, hart, port and
context, readiness bits (Table 16-7), free values, event records (R24 to R27, R653 to R656) and messages that leave. -/

namespace Sys2Proof.Machine

/-! ### Status codes (Tables 0-6, 4-8, 5-7, 6-8, 7-12, 9-5, 10-x, 11-x, 12-7, 13-x, 14-x, 15-8) -/

def St.ok : Status := 0
def St.badDescriptor : Status := 0x0002
def St.accessBlocked : Status := 0x0003
def St.aborted : Status := 0x0004
def St.timeout : Status := 0x0005
def St.uncorrectable : Status := 0x0006
def St.nodeLost : Status := 0x0007
def St.outcomeUnknown : Status := 0x0008
def St.memUnmapped : Status := 0x0401
def St.memOffline : Status := 0x0402
def St.flashRange : Status := 0x0403
def St.flashReadOnly : Status := 0x0404
def St.guardPoolEmpty : Status := 0x0405
def St.memCeRate : Status := 0x0406

/-! ### Parts of the state -/

def State.tile (s : State) (t : TileId) : Tile := Tab.get (fun _ => Tile.reset) s.tiles t.toNat
def State.setTile (s : State) (t : TileId) (x : Tile) : State := { s with tiles := Tab.set t.toNat x s.tiles }
def State.modTile (s : State) (t : TileId) (f : Tile → Tile) : State := s.setTile t (f (s.tile t))

/-- The mode of a hart's data accesses: mstatus.MPRV in machine mode takes that of MPP (R307). -/
def Hart.dataMachine (x : Hart) : Bool := x.machineMode && (!x.mstatus.getLsbD 17 || bitsOf x.mstatus 12 11 == 3)

def State.hart (s : State) (h : HartId) : Hart := Tab.get (fun _ => Hart.reset) s.harts h.toNat
def State.setHart (s : State) (h : HartId) (x : Hart) : State := { s with harts := Tab.set h.toNat x s.harts }
def State.modHart (s : State) (h : HartId) (f : Hart → Hart) : State := s.setHart h (f (s.hart h))

def State.port (s : State) (p : PortId) : Port := Tab.get (fun _ => Port.reset) s.ports p.val
def State.setPort (s : State) (p : PortId) (x : Port) : State := { s with ports := Tab.set p.val x s.ports }
def State.modPort (s : State) (p : PortId) (f : Port → Port) : State := s.setPort p (f (s.port p))

/-- A field of tile t's block. -/
def tfld (t : TileId) (f : Fld) : Fld := f.plus (tileBase t)
/-- A field of memory controller c's block. -/
def cfld (c : CtrlId) (f : Fld) : Fld := f.plus (ctrlBase c)
/-- A field of port p's registers: fabric die p div 10, index p mod 10 (R412). -/
def pfld (p : PortId) (f : Fld) : Fld := f.plus (dieBase (p.val / 10) + 8 * (p.val % 10))

/-- Takes one free value: an undefined result (assumption log 3). -/
def State.drawFree (s : State) : BitVec 64 × State := (Config.freeValue s.free, { s with free := s.free + 1 })

/-- Takes n undefined bytes. -/
def State.drawBytes (s : State) : Nat → List Byte × State
  | 0 => ([], s)
  | n + 1 =>
    let r := s.drawFree
    let q := State.drawBytes r.2 n
    (BitVec.ofNat 8 r.1.toNat :: q.1, q.2)

/-! ### Readiness (Table 16-7) -/

/-- Readiness bit n of GLB_FUNC_READY. -/
def State.ready (s : State) (n : Nat) : Bool := bitN (s.reg (R.GLB_FUNC_READY + 8 * (n / 64))).toNat (n % 64)

/-- Readiness bit n set to b. -/
def State.putReady (s : State) (n : Nat) (b : Bool) : State :=
  s.setFld ⟨R.GLB_FUNC_READY + 8 * (n / 64), n % 64, n % 64⟩ (natOf b)

/-- Readiness bits from lo, n of them, set to b. -/
def State.putReadyRange (s : State) (lo : Nat) (b : Bool) : Nat → State
  | 0 => s
  | n + 1 => (State.putReady s lo b).putReadyRange (lo + 1) b n

/-- Is the die of the tile in service (bits 16 to 19)? -/
def State.tileReady (s : State) (t : TileId) : Bool := s.ready (16 + t.toNat / 64)

/-- Is the memory of the controller in service (bits 20 to 63)? -/
def State.ctrlReady (s : State) (c : CtrlId) : Bool := s.ready (20 + c.val)

/-- Are all LPDDR5X packages in service? -/
def State.lpReady (s : State) : Bool := (List.range 32).all (fun i => s.ready (32 + i))

/-! ### The node's own number -/

def State.nodeId (s : State) : NodeId := BitVec.ofNat 14 (s.fld F.FAB_NODE_ID_NODE)
def State.nodeValid (s : State) : Bool := s.bit F.FAB_NODE_ID_VALID

/-- Is a node number this node's own? While none is assigned every address is local (R308). -/
def State.isLocal (s : State) (n : NodeId) : Bool := !s.nodeValid || n == s.nodeId

/-! ### Events -/

/-- TIMESTAMP (R25): bit 63 set before the time is coarse, clear after. -/
def State.stamp (s : State) : BitVec 64 :=
  if s.ready 9 then s.clock.ns &&& 0x7FFFFFFFFFFFFFFF else s.clock.ns ||| 0x8000000000000000

/-- Is a pick running? The job state is RUNNING and a pick start has fired (R26). -/
def State.inPick (s : State) : Bool := s.fld F.GLB_JOB_STATE == 3

/-- PICK of an event record (R26). -/
def State.eventPick (s : State) : Pick := if s.inPick then BitVec.ofNat 48 (s.fld F.TIME_PICK_PICK) else noPick

/-- A host ring with a record added; when full, a fatal record overwrites the newest unfatal one and any other is
dropped (R655). The flag says whether the record was dropped. -/
def pushHost (ring : List EventRec) (r : EventRec) : List EventRec × Bool :=
  if ring.length < 65536 then (ring ++ [r], false)
  else if r.fatal then
    match ring.reverse.findIdx? (fun e => !e.fatal) with
    | none => (ring, true)
    | some i => (ring.set (ring.length - 1 - i) r, false)
  else (ring, true)

/-- A ring of n records with one added; the oldest is overwritten when it is full (R654). -/
def pushOld (n : Nat) (ring : List EventRec) (r : EventRec) : List EventRec :=
  if ring.length < n then ring ++ [r] else ring.drop 1 ++ [r]

/-- Writes one record to the rings: both rings once LPDDR5X is ready, the ring in BSC SRAM before (R653). -/
def State.putRecord (s : State) (r : EventRec) : State :=
  if s.lpReady then
    let h := pushHost s.rings.host r
    let s' := { s with rings := { s.rings with host := h.1, fw := pushOld 16384 s.rings.fw r } }
    if h.2 then s'.count F.MBX_EVQ_DROPPED 1 else s'
  else { s with rings := { s.rings with bsc := pushOld 256 s.rings.bsc r } }

/-- Copies the records of the BSC ring into both rings once LPDDR5X is ready (R653). -/
def State.settleRings (s : State) : State :=
  if s.lpReady then s.rings.bsc.foldl State.putRecord { s with rings := { s.rings with bsc := [] } } else s

/-- The bit that a unit's own text sets when it raises an event: TIME_STAT.EV, CKPT_STAT.ERR. -/
def State.markFamily (s : State) (code : Status) : State :=
  if code.toNat / 256 = 7 then s.setFld F.TIME_STAT_EV 1
  else if code.toNat / 256 = 8 then
    (if s.bit F.CKPT_STAT_ERR then s else s.setFld F.CKPT_STAT_FIRST_STATUS code.toNat).setFld F.CKPT_STAT_ERR 1
  else s

/-- Raises an event with DETAIL bytes, the unused ones 0 (Table 0-8). -/
def State.raise (s : State) (src : Nat) (code : Status) (detail : List Byte) : State :=
  (s.markFamily code).putRecord
    { ts := s.stamp, source := BitVec.ofNat 16 src, code := code, pick := s.eventPick,
      detail := (detail ++ zeros 14).take 14, fatal := false }

/-- Sends a message: it joins the list of what left the node. -/
def State.send (s : State) (m : OutMsg) : State := { s with outbox := s.outbox ++ [m] }

/-- A message of which the manual gives the operation and its fields, not the bytes. -/
def plainMsg (port : Option PortId) (dst : NodeId) (vc opc : Nat) (args : List Nat) (data : List Byte) : OutMsg :=
  { fwd := none, space := 0, port := port, loc := false, dst := dst, vc := vc, opc := opc, rsp := false, cong := false, addr := 0, len := data.length,
    tag := 0, data := data, args := args }

/-- Is port p in service? -/
def State.portUp (s : State) (p : PortId) : Bool := s.bit (pfld p F.FAB_PORT_STAT_UP)

/-- The ports in service. -/
def State.livePorts (s : State) : List PortId := (List.finRange 20).filter s.portUp

/-- FATAL with a code on every port in service, on VC0, toward the coordinator (R600, R665); not before the node has its
number, since FATAL is no link-local operation (R710). -/
def State.sendFatal (s : State) (code : Status) : State :=
  let dst : NodeId := match s.draft with
    | some d => (d.map.find? (fun n => !s.resil.lost.contains n)).getD 0
    | none => 0
  if s.nodeValid then s.livePorts.foldl (fun s p => s.send (plainMsg (some p) dst 0 0x5B [code.toNat] [])) s else s

/-- Raises a fatal event: GLB_FATAL keeps the first code, and FATAL leaves on every port (R600). -/
def State.raiseFatal (s : State) (src : Nat) (code : Status) (detail : List Byte) : State :=
  let s := if s.bit F.GLB_FATAL_VALID then s
    else (s.setFld F.GLB_FATAL_CODE code.toNat).setFld F.GLB_FATAL_VALID 1
  ((s.markFamily code).putRecord
    { ts := s.stamp, source := BitVec.ofNat 16 src, code := code, pick := s.eventPick,
      detail := (detail ++ zeros 14).take 14, fatal := true }).sendFatal code

/-- ALERT_N is active: a record waits in the host ring, or a fatal event is unacknowledged (R656). -/
def State.alert (s : State) : Bool := !s.rings.host.isEmpty || s.rings.bsc.any (fun r => r.fatal)

/-- Event SOURCE of a tile (R24). -/
def tileSrc (t : TileId) : Nat := t.toNat
/-- Event SOURCE of a memory controller (R24). -/
def ctrlSrc (c : CtrlId) : Nat := if c.val < 12 then 0x200 + c.val else 0x210 + (c.val - 12)

/-- The time counter brought to `now`; it never moves backward (R501). -/
def State.at_ (s : State) (now : BitVec 64) : State :=
  { s with clock := { s.clock with ns := if s.clock.ns < now then now else s.clock.ns } }

end Sys2Proof.Machine
end

