-- ==== Sys2Proof/Machine/MemSys.lean ====
section
/-! DEFINITION. The memory system (chapter 9) and the tile SRAM (R110 to R116, R700): the address map, the controller
hashes, the write-combining buffers, poison and error reports, the snapshot guard at a write, the lines the cores hold
modified, and the NAND controller; with the meanings of their commands. -/

namespace Sys2Proof.Machine

/-! ### Address map and hashes -/

/-- Regions of Table 9-1. -/
inductive Region where
  | hbm | lp | sram
deriving DecidableEq, Repr

/-- First LPDDR5X byte. -/
def lpBase : Nat := 0x010000000000
/-- First byte of the tile SRAM window (R115). -/
def sramWindow : Nat := 0x0F0000000000

/-- The region of a node-local address; an unlisted one is unmapped (R351). -/
def regionOf (a : Nat) : Option Region :=
  if a < 0x006C00000000 then some .hbm
  else if lpBase ≤ a ∧ a < 0x030000000000 then some .lp
  else if sramWindow ≤ a ∧ a < 0x0F0080000000 then some .sram
  else none

/-- Node-local address of an SRAM offset of tile t (R115). -/
def sramAddr (t : TileId) (o : Nat) : Nat := sramWindow + t.toNat * 0x800000 + o

/-- The tile of a window address. -/
def sramTile (a : Nat) : TileId := BitVec.ofNat 8 ((a - sramWindow) / 0x800000)

/-- Exclusive OR of the successive 7-bit fields of x (R357); n fields are enough for x below 128^n. -/
def fold7 : Nat → Nat → Nat
  | 0, _ => 0
  | n + 1, x => Nat.xor (x % 128) (fold7 n (x / 128))

/-- Where a DRAM byte lies: controller, channel, pseudo-channel (0 for LPDDR5X), byte within the target. -/
structure Target where
  ctrl : CtrlId
  channel : Nat
  pc : Nat
  loc : Nat
deriving DecidableEq, Repr

/-- hbm_target of R357. -/
def hbmTarget (a : Nat) : Target :=
  let g := a / 256
  let v := g / 4
  let third := v % 3
  let w := v / 3
  let l := w / 32
  let f := fold7 4 l
  let cp := Nat.xor (w % 32) (f / 4)
  { ctrl := Fin.ofNat 44 (4 * third + Nat.xor (g % 4) (f % 4)), channel := cp % 16, pc := cp / 16, loc := l * 256 + a % 256 }

/-- lp_target of R360. -/
def lpTarget (a : Nat) : Target :=
  let g := (a - lpBase) / 256
  let l := g / 128
  let t := Nat.xor (g % 128) (fold7 4 l)
  { ctrl := Fin.ofNat 44 (12 + t % 32), channel := t / 32, pc := 0, loc := l * 256 + a % 256 }

/-- The controller of a DRAM address. -/
def ctrlOf (a : Nat) : CtrlId := if a < lpBase then (hbmTarget a).ctrl else (lpTarget a).ctrl

/-- Is the memory that holds the byte in service (R354, R677)? -/
def State.byteReady (s : State) (a : Nat) : Bool :=
  match regionOf a with
  | some .sram => s.tileReady (sramTile a)
  | some _ => s.ctrlReady (ctrlOf a)
  | none => false

/-- OK, MEM_UNMAPPED or MEM_OFFLINE for the n bytes from a (R352, R354, R677). -/
def State.memStatus (s : State) (a n : Nat) : Status :=
  if n = 0 then St.ok
  else if regionOf a = none ∨ regionOf (a + n - 1) ≠ regionOf a then St.memUnmapped
  else if (List.range ((a + n - 1) / 256 - a / 256 + 1)).all (fun i => s.byteReady (max a ((a / 256 + i) * 256))) then St.ok
  else St.memOffline

/-! ### Reading -/

/-- The byte a held write (R390) will have written, the last to arrive first. -/
def heldByte : List HeldWrite → Nat → Option Byte
  | [], _ => none
  | w :: r, a =>
    match heldByte r a with
    | some b => some b
    | none => if w.addr ≤ a ∧ a < w.addr + w.data.length then w.data[a - w.addr]? else none

/-- The valid byte of a write-combining entry (R370). -/
def wcbByte (l : List WcbEntry) (a : Nat) : Option Byte :=
  match l.find? (fun e => e.granule == a / 256) with
  | none => none
  | some e => Tab.find e.bytes (a % 256)

def State.wcbOf (s : State) (c : CtrlId) : List WcbEntry := Tab.get (fun _ => []) s.wcb c.val

/-- What every requester reads at a node-local byte: a line a core holds modified (R312), then writes held by the guard
(their release changes timing only, R391), then the write-combining buffer (R370), then memory. -/
def State.byteAt (s : State) (a : Nat) : Byte :=
  match Tab.find s.dirty (a / 64 * 64) with
  | some l => l.getD (a % 64) 0
  | none =>
    match heldByte s.heldWrites a with
    | some b => b
    | none =>
      if regionOf a = some .sram then s.mem.read a
      else
        match wcbByte (s.wcbOf (ctrlOf a)) a with
        | some b => b
        | none => s.mem.read a

/-- The n bytes from a as every requester reads them. -/
def State.bytes (s : State) (a : Nat) : Nat → List Byte
  | 0 => []
  | n + 1 => s.byteAt a :: State.bytes s (a + 1) n

/-- The protected unit of a byte: its SRAM word (R112) or DRAM sector (R374). -/
def eccUnit (a : Nat) : Nat := if sramWindow ≤ a then a / 8 * 8 else a / 32 * 32

/-- Does a read of the byte meet poison? A line a core holds modified is supplied from the cache. -/
def State.badByte (s : State) (a : Nat) : Bool :=
  s.poison.contains (eccUnit a) && (Tab.find s.dirty (a / 64 * 64)).isNone

/-- Does a read of the n bytes from a meet a poisoned word (R112, R377)? -/
def State.badRead (s : State) (a n : Nat) : Bool := (List.range n).any (fun i => s.badByte (a + i))

/-- A read of n bytes from a meets what it meets: each poisoned sector sets its controller's MEM_STAT.ERR (R377). -/
def State.noteRead (s : State) (a n : Nat) : State :=
  (List.range n).foldl (fun s i =>
    if s.badByte (a + i) && decide (a + i < sramWindow) then s.setFld (cfld (ctrlOf (a + i)) F.MEM_STAT_ERR) 1 else s) s

/-! ### Writing -/

/-- A byte list from address a cut at multiples of u, as (address, bytes) pieces. The first number is fuel: one for
each byte is enough. -/
def pieces (u : Nat) : Nat → Nat → List Byte → List (Nat × List Byte)
  | 0, _, _ => []
  | _, _, [] => []
  | f + 1, a, d => (a, d.take (u - a % u)) :: pieces u f (a + (u - a % u)) (d.drop (u - a % u))

def cut (u a : Nat) (d : List Byte) : List (Nat × List Byte) := pieces u d.length a d

def State.poisonAdd (s : State) (u : Nat) : State := { s with poison := u :: s.poison.filter (· != u) }
def State.poisonDrop (s : State) (u : Nat) : State := { s with poison := s.poison.filter (· != u) }

/-- One piece of an SRAM write within an 8-byte word (R700). -/
def State.sramPiece (s : State) (a : Nat) (d : List Byte) : State :=
  if d.length = 8 then { s with mem := s.mem.writeN a d }.poisonDrop a
  else if s.poison.contains (eccUnit a) then
    s.raise (tileSrc (sramTile a)) St.uncorrectable (leBytes 3 ((eccUnit a - sramWindow) % 0x800000))
  else { s with mem := s.mem.writeN a d }

/-- A write into tile SRAM through the window's addresses. -/
def State.sramPut (s : State) (a : Nat) (d : List Byte) : State :=
  (cut 8 a d).foldl (fun s p => s.sramPiece p.1 p.2) s

/-- DETAIL of R373 and R377: the node-local address of a sector. -/
def sectorDetail (a : Nat) : List Byte := leBytes 6 a

/-- Drains one sector of an entry: written directly when fully valid, else by read-modify-write, which a poisoned
sector defeats (R371, R373). -/
def State.drainSector (s : State) (c : CtrlId) (e : WcbEntry) (k : Nat) : State :=
  let bs := e.bytes.filter (fun b => b.1 / 32 == k)
  let base := e.granule * 256 + 32 * k
  let put := fun (s : State) => bs.foldl (fun s b => { s with mem := s.mem.write (e.granule * 256 + b.1) b.2 }) s
  if bs.isEmpty then s
  else if bs.length = 32 then (put s).poisonDrop base
  else if s.poison.contains base then
    (s.setFld (cfld c F.MEM_STAT_ERR) 1).raise (ctrlSrc c) St.uncorrectable (sectorDetail base)
  else (put s).countWrap (cfld c F.MEM_WCB_RMW) 1

/-- Drains a whole entry. -/
def State.drainEntry (s : State) (c : CtrlId) (e : WcbEntry) : State :=
  (List.range 8).foldl (fun s k => s.drainSector c e k) s

def State.setWcb (s : State) (c : CtrlId) (l : List WcbEntry) : State := { s with wcb := Tab.set c.val l s.wcb }

/-- A drain request: the whole buffer empties, the oldest entry first (R372). -/
def State.drainAll (s : State) (c : CtrlId) : State :=
  ((s.wcbOf c).foldl (fun s e => s.drainEntry c e) s).setWcb c []

/-- Entries of a controller's write-combining buffer (R367). -/
def wcbSize (c : CtrlId) : Nat := if c.val < 12 then 512 else 128

/-- Merges a piece into the entry of its granule, allocating one; a full buffer drains its oldest entry first, and an
entry whose 256 bytes are all valid drains at once (R368, R371). -/
def State.wcbMerge (s : State) (c : CtrlId) (a : Nat) (d : List Byte) : State :=
  let g := a / 256
  let add := fun (e : WcbEntry) =>
    { e with bytes := (List.range d.length).foldl (fun t i => Tab.set (a % 256 + i) (d.getD i 0) t) e.bytes }
  let s := match (s.wcbOf c).find? (fun e => e.granule == g) with
    | some _ => s
    | none =>
      match s.wcbOf c with
      | e :: r => if (e :: r).length < wcbSize c then s else (s.drainEntry c e).setWcb c r
      | [] => s
  let l := if (s.wcbOf c).any (fun e => e.granule == g) then
      (s.wcbOf c).map (fun e => if e.granule == g then add e else e)
    else s.wcbOf c ++ [add ⟨g, [], s.clock.ns.toNat⟩]
  match l.find? (fun e => e.granule == g) with
  | none => s.setWcb c l
  | some e =>
    if e.bytes.length = 256 then (s.setWcb c (l.filter (fun e => e.granule != g))).drainEntry c e
    else s.setWcb c l

/-- One piece of a DRAM write within a sector, at its controller (R368, R369). -/
def State.sectorPut (s : State) (a : Nat) (d : List Byte) : State :=
  let c := ctrlOf a
  if d.length = 32 ∧ (s.wcbOf c).all (fun e => e.granule != a / 256) then
    { s with mem := s.mem.writeN a d }.poisonDrop a
  else s.wcbMerge c a d

/-- A DRAM write that has passed the guard check. -/
def State.dramPut (s : State) (a : Nat) (d : List Byte) : State :=
  (cut 32 a d).foldl (fun s p => s.sectorPut p.1 p.2) s

/-- Sets both dirty bits of a page (R576). -/
def State.markDirty (s : State) (page : Nat) : State :=
  let add := fun (l : List Nat) => if l.contains page then l else page :: l
  { s with resil := { s.resil with dirtySkein := add s.resil.dirtySkein, dirtyFlash := add s.resil.dirtyFlash, dirtyTwin := add s.resil.dirtyTwin } }

/-- A write takes away the reservations on the lines it touches (R315, RVWMO). Keys are those of the cores. -/
def State.breakResv (s : State) (a n : Nat) : State :=
  { s with harts := s.harts.map (fun e => (e.1, match e.2.resv with
      | some (b, m) => if a / 64 * 64 < b + m ∧ b < alignUp (a + n) 64 then { e.2 with resv := none } else e.2
      | none => e.2)) }

/-- A DRAM write at the guard check (R387): the part in a guarded page is held, in order of arrival (R390); what passes
marks its page dirty (R576). -/
def State.guardedPut (s : State) (a : Nat) (d : List Byte) : State :=
  (cut 65536 a d).foldl (fun s p =>
    if s.guard.contains (p.1 / 65536) then { s with heldWrites := s.heldWrites ++ [⟨p.1, p.2⟩] }
    else (s.markDirty (p.1 / 65536)).dramPut p.1 p.2) s

/-- Writes back one line that the cores hold modified (R312). -/
def State.flushLine (s : State) (line : Nat) : State :=
  match Tab.find s.dirty line with
  | none => s
  | some d => { s with dirty := Tab.erase line s.dirty }.guardedPut line d

/-- Writes back every modified line that the n bytes from a touch. -/
def State.flushRange (s : State) (a n : Nat) : State :=
  if n = 0 then s
  else (List.range ((a + n - 1) / 64 - a / 64 + 1)).foldl (fun s i => s.flushLine ((a / 64 + i) * 64)) s

/-- A write by any requester but a caching core, to bytes that memStatus has accepted. -/
def State.writeBytes (s : State) (a : Nat) (d : List Byte) : State :=
  if d.isEmpty then s
  else if regionOf a = some .sram then s.sramPut a d
  else ((s.flushRange a d.length).breakResv a d.length).guardedPut a d

/-- A write of the resilience engine or of the guard copy itself, which passes no guard check (R387). -/
def State.writeUnguarded (s : State) (a : Nat) (d : List Byte) : State :=
  (s.flushRange a d.length).dramPut a d

/-- A store of a core into a DRAM line it caches: the line becomes modified in the node's caches (R312, R313). A line with
a poisoned sector is not filled: the store goes to memory, where R373 decides. -/
def State.coreLine (s : State) (a : Nat) (d : List Byte) : State :=
  (cut 64 a d).foldl (fun s p =>
    let line := p.1 / 64 * 64
    let s := s.breakResv p.1 p.2.length
    if s.badRead line 64 then s.guardedPut p.1 p.2 else
    let old := s.bytes line 64
    { s with dirty := Tab.set line (old.take (p.1 - line) ++ p.2 ++ old.drop (p.1 - line + p.2.length)) s.dirty }) s

/-! ### Errors that a read shows -/

/-- Records an error under MEM_ERR_ADDR: when VALID is clear, or when it is uncorrectable and UNC is 0. -/
def State.recordErr (s : State) (c : CtrlId) (sector : Nat) (unc : Bool) : State :=
  if !s.bit (cfld c F.MEM_ERR_ADDR_VALID) || (unc && !s.bit (cfld c F.MEM_ERR_ADDR_UNC)) then
    ((s.setFld (cfld c F.MEM_ERR_ADDR_VALID) 1).setFld (cfld c F.MEM_ERR_ADDR_UNC) (natOf unc)).setFld
      (cfld c F.MEM_ERR_ADDR_ADDR) sector
  else s

/-- Counts a corrected error in its one-second interval (R379). -/
def State.ceNote (s : State) (c : CtrlId) : State :=
  let k := s.clock.ns.toNat / 1000000000
  let o := Tab.get (fun _ => (k, 0, false)) s.ceCount c.val
  let n := if o.1 = k then (k, o.2.1 + 1, o.2.2) else (k, 1, false)
  { s with ceCount := Tab.set c.val n s.ceCount }

/-- A DRAM read of the sector of `a` whose code shows `obs` (R376, R377); `scrub` marks a patrol read (R378). -/
def State.sectorObs (s : State) (a : Nat) (obs : EccObs) : State :=
  let c := ctrlOf a
  let u := eccUnit a
  if s.poison.contains u then s.setFld (cfld c F.MEM_STAT_ERR) 1
  else
    match obs with
    | .clean => s
    | .corrected => ((s.countWrap (cfld c F.MEM_ECC_CORR) 1).recordErr c u false).ceNote c
    | .uncorrectable =>
      ((((s.poisonAdd u).countWrap (cfld c F.MEM_ECC_UNCORR) 1).recordErr c u true).setFld (cfld c F.MEM_STAT_ERR) 1).raise
        (ctrlSrc c) St.uncorrectable (sectorDetail u)

/-- An SRAM read of the word of `a` whose code shows `obs` (R112). -/
def State.wordObs (s : State) (a : Nat) (obs : EccObs) : State :=
  let t := sramTile a
  let u := eccUnit a
  if s.poison.contains u then s
  else
    match obs with
    | .clean => s
    | .corrected => s.countWrap (tfld t F.MON_SRAM_ECC_CORR) 1
    | .uncorrectable => (s.poisonAdd u).countWrap (tfld t F.MON_SRAM_ECC_UNCORR) 1

/-- What a memory read changes: the code of its first word or sector shows `obs`; the others show what is stored. -/
def State.readObs (s : State) (a n : Nat) (obs : EccObs) : State :=
  if s.memStatus a n != St.ok || n == 0 then s
  else if regionOf a = some .sram then s.wordObs a obs
  else ((s.flushRange a n).sectorObs a obs).noteRead a n

/-! ### Meanings -/

/-- MEM_READ (R354, R362 to R365, R370, R376, R377): a read at the controllers. -/
def execMemRead (a : BitVec 48) (len : Nat) (obs : EccObs) (s : State) : Host.Outcome State Fault Refusal :=
  .next (s.readObs a.toNat len obs)

/-- MEM_WRITE (R363 to R369, R387): a write that reaches the memory system; to unmapped or offline memory it fails and
changes nothing. -/
def execMemWrite (a : BitVec 48) (d : List Byte) (s : State) : Host.Outcome State Fault Refusal :=
  .next (if s.memStatus a.toNat d.length = St.ok then s.writeBytes a.toNat d else s)

/-- WCB_ENTRY_DRAIN (R371): every entry allocated 1 µs ago or longer drains, the oldest first. -/
def execWcbEntryDrain (c : CtrlId) (now : BitVec 64) (s : State) : Host.Outcome State Fault Refusal :=
  let s := s.at_ now
  let l := s.wcbOf c
  let old := fun (e : WcbEntry) => decide (e.born + 1000 ≤ s.clock.ns.toNat)
  .next ((l.filter old).foldl (fun s e => s.drainEntry c e) (s.setWcb c (l.filter (fun e => !old e))))

/-- The write of MEM_WCB.DRAIN (R372). -/
def State.drainWrite (s : State) (c : CtrlId) (v : BitVec 64) : State := if bitN v.toNat 0 then s.drainAll c else s

/-- PATROL_SCRUB (R378): one read of the patrol; it pauses while MRC is out of service (Table 9-6), stops at PERIOD 0,
and the last read of a pass counts the pass. -/
def execPatrolScrub (c : CtrlId) (a : BitVec 48) (obs : EccObs) (last : Bool) (s : State) : Host.Outcome State Fault Refusal :=
  .next (
    if s.fld (cfld c F.MEM_SCRUB_PERIOD) = 0 ∨ ¬ s.ready 2 ∨ s.memStatus a.toNat 1 ≠ St.ok ∨ regionOf a.toNat = some .sram
        ∨ ctrlOf a.toNat ≠ c then s
    else
      let s := s.sectorObs a.toNat obs
      if last then s.countWrap (cfld c F.MEM_SCRUB_PASSES) 1 else s)

/-- MEM_CE_RATE (R379): raised once in an interval whose count has passed CE_LIMIT. -/
def execMemCeRate (c : CtrlId) (s : State) : Host.Outcome State Fault Refusal :=
  let k := s.clock.ns.toNat / 1000000000
  let o := Tab.get (fun _ => (k, 0, false)) s.ceCount c.val
  .next (
    if o.1 = k ∧ s.fld (cfld c F.MEM_SCRUB_CE_LIMIT) < o.2.1 ∧ o.2.2 = false then
      { s with ceCount := Tab.set c.val (k, o.2.1, true) s.ceCount }.raise (ctrlSrc c) St.memCeRate []
    else s)

/-- HBM_TEMP_READ (R381): double-rate refresh from a reading above 85 °C until one below 82 °C; in 1/16 °C. -/
def execHbmTempRead (k : Fin 12) (temp : Int) (s : State) : Host.Outcome State Fault Refusal :=
  let c : CtrlId := Fin.ofNat 44 k.val
  let s := s.setFld (cfld c F.MEM_TEMP_TEMP) (wrapN 16 temp)
  .next (
    if 85 * 16 < temp then s.setFld (cfld c F.MEM_STAT_HOT_REFRESH) 1
    else if temp < 82 * 16 then s.setFld (cfld c F.MEM_STAT_HOT_REFRESH) 0
    else s)

/-- MEM_TRAINING_LOST (R380): FAILED, out of service, and a fatal event, whose code the manual does not give (a free
value, assumption log 9). -/
def execMemTrainingLost (c : CtrlId) (s : State) : Host.Outcome State Fault Refusal :=
  let s := ((s.setFld (cfld c F.MEM_STAT_FAILED) 1).setFld (cfld c F.MEM_STAT_READY) 0).putReady (20 + c.val) false
  let r := s.drawFree
  .next (r.2.raiseFatal (ctrlSrc c) (BitVec.ofNat 16 r.1.toNat) [])

/-! ### NAND (R393 to R398) -/

/-- Logical blocks of the flash (R394). -/
def nandBlocks : Nat := 3906250000

def flashKey : FlashReq → Nat
  | .resilience => 0
  | .rcc => 1
  | .bsc => 2

/-- OK or FLASH_RANGE for n blocks from lba (R396). A requester to which firmware has assigned no region may use the
whole flash (assumption log 10). -/
def State.flashStatus (s : State) (p : FlashReq) (lba n : Nat) : Status :=
  let r := Tab.get (fun _ => (0, nandBlocks)) s.flashRegion (flashKey p)
  if r.1 ≤ lba ∧ lba + n ≤ r.2 ∧ lba + n ≤ nandBlocks then St.ok else St.flashRange

/-- NAND_READ (R394, R396). The controller takes no request before it is ready. -/
def execNandRead (p : FlashReq) (lba n : Nat) (retry bad : Bool) (s : State) : Host.Outcome State Fault Refusal :=
  .next (
    if !s.bit F.NAND_STAT_READY then s
    else if s.flashStatus p lba n != St.ok then s.setFld F.NAND_STAT_ERR 1
    else if bad then (s.countWrap F.NAND_ECC_UNCORR 1).setFld F.NAND_STAT_ERR 1
    else if retry then s.countWrap F.NAND_ECC_RETRIES 1
    else s)

/-- Writes flash blocks and the life counter (R395). -/
def State.flashPut (s : State) (lba : Nat) (d : List Byte) : State :=
  let s := { s with flash := s.flash.writeN (lba * 4096) d, flashBytes := s.flashBytes + d.length }
  s.setFld F.NAND_WEAR_HOST_WRITTEN (s.flashBytes / 1000000000)

/-- NAND_WRITE (R394, R395, R397): refused for good once the spare blocks fall below 1 %. -/
def execNandWrite (p : FlashReq) (lba : Nat) (d : List Byte) (s : State) : Host.Outcome State Fault Refusal :=
  let s' := if s.fld F.NAND_WEAR_SPARE = 0 then s.setFld F.NAND_STAT_READ_ONLY 1 else s
  .next (
    if !s.bit F.NAND_STAT_READY then s
    else if s'.bit F.NAND_STAT_READ_ONLY || s'.flashStatus p lba (ceilDiv d.length 4096) != St.ok then
      s'.setFld F.NAND_STAT_ERR 1
    else s'.flashPut lba d)

end Sys2Proof.Machine
end

