-- ==== Sys2Proof/Machine/Engine.lean ====
section
/-! DEFINITION. What the four engines of a tile share: SRAM partitions (R113), the queue and its head, the completion
record and the status registers of a completion, the numeric-event counters of the tile, and the digest slots
(R524 to R527, R704). Engine codes are those of Table 3-5: 0 tensor, 1 element, 2 solver, 3 bobbin. -/

namespace Sys2Proof.Machine

/-! ### Digests -/

/-- P of R524. -/
def digestP : Nat := 2 ^ 61 - 1

/-- dkey of R524. -/
def dkey (key d i : Nat) : Nat :=
  let x : BitVec 64 := BitVec.ofNat 64 key + BitVec.ofNat 64 ((d <<< 40) ||| i) * 0x9E3779B97F4A7C15
  let x := (x ^^^ (x >>> 30)) * 0xBF58476D1CE4E5B9
  let x := (x ^^^ (x >>> 27)) * 0x94D049BB133111EB
  let x := x ^^^ (x >>> 31)
  let k := x.toNat % digestP
  if k = 0 then 1 else k

/-- add of R524. -/
def digestAdd (key d acc i b : Nat) : Nat := (acc + b % digestP * dkey key d i) % digestP

/-- KEY of the draft (Table 13-4). -/
def State.digestKey (s : State) : Nat := match s.draft with | none => 0 | some d => d.key

/-- Is a digest slot mapped on the tile (R704)? -/
def State.slotMapped (s : State) (t : TileId) (slot : Nat) : Bool :=
  bitN (s.reg (R.DIGEST_CFG + tileBase t + 8 * slot)).toNat 63

def State.slotDid (s : State) (t : TileId) (slot : Nat) : Nat :=
  (s.reg (R.DIGEST_CFG + tileBase t + 8 * slot)).toNat % 65536

/-- The bank that a DG operation issued now adds to: the open bank of the shuttle's current pick, else the bank of the
pick that its next TWAIT makes current, written with noPick until then (R526, R704). -/
def Tile.openBank (x : Tile) : Pick :=
  match x.cur with
  | none => noPick
  | some p => (match x.shut with
    | some q => if p ≤ q then noPick else p
    | none => p)

/-- Adds elements (index, bits) to a slot of a bank. -/
def State.bankAdd (s : State) (t : TileId) (p : Pick) (slot : Nat) (els : List (Nat × Nat)) : State :=
  if els.isEmpty then s
  else
    let did := s.slotDid t slot
    let x := s.tile t
    let b := match x.banks.find? (fun b => b.pick == p) with | some b => b | none => ⟨p, [], false, false⟩
    let a := els.foldl (fun a e => digestAdd s.digestKey did a e.1 e.2) (Tab.get (fun _ => 0) b.acc slot)
    let b' := { b with acc := Tab.set slot a b.acc }
    let l := if x.banks.any (fun b => b.pick == p) then x.banks.map (fun c => if c.pick == p then b' else c)
      else x.banks ++ [b']
    s.setTile t { x with banks := l }

/-! ### Partitions and SRAM access -/

/-- Does every byte of the n from SRAM offset a lie in a partition whose ENGINES bit is set (R113)? Partitions begin
and end on multiples of 8 KiB. -/
def Tile.inParts (x : Tile) (eng a n : Nat) : Bool :=
  n == 0 || (decide (a + n ≤ 0x800000) &&
    (List.range ((a + n - 1) / 8192 - a / 8192 + 1)).all (fun i =>
      x.parts.any (fun p => p.engines.getLsbD eng && decide (p.off ≤ (a / 8192 + i) * 8192) &&
        decide ((a / 8192 + i) * 8192 < p.off + p.size))))

/-- Bytes of the tile's SRAM. -/
def State.sram (s : State) (t : TileId) (a n : Nat) : List Byte := s.bytes (sramAddr t a) n

/-- A number of n bytes in the tile's SRAM. -/
def State.sramNat (s : State) (t : TileId) (a n : Nat) : Nat := leNat (s.sram t a n)

/-- Does a read meet a poisoned word? -/
def State.sramBad (s : State) (t : TileId) (a n : Nat) : Bool := s.badRead (sramAddr t a) n

/-- Writes bytes into the tile's SRAM. -/
def State.sramWrite (s : State) (t : TileId) (a : Nat) (d : List Byte) : State := s.sramPut (sramAddr t a) d

/-- Do two byte ranges overlap? -/
def overlaps (a n b m : Nat) : Bool := decide (0 < n) && decide (0 < m) && decide (a < b + m) && decide (b < a + n)

/-! ### Queue and completion -/

/-- Queue of an engine. -/
def Tile.queue (x : Tile) (k : Nat) : List QEntry := Tab.get (fun _ => []) x.q k
def Tile.setQueue (x : Tile) (k : Nat) (l : List QEntry) : Tile := { x with q := Tab.set k l x.q }
/-- The operation an engine runs. -/
def Tile.running (x : Tile) (k : Nat) : Option EngRun := Tab.get (fun _ => none) x.run k
def Tile.setRun (x : Tile) (k : Nat) (r : Option EngRun) : Tile := { x with run := Tab.set k r x.run }
/-- Tickets issued since the last CMP reset, without wrapping (R122). -/
def Tile.tickets (x : Tile) (k : Nat) : Nat := Tab.get (fun _ => 0) x.issued k
/-- Statuses kept for the 64 most recently issued tickets (R121). -/
def Tile.statuses (x : Tile) (k : Nat) : List (Word × Status) := Tab.get (fun _ => []) x.hist k

/-- The status of a completed ticket. -/
def Tile.statusOf (x : Tile) (k : Nat) (n : Word) : Option Status :=
  ((x.statuses k).find? (fun e => e.1 == n)).map Prod.snd

/-- Keeps the status of a completed ticket; those of tickets older than the 64 most recent are dropped (R121). -/
def Tile.putStatus (x : Tile) (k : Nat) (n : Word) (st : Status) : Tile :=
  let l := Tab.get (fun _ => []) x.hist k ++ [(n, st)]
  { x with hist := Tab.set k (l.drop (l.length - 64)) x.hist }

/-- The head of an engine's queue when the engine may start it: its die is in service and nothing runs. -/
def State.engHead (s : State) (t : TileId) (k : Nat) : Option QEntry :=
  if s.tileReady t && ((s.tile t).running k).isNone then ((s.tile t).queue k).head? else none

/-- Takes the head off the queue and makes r the running operation. -/
def State.startEng (s : State) (t : TileId) (k : Nat) (r : EngRun) : State :=
  s.modTile t (fun x => (x.setQueue k ((x.queue k).drop 1)).setRun k (some r))

/-- An operation that executes nothing: it completes with a status and both counters 0. -/
def EngRun.failed (e : QEntry) (st : Status) (crec : Option Nat) : EngRun :=
  { ticket := e.ticket, status := st, nsat := 0, nflush := 0, crec := crec, cycles := 0, work := 0, x1 := 0, x2 := 0,
    x3 := 0, x4 := 0, bank := e.bank, outcome := none }

/-- Registers of one engine in its tile's block. -/
structure EngRegs where
  err : Fld
  lastDone : Fld
  first : Fld

def engRegs (k : Nat) : EngRegs :=
  match k with
  | 0 => ⟨F.TENSOR_STAT_ERR, F.TENSOR_STAT_LAST_DONE, F.TENSOR_STAT_FIRST_STATUS⟩
  | 1 => ⟨F.ELEM_STAT_ERR, F.ELEM_STAT_LAST_DONE, F.ELEM_STAT_FIRST_STATUS⟩
  | 2 => ⟨F.SOLVER_STAT_ERR, F.SOLVER_STAT_LAST_DONE, F.SOLVER_STAT_FIRST_STATUS⟩
  | _ => ⟨F.BOBBIN_STAT_ERR, F.BOBBIN_STAT_LAST_DONE, F.BOBBIN_STAT_FIRST_STATUS⟩

/-- Sets ERR of an engine, records the first status while ERR was clear, and raises the event (R180, R216, R250, R301). -/
def State.engError (s : State) (t : TileId) (k : Nat) (st : Status) (detail : List Byte) : State :=
  let r := engRegs k
  let s := if s.bit (tfld t r.err) then s else s.setFld (tfld t r.first) st.toNat
  (s.setFld (tfld t r.err) 1).raise (tileSrc t) st detail

/-- Adds the numeric events of a completed operation to NUM_NSAT and NUM_NFLUSH (R179, R253). -/
def State.numAdd (s : State) (t : TileId) (nsat nflush : Nat) : State :=
  (s.count (tfld t F.NUM_NSAT_COUNT) nsat).count (tfld t F.NUM_NFLUSH_COUNT) nflush

/-- Lateness reported between a mark and its commit counts to the snapshot's cost (R609). -/
def State.costLate (s : State) (ns : Nat) : State :=
  if s.resil.phase = .idle then s else { s with resil := { s.resil with lateCost := s.resil.lateCost + ns } }

/-- Raises the late-phase records owed by the tile when a running operation ends (R55, R519). -/
def State.payLate (s : State) (t : TileId) : State :=
  let owed := (s.tile t).lateOwed
  owed.foldl (fun s o =>
    ((s.costLate (s.clock.ns.toNat - o.2.2)).raise (tileSrc t) 0x0701 ([BitVec.ofNat 8 o.1, BitVec.ofNat 8 o.2.1] ++
      leBytes 6 (min (s.clock.ns.toNat - o.2.2) (2 ^ 48 - 1)))).count F.TIME_PICK_LATE 1)
    (s.modTile t (fun x => { x with lateOwed := [] }))

/-- Ends the operation that an engine runs: its status is kept, LAST_DONE and ERR follow. `err` says whether the status
sets ERR, and `detail` is the event's. -/
def State.endEng (s : State) (t : TileId) (k : Nat) (r : EngRun) (err : Bool) (detail : List Byte) : State :=
  let s := s.modTile t (fun x => (x.putStatus k r.ticket r.status).setRun k none)
  let s := s.setFld (tfld t (engRegs k).lastDone) r.ticket.toNat
  let s := if err then s.engError t k r.status detail else s
  s.payLate t

/-- 32 bits that stop at 0xFFFF_FFFF (completion records). -/
def stop32 (n : Nat) : Nat := min n 0xFFFFFFFF

end Sys2Proof.Machine
end

