-- ==== Sys2Proof/Machine/Bobbin.lean ====
section
/-! DEFINITION. The bobbin controller (R205 to R218): up to four activation stacks of a tile in HBM and LPDDR5X. -/

namespace Sys2Proof.Machine

/-- Fields of a bobbin descriptor (Table 5-4). -/
structure BobDesc where
  sram : Nat
  len : Nat
  tag : Nat
  stack : Nat
  op : Nat
  all : Bool
  drop : Bool
  resv : Bool
  crec : Nat
deriving DecidableEq, Repr

def BobDesc.of (d : List Byte) : BobDesc :=
  { sram := bytesAt d 0 4, len := bytesAt d 4 4, tag := bytesAt d 8 2, stack := bitsN (bytesAt d 10 1) 7 6,
    op := bitsN (bytesAt d 10 1) 3 0, all := bitN (bytesAt d 11 1) 1, drop := bitN (bytesAt d 11 1) 0,
    resv := bitsN (bytesAt d 10 1) 5 4 != 0 || bitsN (bytesAt d 11 1) 7 2 != 0 || bytesAt d 16 48 != 0,
    crec := bytesAt d 12 4 }

/-- NSTACKS of a tile (R205). -/
def State.nstacks (s : State) (t : TileId) : Nat := 2 ^ min 2 (s.fld (tfld t F.BOBBIN_HBM_NSTACKS))

/-- A stack's share of the HBM region, in bytes (R205). -/
def State.hbmShare (s : State) (t : TileId) : Nat := s.fld (tfld t F.BOBBIN_HBM_SIZE) / s.nstacks t * 65536
/-- A stack's share of the LPDDR5X region, in bytes (R205). -/
def State.lpShare (s : State) (t : TileId) : Nat := s.fld (tfld t F.BOBBIN_LP_SIZE) / s.nstacks t * 65536

/-- Node-local address of a stack offset: the HBM share first, the LPDDR5X share after it (assumption log 17). -/
def State.bobAddr (s : State) (t : TileId) (stack off : Nat) : Nat :=
  if off < s.hbmShare t then s.fld (tfld t F.BOBBIN_HBM_BASE) * 65536 + stack * s.hbmShare t + off
  else s.fld (tfld t F.BOBBIN_LP_BASE) * 65536 + stack * s.lpShare t + (off - s.hbmShare t)

def Tile.bobStack (x : Tile) (k : Nat) : List BobEntry := Tab.get (fun _ => []) x.bobStacks k

/-- Bytes an entry occupies (R206); an entry with DROP has no payload (R211, assumption log 17). -/
def bobOcc (len : Nat) (drop : Bool) : Nat := alignUp (64 + (if drop then 0 else len)) 256

/-- Where a push of n bytes lands: after the top in HBM while it fits there and the top is in HBM, else in the
LPDDR5X share; none when it fits in neither (R207). -/
def bobPlace (hbm lp n : Nat) (stack : List BobEntry) : Option Nat :=
  let next := match stack with | [] => 0 | e :: _ => e.off + e.occ
  let inHbm := match stack with | [] => true | e :: _ => decide (e.off < hbm)
  if inHbm && decide (next + n ≤ hbm) then some next
  else
    let o := if inHbm then hbm else next
    if o + n ≤ hbm + lp then some o else none

/-- A stack with BOBBIN_TOP brought up to date. -/
def State.setStack (s : State) (t : TileId) (k : Nat) (l : List BobEntry) : State :=
  let s := s.modTile t (fun x => { x with bobStacks := Tab.set k l x.bobStacks })
  (s.setFld ((tfld t F.BOBBIN_TOP_DEPTH).plus (8 * k)) l.length).setFld ((tfld t F.BOBBIN_TOP_USED).plus (8 * k))
    (l.map BobEntry.occ).sum

/-- The header of an entry (R206). -/
def bobHeader (tag len : Nat) (drop : Bool) (prev : Nat) : List Byte :=
  leBytes 2 tag ++ [BitVec.ofNat 8 (natOf drop)] ++ zeros 1 ++ leBytes 4 len ++ leBytes 8 prev ++ zeros 48

/-- Checks 1 to 3 of Table 5-5; none when they pass. -/
def State.bobCheck (s : State) (t : TileId) (x : BobDesc) : Option Status :=
  let ti := s.tile t
  if x.crec % 32 ≠ 0 ∨ ti.inParts 3 x.crec 32 = false then some St.badDescriptor
  else if x.resv || x.op == 0 || decide (3 < x.op) || (x.all && x.op != 3) || (x.drop && x.op != 1)
      || decide (s.nstacks t ≤ x.stack) || x.sram % 64 != 0 || x.len % 64 != 0 || decide (8388608 < x.len)
      || !ti.inParts 3 x.sram x.len then some St.badDescriptor
  else if s.bit (tfld t F.BOBBIN_STAT_FAULTED) && x.op != 3 then some 0x0414
  else none

/-- The bobbin operation that the queue's head becomes: status and the record fields TAG, LEN, FLAGS; its operation
code stands in `work`. -/
def State.startBob (s : State) (t : TileId) (e : QEntry) (st : Status) (crec : Option Nat) (stack tag len flags : Nat) :
    State :=
  s.startEng t 3 { EngRun.failed e st crec with
    work := (BobDesc.of e.desc).op, x1 := tag, x2 := len, x3 := flags, x4 := ((s.tile t).bobStack stack).length }

def State.bobFault (s : State) (t : TileId) : State := s.setFld (tfld t F.BOBBIN_STAT_FAULTED) 1

/-- A PUSH that has passed checks 1 to 3 (R207, R209). -/
def State.bobPush (s : State) (t : TileId) (e : QEntry) (x : BobDesc) : State :=
  let st := (s.tile t).bobStack x.stack
  let hbm := s.hbmShare t
  match bobPlace hbm (s.lpShare t) (bobOcc x.len x.drop) st with
  | none => (s.bobFault t).startBob t e 0x0410 (some x.crec) x.stack 0 0 0
  | some o =>
    let pay := if x.drop then [] else s.sram t x.sram x.len
    let a := s.bobAddr t x.stack o
    if !x.drop && s.sramBad t x.sram x.len then s.startBob t e St.uncorrectable (some x.crec) x.stack 0 0 0
    else if s.memStatus a (64 + pay.length) ≠ St.ok then
      s.startBob t e (s.memStatus a (64 + pay.length)) (some x.crec) x.stack 0 0 0
    else
      let prev := match st with | [] => 2 ^ 64 - 1 | p :: _ => p.off
      let s := s.writeBytes a (bobHeader x.tag x.len x.drop prev ++ pay)
      let s := s.setStack t x.stack (⟨o, bobOcc x.len x.drop, x.tag, x.len, x.drop⟩ :: st)
      s.startBob t e St.ok (some x.crec) x.stack x.tag x.len (if o < hbm then 0 else 2)

/-- A POP that has passed checks 1 to 3 (R209 to R212). -/
def State.bobPop (s : State) (t : TileId) (e : QEntry) (x : BobDesc) : State :=
  match (s.tile t).bobStack x.stack with
  | [] => (s.bobFault t).startBob t e 0x0411 (some x.crec) x.stack 0 0 0
  | top :: rest =>
    let a := s.bobAddr t x.stack top.off
    let ovf := if top.off < s.hbmShare t then 0 else 2
    let n := if top.drop then 0 else top.len
    if top.tag ≠ x.tag then (s.bobFault t).startBob t e 0x0412 (some x.crec) x.stack top.tag 0 0
    else if top.len ≠ x.len then (s.bobFault t).startBob t e 0x0413 (some x.crec) x.stack top.tag 0 0
    else if s.memStatus a (64 + n) ≠ St.ok then
      s.startBob t e (s.memStatus a (64 + n)) (some x.crec) x.stack top.tag 0 0
    else if s.badRead a (64 + n) then
      let f := (s.noteRead a (64 + n)).drawBytes n
      ((f.2.sramWrite t x.sram f.1).bobFault t).setStack t x.stack rest |>.startBob t e St.uncorrectable (some x.crec)
        x.stack top.tag top.len ovf
    else
      let s := if top.drop then s else s.sramWrite t x.sram (s.bytes (a + 64) top.len)
      (s.setStack t x.stack rest).startBob t e St.ok (some x.crec) x.stack top.tag top.len (ovf + natOf top.drop)

/-- A RESET that has passed checks 1 to 3 (R213). -/
def State.bobClear (s : State) (t : TileId) (e : QEntry) (x : BobDesc) : State :=
  let s := if x.all then [0, 1, 2, 3].foldl (fun s k => s.setStack t k []) s else s.setStack t x.stack []
  (s.setFld (tfld t F.BOBBIN_STAT_FAULTED) 0).startBob t e St.ok (some x.crec) x.stack 0 0 0

/-- The head of the bobbin queue executes when its operation is `op`; a reserved operation, which check 2 refuses, and a
descriptor that could not be read execute as any of the three. -/
def State.bobRun (s : State) (t : TileId) (op : Nat) : State :=
  match s.engHead t 3 with
  | none => s
  | some e =>
    let x := BobDesc.of e.desc
    if e.bad then s.startBob t e St.uncorrectable none 0 0 0 0
    else if 1 ≤ x.op ∧ x.op ≤ 3 ∧ x.op ≠ op then s
    else
      match s.bobCheck t x with
      | some st =>
        let crec := if x.crec % 32 = 0 ∧ (s.tile t).inParts 3 x.crec 32 then some x.crec else none
        s.startBob t e st crec x.stack 0 0 0
      | none => if x.op = 1 then s.bobPush t e x else if x.op = 2 then s.bobPop t e x else s.bobClear t e x

/-- PUSH (R206 to R210). -/
def execPush (t : TileId) (s : State) : Host.Outcome State Fault Refusal := .next (s.bobRun t 1)

/-- POP (R209 to R212). -/
def execPop (t : TileId) (s : State) : Host.Outcome State Fault Refusal := .next (s.bobRun t 2)

/-- BOBBIN_RESET (R213). -/
def execBobbinReset (t : TileId) (s : State) : Host.Outcome State Fault Refusal := .next (s.bobRun t 3)

/-- Completion record of Table 5-6. -/
def bobRecord (r : EngRun) (now : BitVec 64) : List Byte :=
  leBytes 2 r.status.toNat ++ leBytes 2 r.x1 ++ leBytes 4 r.ticket.toNat ++ leBytes 4 r.x2 ++
    [BitVec.ofNat 8 r.x3] ++ zeros 3 ++ leBytes 4 r.x4 ++ zeros 4 ++ leBytes 8 now.toNat

/-- The end of the running bobbin operation (R214 to R216). -/
def State.bobEnd (s : State) (t : TileId) (r : EngRun) : State :=
  let s := match r.crec with
    | none => s
    | some a => s.sramWrite t a (bobRecord r s.clock.ns)
  let s :=
    if r.status ≠ St.ok then s
    else if r.work = 1 then
      let s := s.countWrap (tfld t F.BOBBIN_OPS_PUSHES) 1
      if bitN r.x3 1 then s.countWrap (tfld t F.BOBBIN_SPILL_OVERFLOWS) 1 else s
    else if r.work = 2 then
      let s := s.countWrap (tfld t F.BOBBIN_OPS_POPS) 1
      if bitN r.x3 0 then s.countWrap (tfld t F.BOBBIN_SPILL_DROPS) 1 else s
    else s
  s.endEng t 3 r (r.status != St.ok) (leBytes 4 r.ticket.toNat ++ leBytes 2 r.x1)

/-- BOBBIN_COMPLETE (R214 to R216). -/
def execBobbinComplete (t : TileId) (s : State) : Host.Outcome State Fault Refusal :=
  .next (match (s.tile t).running 3 with
    | none => s
    | some r => s.bobEnd t r)

end Sys2Proof.Machine
end

