-- ==== Sys2Proof/Machine/Keccak.lean ====
section
/-! DEFINITION. SHAKE256 and KMAC256, which the manual names for draft, chunk and measurement digests and for session
tags. The manual names the functions and their standards; the algorithms are those of FIPS 202 and SP 800-185
(PRESUMED, assumption log 8). -/

namespace Sys2Proof.Machine

/-- Rotation offsets of ρ by lane x + 5y. -/
def keccakRot : List Nat :=
  [0, 1, 62, 28, 27, 36, 44, 6, 55, 20, 3, 10, 43, 25, 39, 41, 45, 15, 21, 8, 18, 2, 61, 56, 14]

/-- Round constants of ι. -/
def keccakRc : List (BitVec 64) :=
  [0x0000000000000001, 0x0000000000008082, 0x800000000000808A, 0x8000000080008000, 0x000000000000808B,
   0x0000000080000001, 0x8000000080008081, 0x8000000000008009, 0x000000000000008A, 0x0000000000000088,
   0x0000000080008009, 0x000000008000000A] ++
  [0x000000008000808B, 0x800000000000008B, 0x8000000000008089, 0x8000000000008003, 0x8000000000008002,
   0x8000000000000080, 0x000000000000800A, 0x800000008000000A, 0x8000000080008081, 0x8000000000008080,
   0x0000000080000001, 0x8000000080008008]

/-- Lane i of a state. -/
def lane (a : List (BitVec 64)) (i : Nat) : BitVec 64 := a.getD i 0

/-- θ. -/
def keccakTheta (a : List (BitVec 64)) : List (BitVec 64) :=
  let c := (List.range 5).map (fun x => lane a x ^^^ lane a (x + 5) ^^^ lane a (x + 10) ^^^ lane a (x + 15) ^^^ lane a (x + 20))
  let d := (List.range 5).map (fun x => lane c ((x + 4) % 5) ^^^ (lane c ((x + 1) % 5)).rotateLeft 1)
  (List.range 25).map (fun i => lane a i ^^^ lane d (i % 5))

/-- ρ and π. -/
def keccakRhoPi (a : List (BitVec 64)) : List (BitVec 64) :=
  (List.range 25).map (fun i =>
    let j := (i % 5 + 3 * (i / 5)) % 5 + 5 * (i % 5)
    (lane a j).rotateLeft (keccakRot.getD j 0))

/-- χ. -/
def keccakChi (a : List (BitVec 64)) : List (BitVec 64) :=
  (List.range 25).map (fun i =>
    lane a i ^^^ (~~~ lane a (i / 5 * 5 + (i + 1) % 5) &&& lane a (i / 5 * 5 + (i + 2) % 5)))

/-- One round; ι adds the round constant to lane 0. -/
def keccakRound (a : List (BitVec 64)) (rc : BitVec 64) : List (BitVec 64) :=
  match keccakChi (keccakRhoPi (keccakTheta a)) with
  | [] => []
  | x :: r => (x ^^^ rc) :: r

/-- Keccak-f[1600]. -/
def keccakF (a : List (BitVec 64)) : List (BitVec 64) := keccakRc.foldl keccakRound a

/-- The state with a block of bytes added to its first lanes. -/
def absorb (a : List (BitVec 64)) (b : List Byte) : List (BitVec 64) :=
  (List.range 25).map (fun i => lane a i ^^^ BitVec.ofNat 64 (bytesAt b (8 * i) 8))

/-- Absorbs n blocks of 136 bytes. -/
def absorbAll : Nat → List (BitVec 64) → List Byte → List (BitVec 64)
  | 0, a, _ => a
  | n + 1, a, m => absorbAll n (keccakF (absorb a (m.take 136))) (m.drop 136)

/-- Squeezes n blocks of 136 bytes. -/
def squeeze : Nat → List (BitVec 64) → List Byte
  | 0, _ => []
  | n + 1, a => ((a.take 17).flatMap (fun x => leBytes 8 x.toNat)) ++ squeeze n (keccakF a)

/-- A sponge of rate 136 with domain byte `sfx`; `len` output bytes. -/
def sponge (sfx : Byte) (m : List Byte) (len : Nat) : List Byte :=
  let pad := 136 - m.length % 136
  let p := if pad = 1 then [sfx ||| 0x80] else sfx :: (zeros (pad - 2) ++ [0x80])
  let m := m ++ p
  (squeeze (ceilDiv len 136) (absorbAll (m.length / 136) (List.replicate 25 0) m)).take len

/-- SHAKE256 with `len` output bytes. -/
def shake256 (m : List Byte) (len : Nat) : List Byte := sponge 0x1F m len

/-- Bytes of n, most significant first, at least one. -/
def beBytes (n : Nat) : List Byte := (leBytes (max 1 (n.log2 / 8 + 1)) n).reverse

def leftEncode (n : Nat) : List Byte := BitVec.ofNat 8 (beBytes n).length :: beBytes n
def rightEncode (n : Nat) : List Byte := beBytes n ++ [BitVec.ofNat 8 (beBytes n).length]
def encodeString (s : List Byte) : List Byte := leftEncode (8 * s.length) ++ s

/-- bytepad to the rate of 136. -/
def bytepad (x : List Byte) : List Byte :=
  let y := leftEncode 136 ++ x
  y ++ zeros (alignUp y.length 136 - y.length)

/-- KMAC256 of key k and message m, `len` output bytes, with an empty customisation string unless one is given. -/
def kmac256 (k m : List Byte) (len : Nat) (cust : List Byte) : List Byte :=
  sponge 0x04 (bytepad (encodeString [0x4B, 0x4D, 0x41, 0x43] ++ encodeString cust) ++
    bytepad (encodeString k) ++ m ++ rightEncode (8 * len)) len

end Sys2Proof.Machine
end

