-- ==== Sys2Proof/Machine/Net.lean ====
section
/-! DEFINITION. What every unit shares of the Tarni fabric: status codes, the bytes of messages and flits (Tables 10-1 to
10-3), the outbound window table (R431 to R434), paths (R422 to R426), sending, requests that await a response, the
well-formedness of an arriving message (R415), and the span directory's transactions (R442 to R446). Readings of the
manual are assumption log 27 and 28. -/

namespace Sys2Proof.Machine

def St.linkReset : Status := 0x0501
def St.noRoute : Status := 0x0502
def St.coherenceDomain : Status := 0x0503
def St.linkDown : Status := 0x0504
def St.linkAuthFailed : Status := 0x0505
def St.msgMalformed : Status := 0x0506

/-- Event SOURCE of the fabric die that holds port p. -/
def fabSrc (p : PortId) : Nat := 0x300 + 0x40 * (p.val / 10)

/-! ### Bytes of messages and flits -/

/-- One byte of the CRC-64/WE of R405. -/
def crcByte (c : BitVec 64) (b : Byte) : BitVec 64 :=
  (List.range 8).foldl (fun (c : BitVec 64) _ => if c.getLsbD 63 then (c <<< 1) ^^^ 0x42F0E1EBA9EA3693 else c <<< 1)
    (c ^^^ (BitVec.setWidth 64 b <<< 56))

/-- The CRC of a byte list (R405). -/
def crc64 (d : List Byte) : BitVec 64 := ~~~ (d.foldl crcByte (BitVec.allOnes 64))

/-- The 16 bytes of a header (Table 10-3). -/
def msgHeader (loc : Bool) (dst src vc : Nat) (rsp cong : Bool) (space opc len addr tag : Nat) : List Byte :=
  leBytes 2 (dst + natOf loc * 32768) ++ leBytes 2 src ++
    leBytes 1 (vc * 32 + natOf rsp * 16 + natOf cong * 8 + space) ++ leBytes 1 opc ++ leBytes 2 len ++ leBytes 6 addr ++ leBytes 2 tag

/-- The slots of a message: its header and its payload, padded to 16 bytes (R410). -/
def OutMsg.slots (src : NodeId) (m : OutMsg) : List Byte :=
  msgHeader m.loc m.dst.toNat src.toNat m.vc m.rsp m.cong m.space m.opc m.len m.addr m.tag.toNat ++
    m.data ++ zeros (alignUp m.data.length 16 - m.data.length)

/-- The message that 16 header bytes open. -/
def msgOfHeader (h : List Byte) : Msg :=
  let a := bytesAt h 0 2
  let b := bytesAt h 2 2
  let c := bytesAt h 4 1
  let l := bytesAt h 6 2
  { loc := bitN a 15, dst := BitVec.ofNat 14 a, src := BitVec.ofNat 14 b, vc := BitVec.ofNat 3 (c / 32), rsp := bitN c 4,
    cong := bitN c 3, resv := bitN a 14 || bitN b 14 || bitN b 15 || bitN c 2 || decide (l / 512 ≠ 0), space := BitVec.ofNat 2 c,
    opc := BitVec.ofNat 8 (bytesAt h 5 1), len := BitVec.ofNat 9 l, addr := BitVec.ofNat 48 (bytesAt h 8 6),
    tag := BitVec.ofNat 16 (bytesAt h 14 2), data := [] }

/-- Payload bytes that follow a header: none after an RD request (R410). -/
def msgPayload (m : Msg) : Nat := if m.opc = 1 ∧ m.rsp = false then 0 else m.len.toNat

/-- Takes the messages that a slot stream completes, and what is left; `n` bounds their number. -/
def parseSlots : Nat → List Byte → List Msg × List Byte
  | 0, d => ([], d)
  | n + 1, d =>
    if d.length < 16 then ([], d)
    else
      let m := msgOfHeader (d.take 16)
      if m.opc = 0 then parseSlots n (d.drop 16)
      else
        let k := msgPayload m
        if d.length < 16 + alignUp k 16 then ([], d)
        else
          let r := parseSlots n (d.drop (16 + alignUp k 16))
          ({ m with data := (d.drop 16).take k } :: r.1, r.2)

/-- A DATA flit (Tables 10-1 and 10-2). -/
def dataFlit (x : Port) (seq : BitVec 16) (slots : List Byte) : List Byte :=
  let h := seq.toNat % 4096 * 2 ^ 52 + x.rxSeq.toNat % 4096 * 2 ^ 40 + natOf x.nak * 2 ^ 39 + 2 ^ 24 +
    seq.toNat / 4096 * 2 ^ 20 + x.rxSeq.toNat / 4096 * 2 ^ 16
  let b := leBytes 8 h ++ slots ++ zeros (240 - slots.length)
  b ++ leBytes 8 (crc64 b).toNat

/-- An IDLE flit: it carries acknowledgements only. -/
def idleFlit (x : Port) : List Byte :=
  let b := leBytes 8 (x.rxSeq.toNat % 4096 * 2 ^ 40 + natOf x.nak * 2 ^ 39 + x.rxSeq.toNat / 4096 * 2 ^ 16) ++ zeros 240
  b ++ leBytes 8 (crc64 b).toNat

/-- Is a port optical (Table 10-5)? -/
def optical (p : PortId) : Bool := p.val == 8 || p.val == 9 || p.val == 18 || p.val == 19

/-- Retry buffer of a port in flits (R406). -/
def retryFlits (p : PortId) : Nat := if optical p then 8192 else 512

/-- Cuts the waiting slots into DATA flits while the retry buffer has room (R406); `n` bounds the flits. -/
def Port.pump (cap : Nat) : Nat → Port → Port
  | 0, x => x
  | n + 1, x =>
    if x.backlog.isEmpty ∨ cap ≤ x.unacked.length then x
    else
      let slots := x.backlog.take 240
      Port.pump cap n { x with backlog := x.backlog.drop 240, txSeq := x.txSeq + 1, unacked := x.unacked ++ [(x.txSeq, slots)],
                               tx := x.tx ++ [dataFlit x x.txSeq slots] }

/-- Puts the slots of a message on a port. -/
def Port.put (cap : Nat) (x : Port) (slots : List Byte) : Port :=
  let b := x.backlog ++ slots ++ zeros (alignUp slots.length 240 - slots.length)
  Port.pump cap b.length { x with backlog := b }

/-! ### Windows -/

/-- Field of window entry n. -/
def winFld (f : Fld) (n : Nat) : Fld := f.plus (32 * n)

/-- Does window entry n match a request (R432)? `right` is the bit of FAB_WIN_CTL that it needs. -/
def State.winEntry (s : State) (n : Nat) (dst : NodeId) (vc opc addr len : Nat) : Bool :=
  let c := fun (f : Fld) => s.fld (winFld f n)
  let checked := vc == 1 || vc == 3 || vc == 4
  let right := match opc with
    | 0x01 => c F.FAB_WIN_CTL_READ
    | 0x10 => c F.FAB_WIN_CTL_READ
    | 0x02 => c F.FAB_WIN_CTL_WRITE
    | 0x04 => c F.FAB_WIN_CTL_WRITE
    | 0x11 => c F.FAB_WIN_CTL_WRITE
    | 0x03 => c F.FAB_WIN_CTL_ATOMIC
    | _ => 0
  c F.FAB_WIN_CTL_VALID == 1 && decide (c F.FAB_WIN_CTL_NODE_LO ≤ dst.toNat) && decide (dst.toNat ≤ c F.FAB_WIN_CTL_NODE_HI) &&
    bitN (c F.FAB_WIN_CTL_VCMASK) vc &&
    (!checked || (right == 1 &&
      (opc == 4 || (decide (c F.FAB_WIN_BASE_BASE * 65536 ≤ addr) && decide (addr + len ≤ c F.FAB_WIN_LIMIT_LIMIT * 65536 + 65536)))))

/-- Does the window table let a request leave (R433)? -/
def State.windowMatch (s : State) (dst : NodeId) (vc opc addr len : Nat) : Bool :=
  (List.range 64).any (fun n => s.winEntry n dst vc opc addr len)

/-! ### Paths -/

/-- path_index of R423. -/
def pathIndex (src dst vc addr l : Nat) : Nat :=
  let k : BitVec 64 := BitVec.ofNat 64 (src + 16411 * dst + 1021 * vc + (if vc = 3 then 65537 * (addr / 4096) else 0))
  let k := (k ^^^ (k >>> 29)) * 0xBF58476D1CE4E5B9
  (k ^^^ (k >>> 32)).toNat % l

/-- The direct ports from slot a to slot b of one span (Table 10-5). -/
def spanPorts (a b : Nat) : List PortId :=
  let x := Nat.xor a b
  if x = 1 then [0, 10] else if x % 2 = 0 then [Fin.ofNat 20 (x / 2)] else [Fin.ofNat 20 (10 + x / 2)]

/-- The slot that port p of slot s reaches (Table 10-5); none for an uplink. -/
def peerSlot (s : Nat) (p : PortId) : Option Nat :=
  if optical p then none
  else if p.val % 10 = 0 then some (Nat.xor s 1)
  else if p.val < 10 then some (Nat.xor s (2 * p.val))
  else some (Nat.xor (Nat.xor s (2 * (p.val - 10))) 1)

/-- Live ports toward a node (R422, R425). -/
def State.pathPorts (s : State) (dst : NodeId) : List PortId :=
  let me := s.nodeId.toNat
  let live := fun (l : List PortId) => l.filter s.portUp
  if dst.toNat / 16 ≠ me / 16 then live [8, 9, 18, 19]
  else
    let direct := live (spanPorts (me % 16) (dst.toNat % 16))
    if !direct.isEmpty then direct
    else if Nat.xor me dst.toNat = 1 then
      match (List.range 16).find? (fun k => k ≠ me % 16 ∧ k ≠ dst.toNat % 16 ∧ !(live (spanPorts (me % 16) k)).isEmpty) with
      | some k => live (spanPorts (me % 16) k)
      | none => []
    else live [0, 10]

/-- The port of a message, if a live path exists (R423, R426). -/
def State.pathTo (s : State) (src dst : NodeId) (vc addr : Nat) : Option PortId :=
  let l := s.pathPorts dst
  l[pathIndex src.toNat dst.toNat vc addr l.length]?

/-! ### Sending -/

/-- SRC of a message that the node sends (R710). -/
def State.srcNode (s : State) : NodeId := if s.nodeValid then s.nodeId else 0

/-- Sends a message with laid-out bytes on a port: its slots join the port's stream. -/
def State.sendOn (s : State) (p : PortId) (m : OutMsg) : State :=
  let src := match m.fwd with | some n => n | none => s.srcNode
  (s.modPort p (fun x => x.put (retryFlits p) (m.slots src))).send { m with port := some p }

/-- Sends a laid-out message toward its destination; with no live path, or to a fenced node, nothing is sent. -/
def State.sendNow (s : State) (m : OutMsg) : State :=
  if s.resil.fence.contains m.dst then s
  else
    match s.pathTo (match m.fwd with | some n => n | none => s.srcNode) m.dst m.vc m.addr with
    | some p => s.sendOn p m
    | none => s

/-- The same, but an output of VC1 to VC4 waits until every input logged so far has been acknowledged (R56). -/
def State.sendTo (s : State) (m : OutMsg) : State :=
  if m.fwd.isNone && decide (1 ≤ m.vc) && decide (m.vc ≤ 4) && decide (s.resil.ackedLsn < s.resil.lsn) then
    { s with resil := { s.resil with held := s.resil.held ++ [.output (s.resil.lsn - 1) m] } }
  else s.sendNow m

/-- Counts a request that no window lets out (R433). -/
def State.blockedOne (s : State) : State := s.countWrap F.FAB_WIN_REFUSED_BLOCKED 1

/-- Sends a message of a virtual channel whose bytes the manual does not lay out: never to a fenced node (R601); on VC1 to
VC6 only through a window, but for answers (R433, R434). Without a live path it waits in the fabric (assumption log 27). -/
def State.tell (s : State) (dst : NodeId) (vc opc : Nat) (args : List Nat) (d : List Byte) : State :=
  let answer := opc == 0x31 || opc == 0x33 || opc == 0x3D
  if s.resil.fence.contains dst then s
  else if decide (1 ≤ vc) && decide (vc ≤ 6) && !answer && dst != s.nodeId && !s.windowMatch dst vc opc 0 0 then s.blockedOne
  else s.send (plainMsg none dst vc opc args d)

/-- The same on VC5 for a bulk payload that goes to an address, cut by the granule rule of R413 (R613). -/
def State.tellBulk (s : State) (dst : NodeId) (opc : Nat) (args : List Nat) (addr : Nat) (d : List Byte) : State :=
  let answer := opc == 0x3D
  if s.resil.fence.contains dst then s
  else if !answer && dst != s.nodeId && !s.windowMatch dst 5 opc 0 0 then s.blockedOne
  else (cut 256 addr d).foldl (fun s p => s.send { plainMsg none dst 5 opc args p.2 with addr := p.1 }) s

/-- A response to a request (Table 10-3): STATUS in ADDR, the request's TAG, CONG as the backlog says. -/
def response (m : Msg) (st : Status) (d : List Byte) : OutMsg :=
  { fwd := none, space := 0, port := none, loc := m.loc, dst := m.src, vc := m.vc.toNat, opc := m.opc.toNat, rsp := true,
    cong := false, addr := st.toNat, len := d.length, tag := m.tag, data := d, args := [] }

/-- A request of the node. -/
def request (dst : NodeId) (vc opc addr len : Nat) (tag : BitVec 16) (d : List Byte) : OutMsg :=
  { fwd := none, space := 0, port := none, loc := false, dst := dst, vc := vc, opc := opc, rsp := false, cong := false,
    addr := addr, len := len, tag := tag, data := d, args := [] }

/-- The request as it is kept until its response comes. -/
def OutMsg.asMsg (m : OutMsg) (src : NodeId) : Msg :=
  { loc := m.loc, dst := m.dst, src := src, vc := BitVec.ofNat 3 m.vc, rsp := m.rsp, cong := m.cong, resv := false,
    space := BitVec.ofNat 2 m.space, opc := BitVec.ofNat 8 m.opc, len := BitVec.ofNat 9 m.len, addr := BitVec.ofNat 48 m.addr,
    tag := m.tag, data := m.data }

/-- A kept request as it is sent again. -/
def msgOut (m : Msg) : OutMsg :=
  { fwd := none, space := m.space.toNat, port := none, loc := m.loc, dst := m.dst, vc := m.vc.toNat, opc := m.opc.toNat,
    rsp := m.rsp, cong := m.cong, addr := m.addr.toNat, len := m.len.toNat, tag := m.tag, data := m.data, args := [] }

/-- Bytes of memory that a request names: an ATOM its target alone (R432, R448). -/
def reachOf (opc len : Nat) : Nat := if opc = 3 then (len - 8) / 2 else len

/-- Makes a request of the node to another node: the status at the source (OK: it was sent) and its tag. -/
def State.ask (s : State) (o : Owner) (dst : NodeId) (vc opc addr len : Nat) (d : List Byte) : State × Status × BitVec 16 :=
  let tag := s.nextTag
  if s.resil.fence.contains dst || s.resil.lost.contains dst then (s, St.nodeLost, tag)
  else if 1 ≤ vc && vc ≤ 6 && opc != 0x12 && opc != 5 && !s.windowMatch dst vc opc addr (reachOf opc len) then (s.blockedOne, St.accessBlocked, tag)
  else
    match s.pathTo s.srcNode dst vc addr with
    | none => (s, St.noRoute, tag)
    | some _ =>
      let m := request dst vc opc addr len tag d
      let r : Req := { msg := m.asMsg s.srcNode, sentAt := s.clock.ns.toNat, sends := 1, owner := o }
      (({ s with nextTag := tag + 1, reqs := s.reqs ++ [r] }).sendTo m, St.ok, tag)

/-! ### Arriving messages -/

/-- The channels of an operation; none for a reserved OPC (Table 10-4, R421, R481, R548, R613). -/
def opcVcs (opc space : Nat) : List Nat :=
  if opc = 1 ∨ opc = 2 then (if space = 1 then [3, 4, 7] else [3, 4])
  else if opc = 3 ∨ opc = 5 then [4]
  else if opc = 4 then [3]
  else if 0x10 ≤ opc ∧ opc ≤ 0x17 then [1]
  else if 0x20 ≤ opc ∧ opc ≤ 0x22 then [2]
  else if 0x30 ≤ opc ∧ opc ≤ 0x3F then [5]
  else if 0x40 ≤ opc ∧ opc ≤ 0x49 then [6]
  else if opc = 0x50 ∨ opc = 0x51 ∨ (0x58 ≤ opc ∧ opc ≤ 0x5B) then [0]
  else if 0x60 ≤ opc ∧ opc ≤ 0x6F then [7]
  else []

/-- Operations that R710 always sends with LOCAL = 1, and those it may. -/
def opcLocal (opc : Nat) (loc : Bool) : Bool :=
  if opc = 0x58 ∨ opc = 0x60 ∨ opc = 0x61 then loc
  else if opc = 0x50 ∨ opc = 0x51 ∨ (0x62 ≤ opc ∧ opc ≤ 0x6F) then true
  else !loc

/-- LEN that R448 gives for an AOP. -/
def atomLen (d : List Byte) : Nat := if bytesAt d 4 1 = 5 then 40 else 24

/-- Is LEN within its limit, for the response of an outstanding request or for a request (R415)? -/
def State.lenOk (s : State) (m : Msg) : Bool :=
  let n := m.len.toNat
  let asked := fun (k : Nat) =>
    match s.reqs.find? (fun r => r.msg.tag == m.tag && r.msg.opc == m.opc) with
    | some r => n == 0 || n == (if k = 3 then (if r.msg.len = 40 then 16 else 8) else r.msg.len.toNat)
    | none => decide (n ≤ 256)
  let granule := decide (m.addr.toNat % 256 + n ≤ 256)
  match m.opc.toNat, m.rsp with
  | 1, false => decide (1 ≤ n) && decide (n ≤ 256) && granule
  | 1, true => asked 1
  | 2, false => decide (1 ≤ n) && decide (n ≤ 256) && granule
  | 2, true => n == 0
  | 3, false => n == atomLen m.data
  | 3, true => asked 3
  | 4, _ => n == 0
  | 5, _ => n == 0
  | _, _ => decide (n ≤ 256)

/-- Is an arriving message malformed (R415)? -/
def State.malformed (s : State) (m : Msg) : Bool :=
  !(opcVcs m.opc.toNat m.space.toNat).contains m.vc.toNat || m.resv || decide (2 ≤ m.space.toNat) || (m.cong && !m.rsp) ||
    !opcLocal m.opc.toNat m.loc || !s.lenOk m

/-- Discards a malformed message, counts it and raises the event (R415). -/
def State.noteMalformed (s : State) (p : PortId) (m : Msg) : State :=
  (s.count (pfld p F.FAB_PORT_ERR_MALFORMED) 1).raise (fabSrc p) St.msgMalformed
    (leBytes 1 p.val ++ (msgHeader m.loc m.dst.toNat m.src.toNat m.vc.toNat m.rsp m.cong m.space.toNat m.opc.toNat m.len.toNat
      m.addr.toNat m.tag.toNat).take 13)

/-- Sends a message for another node on its way (R425). -/
def State.forward (s : State) (m : Msg) : State := s.sendTo { msgOut m with fwd := some m.src }

/-- Something has been received from a node (R600). -/
def State.hear (s : State) (n : NodeId) : State :=
  { s with resil := { s.resil with heard := (n, s.clock.ns.toNat) :: s.resil.heard.filter (fun e => e.1 != n) } }

/-- An arriving message at a port in service: is it for this node, well formed and from no fenced node? -/
def State.intake (s : State) (p : PortId) (m : Msg) : State × Bool :=
  let s := s.modPort p (fun x => { x with rxMsgs := x.rxMsgs.erase m })
  if !s.portUp p || s.resil.fence.contains m.src then (s, false)
  else if s.malformed m then (s.noteMalformed p m, false)
  else if !m.loc && s.nodeValid && m.dst != s.nodeId then (s.forward m, false)
  else (s.hear m.src, true)

/-! ### Span directory -/

/-- Coherence domain (R443): the members of CPU_COHDOM's span. -/
def State.inDomain (s : State) (n : NodeId) : Bool :=
  let base := s.fld F.CPU_COHDOM_SPAN0
  decide (base ≤ n.toNat) && decide (n.toNat < base + 16) && bitN (s.fld F.CPU_COHDOM_MEMBERS) (n.toNat - base)

/-- The open transaction of a line. -/
def State.dirOpen (s : State) (line : Nat) : Bool := s.dirTrans.any (fun t => t.line == line)

/-- State of a line after its holders have given it up or written it back. -/
def State.setDir (s : State) (line : Nat) : Option DirState → State
  | none => { s with dir := Tab.erase line s.dir }
  | some (.shared []) => { s with dir := Tab.erase line s.dir }
  | some d => { s with dir := Tab.set line d s.dir }

/-- Sends INV, FWD_GETS or FWD_GETM to holders and opens the transaction. `body` is the requester's node and tag. -/
def State.openDir (s : State) (line : Nat) (opc : Nat) (dsts : List NodeId) (body : List Byte) (next : Option DirState)
    (waiting : List (PortId × Msg)) : State :=
  let r := dsts.foldl (fun (a : State × List (NodeId × BitVec 16)) n =>
    let tag := a.1.nextTag
    ({ a.1 with nextTag := tag + 1 }.sendTo (request n 1 opc line body.length tag body), a.2 ++ [(n, tag)])) (s, [])
  { r.1 with dirTrans := r.1.dirTrans ++ [⟨line, next, r.2, waiting⟩] }

/-- What an access of a local agent, or from outside the domain, needs of one line before it is served (Table 10-9): the
transaction it opens, none when it may be served at once. -/
def State.recallLine (s : State) (line : Nat) (write : Bool) (waiting : List (PortId × Msg)) : Option State :=
  if s.dirOpen line then
    some { s with dirTrans := s.dirTrans.map (fun t => if t.line = line then { t with waiting := t.waiting ++ waiting } else t) }
  else
    let me := leBytes 2 s.srcNode.toNat ++ leBytes 2 0
    match Tab.find s.dir line with
    | none => none
    | some (.shared set) => if write then some (s.openDir line 0x15 set [] none waiting) else none
    | some (.owned o) =>
      if write then some (s.openDir line 0x14 [o] me none waiting)
      else some (s.openDir line 0x13 [o] me (some (.shared [o])) waiting)

/-- The same for every line of n bytes: the first line that cannot be served at once opens its transaction. -/
def State.recall (s : State) (a n : Nat) (write : Bool) (waiting : List (PortId × Msg)) : Option State :=
  if n = 0 ∨ s.dir.isEmpty ∧ s.dirTrans.isEmpty ∨ sramWindow ≤ a then none
  else
    (List.range ((a + n - 1) / 64 - a / 64 + 1)).findSome? (fun i => s.recallLine ((a / 64 + i) * 64) write waiting)

end Sys2Proof.Machine
end

