-- ==== Sys2Proof/Machine/Area.lean ====
section
/-! DEFINITION. Where the staging region and the resilience area lie (R547, R572): addresses of chunk slots, log rings,
commit records, control-state records, the shard image, the shadow pool, the mirror and the undo buffer, on this member
and on every other member of its span. The order within the area is assumption log 40. -/

namespace Sys2Proof.Machine

/-- First byte of the staging region. -/
def stagingBase (total nmem : Nat) : Nat := 0x030000000000 - alignUp (total + 2 * nmem) 65536

def Draft.base (d : Draft) : Nat := stagingBase d.total d.nmembers

/-- Pages of the control-state record and of the SRAM image. -/
def imagePages : Nat := 32832

/-- Members of the logical span of member m. -/
def spanOf (m n : Nat) : List Nat := (List.range 16).filterMap (fun i => if m / 16 * 16 + i < n then some (m / 16 * 16 + i) else none)

/-- Where the parts of the resilience area of member m lie (R572), as offsets; the order within the area is assumption
log 40. `st` holds the stripes of the span's members. -/
structure AreaMap where
  ring : Nat
  copy : Nat
  recs : Nat
  ctl : Nat
  image : Nat
  shadow : Nat
  mirror : Nat
  undo : Nat
  size : Nat
deriving DecidableEq, Repr

/-- Bytes kept for the commit records of a member of st stripes: two generations of two tiers. -/
def recRoom (st : Nat) : Nat := 4 * alignUp (128 + 256 * st + 16 * 65536) 65536

/-- Slots of the members of a span of which n come before, at a holder of index h: two per stripe. -/
def slotRoom (st : List Nat) (h n : Nat) : Nat :=
  ((List.range n).map (fun i => if i = h then 0 else 2 * st.getD i 0 * 65536)).sum

def areaMap (m : Nat) (st : List Nat) (gib : Nat) (twin : Bool) : AreaMap :=
  let i := m % 16
  let ring := slotRoom st i 16
  let copy := ring + gib * 2 ^ 30
  let recs := copy + gib * 2 ^ 30
  let ctl := recs + recRoom (st.getD i 0) + recRoom (st.getD (Nat.xor i 1) 0) + recRoom (st.getD ((i + 14) % 16) 0)
  let image := ctl + 2 * 64 * 65536
  let shadow := image + imagePages * 65536
  let mirror := shadow + 2 ^ 34
  let undo := mirror + (if twin then st.getD (Nat.xor i 1) 0 * 13 * 65536 else 0)
  { ring := ring, copy := copy, recs := recs, ctl := ctl, image := image, shadow := shadow, mirror := mirror, undo := undo,
    size := undo + (if twin then 2 ^ 34 else 0) }

/-- The parts of this member's resilience area, by node-local address. -/
def State.areaAt (s : State) (d : Draft) (part : AreaMap → Nat) : Nat :=
  s.resil.area.1 + part (areaMap d.member s.resil.stripes s.resil.logGib (s.bit F.CKPT_STAT_TWIN))

/-- Bytes of member q's area; every member of the span has the same policy. -/
def State.areaSize (s : State) (q : Nat) : Nat := (areaMap q s.resil.stripes s.resil.logGib (s.bit F.CKPT_STAT_TWIN)).size

/-- Member index of a node. -/
def Draft.memberOf (d : Draft) (n : NodeId) : Option Nat := d.map.findIdx? (· == n)

/-- Address at holder q of slot b of stripe t of member m (R575). -/
def State.slotAddr (s : State) (d : Draft) (q m t b : Nat) : Nat :=
  d.base - s.areaSize q + slotRoom s.resil.stripes (q % 16) (m % 16) + (2 * t + b) * 65536

/-- Node number of a logical member. -/
def Draft.node (d : Draft) (m : Nat) : Option NodeId := d.map[m]?

/-- The pair partner: the other slot of the same pair of the span. -/
def Draft.partner (d : Draft) : Option NodeId := d.node (if d.member % 2 = 0 then d.member + 1 else d.member - 1)

/-- The copy holder: the node of the same parity in the next pair of the span (R589). -/
def Draft.copyHolder (d : Draft) : Option NodeId :=
  d.node (d.member / 16 * 16 + (d.member % 16 / 2 + 1) % 8 * 2 + d.member % 2)

/-- A part of the area of member q. -/
def State.areaOf (s : State) (d : Draft) (q : Nat) (part : AreaMap → Nat) : Nat :=
  d.base - s.areaSize q + part (areaMap q s.resil.stripes s.resil.logGib (s.bit F.CKPT_STAT_TWIN))

/-- Bytes of a log ring (CKPT_LOG_CFG.SIZE at the load). -/
def State.ringBytes (s : State) : Nat := s.resil.logGib * 2 ^ 30

/-- Ring address of the n-th byte of this member's log at a node: in the ring of its partner, in the copy of its copy holder
(R572, R589). -/
def State.ringAddr (s : State) (d : Draft) (n : NodeId) (pos : Nat) : Nat :=
  match d.memberOf n with
  | none => 0
  | some q => s.areaOf d q (if d.partner = some n then AreaMap.ring else AreaMap.copy) + pos % max 1 s.ringBytes

/-- Address at member q of the commit record of a generation of member m: its own, its partner's, or that of the member
whose log it copies (R572, R583). -/
def State.recPlace (s : State) (d : Draft) (q m : Nat) (tier : Tier) (gen : Nat) : Nat :=
  let room := fun (k : Nat) => recRoom (s.resil.stripes.getD (k % 16) 0)
  let first := if m = q then 0 else if m % 16 = Nat.xor (q % 16) 1 then room q else room q + room (Nat.xor (q % 16) 1)
  s.areaOf d q AreaMap.recs + first + ((if tier = .flash then 2 else 0) + gen % 2) * (room m / 4)

end Sys2Proof.Machine
end

