-- ==== Sys2Proof/Machine/Log.lean ====
section
/-! DEFINITION. Appending to the input log (R587 to R592): the entry, where it goes, and whether its effect must wait
for an acknowledgement (R590). -/

namespace Sys2Proof.Machine

/-- Entry types of Table 14-4. -/
def Lt.write : Nat := 1
def Lt.arrive : Nat := 2
def Lt.read : Nat := 3
def Lt.coll : Nat := 4
def Lt.solve : Nat := 5
def Lt.freeze : Nat := 6
def Lt.external : Nat := 7
def Lt.status : Nat := 8

/-- Is the node replaying (CKPT_STAT.STATE 0x4)? -/
def State.replaying (s : State) : Bool := s.fld F.CKPT_STAT_STATE == 4

/-- The node has been halted for recovery: its members stop issuing (R602). -/
def State.haltedNode (s : State) : Bool := s.fld F.CKPT_STAT_STATE == 2

/-- Index of the last timetable event fired in the current pick; 0 for the pick start. -/
def State.lastEvent (s : State) : Nat := s.clock.fired.headD 0

/-- Is a node lost to the partition? -/
def State.isLost (s : State) (n : NodeId) : Bool := s.resil.lost.contains n

/-- Where log entries go: the partner, or the copy holder while the partner is lost (R589, R592). -/
def State.logTarget (s : State) : Option NodeId :=
  match s.draft with
  | none => none
  | some d =>
    match d.partner with
    | some n => if s.isLost n then d.copyHolder else some n
    | none => d.copyHolder

/-- The bytes of an entry: the header of Table 14-4 and the payload padded to 32 bytes. -/
def LogEntry.bytes (e : LogEntry) : List Byte :=
  leBytes 1 e.type ++ leBytes 1 e.pos ++ zeros 2 ++ leBytes 4 e.payload.length ++ leBytes 6 e.pick.toNat ++ zeros 2 ++
    leBytes 8 e.lsn ++ leBytes 8 e.key ++ e.payload ++ zeros (alignUp e.payload.length 32 - e.payload.length)

/-- Does the node log its inputs: a draft is loaded and the node does not replay. -/
def State.logging (s : State) : Bool :=
  (match s.draft with | none => false | some d => d.loaded) && !s.replaying

/-- LOG_APPEND of an entry to a node, for a position of this member's log. -/
def State.appendAt (s : State) (n : NodeId) (pos lsn : Nat) (b : List Byte) : State :=
  s.tellBulk n 0x32 [lsn] (match s.draft with | some d => s.ringAddr d n pos | none => 0) b

/-- Appends an entry (R587 to R589). The number is the entry's LSN when its effect must wait for LOG_ACK. -/
def State.logInput (s : State) (type key : Nat) (payload : List Byte) : State × Option Nat :=
  if s.logging then
    let e : LogEntry := { type := type, pos := s.lastEvent, pick := s.eventPick, lsn := s.resil.lsn, key := key, payload := payload }
    let pos := s.resil.logPos
    let s := { s with resil := { s.resil with lsn := e.lsn + 1, log := s.resil.log ++ [e], logPos := pos + e.bytes.length,
                                              inputBytes := s.resil.inputBytes + e.bytes.length } }
    match s.logTarget with
    | none => ({ s with resil := { s.resil with ackedLsn := e.lsn + 1 } }, none)
    | some n => (s.appendAt n pos e.lsn e.bytes, some e.lsn)
  else (s, none)

/-- An entry whose effect does not wait for its acknowledgement. -/
def State.logNote (s : State) (type key : Nat) (payload : List Byte) : State := (s.logInput type key payload).1

/-- May an entry serve a request of the current pick? A request is answered in its own pick or in a later one; a freeze map
is activated in its own (R200, R605). -/
def State.logPick (s : State) (e : LogEntry) : Bool :=
  if e.type = Lt.freeze then e.pick == s.eventPick else decide (s.eventPick ≤ e.pick)

/-- The first logged entry of a type and key, in replay (R605). -/
def State.logFind (s : State) (type key : Nat) : Option LogEntry :=
  s.resil.log.find? (fun e => e.type == type && e.key == key && s.logPick e)

/-- KEY of a SOLVE entry (Table 14-4). -/
def solveKey (t : TileId) (seq : Nat) : Nat := t.toNat * 2 ^ 32 + seq

/-- KEY of READ and STATUS entries: a copy's tile, queue and ticket, or a hart and its count since the mark (Table 14-4). -/
def copyKey (t : TileId) (k : Nat) (n : Word) : Nat := t.toNat * 2 ^ 40 + k * 2 ^ 32 + n.toNat
def hartKey (h : HartId) (n : Word) : Nat := 2 ^ 63 + h.toNat * 2 ^ 32 + n.toNat

/-- Takes the first entry of a type and key out of the log that the node replays. -/
def State.logTake (s : State) (type key : Nat) : State × Option LogEntry :=
  match s.logFind type key with
  | none => (s, none)
  | some e => ({ s with resil := { s.resil with log := s.resil.log.erase e } }, some e)

/-- READ payload: the part's address (8 bytes) and the bytes that arrived. The manual gives no layout (assumption log 21). -/
def readPayload (a : Nat) (d : List Byte) : List Byte := leBytes 8 a ++ d

/-- Takes the READ entry of a key and address, and gives its bytes. -/
def State.logRead (s : State) (key a : Nat) : State × Option (List Byte) :=
  match s.resil.log.find? (fun e => e.type == Lt.read && e.key == key && s.logPick e && bytesAt e.payload 0 8 == a) with
  | none => (s, none)
  | some e => ({ s with resil := { s.resil with log := s.resil.log.erase e } }, some (e.payload.drop 8))

/-- Writes what a WRITE or EXTERNAL entry holds. -/
def State.applyWrite (s : State) (e : LogEntry) : State :=
  if s.memStatus e.key e.payload.length = St.ok then s.writeBytes e.key e.payload else s

/-- The kept EXTERNAL entries of a restarted pick are applied again at their POS (R598). -/
def State.reapplyAt (s : State) (i : Nat) : State :=
  let now := fun (e : LogEntry) => e.type == Lt.external && e.pos == i
  (s.resil.reapply.filter now).foldl State.applyWrite
    { s with resil := { s.resil with reapply := s.resil.reapply.filter (fun e => !now e) } }

/-- LOG_APPEND of every entry that has not been acknowledged, to the node that the log goes to now. -/
def State.resendLog (s : State) : State :=
  match s.logTarget with
  | none => s
  | some n =>
    let l := s.resil.log.filter (fun (e : LogEntry) => decide (s.resil.ackedLsn ≤ e.lsn))
    let first := s.resil.logPos - ((l.map (fun e => e.bytes.length)).sum)
    (l.foldl (fun (r : State × Nat) e => (r.1.appendAt n r.2 e.lsn e.bytes, r.2 + e.bytes.length)) (s, first)).1

def St.replayMismatch : Status := 0x030A

/-- The replay ends: an entry that a replayed request needs is absent (R606). The node halts and waits for the
coordinator. -/
def State.replayBroken (s : State) : State := (s.setFld F.CKPT_STAT_STATE 2).raise 0x0700 St.replayMismatch []

end Sys2Proof.Machine
end

