-- ==== Sys2Proof/Machine/Plans.lean ====
section
/-! DEFINITION. The algorithms of R476 and R477 as rounds of transfers between the members of a group. The manual fixes
the shape of each algorithm and that results never depend on it (R478); the pieces and rounds here are assumption
log 29. -/

namespace Sys2Proof.Machine

/-- One transfer of a round: sender, receiver, first wire element at the sender and at the receiver, count, and whether
the receiver combines what arrives. -/
structure Xfer where
  src : Nat
  dst : Nat
  sfirst : Nat
  dfirst : Nat
  n : Nat
  comb : Bool
deriving DecidableEq, Repr

abbrev Round := List Xfer

/-- A transfer of the same range on both sides. -/
def xfer (src dst first n : Nat) (comb : Bool) : Xfer := ⟨src, dst, first, first, n, comb⟩

/-- Rounds of independent groups run side by side. -/
def besides : List Round → List Round → List Round
  | [], b => b
  | a, [] => a
  | x :: a, y :: b => (x ++ y) :: besides a b

/-- The least k with n ≤ 2^k. -/
def log2up (n : Nat) : Nat := if n ≤ 1 then 0 else (n - 1).log2 + 1

/-! ### Patterns over a list of members -/

/-- Binomial tree that reduces the range onto the first member of the list. -/
def treeUp (l : List Nat) (first n : Nat) : List Round :=
  (List.range (log2up l.length)).map (fun r =>
    (List.range l.length).filterMap (fun j =>
      if j % 2 ^ (r + 1) = 2 ^ r then some (xfer (l.getD j 0) (l.getD (j - 2 ^ r) 0) first n true) else none))

/-- The same tree from the first member down. -/
def treeDown (l : List Nat) (first n : Nat) : List Round :=
  (treeUp l first n).reverse.map (fun (r : Round) => r.map (fun x => xfer x.dst x.src first n false))

/-- Recursive doubling among the members of a list; those beyond the largest power of two fold in first, and receive
the result last when `back` is set. -/
def doubling (l : List Nat) (first n : Nat) (back : Bool) : List Round :=
  let m := 2 ^ l.length.log2
  let extra := (List.range l.length).filter (fun j => decide (m ≤ j))
  (if extra.isEmpty then [] else [extra.map (fun j => xfer (l.getD j 0) (l.getD (j - m) 0) first n true)]) ++
  (List.range l.length.log2).map (fun r =>
    (List.range m).map (fun j => xfer (l.getD j 0) (l.getD (Nat.xor j (2 ^ r)) 0) first n true)) ++
  (if back ∧ !extra.isEmpty then [extra.map (fun j => xfer (l.getD (j - m) 0) (l.getD j 0) first n false)] else [])

/-- A part of the array: ranges (first, count). -/
abbrev Piece := List (Nat × Nat)

/-- Ring reduce-scatter over a list: piece k ends, reduced, at member k of the list. -/
def ringScatter (l : List Nat) (piece : Nat → Piece) : List Round :=
  let p := l.length
  (List.range (p - 1)).map (fun t =>
    (List.range p).flatMap (fun i =>
      (piece ((i + 2 * p - t - 1) % p)).map (fun r => xfer (l.getD i 0) (l.getD ((i + 1) % p) 0) r.1 r.2 true)))

/-- Ring all-gather: piece k starts at member k of the list. -/
def ringGather (l : List Nat) (piece : Nat → Piece) : List Round :=
  let p := l.length
  (List.range (p - 1)).map (fun t =>
    (List.range p).flatMap (fun i =>
      (piece ((i + p - t) % p)).map (fun r => xfer (l.getD i 0) (l.getD ((i + 1) % p) 0) r.1 r.2 false)))

/-- Direct reduce-scatter over the links of a span: piece k to member k, in one round. -/
def directScatter (l : List Nat) (piece : Nat → Piece) : Round :=
  (List.range l.length).flatMap (fun i => (List.range l.length).flatMap (fun k =>
    if i = k then [] else (piece k).map (fun r => xfer (l.getD i 0) (l.getD k 0) r.1 r.2 true)))

/-- Direct all-gather: piece k from member k to every other. -/
def directGather (l : List Nat) (piece : Nat → Piece) : Round :=
  (List.range l.length).flatMap (fun k => (List.range l.length).flatMap (fun i =>
    if i = k then [] else (piece k).map (fun r => xfer (l.getD k 0) (l.getD i 0) r.1 r.2 false)))

/-- Piece k of p, cut on 64-element block boundaries. -/
def cutBlocks (first n p k : Nat) : Piece :=
  let per := ((n + 63) / 64 + p - 1) / p * 64
  [(first + min n (per * k), min n (per * (k + 1)) - min n (per * k))]

/-! ### Groups -/

/-- The values of a key in order of first appearance. -/
def keysOf (ms : List NodeId) (key : NodeId → Nat) : List Nat := (ms.map key).eraseDups

/-- Member indices whose node has the key, ascending. -/
def withKey (ms : List NodeId) (key : NodeId → Nat) (k : Nat) : List Nat :=
  (List.range ms.length).filter (fun i => key (ms.getD i 0) == k)

def spanKey (n : NodeId) : Nat := n.toNat / 16
def chainKey (n : NodeId) : Nat := n.toNat / 256

/-- Members by span. -/
def spansOf (ms : List NodeId) : List (List Nat) := (keysOf ms spanKey).map (withKey ms spanKey)

/-- The leaders of the spans of each chain: the lowest member index of each span. -/
def chainsOf (ms : List NodeId) : List (List Nat) :=
  let leaders := (spansOf ms).map (fun l => l.headD 0)
  (keysOf ms chainKey).map (fun c => leaders.filter (fun i => chainKey (ms.getD i 0) == c))

/-- Is a group hierarchical (R461)? -/
def hierarchical (ms : List NodeId) : Bool :=
  let ks := (spansOf ms).map List.length
  let cs := (chainsOf ms).map List.length
  ks.all (fun k => k == ks.headD 0) && cs.all (fun c => c == cs.headD 0)

/-- Every group's rounds side by side. -/
def sideBySide (l : List (List Round)) : List Round := l.foldl besides []

/-! ### Algorithms (Table 11-5) -/

def latencyUp (ms : List NodeId) (first n : Nat) : List Round :=
  sideBySide ((chainsOf ms).map (fun l => treeUp l first n)) ++ treeUp ((chainsOf ms).map (fun l => l.headD 0)) first n

def latencyDown (ms : List NodeId) (first n : Nat) : List Round :=
  treeDown ((chainsOf ms).map (fun l => l.headD 0)) first n ++ sideBySide ((chainsOf ms).map (fun l => treeDown l first n))

/-- Each leader sends the result to the other members of its span. -/
def leadersOut (ms : List NodeId) (first n : Nat) : Round :=
  (spansOf ms).flatMap (fun l => (l.drop 1).map (fun j => xfer (l.headD 0) j first n false))

/-- LATENCY all-reduce. -/
def latencyAll (ms : List NodeId) (first n : Nat) : List Round :=
  let one := (spansOf ms).length == 1
  sideBySide ((spansOf ms).map (fun l => doubling l first n one)) ++
    (if one then [] else latencyUp ms first n ++ latencyDown ms first n ++ [leadersOut ms first n])

/-- The member that ends the upward half. -/
def topOf (ms : List NodeId) : Nat := ((chainsOf ms).headD []).headD 0

def toRoot (ms : List NodeId) (root first n : Nat) : List Round :=
  if topOf ms = root then [] else [[xfer (topOf ms) root first n false]]

def fromRoot (ms : List NodeId) (root first n : Nat) : List Round :=
  if topOf ms = root then [] else [[xfer root (topOf ms) first n false]]

/-- Members with the same position in every span. -/
def columns (ms : List NodeId) : List (List Nat) :=
  (List.range ((spansOf ms).headD []).length).map (fun a => (spansOf ms).map (fun l => l.getD a 0))

/-- BANDWIDTH reduce-scatter: `piece a b` is the part that position a of span b ends with. -/
def bandScatter (ms : List NodeId) (piece : Nat → Nat → Piece) : List Round :=
  let s := (spansOf ms).length
  ((spansOf ms).flatMap (fun l => directScatter l (fun a => (List.range s).flatMap (piece a)))) ::
    sideBySide ((List.range (columns ms).length).map (fun a => ringScatter ((columns ms).getD a []) (piece a)))

/-- BANDWIDTH all-gather of the same parts. -/
def bandGather (ms : List NodeId) (piece : Nat → Nat → Piece) : List Round :=
  let s := (spansOf ms).length
  sideBySide ((List.range (columns ms).length).map (fun a => ringGather ((columns ms).getD a []) (piece a))) ++
    [(spansOf ms).flatMap (fun l => directGather l (fun a => (List.range s).flatMap (piece a)))]

/-- The parts of an array of n elements by position and span. -/
def bandPiece (ms : List NodeId) (n a b : Nat) : Piece :=
  let k := ((spansOf ms).headD []).length
  let s := (spansOf ms).length
  (cutBlocks 0 n k a).flatMap (fun r => cutBlocks r.1 r.2 s b)

/-- The block of the member at position a of span b, n elements for each member. -/
def memberPiece (ms : List NodeId) (n a b : Nat) : Piece := [(((spansOf ms).getD b []).getD a 0 * n, n)]

/-- Every reduced part to the root, one span at a time; or from it. -/
def bandRoot (ms : List NodeId) (root n : Nat) (out : Bool) : List Round :=
  (List.range (spansOf ms).length).map (fun b =>
    let l := (spansOf ms).getD b []
    (List.range l.length).flatMap (fun a =>
      let m := l.getD a 0
      if m = root then []
      else (bandPiece ms n a b).map (fun r => if out then xfer root m r.1 r.2 false else xfer m root r.1 r.2 false)))

/-- A chain of p − 1 steps around the ring that ends at the root; or that starts there. -/
def ringRoot (p root n : Nat) (out : Bool) : List Round :=
  (List.range (p - 1)).map (fun t =>
    if out then [xfer ((root + t) % p) ((root + t + 1) % p) 0 n false]
    else [xfer ((root + 1 + t) % p) ((root + 2 + t) % p) 0 n true])

/-- Algorithms as PHASE[7:4] codes them (Table 11-6): 0 LATENCY, 1 BANDWIDTH, 2 RING, 3 ALL_TO_ALL. The rounds of
operation op (Table 11-1) for P members and n elements; the array of an ALL_TO_ALL holds DST, then SRC. -/
def roundsOf (alg op : Nat) (ms : List NodeId) (root n : Nat) : List Round :=
  let p := ms.length
  let all := List.range p
  match op, alg with
  | 1, 0 => latencyAll ms 0 n
  | 1, 1 => bandScatter ms (bandPiece ms n) ++ bandGather ms (bandPiece ms n)
  | 1, _ => ringScatter all (cutBlocks 0 n p) ++ ringGather all (cutBlocks 0 n p)
  | 2, 0 => sideBySide ((spansOf ms).map (fun l => treeUp l 0 n)) ++ latencyUp ms 0 n ++ toRoot ms root 0 n
  | 2, 1 => bandScatter ms (bandPiece ms n) ++ bandRoot ms root n false
  | 2, _ => ringRoot p root n false
  | 3, 0 => latencyAll ms 0 (n * p)
  | 3, 1 => bandScatter ms (memberPiece ms n)
  | 3, _ => ringScatter all (fun k => [(k * n, n)])
  | 4, 0 => latencyAll ms 0 (n * p)
  | 4, 1 => bandGather ms (memberPiece ms n)
  | 4, _ => ringGather all (fun k => [(k * n, n)])
  | 5, 0 => fromRoot ms root 0 n ++ latencyDown ms 0 n ++ [leadersOut ms 0 n]
  | 5, 1 => bandRoot ms root n true ++ bandGather ms (bandPiece ms n)
  | 5, _ => ringRoot p root n true
  | 6, _ => (List.range (p - 1)).map (fun t => all.map (fun i => ⟨i, (i + t + 1) % p, n * p + (i + t + 1) % p * n, i * n, n, false⟩))
  | _, 0 => latencyAll ms 0 0
  | _, _ => ringScatter all (fun _ => [(0, 0)]) ++ ringGather all (fun _ => [(0, 0)])

/-- The transfers of one member in one round, gathered by peer. Transfers of no element are dropped unless `sync`. -/
def stepOf (sync : Bool) (me t : Nat) (r : Round) : ColStep :=
  let r := r.filter (fun x => sync || x.n != 0)
  let outs := r.filter (fun x => x.src == me)
  let ins := r.filter (fun x => x.dst == me)
  { step := t % 256,
    sends := (outs.map Xfer.dst).eraseDups.map (fun d => (d, (outs.filter (fun x => x.dst == d)).map (fun x => (x.sfirst, x.n)))),
    recvs := (ins.map Xfer.src).eraseDups.map (fun d =>
      let l := ins.filter (fun x => x.src == d)
      (d, l.any Xfer.comb, l.map (fun x => (x.dfirst, x.n)))) }

/-- The steps of one member; rounds in which it takes no part are passed over. -/
def stepsOf (sync : Bool) (me : Nat) (rs : List Round) : List ColStep :=
  ((List.range rs.length).map (fun t => stepOf sync me t (rs.getD t []))).filter (fun s => !(s.sends.isEmpty && s.recvs.isEmpty))

end Sys2Proof.Machine
end

