-- ==== Sys2Proof/Machine/Access.lean ====
section
/-! DEFINITION. Who reaches which register, and who writes it (R117, R309, R436, R513, R696 and the notes of the
register blocks). -/

namespace Sys2Proof.Machine

/-- A firmware processor. -/
def Requester.isFw : Requester → Bool
  | .fw _ => true
  | _ => false

/-- FBC0 or FBC1. -/
def Requester.isFbc : Requester → Bool
  | .fw p => decide (4 ≤ p.val)
  | _ => false

/-- Does a requester reach the register at an offset of the node's own space type 01? A hart only in machine mode
(R309); a shuttle only its own tile's block (R117). -/
def State.reaches (s : State) (q : Requester) (off : Nat) : Bool :=
  match q with
  | .hart h => (s.hart h).dataMachine
  | .shuttle t => off / 0x10000 == t.toNat
  | _ => true

/-- Does a field of access code `a` at an offset accept a requester's writes? RW fields of TIME_, CKPT_ and PWR_, and
every GLB_ register, take them from firmware processors only; TIME_DIGLOG_TAIL from every requester. -/
def writerOk (q : Requester) (off : Nat) (a : Acc) : Bool :=
  match blockAt off with
  | some (.glb, _) => Requester.isFw q
  | some (.ckpt, _) => Requester.isFw q || a != .rw
  | some (.pwr, _) => Requester.isFw q || a != .rw
  | some (.time, o) => Requester.isFw q || a != .rw || o == 0x50
  | _ => true

end Sys2Proof.Machine
end

