-- ==== Sys2Proof/Machine/Picks.lean ====
section
/-! DEFINITION. Picks, timetable events and digest banks (R511 to R519, R526 to R529, R704): when a pick starts, which
events have fired, who waits for them, and how the banks of a tile close. -/

namespace Sys2Proof.Machine

/-- The pick whose start fired last; noPick when none has. -/
def State.pick (s : State) : Pick := BitVec.ofNat 48 (s.fld F.TIME_PICK_PICK)

/-- PERIOD in nanoseconds (R511). -/
def State.periodNs (s : State) : Nat := s.fld F.TIME_PICK_CFG_PERIOD_US * 1000

/-- S(n) for a base, modulo 2^64. -/
def State.startOn (s : State) (base n : Nat) : Nat := (base + n * s.periodNs) % 2 ^ 64

/-- S(n) (R511, R513): from a pending rebase's pick onward it uses the new base. -/
def State.pickStartNs (s : State) (n : Nat) : Nat :=
  if s.bit F.TIME_REBASE_AT_PENDING && decide (s.fld F.TIME_REBASE_AT_PICK ≤ n) then s.startOn (s.fld F.TIME_REBASE_BASE_BASE) n
  else s.startOn (s.fld F.TIME_PICK_BASE_BASE) n

/-- The next pick to start. -/
def State.nextPick (s : State) : Pick :=
  if s.clock.rebaseForced then BitVec.ofNat 48 (s.fld F.TIME_REBASE_AT_PICK)
  else if s.pick = noPick then (match s.draft with | some d => d.firstPick | none => noPick)
  else s.pick + 1

/-- Entry of an event in the timetable. -/
def State.ttEntry (s : State) (i : Nat) : Option TtEntry := s.clock.timetable.find? (fun e => e.index == i)

/-- Offset of an event; 0 for the pick start. -/
def State.eventOffset (s : State) (i : Nat) : Nat := ((s.ttEntry i).map TtEntry.offset).getD 0

/-- KIND of an event; 0 for the pick start. -/
def State.eventKind (s : State) (i : Nat) : Nat := ((s.ttEntry i).map TtEntry.kind).getD 0

/-- Scheduled time of event i of pick p. -/
def State.eventNs (s : State) (p : Pick) (i : Nat) : Nat := s.pickStartNs p.toNat + s.eventOffset i

/-- Has event i of pick p fired (R53)? A mark that acts releases its shuttles only when the node has been imaged (R578). -/
def State.eventFired (s : State) (p : Pick) (i : Nat) : Bool :=
  s.pick != noPick && !(s.resil.markHeld && p == s.resil.markPick && s.eventKind i == 4) && (decide (p < s.pick) || (p == s.pick && (i == 0 || s.clock.fired.contains i)))

/-- The DIGEST_FLUSH entry. -/
def State.flushEvent (s : State) : Option TtEntry := s.clock.timetable.find? (fun e => e.kind == 6)

/-! ### Late work -/

/-- Raises a late-phase event, at most one per event and pick of a tile (R519). -/
def State.lateEvent (s : State) (t : TileId) (p : Pick) (i : Nat) : State :=
  if (s.tile t).lateSeen.contains (p, i) then s
  else
    (((s.costLate (s.clock.ns.toNat - s.eventNs p i)).modTile t (fun x => { x with lateSeen := (p, i) :: x.lateSeen })).raise (tileSrc t) 0x0701
      (leBytes 1 i ++ leBytes 1 (s.eventKind i) ++ leBytes 6 (min (s.clock.ns.toNat - s.eventNs p i) (2 ^ 48 - 1)))).count
      F.TIME_PICK_LATE 1

/-! ### Digest banks -/

/-- Does the tile map any digest slot? -/
def State.mapsSlot (s : State) (t : TileId) : Bool := (List.range 16).any (s.slotMapped t)

/-- Has the tile's bank of pick p closed? -/
def Tile.bankShut (x : Tile) (p : Pick) : Bool :=
  match x.shut with
  | some q => decide (p ≤ q)
  | none => false

/-- Closes the tile's bank of pick p (R526); a close after the DIGEST_FLUSH event is late (R527). -/
def State.closeBank (s : State) (t : TileId) (p : Pick) (onTime : Bool) : State :=
  if (s.tile t).bankShut p then s
  else
    let late := match s.flushEvent with
      | some e => !onTime && decide (s.eventNs p e.index < s.clock.ns.toNat) && s.eventFired p e.index
      | none => false
    let s := s.modTile t (fun x => { x with shut := some p })
    if s.mapsSlot t then
      let s := s.modTile t (fun x =>
        { x with banks :=
            if x.banks.any (fun b => b.pick == p) then
              x.banks.map (fun b => if b.pick = p then { b with closed := true, late := late } else b)
            else x.banks ++ [⟨p, [], true, late⟩] })
      if late then
        (s.count ((F.DIGEST_STAT_LATE).plus (tileBase t)) 1).lateEvent t p (((s.flushEvent).map TtEntry.index).getD 0)
      else s
    else s

/-- Closes every bank of picks before p that the tile has left behind without closing it. -/
def State.closeBefore (s : State) (t : TileId) (p : Pick) : State :=
  (s.clock.digests.filter (fun d => decide (d.1 < p))).foldl (fun s d => s.closeBank t d.1 false) s

/-- Gives the bank that waited for the next current pick its number (R704). -/
def Tile.namePick (x : Tile) (p : Pick) : Tile :=
  let ren := fun (b : Option Pick) => if b = some noPick then some p else b
  let merged := match x.banks.find? (fun b => b.pick == noPick), x.banks.find? (fun b => b.pick == p) with
    | some n, some o =>
      let acc := n.acc.foldl (fun (a : Tab Nat) e => Tab.set e.1 ((Tab.get (fun _ => 0) a e.1 + e.2) % digestP) a) o.acc
      (x.banks.filter (fun b => b.pick != noPick)).map (fun b => if b.pick = p then { b with acc := acc } else b)
    | _, _ => x.banks.map (fun b => if b.pick = noPick then { b with pick := p } else b)
  { x with banks := merged, q := x.q.map (fun c => (c.1, c.2.map (fun e => { e with bank := ren e.bank }))),
           run := x.run.map (fun c => (c.1, c.2.map (fun r => { r with bank := ren r.bank }))) }

/-- Is a DG operation of pick p queued or running? -/
def Tile.dgOpen (x : Tile) (p : Pick) : Bool :=
  x.q.any (fun c => c.2.any (fun e => e.bank == some p)) ||
  x.run.any (fun c => match c.2 with | some r => r.bank == some p | none => false)

/-- The bank that a tile may hand on: closed, with every DG operation of its pick complete (R527). -/
def Tile.handable (x : Tile) : Option Bank := x.banks.find? (fun b => b.closed && b.pick != noPick && !x.dgOpen b.pick)

/-- Makes pick p the shuttle's current pick when TWAIT i returns (R124, R125, R526). -/
def State.makeCurrent (s : State) (t : TileId) (p : Pick) (i : Nat) (onTime : Bool) : State :=
  let s := if (s.tile t).cur = some p then s
    else
      let s := match (s.tile t).cur with
        | some q => s.closeBank t q false
        | none => s
      (s.closeBefore t p).modTile t (fun x => { x with cur := some p }.namePick p)
  match s.flushEvent with
  | some e =>
    if i ≠ 0 ∧ e.index ≤ i then s.closeBank t p (onTime && i == e.index) else s
  | none => s

/-- The shuttle has halted: its bank of every pick whose DIGEST_FLUSH event has fired closes at once (R526). -/
def State.closeHalted (s : State) (t : TileId) : State :=
  match s.flushEvent with
  | none => s
  | some e => (s.clock.digests.filter (fun d => s.eventFired d.1 e.index)).foldl (fun s d => s.closeBank t d.1 false) s

/-! ### Firing -/

/-- A wait after event i of pick p has fired; a wait for the next pick learns its pick when it starts. -/
def Wait.fire (i : Nat) (p : Pick) : Wait → Wait
  | .event j (some q) => if j.toNat = i ∧ q = p then .released j p else .event j (some q)
  | .event j none => if i = 0 then (if j.toNat = 0 then .released j p else .event j (some p)) else .event j none
  | .counter n v (some (j, some q)) =>
    if j.toNat = i ∧ q = p then .released j p else .counter n v (some (j, some q))
  | .counter n v (some (j, none)) =>
    if i = 0 then (if j.toNat = 0 then .released j p else .counter n v (some (j, some p))) else .counter n v (some (j, none))
  | w => w

/-- Does a tile's shuttle wait for exactly event i of pick p in TWAIT? -/
def Tile.awaits (x : Tile) (i : Nat) (p : Pick) : Bool :=
  match x.waiting with
  | some (.event j q) => j.toNat == i && (q == some p || (q == none && i == 0))
  | _ => false

/-- Engines other than the solver that still run when the event their shuttle waits for fires: their unit is late when
they end (R55). -/
def State.oweLate (s : State) (t : TileId) (i : Nat) (p : Pick) : State :=
  let x := s.tile t
  if x.awaits i p && ((x.running 0).isSome || (x.running 1).isSome || (x.running 3).isSome) && !x.lateSeen.contains (p, i) then
    s.setTile t { x with lateSeen := (p, i) :: x.lateSeen, lateOwed := x.lateOwed ++ [(i, s.eventKind i, s.eventNs p i)] }
  else s

/-- Event i of pick p reaches one tile. -/
def State.fireTile (s : State) (t : TileId) (i : Nat) (p : Pick) : State :=
  let s := s.oweLate t i p
  let s := s.modTile t (fun x => { x with waiting := x.waiting.map (Wait.fire i p) })
  if s.eventKind i = 6 ∧ i ≠ 0 ∧ s.bit (tfld t F.SEQ_CTRL_HALTED) then s.closeBank t p true else s

/-- The tiles whose state is listed, or whose digest slots are mapped. -/
def State.tileIds (s : State) : List TileId :=
  ((List.range 256).map (fun n => BitVec.ofNat 8 n)).filter (fun (t : TileId) => (Tab.find s.tiles t.toNat).isSome || s.mapsSlot t)

/-- Does the SNAPSHOT_MARK act in pick n (R517, R612)? At the timetable's interval, or at the one that the recovery
controller has set; in the last pick of a drain with FINAL_SNAPSHOT; not without RCC or the resilience engine, and not
while the node is halted, rebuilds or replays (R605, R615). -/
def State.markActs (s : State) (e : TtEntry) (n : Pick) : Bool :=
  let every := s.fld F.CKPT_INTERVAL_EVERY
  let from_ := s.fld F.CKPT_INTERVAL_FROM_PICK
  let turn := if every = 0 ∨ n.toNat < from_ then n.toNat % e.every == e.phase else (n.toNat - from_) % every == 0
  let final := match s.draft with
    | some d => d.drainLast == some (n, true)
    | none => false
  e.kind == 4 && s.fld F.CKPT_STAT_STATE == 1 && s.ready 3 && s.ready 14 && (turn || final)

/-- Event i of the current pick fires at every tile; a mark that acts holds the shuttles that wait for it (R578). -/
def State.fireEvent (s : State) (i : Nat) : State :=
  let s := s.reapplyAt i
  if !s.resil.markHeld && (s.ttEntry i).any (fun e => s.markActs e s.pick) then
    { s with clock := { s.clock with fired := i :: s.clock.fired },
             resil := { s.resil with markHeld := true, markPick := s.pick, markAt := s.eventNs s.pick i } }
  else s.tileIds.foldl (fun s t => s.fireTile t i s.pick) { s with clock := { s.clock with fired := i :: s.clock.fired } }

/-- Does event e come before event f of the same pick (R516)? -/
def ttBefore (e f : TtEntry) : Bool := decide (e.offset < f.offset) || (e.offset == f.offset && decide (e.index < f.index))

/-- May timetable event i fire next: defined, not fired, and every earlier event of the pick fired (R516)? -/
def State.eventDue (s : State) (i : Nat) : Bool :=
  s.pick != noPick && !s.clock.fired.contains i &&
  (match s.ttEntry i with
    | none => false
    | some e => s.clock.timetable.all (fun f => !ttBefore f e || s.clock.fired.contains f.index))

/-- Do picks follow the clock: the job runs and the node is neither halted for recovery nor in replay (R513, R605)? -/
def State.picksRun (s : State) : Bool :=
  s.fld F.GLB_JOB_STATE == 3 && (decide (s.fld F.CKPT_STAT_STATE ≤ 1) || s.clock.rebaseForced)

/-- The node starts pick n: TIME_PICK, a due rebase, SOLVER_SEQ of every tile (R294), a place in the digest log, and
every wait for it. -/
def State.startPick (s : State) (n : Pick) : State :=
  let due := s.bit F.TIME_REBASE_AT_PENDING && decide (s.fld F.TIME_REBASE_AT_PICK ≤ n.toNat)
  let s := if due then
      { (s.setFld F.TIME_PICK_BASE_BASE (s.fld F.TIME_REBASE_BASE_BASE)).setFld F.TIME_REBASE_AT_PENDING 0 with
        clock := { s.clock with rebaseForced := false } }
    else s
  let s := (s.setFld F.TIME_PICK_PICK n.toNat).reapplyAt 0
  let s := { s with clock := { s.clock with fired := [], digests := s.clock.digests ++ [(n, [], [], false)] } }
  s.tileIds.foldl (fun s t =>
    let s := if s.fld (tfld t F.SOLVER_SEQ_SEQ) = 0 then s else s.setFld (tfld t F.SOLVER_SEQ_SEQ) 0
    let s := s.oweLate t 0 n
    s.modTile t (fun x => { x with waiting := x.waiting.map (Wait.fire 0 n), lateSeen := x.lateSeen.filter (fun e => decide (n.toNat ≤ e.1.toNat + 1)) })) s

/-! ### Digest log -/

/-- Adds a bank to the node's sums of its pick: each DID's sum, and one more tile under each DID it added to. -/
def State.sumBank (s : State) (t : TileId) (b : Bank) (sums : Tab (Nat × Nat)) : Tab (Nat × Nat) :=
  let dids := (b.acc.map (fun e => s.slotDid t e.1)).eraseDups
  dids.foldl (fun (a : Tab (Nat × Nat)) d =>
    let v := (b.acc.filter (fun e => s.slotDid t e.1 == d)).foldl (fun v e => (v + e.2) % digestP) 0
    let o := Tab.get (fun _ => (0, 0)) a d
    Tab.set d ((o.1 + v) % digestP, o.2 + 1) a) sums

/-- The tile hands a closed bank to the fabric dies and clears it (R527). -/
def State.handBank (s : State) (t : TileId) (b : Bank) : State :=
  let s := s.modTile t (fun x => { x with banks := x.banks.filter (fun c => c.pick != b.pick) })
  let s := s.setFld (tfld t F.DIGEST_STAT_LAST_PICK) b.pick.toNat
  { s with clock := { s.clock with digests := s.clock.digests.map (fun d =>
      if d.1 = b.pick then (d.1, s.sumBank t b d.2.1, d.2.2.1 ++ [t.toNat], d.2.2.2 || b.late) else d) } }

/-- Bytes of a digest log record (Table 12-6) for the DIDs of the draft. -/
def digestRecord (p : Pick) (dids : List Nat) (node : NodeId) (late replayed : Bool) (now : BitVec 64)
    (sums : Tab (Nat × Nat)) : List Byte :=
  leBytes 6 p.toNat ++ leBytes 2 dids.length ++ leBytes 2 node.toNat ++ leBytes 1 (natOf late + 2 * natOf replayed) ++ zeros 5 ++
    leBytes 8 now.toNat ++ zeros 8 ++
    dids.flatMap (fun d =>
      let v := Tab.get (fun _ => (0, 0)) sums d
      leBytes 2 d ++ leBytes 2 v.2 ++ zeros 4 ++ leBytes 8 v.1)

/-- May the record of a pick be written: its DIGEST_FLUSH event has fired and every tile that maps a slot has handed on
its bank (R57, R527)? -/
def State.recordDue (s : State) (d : Pick × Tab (Nat × Nat) × List Nat × Bool) : Bool :=
  (match s.flushEvent with | some e => s.eventFired d.1 e.index | none => false) &&
  s.tileIds.all (fun t => d.2.2.1.contains t.toNat || !s.mapsSlot t)

/-- Writes one record into the ring (R528). -/
def State.putDigest (s : State) (x : Draft) (d : Pick × Tab (Nat × Nat) × List Nat × Bool) : State :=
  let slot := alignUp (32 + 16 * x.nent) 64
  let c := x.ring.2 * 65536 / slot
  let k := s.clock.records
  let tail := s.fld F.TIME_DIGLOG_TAIL_TAIL
  let rec_ := digestRecord d.1 x.dids s.nodeId d.2.2.2 s.replaying s.clock.ns d.2.1
  let unread := decide (c ≤ k) && decide (0 ≤ signed 32 (k - c + (2 ^ 32 - tail)))
  let s := if unread then (s.countWrap F.TIME_DIGLOG_LOST 1).raise 0x0400 0x0707 [] else s
  let s := s.writeBytes (x.ring.1 + (k % c) * slot) (rec_ ++ zeros (slot - rec_.length))
  { s with clock := { s.clock with records := k + 1 } }.setFld F.TIME_DIGLOG_HEAD (k + 1)

end Sys2Proof.Machine
end

