-- ==== Sys2Proof/Machine/Seq.lean ====
section
/-! DEFINITION. The shuttle as a unit: its registers, traps (R129), its start and halt (SEQ_CTRL), arrival counters
(R135 to R139), and the queues it issues to (R120, R121, R526). -/

namespace Sys2Proof.Machine

/-! ### Shuttle registers -/

/-- Register n of the shuttle; x0 reads 0. -/
def Tile.xreg (x : Tile) (n : BitVec 5) : Word := if n = 0 then 0 else Tab.get (fun _ => 0) x.x n.toNat
/-- Writes register n; a write to x0 is discarded. -/
def Tile.setX (x : Tile) (n : BitVec 5) (v : Word) : Tile := if n = 0 then x else { x with x := Tab.set n.toNat v x.x }

/-- Does the shuttle execute (SEQ_CTRL.HALTED is 0)? -/
def State.shuttleRuns (s : State) (t : TileId) : Bool := !s.bit (tfld t F.SEQ_CTRL_HALTED)

/-- The instruction at the program counter retires: it advances by n bytes and nothing waits. -/
def State.retire (s : State) (t : TileId) (n : Word) : State :=
  s.modTile t (fun x => { x with pc := x.pc + n, waiting := none })

/-- Retires with a result for rd. -/
def State.retireRd (s : State) (t : TileId) (rd : BitVec 5) (v : Word) : State :=
  (s.modTile t (fun x => x.setX rd v)).retire t 4

/-- The instruction waits, unretired. -/
def State.await (s : State) (t : TileId) (w : Wait) : State := s.modTile t (fun x => { x with waiting := some w })

/-- The shuttle stops executing; the program counter stays, and a wait is abandoned unretired. -/
def State.haltShuttle (s : State) (t : TileId) : State :=
  (((s.setFld (tfld t F.SEQ_CTRL_RUN) 0).setFld (tfld t F.SEQ_CTRL_HALTED) 1).modTile t (fun x => { x with waiting := none })).closeHalted t

/-- A shuttle trap (R129). -/
def State.trapShuttle (s : State) (t : TileId) (cause : Nat) (tval : Nat) : State :=
  let pc := (s.tile t).pc
  let s := (s.setFld (tfld t F.SEQ_TRAP_CAUSE) cause).setFld (tfld t F.SEQ_TRAP_TVAL) tval
  ((s.setFld (tfld t F.SEQ_CTRL_TRAP) 1).haltShuttle t).raise (tileSrc t) St.aborted (leBytes 4 cause ++ leBytes 4 pc.toNat)

/-- Arrival counter n of a tile. -/
def arriveFld (t : TileId) (n : Nat) : Fld := (F.COPY_ARRIVE_COUNT.plus (8 * n)).plus (tileBase t)
def State.arrival (s : State) (t : TileId) (n : Nat) : Word := BitVec.ofNat 32 (s.fld (arriveFld t n))
def State.setArrival (s : State) (t : TileId) (n : Nat) (v : Word) : State := s.setFld (arriveFld t n) v.toNat
/-- Adds k to an arrival counter, modulo 2^32 (R138). -/
def State.bumpArrival (s : State) (t : TileId) (n : Nat) (k : Nat) : State :=
  s.setArrival t n (s.arrival t n + BitVec.ofNat 32 k)

/-- The shuttle starts at 0x0000_0000 with no current pick (R124); the runtime takes the base of every arrival counter
(R184). -/
def State.startShuttle (s : State) (t : TileId) : State :=
  let base : Tab Word := (List.range 64).map (fun n => (n, s.arrival t n))
  ((s.setFld (tfld t F.SEQ_CTRL_RUN) 1).setFld (tfld t F.SEQ_CTRL_HALTED) 0).modTile t (fun x =>
    { x with pc := 0, waiting := none, cur := none, sched := { Sched.reset with base := base } })

/-- A write of SEQ_CTRL: TRAP is W1C; RUN starts or halts the shuttle. -/
def State.seqCtrlWrite (s : State) (t : TileId) (v : BitVec 64) : State :=
  let s := if bitN v.toNat 2 then s.setFld (tfld t F.SEQ_CTRL_TRAP) 0 else s
  if bitN v.toNat 0 then
    if s.shuttleRuns t then s
    else if s.tileReady t then s.startShuttle t
    else s.setFld (tfld t F.SEQ_CTRL_RUN) 1
  else s.haltShuttle t

/-- A write of COPY_ARRIVE with `same` increments that meet it: the write first, then the increments (R139). -/
def State.arriveWrite (s : State) (t : TileId) (n : Nat) (v : BitVec 64) (same : Nat) : State :=
  s.setArrival t n (BitVec.ofNat 32 v.toNat + BitVec.ofNat 32 same)

/-! ### Queues -/

/-- Copy queue k of a tile. -/
def Tile.copyQ (x : Tile) (k : Nat) : List CopyEntry := Tab.get (fun _ => []) x.cq k

/-- Has the queue of an engine code room (Table 3-5)? -/
def Tile.room (x : Tile) (code : Nat) : Bool :=
  if code < 4 then decide ((x.queue code).length + natOf (x.running code).isSome < 16)
  else decide ((x.copyQ (code - 4)).length < 32)

/-- DG_EN of a descriptor for an engine code. -/
def descDg (code : Nat) (d : List Byte) : Bool :=
  match code with
  | 0 => bitN (bytesAt d 32 1) 3
  | 1 => bitN (bytesAt d 1 1) 7
  | 2 => bitN (bytesAt d 48 1) 3
  | _ => false

/-- Must a DG operation wait: the bank two picks before its own has not been handed on (R526)? -/
def Tile.bankStall (x : Tile) : Bool :=
  let p := x.openBank
  let n : Option Nat := if p = noPick then x.cur.map (fun c => c.toNat + 1) else some p.toNat
  match n with
  | none => false
  | some n => x.banks.any (fun b => b.pick != noPick && decide (b.pick.toNat + 2 ≤ n))

/-- Queues a descriptor; the answer is its ticket (R121). -/
def State.enqueue (s : State) (t : TileId) (code : Nat) (d : List Byte) (bad : Bool) : State × Word :=
  let x := s.tile t
  let n := BitVec.ofNat 32 (x.tickets code)
  let x := { x with issued := Tab.set code (x.tickets code + 1) x.issued }
  if code < 4 then
    let e : QEntry := ⟨n, d, bad, if descDg code d then some x.openBank else none⟩
    (s.setTile t (x.setQueue code (x.queue code ++ [e])), n)
  else
    let e : CopyEntry := ⟨n, d, bad, .queued, St.ok, false, 0, [], [], false⟩
    ((s.setTile t { x with cq := Tab.set (code - 4) (x.copyQ (code - 4) ++ [e]) x.cq }).setFld
      ((F.COPY_QSTAT_TICKET.plus (8 * (code - 4))).plus (tileBase t)) n.toNat, n)

end Sys2Proof.Machine
end

