-- ==== Sys2Proof/Machine/Collective.lean ====
section
/-! DEFINITION. The collective engine (chapter 11): contexts, submission and checks (Table 11-3), wire values (Table 11-4)
and the exponent pre-pass (R470 to R473), the exchange of credits and data (R481 to R484), digests and aborts (R485 to
R491), completion, log and replay (R492 to R496). Readings of the manual are assumption log 29. -/

namespace Sys2Proof.Machine

def St.mismatch : Status := 0x0601
def St.colNoContext : Status := 0x0602
def St.colQueueFull : Status := 0x0603
def St.colGroupAborted : Status := 0x0604
def St.colOverlap : Status := 0x0605
def St.colReplayMismatch : Status := 0x0606
def St.colUnknownGroup : Status := 0x0607

/-! ### Descriptor (Table 11-1) -/

structure ColDesc where
  op : Nat
  redop : Nat
  fmt : Nat
  nmode : Nat
  ctx : Nat
  arrEn : Bool
  arrCtr : Nat
  count : Nat
  src : Nat
  ein : Int
  dst : Nat
  eout : Int
  root : Nat
  arrTile : Nat
  crec : Nat
  /-- Some reserved field is nonzero. -/
  resv : Bool
deriving DecidableEq, Repr

def ColDesc.of (d : List Byte) : ColDesc :=
  let b := bytesAt d
  { op := b 0 1 % 16, redop := b 0 1 / 16, fmt := b 1 1 / 16, nmode := b 1 1 % 16, ctx := b 2 1, arrEn := bitN (b 3 1) 7,
    arrCtr := b 3 1 % 64, count := b 4 4, src := b 8 6, ein := signed 16 (b 14 2), dst := b 16 6, eout := signed 16 (b 22 2),
    root := b 24 2 % 2 ^ 14, arrTile := b 26 1, crec := b 28 6,
    resv := bitN (b 3 1) 6 || decide (b 24 2 / 2 ^ 14 ≠ 0) || b 27 1 != 0 || (d.drop 34).any (· != 0) }

/-- The element format; binary32 stands in where FMT names none (BARRIER). -/
def ColDesc.fmtOf (x : ColDesc) : Fmt := (Fmt.ofCode x.fmt).getD .f32

/-- Elements of SRC and DST at member `me` of p (Table 11-2). -/
def ColDesc.elems (x : ColDesc) (p me n : Nat) : Nat × Nat :=
  match x.op with
  | 1 => (n, n)
  | 2 => (n, if me = x.root then n else 0)
  | 3 => (n * p, n)
  | 4 => (n, n * p)
  | 5 => (if me = x.root then n else 0, n)
  | 6 => (n * p, n * p)
  | _ => (0, 0)

/-- Bytes of SRC and DST. -/
def ColDesc.sizes (x : ColDesc) (p me : Nat) : Nat × Nat :=
  let e := x.elems p me x.count
  (e.1 * x.fmtOf.bytes, e.2 * x.fmtOf.bytes)

/-- Check 5 of Table 11-3: what R464 and R465 forbid. -/
def ColDesc.formBad (x : ColDesc) (p me : Nat) : Bool :=
  let f := Fmt.ofCode x.fmt
  let fx := match f with | some f => f.isFx | none => false
  let fl := match f with | some f => f.isFloat | none => false
  let reduces := x.op == 1 || x.op == 2 || x.op == 3
  let one := x.elems p me 1
  x.resv || x.op == 0 || decide (7 < x.op) || decide (6 < x.redop) || reduces != (x.redop != 0) ||
    (if x.op = 7 then x.fmt != 0 || x.count != 0
     else f.isNone || (decide (4 ≤ x.redop) && (match f with | some f => !f.isInt | none => true))) ||
    (!fx && (x.ein != 0 || x.eout != 0)) || (fx && x.redop != 1 && x.ein != x.eout) ||
    (if x.redop = 1 ∧ fl = true then bitN x.nmode 3 || bitN x.nmode 0 else x.nmode != 0) ||
    (if x.op = 2 ∨ x.op = 5 then decide (p ≤ x.root) else x.root != 0) ||
    (!x.arrEn && x.arrTile != 0) || (one.1 == 0 && x.src != 0) || (one.2 == 0 && x.dst != 0)

/-- Does the collective move anything (R30)? -/
def ColDesc.syncs (x : ColDesc) : Bool := x.op == 7 || x.count == 0

/-- Is it a floating-point SUM, with its pre-pass (R470)? -/
def ColDesc.fpSum (x : ColDesc) : Bool := x.redop == 1 && x.fmtOf.isFloat

/-- Bytes of a wire element (Table 11-4). -/
def ColDesc.wireBytes (x : ColDesc) : Nat :=
  if x.redop = 1 then (match x.fmtOf with | .i8 => 4 | f => 2 * f.bytes) else x.fmtOf.bytes

/-- S of R476. -/
def ColDesc.sizeS (x : ColDesc) (p : Nat) : Nat :=
  x.count * x.fmtOf.bytes * (if x.op = 3 ∨ x.op = 6 then p else 1)

/-- Elements of the array that a reduction or gather works on. -/
def ColDesc.arrayLen (x : ColDesc) (p : Nat) : Nat := if x.op = 3 ∨ x.op = 4 then x.count * p else x.count

/-- G of R471. -/
def blockG (f : Fmt) : Int := if f = .f16 then 16 else 48

/-! ### Wire values -/

/-- The bits of source element j. -/
def srcElem (x : ColDesc) (d : List Byte) (j : Nat) : Nat := bytesAt d (j * x.fmtOf.bytes) x.fmtOf.bytes

/-- floor(log2 |x|) of a finite nonzero value. -/
def floorLog2 : Num → Option Int
  | .fin _ m e => if m = 0 then none else some (m.log2 + e)
  | _ => none

/-- XMAX of block k (R470). -/
def xmax (x : ColDesc) (d : List Byte) (n k : Nat) : Int :=
  ((List.range (min 64 (n - 64 * k))).map (fun j => floorLog2 (decodeFloat x.fmtOf (srcElem x d (64 * k + j))))).foldl
    (fun a b => match b with | some b => max a b | none => a) (-32768)

/-- An element in wire form at block exponent e (R471): its value and its status bits (R472). -/
def toWire (x : ColDesc) (w : Nat) (e : Int) : Int × Nat :=
  if x.fpSum then
    match decodeFloat x.fmtOf w with
    | .nan => (0, 3)
    | .inf false => (0, 1)
    | .inf true => (0, 2)
    | .fin n m g =>
      let v := shiftFloor 128 (Num.mant (.fin n m g)) (e - blockG x.fmtOf - g)
      (v, if m ≠ 0 ∧ v = 0 then 4 else 0)
  else if x.redop = 1 then (signed x.fmtOf.bits w, 0)
  else ((w : Int), 0)

/-- Combination of two wire values (Table 11-4); parts of a gather are combined from zero. -/
def wireComb (x : ColDesc) (a b : Int) : Int :=
  match x.redop with
  | 1 => a + b
  | 2 => if x.fmtOf.isFloat then floatMax x.fmtOf false a.toNat b.toNat
         else if signed x.fmtOf.bits a.toNat < signed x.fmtOf.bits b.toNat then b else a
  | 3 => if x.fmtOf.isFloat then floatMax x.fmtOf true a.toNat b.toNat
         else if signed x.fmtOf.bits b.toNat < signed x.fmtOf.bits a.toNat then b else a
  | 4 => (Nat.land a.toNat b.toNat : Nat)
  | 6 => (Nat.xor a.toNat b.toNat : Nat)
  | _ => (Nat.lor a.toNat b.toNat : Nat)

/-- The final step of one element (Table 11-4, R473, R475): its bits and its events. -/
def finalStep (x : ColDesc) (v : Int) (st : Nat) (e : Int) : Nat × Ev :=
  let f := x.fmtOf
  if x.fpSum then
    let lost : Ev := ⟨false, bitN st 2⟩
    match st % 4 with
    | 3 => (canonNan f, lost)
    | 1 => (infBits f false, lost)
    | 2 => (infBits f true, lost)
    | _ =>
      let r := roundFloat f ⟨bitN x.nmode 2, bitN x.nmode 1, false⟩ (Num.ofInt v (e - blockG f))
      (r.1, Ev.both r.2 lost)
  else if x.redop = 1 then
    if f.isFx then
      let r := toFx f.bits x.eout (Num.ofInt v x.ein)
      (wrapN f.bits r.1, r.2)
    else
      let r := clampInt f.bits v
      (wrapN f.bits r.1, ⟨r.2, false⟩)
  else if (x.redop = 2 ∨ x.redop = 3) ∧ f.isFloat then (floatMax f false v.toNat v.toNat, Ev.none)
  else (v.toNat, Ev.none)

/-! ### Contexts -/

def ctxStat (c : CtxId) (f : Fld) : Fld := f.plus (8 * c.toNat)
def State.ctx (s : State) (c : CtxId) : Option Ctx := Tab.find s.ctxs c.toNat
def State.setCtx (s : State) (c : CtxId) (x : Ctx) : State := { s with ctxs := Tab.set c.toNat x s.ctxs }

/-- The context of a group. -/
def State.ctxOfGroup (s : State) (g : Word) : Option CtxId :=
  (s.ctxs.find? (fun e => e.2.gid == g)).map (fun e => BitVec.ofNat 8 e.1)

/-- Creates a context (R458 to R461); none under R459. A limit of 0 means 256 (Table 13-4). -/
def State.createCtx (s : State) (c : CtxId) (gid : Word) (ms : List NodeId) (force byHost aborted : Bool) (thresh : Nat) :
    Option State :=
  if 256 ≤ s.ctxs.length ∨ (s.ctx c).isSome ∨ 1048576 < (s.ctxs.map (fun e => e.2.members.length)).sum + ms.length then none
  else
    let th := if thresh = 0 then 256 else thresh
    let s := s.setCtx c ⟨gid, ms, byHost, [], none, [], []⟩
    let s := s.setReg (R.COL_CTX_STAT + 8 * c.toNat) 0
    let s := ((s.setFld (ctxStat c F.COL_CTX_STAT_VALID) 1).setFld (ctxStat c F.COL_CTX_STAT_HIER) (natOf (hierarchical ms))).setFld
      (ctxStat c F.COL_CTX_STAT_FORCE_RING) (natOf force)
    let s := s.setFld (ctxStat c F.COL_CTX_STAT_STATE) (if aborted then 2 else 0)
    let s := s.setReg (R.COL_CTX_POLICY + 8 * c.toNat) 0
    let s := (s.setFld (ctxStat c F.COL_CTX_POLICY_NEXT_THRESH) th).setFld (ctxStat c F.COL_CTX_POLICY_CUR_THRESH) th
    some (((s.setFld (ctxStat c F.COL_CTX_ID_SIZE) ms.length).setFld (ctxStat c F.COL_CTX_ID_INDEX) (ms.idxOf s.nodeId)).setFld
      (ctxStat c F.COL_CTX_ID_GROUP_ID) gid.toNat)

/-- A change of membership: HIER is evaluated again (R461). -/
def State.regroup (s : State) (c : CtxId) (ms : List NodeId) : State :=
  match s.ctx c with
  | none => s
  | some x =>
    (((s.setCtx c { x with members := ms }).setFld (ctxStat c F.COL_CTX_STAT_HIER) (natOf (hierarchical ms))).setFld
      (ctxStat c F.COL_CTX_ID_INDEX) (ms.idxOf s.nodeId)).setFld (ctxStat c F.COL_CTX_ID_SIZE) ms.length

def State.ctxSeq (s : State) (c : CtxId) : Word := BitVec.ofNat 32 (s.fld (ctxStat c F.COL_CTX_STAT_SEQ))
def State.ctxAborted (s : State) (c : CtxId) : Bool := s.fld (ctxStat c F.COL_CTX_STAT_STATE) == 2

/-- Descriptors queued or running. -/
def Ctx.pending (x : Ctx) : Nat := x.queue.length + natOf x.run.isSome

/-- The context's current SEQ: that of the collective at its head, else the next to be given (R491). -/
def State.currentSeq (s : State) (c : CtxId) (x : Ctx) : Word :=
  match x.run, x.queue with
  | some r, _ => r.seq
  | none, q :: _ => q.seq
  | none, [] => s.ctxSeq c

/-- Is sequence number a older than b, as a signed 32-bit difference? -/
def olderSeq (a b : Word) : Bool := decide (signed 32 (a - b).toNat < 0)

/-- Replaces the running collective of a context. -/
def State.modCtx (s : State) (c : CtxId) (r : ColRun) : State :=
  match s.ctx c with
  | some x => s.setCtx c { x with run := some r }
  | none => s

/-! ### Completion -/

/-- A failed collective in COL_STAT and the rings (R494). -/
def State.colErr (s : State) (st : Status) (gid seq : Word) : State :=
  let s := if s.bit F.COL_STAT_ERR then s else s.setFld F.COL_STAT_FIRST_STATUS st.toNat
  (s.setFld F.COL_STAT_ERR 1).raise 0x380 st (leBytes 4 gid.toNat ++ leBytes 4 seq.toNat)

/-- The completion record, the arrival counter and, on failure, the event (R492, R494). -/
def State.colRecord (s : State) (desc : List Byte) (gid seq : Word) (st : Status) (alg start nsat nflush : Nat) (replayed : Bool) :
    State :=
  let x := ColDesc.of desc
  let ok := st == St.ok
  let r := leBytes 2 st.toNat ++ leBytes 1 (if replayed then 15 else alg) ++ leBytes 1 (natOf replayed) ++ leBytes 4 seq.toNat ++
    leBytes 4 (if ok then stop32 nsat else 0) ++ leBytes 4 (if ok then stop32 nflush else 0) ++ leBytes 8 start ++
    leBytes 8 s.clock.ns.toNat
  let s := s.writeBytes x.crec r
  let s := if x.arrEn then s.bumpArrival (BitVec.ofNat 8 x.arrTile) x.arrCtr 1 else s
  if ok then s else s.colErr st gid seq

/-- Statuses after which DST is undefined (R490, Table 11-11). -/
def colUndef (st : Status) : Bool :=
  st == St.mismatch || st == St.aborted || st == St.timeout || st == St.uncorrectable || st == St.nodeLost ||
    st == St.colReplayMismatch

/-- DST of a collective that ends with such a status holds undefined bytes. -/
def State.colSpoil (s : State) (desc : List Byte) (p me : Nat) (st : Status) : State :=
  let x := ColDesc.of desc
  let n := (x.sizes p me).2
  if colUndef st && !x.formBad p me && n != 0 && s.memStatus x.dst n == St.ok then
    let f := s.drawBytes n
    f.2.writeBytes x.dst f.1
  else s

/-- One collective of a context completes with a failure. -/
def State.colFail (s : State) (x : Ctx) (desc : List Byte) (seq : Word) (st : Status) (alg start : Nat) (aborted : Bool) : State :=
  let s := s.colSpoil desc x.members.length (x.members.idxOf s.nodeId) st
  let s := s.colRecord desc x.gid seq st alg start 0 0 false
  if aborted then s.count F.COL_ERR_ABORTS 1 else s

/-- Bytes of the message header of Table 11-6. -/
def colHeader (gid seq ddig : Word) (phase step slot : Nat) : List Byte :=
  leBytes 4 gid.toNat ++ leBytes 4 seq.toNat ++ leBytes 4 ddig.toNat ++ leBytes 1 phase ++ leBytes 1 step ++ leBytes 2 slot

/-- Sends a collective message to a member, if a window lets it out (R433). -/
def State.colSend (s : State) (n : NodeId) (opc : Nat) (d : List Byte) : State :=
  if s.windowMatch n 2 opc 0 0 then s.sendTo (request n 2 opc 0 d.length 0 d) else s.blockedOne

/-- COL_ABORT to every other member that the window table reaches (R486). -/
def State.colTell (s : State) (x : Ctx) (seq ddig : Word) (phase : Nat) (reason : Status) : State :=
  (x.members.filter (fun n => n != s.nodeId)).foldl (fun s n =>
    if s.windowMatch n 2 0x22 0 0 then
      s.sendTo (request n 2 0x22 0 16 0 (colHeader x.gid seq ddig phase 0 reason.toNat))
    else s) s

/-- The context becomes ABORTED: every descriptor after s completes with COL_GROUP_ABORTED (R488). -/
def State.colMark (s : State) (c : CtxId) (seq : Word) (reason : Status) : State :=
  match s.ctx c with
  | none => s
  | some x =>
    let later := x.queue.filter (fun q => olderSeq seq q.seq)
    let s := s.setCtx c { x with queue := x.queue.filter (fun q => !olderSeq seq q.seq) }
    let s := later.foldl (fun s q => s.colFail x q.desc q.seq St.colGroupAborted 0 s.clock.ns.toNat false) s
    (s.setFld (ctxStat c F.COL_CTX_STAT_STATE) 2).setFld (ctxStat c F.COL_CTX_STAT_REASON) reason.toNat

/-- The member aborts the collective at the head of a context (R486, R488). -/
def State.colAbortRun (s : State) (c : CtxId) (st reason : Status) : State :=
  match s.ctx c with
  | none => s
  | some x =>
    match x.run with
    | none => s
    | some r =>
      let s := s.colFail x r.desc r.seq st r.alg r.start true
      let s := s.setCtx c { x with run := none, credits := x.credits.filter (fun k => k.seq != r.seq) }
      (s.colTell x r.seq r.ddig (r.alg * 16 + r.phase) reason).colMark c r.seq reason

/-! ### Submission -/

/-- Submits the descriptor at an address (R462, R466, Table 11-3 checks 1 to 4). -/
def State.colSubmit (s : State) (a : Nat) : State :=
  let desc := s.bytes a 64
  let x := ColDesc.of desc
  if s.memStatus a 64 ≠ St.ok ∨ s.badRead a 64 = true ∨ x.crec % 32 ≠ 0 ∨ s.memStatus x.crec 32 ≠ St.ok then
    s.colErr St.badDescriptor 0 0
  else
    let c : CtxId := BitVec.ofNat 8 x.ctx
    let now := s.clock.ns.toNat
    match s.ctx c with
    | none => s.colRecord desc 0 0 St.colNoContext 0 now 0 0 false
    | some k =>
      if 16 ≤ k.pending then s.colRecord desc k.gid 0 St.colQueueFull 0 now 0 0 false
      else
        let seq := s.ctxSeq c
        let next := s.setFld (ctxStat c F.COL_CTX_STAT_SEQ) (seq.toNat + 1)
        if s.ctxAborted c then
          match k.aborts.find? (fun e => e.1 == seq) with
          | some e => (next.setCtx c { k with aborts := k.aborts.filter (fun e => e.1 != seq) }).colFail k desc seq e.2 0 now true
          | none => s.colRecord desc k.gid 0 St.colGroupAborted 0 now 0 0 false
        else next.setCtx c { k with queue := k.queue ++ [⟨seq, a, desc⟩] }

/-- COL_SUBMIT (R462). -/
def execColSubmit (q : Requester) (v : BitVec 64) (s : State) : Host.Outcome State Fault Refusal :=
  .next (if s.reaches q R.COL_SUBMIT then s.colSubmit (v.toNat % 2 ^ 48 / 64 * 64) else s)

/-! ### Exchange -/

/-- Wire bytes of ranges: the elements, then on a floating-point SUM their status bits, two to a byte. -/
def rangeBytes (x : ColDesc) (r : ColRun) (l : List (Nat × Nat)) : List Byte :=
  let idx := l.flatMap (fun e => (List.range e.2).map (fun i => e.1 + i))
  if r.phase = 0 then idx.flatMap (fun i => leBytes 2 (wrapN 16 (Tab.get (fun _ => -32768) r.expo i)))
  else
    let els := idx.flatMap (fun i => leBytes x.wireBytes (wrapN (8 * x.wireBytes) (Tab.get (fun _ => 0) r.wire i)))
    if x.fpSum then
      els ++ (List.range ((idx.length + 1) / 2)).flatMap (fun k =>
        leBytes 1 (Tab.get (fun _ => 0) r.st (idx.getD (2 * k) 0) +
          (if 2 * k + 1 < idx.length then 16 * Tab.get (fun _ => 0) r.st (idx.getD (2 * k + 1) 0) else 0)))
    else els

/-- Bytes of a transfer. -/
def rangeLen (x : ColDesc) (phase : Nat) (l : List (Nat × Nat)) : Nat :=
  let n := (l.map Prod.snd).sum
  if phase = 0 then 2 * n else n * x.wireBytes + (if x.fpSum then (n + 1) / 2 else 0)

/-- Stores or combines a transfer that has arrived whole. -/
def takeRange (x : ColDesc) (comb : Bool) (l : List (Nat × Nat)) (m : Memory) (r : ColRun) : ColRun :=
  let idx := l.flatMap (fun e => (List.range e.2).map (fun i => e.1 + i))
  let w := x.wireBytes
  (List.range idx.length).foldl (fun (r : ColRun) k =>
    let i := idx.getD k 0
    if r.phase = 0 then
      let v := signed 16 (leNat (m.readN (2 * k) 2))
      let o := Tab.get (fun _ => -32768) r.expo i
      { r with expo := Tab.set i (if comb then max o v else v) r.expo }
    else
      let b := leNat (m.readN (k * w) w)
      let v : Int := if x.redop = 1 then signed (8 * w) b else b
      let o := Tab.get (fun _ => 0) r.wire i
      let q := (m.read (idx.length * w + k / 2)).toNat / (if k % 2 = 0 then 1 else 16) % 16
      { r with wire := Tab.set i (if comb then wireComb x o v else v) r.wire,
               st := if x.fpSum then Tab.set i (if comb then Nat.lor (Tab.get (fun _ => 0) r.st i) q else q) r.st else r.st }) r

/-- PHASE of a message of the running collective: algorithm and phase. -/
def ColRun.phaseByte (r : ColRun) : Nat := (if r.phase = 0 then r.prealg else r.alg) * 16 + r.phase

/-- What has arrived from a peer in the step. -/
def ColRun.gotOf (r : ColRun) (peer : Nat) : Option (Nat × Memory) := (r.got.find? (fun e => e.1 == peer)).map Prod.snd

/-- Grants a landing slot to a sender of the step (R482). -/
def State.grant (s : State) (x : Ctx) (r : ColRun) (step peer slot : Nat) : State :=
  s.colSend (x.members.getD peer 0) 0x21 (colHeader x.gid r.seq r.ddig r.phaseByte step (slot * 4096))

/-- Grants one slot to every sender of the step at the head. -/
def State.openStep (s : State) (x : Ctx) (r : ColRun) : State :=
  match r.steps with
  | [] => s
  | t :: _ => (List.range t.recvs.length).foldl (fun s q => s.grant x r t.step (t.recvs.getD q (0, false, [])).1 (q % 16)) s

/-- Sends one slot's worth of a transfer: up to 16 KiB in messages of 240 bytes. -/
def State.sendSlot (s : State) (x : Ctx) (r : ColRun) (step peer slot : Nat) (d : List Byte) : State :=
  (List.range (max 1 (ceilDiv d.length 240))).foldl (fun s k =>
    s.colSend (x.members.getD peer 0) 0x20
      (colHeader x.gid r.seq r.ddig r.phaseByte step (slot * 4096 + 15 * k) ++ (d.drop (240 * k)).take 240)) s

/-- Does a credit serve the step at the head of the running collective, toward a peer? -/
def ColCredit.serves (k : ColCredit) (r : ColRun) (step peer : Nat) : Bool :=
  k.seq == r.seq && k.phase == r.phase && k.step == step && k.peer == peer

/-- Uses one held credit toward a peer, if the transfer has bytes left. -/
def State.useCredit (s : State) (c : CtxId) (peer : Nat) (l : List (Nat × Nat)) : State :=
  match s.ctx c with
  | none => s
  | some x =>
    match x.run with
    | none => s
    | some r =>
      match r.steps with
      | [] => s
      | t :: _ =>
        let d := ColDesc.of r.desc
        let total := rangeLen d r.phase l
        let done := (r.sent.find? (fun e => e.1 == peer)).map Prod.snd
        match x.credits.find? (fun k => k.serves r t.step peer) with
        | none => s
        | some k =>
          if (match done with | some n => decide (total ≤ n) | none => false) then s
          else
            let o := done.getD 0
            let n := min 16384 (total - o)
            let s := s.sendSlot x r t.step peer k.slot (((rangeBytes d r l).drop o).take n)
            s.setCtx c { x with credits := x.credits.erase k,
                                run := some { r with sent := (peer, o + n) :: r.sent.filter (fun e => e.1 != peer) } }

/-- Is every transfer of the step done? -/
def ColRun.stepDone (r : ColRun) (t : ColStep) : Bool :=
  let d := ColDesc.of r.desc
  t.sends.all (fun e => match r.sent.find? (fun o => o.1 == e.1) with
    | some o => decide (rangeLen d r.phase e.2 ≤ o.2)
    | none => false) &&
  t.recvs.all (fun e => match r.gotOf e.1 with
    | some g => decide (rangeLen d r.phase e.2.2 ≤ g.1)
    | none => false)

/-- Takes in what arrived in the step and passes to the next. -/
def ColRun.endStep (r : ColRun) (t : ColStep) : ColRun :=
  let d := ColDesc.of r.desc
  let r := t.recvs.foldl (fun (r : ColRun) e =>
    match r.gotOf e.1 with
    | some g => takeRange d e.2.1 e.2.2 g.2 r
    | none => r) r
  { r with steps := r.steps.drop 1, got := [], sent := [] }

/-- The algorithm of R476 for a size. -/
def State.colChoose (s : State) (c : CtxId) (size : Nat) : Nat :=
  if !s.bit (ctxStat c F.COL_CTX_STAT_HIER) || s.bit (ctxStat c F.COL_CTX_STAT_FORCE_RING) || s.bit (ctxStat c F.COL_CTX_POLICY_CUR_RING)
  then 2
  else if size ≤ s.fld (ctxStat c F.COL_CTX_POLICY_CUR_THRESH) * 1024 then 0
  else 1

/-- The data phase begins: every element of SRC in wire form, and the steps of the algorithm. -/
def ColRun.startData (r : ColRun) (ms : List NodeId) (me : Nat) : ColRun :=
  let d := ColDesc.of r.desc
  let p := ms.length
  let n := (d.elems p me d.count).1
  let base := if d.op = 4 then me * d.count else if d.op = 6 then d.count * p else 0
  let cells := (List.range n).map (fun j => (base + j, toWire d (srcElem d r.src j) (Tab.get (fun _ => -32768) r.expo (j / 64))))
  let own := if d.op = 6 then (List.range d.count).map (fun j => (me * d.count + j, toWire d (srcElem d r.src (me * d.count + j)) 0)) else []
  { r with phase := 1, steps := stepsOf false me (roundsOf r.alg d.op ms d.root d.count), got := [], sent := [],
           wire := (own ++ cells).foldl (fun t c => Tab.set c.1 c.2.1 t) [],
           st := if d.fpSum then cells.foldl (fun t c => Tab.set c.1 c.2.2 t) [] else [] }

/-- Sends what the credits allow and passes from step to step and phase to phase; `n` bounds the steps. -/
def State.colPump (c : CtxId) : Nat → State → State
  | 0, s => s
  | n + 1, s =>
    match s.ctx c with
    | none => s
    | some x =>
      match x.run with
      | none => s
      | some r =>
        if r.status.isSome then s
        else
          match r.steps with
          | [] =>
            if r.phase = 0 then
              let r := r.startData x.members (x.members.idxOf s.nodeId)
              State.colPump c n ((s.setCtx c { x with run := some r }).openStep x r)
            else s.setCtx c { x with run := some { r with status := some St.ok } }
          | t :: _ =>
            let s := t.sends.foldl (fun s e => s.useCredit c e.1 e.2) s
            match (s.ctx c).bind Ctx.run with
            | none => s
            | some r =>
              if r.stepDone t then
                let r := r.endStep t
                State.colPump c n ((s.modCtx c r).openStep x r)
              else s

/-- Steps that the collective of a context can still take. -/
def Ctx.fuel (x : Ctx) : Nat := 8 * x.members.length + 128

def State.colGo (s : State) (c : CtxId) : State :=
  match s.ctx c with
  | some x => State.colPump c x.fuel s
  | none => s

/-! ### Head of the queue -/

/-- DDIG (R485, Table 11-7). -/
def colDigest (desc : List Byte) (alg : Nat) (gid seq : Word) : Word :=
  let b := bytesAt desc
  let rec_ := desc.take 2 ++ leBytes 1 alg ++ zeros 1 ++ leBytes 4 (b 4 4) ++ leBytes 2 (b 24 2 % 2 ^ 14) ++ zeros 2 ++
    leBytes 2 (b 14 2) ++ leBytes 2 (b 22 2) ++ leBytes 4 gid.toNat ++ leBytes 4 seq.toNat
  BitVec.ofNat 32 (leNat ((shake256 rec_ 4).take 4))

/-- Checks 5 to 7 of Table 11-3. -/
def State.colChecks (s : State) (x : ColDesc) (p me : Nat) : Status :=
  let n := x.sizes p me
  if x.formBad p me then St.badDescriptor
  else if s.memStatus x.src n.1 ≠ St.ok ∨ s.memStatus x.dst n.2 ≠ St.ok then St.badDescriptor
  else if overlaps x.src n.1 x.dst n.2 || overlaps x.crec 32 x.src n.1 || overlaps x.crec 32 x.dst n.2 then St.colOverlap
  else St.ok

/-- A policy whose FROM_SEQ the head has reached comes into force (R479). -/
def State.colPolicy (s : State) (c : CtxId) (seq : Word) : State :=
  if olderSeq seq (BitVec.ofNat 32 (s.fld (ctxStat c F.COL_CTX_POLICY_FROM_SEQ))) then s
  else
    (s.setFld (ctxStat c F.COL_CTX_POLICY_CUR_RING) (s.fld (ctxStat c F.COL_CTX_POLICY_NEXT_RING))).setFld
      (ctxStat c F.COL_CTX_POLICY_CUR_THRESH) (s.fld (ctxStat c F.COL_CTX_POLICY_NEXT_THRESH))

/-- KEY of a COLL entry (Table 14-4). -/
def colKey (gid seq : Word) : Nat := gid.toNat * 2 ^ 32 + seq.toNat

/-- Payload of a COLL entry (R495): DDIG, STATUS, NSAT, NFLUSH and the bytes; STATUS alone where nothing moves. -/
def colPayload (sync : Bool) (ddig : Word) (st : Status) (nsat nflush : Nat) (d : List Byte) : List Byte :=
  if sync then leBytes 2 st.toNat
  else leBytes 4 ddig.toNat ++ leBytes 2 st.toNat ++ zeros 2 ++ leBytes 4 nsat ++ leBytes 4 nflush ++ d

/-- A replayed collective completes from its log entry (R496). -/
def State.colReplay (s : State) (x : Ctx) (r : ColRun) : State :=
  let d := ColDesc.of r.desc
  let fail := (s.colSpoil r.desc x.members.length (x.members.idxOf s.nodeId) St.colReplayMismatch).colRecord r.desc x.gid r.seq
    St.colReplayMismatch 15 r.start 0 0 true
  match s.logFind Lt.coll (colKey x.gid r.seq) with
  | none =>
    -- a pick barrier that completed at one survivor counts as completed at all (R597)
    let all := match s.draft with | some d => d.nmembers == x.members.length | none => false
    let passed := match s.resil.restartPick with | some p => decide (s.pick < p) | none => false
    if d.count = 0 ∧ all = true ∧ passed = true then s.colRecord r.desc x.gid r.seq St.ok 15 r.start 0 0 true else fail
  | some e =>
    let b := bytesAt e.payload
    if d.syncs then s.colRecord r.desc x.gid r.seq (BitVec.ofNat 16 (b 0 2)) 15 r.start 0 0 true
    else if b 0 4 ≠ r.ddig.toNat then fail
    else (s.writeBytes d.dst (e.payload.drop 16)).colRecord r.desc x.gid r.seq (BitVec.ofNat 16 (b 4 2)) 15 r.start (b 8 4) (b 12 4) true

/-- The digests and algorithms of credits that came before the head was reached (R486). -/
def ColRun.credBad (r : ColRun) (k : ColCredit) : Bool :=
  k.seq == r.seq && (k.ddig != r.ddig || k.alg != (if k.phase = 0 then r.prealg else r.alg))

/-- A descriptor has reached the head of its queue (Table 11-3 checks 5 to 9, R470, R476, R485). -/
def State.colHead (s : State) (c : CtxId) (x : Ctx) (q : ColQ) (rest : List ColQ) : State :=
  let d := ColDesc.of q.desc
  let p := x.members.length
  let me := x.members.idxOf s.nodeId
  let s := s.colPolicy c q.seq
  let size := d.sizeS p
  let nsrc := size / d.fmtOf.bytes
  let blocks := (nsrc + 63) / 64
  let alg := if d.syncs then (if s.bit (ctxStat c F.COL_CTX_STAT_HIER) then 0 else 2)
    else if d.op = 6 then 3 else s.colChoose c size
  let prealg := s.colChoose c (2 * blocks)
  let src := s.bytes d.src (d.sizes p me).1
  let r : ColRun :=
    { seq := q.seq, addr := q.addr, desc := q.desc, alg := alg, prealg := prealg, ddig := colDigest q.desc alg x.gid q.seq, src := [],
      phase := if d.syncs then 2 else if d.fpSum then 0 else 1, steps := [], got := [], sent := [], wire := [], st := [],
      expo := [], start := s.clock.ns.toNat, status := none, nsat := 0, nflush := 0, replayed := false }
  let x := { x with queue := rest, run := some r }
  let s := s.setCtx c x
  let chk := s.colChecks d p me
  if s.bit F.COL_STAT_REPLAY then (s.colReplay x r).setCtx c { x with run := none }
  else if chk ≠ St.ok then s.colAbortRun c chk St.aborted
  else if x.members.any (fun n => n != s.nodeId && !s.windowMatch n 2 0x20 0 0) then
    (s.colFail x q.desc q.seq St.accessBlocked alg r.start false).setCtx c { x with run := none }
  else if s.badRead d.src (d.sizes p me).1 then (s.noteRead d.src (d.sizes p me).1).colAbortRun c St.uncorrectable St.aborted
  else
    let r := { r with src := src }
    let r :=
      if d.syncs then { r with steps := stepsOf true me (roundsOf alg 7 x.members 0 0) }
      else if d.fpSum then
        { r with steps := stepsOf false me (roundsOf prealg 1 x.members 0 blocks),
                 expo := (List.range blocks).map (fun k => (k, xmax d src nsrc k)) }
      else r.startData x.members me
    let x := { x with run := some r }
    if x.credits.any r.credBad then (s.setCtx c x).colAbortRun c St.mismatch St.mismatch
    else (((s.setCtx c x).openStep x r).colGo c)

/-- COLLECTIVE_HEAD (R466, R467): one collective of a context at a time, in SEQ order. Its input is read once the span
directory lets it (Table 10-9). -/
def execCollectiveHead (c : CtxId) (now : BitVec 64) (s : State) : Host.Outcome State Fault Refusal :=
  let s := s.at_ now
  .next (match s.ctx c with
    | none => s
    | some x =>
      match x.run, x.queue with
      | none, q :: rest =>
        let d := ColDesc.of q.desc
        match s.recall d.src (d.sizes x.members.length (x.members.idxOf s.nodeId)).1 false [] with
        | some s => s
        | none => s.colHead c x q rest
      | _, _ => s)

/-! ### Arriving messages -/

/-- The context of an arriving collective message (R491): stale and unknown ones are counted and discarded. -/
def State.colFind (s : State) (m : Msg) : State × Option (CtxId × Ctx) :=
  match s.ctxOfGroup (BitVec.ofNat 32 (bytesAt m.data 0 4)) with
  | none => ((s.count F.COL_ERR_UNKNOWN_GROUP 1).raise 0x380 St.colUnknownGroup [], none)
  | some c =>
    match s.ctx c with
    | none => (s, none)
    | some x =>
      if olderSeq (BitVec.ofNat 32 (bytesAt m.data 4 4)) (s.currentSeq c x) then (s.countWrap F.COL_ERR_STALE 1, none)
      else (s, some (c, x))

/-- COL_DATA for the running collective: it lands in the slot that its sender was granted (R482). -/
def State.colTake (s : State) (c : CtxId) (x : Ctx) (r : ColRun) (t : ColStep) (peer : Nat) (slot : Nat) (d : List Byte) : State :=
  match t.recvs.find? (fun e => e.1 == peer) with
  | none => s
  | some e =>
    let total := rangeLen (ColDesc.of r.desc) r.phase e.2.2
    let o := (r.gotOf peer).getD (0, [])
    if total ≤ o.1 ∧ (total ≠ 0 ∨ (r.gotOf peer).isSome) then s
    else
      let at_ := o.1 / 16384 * 16384 + slot % 1024 * 16
      let n := o.1 + d.length
      let r := { r with got := (peer, n, o.2.writeN at_ d) :: r.got.filter (fun g => g.1 != peer) }
      let s := s.setCtx c { x with run := some r }
      let s := if n % 16384 = 0 ∧ n < total then s.grant x r t.step peer (slot / 4096) else s
      s.colGo c

/-- COL_DATA (R482, R486). -/
def execColData (p : PortId) (m : Msg) (s : State) : Host.Outcome State Fault Refusal :=
  let a := s.intake p m
  .next (
    if a.2 = false ∨ a.1.bit F.COL_STAT_REPLAY = true then a.1
    else
      match a.1.colFind m with
      | (s, none) => s
      | (s, some (c, x)) =>
        match x.run with
        | none => s
        | some r =>
          let b := bytesAt m.data
          if b 4 4 ≠ r.seq.toNat ∨ r.status.isSome then s
          else if b 8 4 ≠ r.ddig.toNat ∨ b 12 1 / 16 ≠ (if b 12 1 % 16 = 0 then r.prealg else r.alg) then
            s.colAbortRun c St.mismatch St.mismatch
          else
            match r.steps with
            | t :: _ =>
              if b 12 1 % 16 = r.phase ∧ b 13 1 = t.step then
                s.colTake c x r t (x.members.idxOf m.src) (b 14 2) (m.data.drop 16)
              else s
            | [] => s)

/-- COL_CREDIT (R482, R483, R486). -/
def execColCredit (p : PortId) (m : Msg) (s : State) : Host.Outcome State Fault Refusal :=
  let a := s.intake p m
  .next (
    if a.2 = false ∨ a.1.bit F.COL_STAT_REPLAY = true then a.1
    else
      match a.1.colFind m with
      | (s, none) => s
      | (s, some (c, x)) =>
        let b := bytesAt m.data
        let k : ColCredit := ⟨BitVec.ofNat 32 (b 4 4), b 12 1 % 16, b 13 1, x.members.idxOf m.src, b 14 2 / 4096,
          BitVec.ofNat 32 (b 8 4), b 12 1 / 16⟩
        if 64 ≤ x.credits.length then s
        else
          let s := s.setCtx c { x with credits := x.credits ++ [k] }
          match x.run with
          | none => s
          | some r => if r.status.isNone && r.credBad k then s.colAbortRun c St.mismatch St.mismatch else s.colGo c)

/-- COL_ABORT (R487, R488): the collective completes whether it runs, is queued or is still to be submitted. -/
def execColAbort (p : PortId) (m : Msg) (s : State) : Host.Outcome State Fault Refusal :=
  let a := s.intake p m
  .next (
    if a.2 = false ∨ a.1.bit F.COL_STAT_REPLAY = true then a.1
    else
      match a.1.colFind m with
      | (s, none) => s
      | (s, some (c, x)) =>
        let seq : Word := BitVec.ofNat 32 (bytesAt m.data 4 4)
        let reason : Status := BitVec.ofNat 16 (bytesAt m.data 14 2)
        let st := if reason = St.mismatch ∨ reason = St.nodeLost then reason else St.aborted
        let now := s.clock.ns.toNat
        match x.run with
        | some r =>
          if r.seq = seq then
            if r.status.isSome then s
            else
              ((s.colFail x r.desc seq st r.alg r.start true).setCtx c
                { x with run := none, credits := x.credits.filter (fun k => k.seq != seq) }).colMark c seq reason
          else
            match x.queue.find? (fun q => q.seq == seq) with
            | some q => ((s.colFail x q.desc seq st 0 now true).setCtx c { x with queue := x.queue.erase q }).colMark c seq reason
            | none => (s.setCtx c { x with aborts := x.aborts ++ [(seq, st)] }).colMark c seq reason
        | none =>
          match x.queue.find? (fun q => q.seq == seq) with
          | some q => ((s.colFail x q.desc seq st 0 now true).setCtx c { x with queue := x.queue.erase q }).colMark c seq reason
          | none => (s.setCtx c { x with aborts := x.aborts ++ [(seq, st)] }).colMark c seq reason)

/-- COLLECTIVE_TIMEOUT (R486): COL_CFG.TIMEOUT has passed since the collective reached the head of its queue. -/
def execCollectiveTimeout (c : CtxId) (now : BitVec 64) (s : State) : Host.Outcome State Fault Refusal :=
  let s := s.at_ now
  .next (match (s.ctx c).bind Ctx.run with
    | some r =>
      if r.status.isNone && decide (r.start + s.fld F.COL_CFG_TIMEOUT * 1000000 ≤ s.clock.ns.toNat) then
        s.colAbortRun c St.timeout St.aborted
      else s
    | none => s)

/-! ### Completion -/

/-- DST bytes of the member with the events of each element. -/
def ColRun.output (r : ColRun) (p me : Nat) : List (Nat × Ev) :=
  let d := ColDesc.of r.desc
  (List.range (d.elems p me d.count).2).map (fun j =>
    let i := if d.op = 3 then me * d.count + j else j
    finalStep d (Tab.get (fun _ => 0) r.wire i) (Tab.get (fun _ => 0) r.st i) (Tab.get (fun _ => 0) r.expo (i / 64)))

/-- The collective at the head has written its record: the next may come. -/
def State.colEnd (s : State) (c : CtxId) : State :=
  match s.ctx c with
  | none => s
  | some x =>
    match x.run with
    | none => s
    | some r =>
      let barrier := (ColDesc.of r.desc).count == 0 && (match s.draft with | some d => d.nmembers == x.members.length | none => false)
      let s := if barrier then { s with resil := { s.resil with lastBarrier := some s.eventPick } } else s
      (s.colRecord r.desc x.gid r.seq St.ok r.alg r.start r.nsat r.nflush false).setCtx c
        { x with run := none, credits := x.credits.filter (fun k => k.seq != r.seq) }

/-- Final step, DST, log entry and record of a collective whose exchange is done (R473, R492, R495). The record waits for
the entry's acknowledgement (R590). SRC written meanwhile leaves DST undefined (R498). -/
def State.colComplete (s : State) (c : CtxId) (x : Ctx) (r : ColRun) : State :=
  let d := ColDesc.of r.desc
  let p := x.members.length
  let me := x.members.idxOf s.nodeId
  let out := r.output p me
  let changed := !d.syncs && decide (s.bytes d.src (d.sizes p me).1 ≠ r.src)
  let free := if changed then s.drawBytes (d.sizes p me).2 else ([], s)
  let bytes := if changed then free.1 else out.flatMap (fun e => leBytes d.fmtOf.bytes e.1)
  let evs := out.map Prod.snd
  let r := { r with status := some St.ok, nsat := countSat evs, nflush := countFlush evs, phase := 3 }
  let s := (free.2.writeBytes d.dst bytes).setCtx c { x with run := some r }
  let l := s.logInput Lt.coll (colKey x.gid r.seq) (colPayload d.syncs r.ddig St.ok (stop32 r.nsat) (stop32 r.nflush) bytes)
  match l.2 with
  | some n => { l.1 with resil := { l.1.resil with held := l.1.resil.held ++ [.colDone n c] } }
  | none => l.1.colEnd c

/-- COLLECTIVE_COMPLETE (R492). -/
def execCollectiveComplete (c : CtxId) (now : BitVec 64) (s : State) : Host.Outcome State Fault Refusal :=
  let s := s.at_ now
  .next (match s.ctx c with
    | none => s
    | some x =>
      match x.run with
      | none => s
      | some r =>
        if r.status.isSome ∧ r.phase ≠ 3 then
          let d := ColDesc.of r.desc
          match s.recall d.dst (d.sizes x.members.length (x.members.idxOf s.nodeId)).2 true [] with
          | some s => s
          | none => s.colComplete c x r
        else s)

/-! ### Control -/

/-- Every queued or running descriptor of a context completes with ABORTED. -/
def State.colFlush (s : State) (c : CtxId) : State :=
  match s.ctx c with
  | none => s
  | some x =>
    let s := match x.run with
      | some r => s.colFail x r.desc r.seq St.aborted r.alg r.start false
      | none => s
    let s := x.queue.foldl (fun s q => s.colFail x q.desc q.seq St.aborted 0 s.clock.ns.toNat false) s
    s.setCtx c { x with run := none, queue := [], credits := [], aborts := [] }

/-- RESET of COL_CTX_CTL (R488). -/
def State.colReset (s : State) (c : CtxId) (seq : Nat) : State :=
  if (s.ctx c).isNone then s
  else
    (((s.colFlush c).setFld (ctxStat c F.COL_CTX_STAT_STATE) 0).setFld (ctxStat c F.COL_CTX_STAT_REASON) 0).setFld
      (ctxStat c F.COL_CTX_STAT_SEQ) seq

/-- Removes a context without completing anything: its registers return to their reset values (R460). -/
def State.colDrop (s : State) (c : CtxId) : State :=
  let s := { s with ctxs := Tab.erase c.toNat s.ctxs }
  ((s.setReg (R.COL_CTX_STAT + 8 * c.toNat) 0).setReg (R.COL_CTX_ID + 8 * c.toNat) 0).setReg (R.COL_CTX_POLICY + 8 * c.toNat)
    (resetVal (R.COL_CTX_POLICY + 8 * c.toNat))

/-- DESTROY of COL_CTX_CTL (R458). -/
def State.colDestroy (s : State) (c : CtxId) : State :=
  if (s.ctx c).isNone then s else (s.colFlush c).colDrop c

/-- A write of COL_CTX_CTL: RESET from firmware processors, DESTROY from FBC0 and FBC1. -/
def State.colCtl (s : State) (q : Requester) (c : CtxId) (v : BitVec 64) : State :=
  let s := if bitN v.toNat 63 ∧ Requester.isFw q = true then s.colReset c (v.toNat % 2 ^ 32) else s
  if bitN v.toNat 62 ∧ Requester.isFbc q = true then s.colDestroy c else s

/-- COL_CTX_RESET (R488). -/
def execColCtxReset (q : Requester) (c : CtxId) (v : BitVec 64) (s : State) : Host.Outcome State Fault Refusal :=
  .next (s.colCtl q c v)

/-- COL_CTX_DESTROY (R458). -/
def execColCtxDestroy (q : Requester) (c : CtxId) (v : BitVec 64) (s : State) : Host.Outcome State Fault Refusal :=
  .next (s.colCtl q c v)

/-- A write of COL_CTX_POLICY (R479): FROM_SEQ, NEXT_RING and NEXT_THRESH, from FBC0 and FBC1 only. -/
def State.colPolicyWrite (s : State) (q : Requester) (c : CtxId) (v : BitVec 64) : State :=
  if Requester.isFbc q then
    ((s.setFld (ctxStat c F.COL_CTX_POLICY_FROM_SEQ) (v.toNat / 2 ^ 32)).setFld (ctxStat c F.COL_CTX_POLICY_NEXT_RING)
      (v.toNat / 2 ^ 31)).setFld (ctxStat c F.COL_CTX_POLICY_NEXT_THRESH) (v.toNat / 2 ^ 16)
  else s

/-- COL_CTX_POLICY_WRITE (R479). -/
def execColCtxPolicyWrite (q : Requester) (c : CtxId) (v : BitVec 64) (s : State) : Host.Outcome State Fault Refusal :=
  .next (s.colPolicyWrite q c v)

/-- Every collective of every context that holds a lost node completes with NODE_LOST (R486, R498). -/
def State.colLost (s : State) (n : NodeId) : State :=
  s.ctxs.foldl (fun s e =>
    let c : CtxId := BitVec.ofNat 8 e.1
    if e.2.members.contains n then
      match (s.ctx c).bind Ctx.run with
      | some r => if r.status.isSome then s.colMark c r.seq St.nodeLost else s.colAbortRun c St.nodeLost St.nodeLost
      | none =>
        match (s.ctx c).map Ctx.queue with
        | some (q :: rest) =>
          ((s.colFail e.2 q.desc q.seq St.nodeLost 0 s.clock.ns.toNat true).setCtx c { e.2 with queue := rest }).colMark c q.seq St.nodeLost
        | _ => s.colMark c (s.ctxSeq c) St.nodeLost
    else s) s

end Sys2Proof.Machine
end

