-- ==== Sys2Proof/Machine/Approx.lean ====
section
/-! DEFINITION. The approximated functions EXP2, LOG2, RCP and RSQRT (R92, R241, R242): the special cases of Table 2-8,
and for every other input a value within the error bound of Table 6-6. Which of the values within the bound the
hardware's table and polynomial give is not in the manual: it is the opaque Config.approxBits, taken where it meets the
bound, and the correctly rounded value otherwise (assumption log 4). -/

namespace Sys2Proof.Machine

inductive ApproxFn where
  | exp2 | log2 | rcp | rsqrt
deriving DecidableEq, Repr

/-- Integer square root, one result bit per unit of fuel from bit n − 1 down. -/
def isqrt : Nat → Nat → Nat → Nat
  | 0, r, _ => r
  | n + 1, r, x => isqrt n (if (r + 2 ^ n) * (r + 2 ^ n) ≤ x then r + 2 ^ n else r) x

/-- 2^(2^−i) in units of 2^−120, i from 0. -/
def rootsOfTwo : Nat → Nat → List Nat
  | 0, _ => []
  | n + 1, c => c :: rootsOfTwo n (isqrt 122 0 (c * 2 ^ 120))

/-- The product of the roots selected by the bits of f (most significant first, n bits), in units of 2^−120. -/
def exp2Frac : List Nat → Nat → Nat → Nat → Nat
  | [], _, _, acc => acc
  | c :: r, n, f, acc => exp2Frac r (n - 1) f (if bitN f (n - 1) then acc * c / 2 ^ 120 else acc)

/-- A reference for 2^x of a finite x, m × 2^e: 119 bits with a sticky bit below them; the value is not an exact one. -/
def exp2Ref (x : Num) (e : Int) : Num :=
  let i := Num.mant x
  let fl := if e ≤ 0 then i / ((2 ^ (-e).toNat : Nat) : Int) else i * (2 ^ e.toNat : Nat)
  let fr := if e ≤ 0 then (i % ((2 ^ (-e).toNat : Nat) : Int)).toNat else 0
  let fr80 := if -e ≤ 80 then fr * 2 ^ (80 - (-e).toNat) else fr / 2 ^ ((-e).toNat - 80)
  let r := exp2Frac (rootsOfTwo 81 (2 ^ 121)).tail 80 fr80 (2 ^ 120)
  .fin false (2 * r + natOf (fr != 0)) (fl - 121)

/-- Fraction bits of log2 y by repeated squaring, y in [1, 2) in units of 2^−300. -/
def log2Bits : Nat → Nat → Nat → Nat
  | 0, _, acc => acc
  | n + 1, y, acc =>
    let y2 := y * y / 2 ^ 300
    if 2 ^ 301 ≤ y2 then log2Bits n (y2 / 2) (2 * acc + 1) else log2Bits n y2 (2 * acc)

/-- A reference for log2 of a positive m × 2^e, in units of 2^−121 with a sticky bit. -/
def log2Ref (m : Nat) (e : Int) : Num :=
  let k := m.log2
  let y := m * 2 ^ (300 - k)
  let fr := log2Bits 120 y 0
  let v : Int := (e + k) * ((2 ^ 121 : Nat) : Int) + 2 * fr + natOf (m != 2 ^ k)
  .ofInt v (-121)

/-- A reference for 1 / (m × 2^e), exact when m is a power of two. -/
def rcpRef (n : Bool) (m : Nat) (e : Int) : Num :=
  let q := 2 ^ (m.log2 + 80) / m
  .fin n (2 * q + natOf (2 ^ (m.log2 + 80) % m != 0)) (-e - (m.log2 + 81 : Nat))

/-- A reference for 1 / √(m × 2^e). -/
def rsqrtRef (m : Nat) (e : Int) : Num :=
  let odd := e % 2 != 0
  let m := if odd then 2 * m else m
  let e := if odd then e - 1 else e
  let q := 2 ^ (2 * m.log2 + 160) / m
  let r := isqrt (m.log2 + 100) 0 q
  .fin false (2 * r + natOf (r * r * m != 2 ^ (2 * m.log2 + 160))) (-(e / 2) - (m.log2 + 81 : Nat))

/-- Unit in the last place of format f at a finite nonzero value, as an exponent of two (R241). -/
def ulpExp (f : Fmt) (m : Nat) (e : Int) : Int :=
  max (e + m.log2) (1 - (f.bias : Int)) - f.frac

/-- |x| ≤ |y| for finite values. -/
def absLe (x y : Num) : Bool :=
  let pos := fun (v : Num) => match v with | .fin _ m e => Num.fin false m e | w => w
  !(pos y).lt (pos x)

/-- The error bound of Table 6-6 in ulp, and the absolute bound as an exponent of two for LOG2. -/
def approxBound (fn : ApproxFn) (f : Fmt) : Nat × Option Int :=
  match fn, f with
  | .exp2, .f16 => (1, none)
  | .exp2, _ => (2, none)
  | .log2, .f16 => (1, some (-12))
  | .log2, _ => (2, some (-24))
  | .rcp, _ => (1, none)
  | .rsqrt, .f16 => (1, none)
  | .rsqrt, _ => (2, none)

def ApproxFn.code : ApproxFn → Nat
  | .exp2 => 0
  | .log2 => 1
  | .rcp => 2
  | .rsqrt => 3

/-- The result for a reference value: exact results, overflow and flushed results by the general rules; any other is
the hardware's value where it lies within the bound. -/
def approxResult (fn : ApproxFn) (f : Fmt) (md : NMode) (w : Nat) (x : Num) : Nat × Ev :=
  let r := roundFloat f md x
  match x with
  | .fin _ m e =>
    let exact := decide (Num.eq (decodeFloat f r.1) x)
    if exact || r.2.sat || (r.2.flush && md.ftz) || m == 0 then r
    else
      let b := approxBound fn f
      let u := ulpExp f m e
      let lim := Num.fin false (b.1 + natOf md.rtz) u
      let c := Config.approxBits fn.code f.bits md.rtz w % 2 ^ f.bits
      let d := (decodeFloat f c).add x.negate
      let near := absLe d lim || (match b.2 with | none => false | some a => absLe d (Num.fin false 1 a))
      match decodeFloat f c, near with
      | .fin _ _ _, true => (c, r.2)
      | _, _ => r
  | _ => r

/-- An approximated function of the bits w of format f (Table 2-8, Table 6-6). -/
def approx (fn : ApproxFn) (f : Fmt) (md : NMode) (w : Nat) : Nat × Ev :=
  match fn, decodeFloat f w with
  | _, .nan => (canonNan f, Ev.none)
  | .exp2, .inf true => (zeroBits f false, Ev.none)
  | .exp2, .inf false => (infBits f false, Ev.none)
  | .exp2, .fin n m e =>
    if m = 0 then roundFloat f md (.fin false 1 0)
    else if 12 < e + m.log2 then
      roundFloat f md (.fin false 1 (if n then -5000 else 5000))
    else approxResult fn f md w (exp2Ref (.fin n m e) e)
  | .log2, .inf true => (canonNan f, Ev.none)
  | .log2, .inf false => (infBits f false, Ev.none)
  | .log2, .fin n m e =>
    if m = 0 then (infBits f true, Ev.none)
    else if n then (canonNan f, Ev.none)
    else approxResult fn f md w (log2Ref m e)
  | .rcp, .inf n => (zeroBits f n, Ev.none)
  | .rcp, .fin n m e => if m = 0 then (infBits f n, Ev.none) else approxResult fn f md w (rcpRef n m e)
  | .rsqrt, .inf true => (canonNan f, Ev.none)
  | .rsqrt, .inf false => (zeroBits f false, Ev.none)
  | .rsqrt, .fin n m e =>
    if m = 0 then (infBits f n, Ev.none)
    else if n then (canonNan f, Ev.none)
    else approxResult fn f md w (rsqrtRef m e)

end Sys2Proof.Machine
end

