-- ==== Sys2Proof/Machine/Element.lean ====
section
/-! DEFINITION. The element engine (chapter 6): tile registers, streams, the chain descriptor and its checks in order,
the operations of Table 6-5 with their numeric events, timing, and completion. -/

namespace Sys2Proof.Machine

/-! ### Operations -/

/-- Operations of Table 6-5. -/
inductive ElemOp where
  | mov | band | bor | bxor | bnot | sel | neg | abs | cpsgn | cat | rbshr | splat
  | shl | shr | sra | shli | shri | srai
  | iadd | isub | imul | imulh | imad | imax | imin | iceq | icne | iclt | icle
  | fadd | fsub | fmul | fma | fmax | fmin | fceq | fcne | fclt | fcle
  | apx (fn : ApproxFn)
  | rmax | rmin | rsum
  | cvt (dst : Fmt)
  | compress | expand | causal
deriving DecidableEq, Repr

/-- The operation of an OPC (Table 6-5); the others are reserved. -/
def ElemOp.ofCode (c : Nat) : Option ElemOp :=
  match c with
  | 0x01 => some .mov
  | 0x02 => some .band
  | 0x03 => some .bor
  | 0x04 => some .bxor
  | 0x05 => some .bnot
  | 0x06 => some .sel
  | 0x07 => some .neg
  | 0x08 => some .abs
  | 0x09 => some .cpsgn
  | 0x0A => some .cat
  | 0x0B => some .rbshr
  | 0x0C => some .splat
  | 0x10 => some .shl
  | 0x11 => some .shr
  | 0x12 => some .sra
  | 0x13 => some .shli
  | 0x14 => some .shri
  | 0x15 => some .srai
  | 0x20 => some .iadd
  | 0x21 => some .isub
  | 0x22 => some .imul
  | 0x23 => some .imulh
  | 0x24 => some .imad
  | 0x25 => some .imax
  | 0x26 => some .imin
  | 0x28 => some .iceq
  | 0x29 => some .icne
  | 0x2A => some .iclt
  | 0x2B => some .icle
  | 0x30 => some .fadd
  | 0x31 => some .fsub
  | 0x32 => some .fmul
  | 0x33 => some .fma
  | 0x34 => some .fmax
  | 0x35 => some .fmin
  | 0x38 => some .fceq
  | 0x39 => some .fcne
  | 0x3A => some .fclt
  | 0x3B => some .fcle
  | 0x40 => some (.apx .exp2)
  | 0x41 => some (.apx .log2)
  | 0x42 => some (.apx .rcp)
  | 0x43 => some (.apx .rsqrt)
  | 0x48 => some .rmax
  | 0x49 => some .rmin
  | 0x4A => some .rsum
  | 0x60 => some .compress
  | 0x61 => some .expand
  | 0x64 => some .causal
  | _ => if 0x50 ≤ c ∧ c ≤ 0x57 then (Fmt.ofCode (c - 0x4F)).map .cvt else none

/-- Operand fields an operation uses: B and C as registers, IMM in their place, A, and C as a number (CAUSAL). -/
structure OpUse where
  a : Bool
  b : Bool
  c : Bool
  imm : Bool
deriving DecidableEq, Repr

/-- A conversion in pair form (R240). -/
def pairForm (src dst : Fmt) : Bool := !src.isFx && !dst.isFx && 2 * dst.bytes == src.bytes

def ElemOp.uses (o : ElemOp) (f : Fmt) : OpUse :=
  match o with
  | .mov | .bnot | .neg | .abs | .apx _ | .rmax | .rmin | .rsum => ⟨true, false, false, false⟩
  | .sel | .imad | .fma | .expand | .causal => ⟨true, true, true, false⟩
  | .cat | .rbshr | .shli | .shri | .srai => ⟨true, false, false, true⟩
  | .splat => ⟨false, false, false, true⟩
  | .cvt d => if pairForm f d then ⟨true, true, false, false⟩ else ⟨true, false, false, true⟩
  | _ => ⟨true, true, false, false⟩

/-- Formats an operation accepts (Table 6-5). -/
def ElemOp.accepts (o : ElemOp) (f : Fmt) : Bool :=
  match o with
  | .cpsgn | .fadd | .fsub | .fmul | .fma | .fmax | .fmin | .fceq | .fcne | .fclt | .fcle | .apx _ | .causal => f.isFloat
  | .shl | .shr | .sra | .shli | .shri | .srai | .iadd | .isub | .imul | .imulh | .imad | .imax | .imin
  | .iceq | .icne | .iclt | .icle => !f.isFloat
  | _ => true

/-- May SAT be 1 (Table 6-5)? -/
def ElemOp.satOk (o : ElemOp) (f : Fmt) : Bool :=
  match o with
  | .neg | .abs | .shl | .shli | .iadd | .isub | .imul | .imad | .rsum => !f.isFloat
  | _ => false

/-- Is the 10-bit IMM in range (Table 6-5, R238)? -/
def ElemOp.immOk (o : ElemOp) (f : Fmt) (imm : Nat) : Bool :=
  match o with
  | .cat => decide (1 ≤ imm) && decide (imm ≤ 63)
  | .rbshr | .shli | .shri | .srai => decide (imm ≤ 63)
  | .cvt d => f.isFx || d.isFx || imm == 0
  | _ => true

/-! ### The descriptor -/

/-- A stream word (Table 6-3). -/
structure StreamW where
  raw : Nat
  en : Bool
  pair : Bool
  reg : Nat
  stride : Int
  tile : Nat
deriving DecidableEq, Repr

def StreamW.of (w : Nat) : StreamW :=
  ⟨w, bitN w 31, bitN w 30, bitsN w 28 24, signed 8 (bitsN w 23 16), bitsN w 12 0⟩

def StreamW.ok (x : StreamW) : Bool :=
  if x.en then
    !bitN x.raw 29 && bitsN x.raw 15 13 == 0 && (!x.pair || (decide (x.tile % 8 < 4) && x.stride % 8 == 0))
  else x.raw == 0

/-- tile(S, i) of R224; none outside 0 to 8191. -/
def StreamW.at (x : StreamW) (i : Nat) : Option Nat :=
  let b : Int := x.tile + x.stride * (if x.pair then (i / 2 : Nat) else i)
  if b < 0 ∨ 8191 < b then none
  else some (if x.pair && i % 2 == 1 then Nat.xor b.toNat 6 else b.toNat)

/-- A stage word (Table 6-4). -/
structure StageW where
  opc : Nat
  sat : Bool
  fmt : Nat
  a : Nat
  b : Nat
  c : Nat
  d : Nat
  imm : Nat
deriving DecidableEq, Repr

def StageW.of (w : Nat) : StageW :=
  ⟨bitsN w 31 25, bitN w 24, bitsN w 23 20, bitsN w 19 15, bitsN w 14 10, bitsN w 9 5, bitsN w 4 0, bitsN w 14 5⟩

/-- A stage whose fields are valid. -/
structure Stage where
  op : ElemOp
  f : Fmt
  sat : Bool
  a : Nat
  b : Nat
  c : Nat
  d : Nat
  imm : Nat
deriving DecidableEq, Repr

/-- The stage of a word, if its operation, format, SAT, IMM and unused fields are valid. -/
def StageW.stage (w : StageW) : Option Stage :=
  match ElemOp.ofCode w.opc, Fmt.ofCode w.fmt with
  | some o, some f =>
    let u := o.uses f
    if o.accepts f && (!w.sat || o.satOk f) && (u.a || w.a == 0) &&
        (if u.imm then o.immOk f w.imm else (u.b || w.b == 0) && (u.c || w.c == 0))
    then some ⟨o, f, w.sat, w.a, w.b, w.c, w.d, w.imm⟩ else none
  | _, _ => none

/-- Fields of a chain descriptor (Table 6-2). -/
structure ChainDesc where
  nstages : Nat
  op : Nat
  dgEn : Bool
  dgW : Nat
  nmode : Nat
  count : Nat
  in0 : StreamW
  in1 : StreamW
  out0 : StreamW
  out1 : StreamW
  crec : Nat
  dgSlot : Nat
  dgBase : Nat
  auxKind : Nat
  aux : Nat
  words : List Nat
deriving DecidableEq, Repr

def ChainDesc.of (d : List Byte) : ChainDesc :=
  let w := fun o => bytesAt d o 4
  { nstages := bitsN (bytesAt d 0 1) 7 4, op := bitsN (bytesAt d 0 1) 3 0, dgEn := bitN (bytesAt d 1 1) 7,
    dgW := bitsN (bytesAt d 1 1) 6 4, nmode := bitsN (bytesAt d 1 1) 3 0, count := bytesAt d 2 2,
    in0 := StreamW.of (w 4), in1 := StreamW.of (w 8), out0 := StreamW.of (w 12), out1 := StreamW.of (w 16), crec := w 20,
    dgSlot := bitsN (w 24) 31 28, dgBase := bitsN (w 24) 27 0, auxKind := bitsN (w 28) 31 30, aux := bitsN (w 28) 29 0,
    words := (List.range 8).map (fun s => w (32 + 4 * s)) }

/-- The valid stages of the chain; none when a stage word is invalid. -/
def ChainDesc.stages? (x : ChainDesc) : Option (List Stage) :=
  (x.words.take x.nstages).mapM (fun w => (StageW.of w).stage)

def ChainDesc.stages (x : ChainDesc) : List Stage := x.stages?.getD []

def ChainDesc.hasOp (x : ChainDesc) (o : ElemOp) : Bool := x.stages.any (fun g => g.op == o)

def ChainDesc.kshift (x : ChainDesc) : Nat := bitsN x.aux 29 27
def ChainDesc.kpos0 (x : ChainDesc) : Nat := bitsN x.aux 20 0
def ChainDesc.cnt (x : ChainDesc) : Nat := bitsN x.aux 22 0

/-- Enabled streams. -/
def ChainDesc.ins (x : ChainDesc) : List StreamW := [x.in0, x.in1].filter (·.en)
def ChainDesc.outs (x : ChainDesc) : List StreamW := [x.out0, x.out1].filter (·.en)

/-- Check 2 of Table 6-7. -/
def ChainDesc.fieldsOk (x : ChainDesc) (mapped : Bool) : Bool :=
  x.op == 1 && decide (1 ≤ x.nstages) && decide (x.nstages ≤ 8) && decide (x.nmode < 8) && decide (x.dgW < 4) &&
  x.stages?.isSome && (x.words.drop x.nstages).all (· == 0) &&
  x.in0.ok && x.in1.ok && x.out0.ok && x.out1.ok && !(x.in0.en && x.in1.en && x.in0.reg == x.in1.reg) &&
  (match x.auxKind with
    | 0 => x.aux == 0
    | 1 => bitsN x.aux 29 23 == 0 && x.cnt % 2 == 0
    | 2 => bitsN x.aux 26 21 == 0
    | _ => false) &&
  decide ((x.stages.filter (fun g => g.op == .compress)).length ≤ 1) &&
  (x.hasOp .compress == (x.auxKind == 1)) && (x.hasOp .causal == (x.auxKind == 2)) &&
  (if x.dgEn then mapped else x.dgW == 0 && x.dgSlot == 0 && x.dgBase == 0)

/-- (iteration, tile) of every enabled stream of a list. -/
def ChainDesc.walk (x : ChainDesc) (l : List StreamW) : List (Nat × Nat) :=
  l.flatMap (fun w => (List.range x.count).filterMap (fun i => (w.at i).map (fun t => (i, t))))

/-- Largest key position of the CAUSAL stages (R260). -/
def ChainDesc.maxPos (x : ChainDesc) : Nat :=
  ((x.stages.filter (fun g => g.op == .causal)).map (fun g =>
    x.kpos0 + (x.count - 1) * 2 ^ x.kshift + g.c * (64 / g.f.bytes) + (64 / g.f.bytes - 1))).foldl max 0

/-- The checks of Table 6-7 in order; none when all pass. -/
def State.chainCheck (s : State) (t : TileId) (x : ChainDesc) : Option Status :=
  let ti := s.tile t
  let streams := x.ins ++ x.outs
  let iw := x.walk x.ins
  let ow := x.walk x.outs
  let cntLen := if x.auxKind = 1 then 2 * x.count else 0
  let tiles := (iw ++ ow).map Prod.snd
  if x.crec % 32 ≠ 0 ∨ ti.inParts 1 x.crec 32 = false then some St.badDescriptor
  else if x.fieldsOk (s.slotMapped t x.dgSlot) = false then some St.badDescriptor
  else if 8192 < x.count then some 0x0201
  else if streams.any (fun w => (List.range x.count).any (fun i => (w.at i).isNone)) then some 0x0202
  else if x.count ≠ 0 ∧ 2097151 < x.maxPos then some 0x0204
  else if tiles.any (fun n => !ti.inParts 1 (1024 * n) 1024) || !ti.inParts 1 x.cnt cntLen then some St.badDescriptor
  else if ow.any (fun o => iw.any (fun i => i.2 == o.2 && i.1 != o.1))
      || (x.out0.en && x.out1.en && (x.walk [x.out0]).any (fun o => (x.walk [x.out1]).any (fun p => p.2 == o.2)))
      || overlaps x.cnt cntLen x.crec 32
      || tiles.any (fun n => overlaps (1024 * n) 1024 x.crec 32 || overlaps (1024 * n) 1024 x.cnt cntLen)
  then some 0x0203
  else if x.count = 0 then some St.ok
  else none

/-! ### One stage -/

/-- The elements of a byte list in elements of z bytes; fuel: one per element. -/
def elemsOf (z : Nat) : Nat → List Byte → List Nat
  | 0, _ => []
  | n + 1, l => leNat (l.take z) :: elemsOf z n (l.drop z)

/-- The elements of a 1,024-byte tile. -/
def tileElems (f : Fmt) (l : List Byte) : List Nat := elemsOf f.bytes (1024 / f.bytes) l

/-- The bytes of elements of z bytes. -/
def elemBytes (z : Nat) (l : List Nat) : List Byte := l.flatMap (leBytes z)

/-- Rows of n elements; fuel: one per row. -/
def rowsOf {α : Type} (n : Nat) : Nat → List α → List (List α)
  | 0, _ => []
  | k + 1, l => l.take n :: rowsOf n k (l.drop n)

/-- An integer or FX result from its exact value (R233). -/
def intResult (w : Nat) (sat : Bool) (x : Int) : Nat × Ev :=
  let c := clampInt w x
  (wrapN w (if sat then c.1 else x), ⟨c.2, false⟩)

/-- All ones of an element width when b holds (R232). -/
def maskOf (w : Nat) (b : Bool) : Nat := if b then 2 ^ w - 1 else 0

def quiet (n : Nat) : Nat × Ev := (n, Ev.none)

/-- The result of an operation that works element by element on A, B and C. -/
def elem1 (o : ElemOp) (f : Fmt) (sat : Bool) (md : NMode) (imm : Nat) (a b c : Nat) : Nat × Ev :=
  let w := f.bits
  let sa := signed w a
  let sb := signed w b
  let sc := signed w c
  let na := decodeFloat f a
  let nb := decodeFloat f b
  let nc := decodeFloat f c
  let top := 2 ^ (w - 1)
  let shl := fun d => intResult w sat (sa * (2 ^ (min d (2 * w)) : Nat))
  match o with
  | .mov => quiet a
  | .band => quiet (Nat.land a b)
  | .bor => quiet (Nat.lor a b)
  | .bxor => quiet (Nat.xor a b)
  | .bnot => quiet (2 ^ w - 1 - a)
  | .sel => quiet (if a = 0 then c else b)
  | .neg => if f.isFloat then quiet (Nat.xor a top) else intResult w sat (-sa)
  | .abs => if f.isFloat then quiet (a % top) else intResult w sat sa.natAbs
  | .cpsgn => quiet (a % top + b / top * top)
  | .splat => quiet (if w = 8 then imm / 4 else imm * 2 ^ (w - 10))
  | .shl => shl b
  | .shr => quiet (a / 2 ^ min b w)
  | .sra => quiet (wrapN w (sa / ((2 ^ min b w : Nat) : Int)))
  | .shli => shl imm
  | .shri => quiet (a / 2 ^ min imm w)
  | .srai => quiet (wrapN w (sa / ((2 ^ min imm w : Nat) : Int)))
  | .iadd => intResult w sat (sa + sb)
  | .isub => intResult w sat (sa - sb)
  | .imul => intResult w sat (sa * sb)
  | .imulh => quiet (wrapN w (sa * sb / ((2 ^ w : Nat) : Int)))
  | .imad => intResult w sat (sa * sb + sc)
  | .imax => quiet (if sa < sb then b else a)
  | .imin => quiet (if sb < sa then b else a)
  | .iceq => quiet (maskOf w (a == b))
  | .icne => quiet (maskOf w (a != b))
  | .iclt => quiet (maskOf w (decide (sa < sb)))
  | .icle => quiet (maskOf w (decide (sa ≤ sb)))
  | .fadd => roundFloat f md (na.add nb)
  | .fsub => roundFloat f md (na.add nb.negate)
  | .fmul => roundFloat f md (na.mul nb)
  | .fma => roundFloat f md ((na.mul nb).add nc)
  | .fmax => quiet (floatMax f false a b)
  | .fmin => quiet (floatMax f true a b)
  | .fceq => quiet (maskOf w (na.eq nb))
  | .fcne => quiet (maskOf w (!na.eq nb))
  | .fclt => quiet (maskOf w (na.lt nb))
  | .fcle => quiet (maskOf w (na.lt nb || na.eq nb))
  | .apx fn => approx fn f md a
  | _ => quiet a

/-- Sum of a row (R236). -/
def rowSum (f : Fmt) (sat : Bool) (md : NMode) (l : List Nat) : Nat × Ev :=
  if f.isFloat then
    match l with
    | [] => (0, Ev.none)
    | a :: r => r.foldl (fun x y =>
        let v := roundFloat f md ((decodeFloat f x.1).add (decodeFloat f y))
        (v.1, x.2.both v.2)) (a, Ev.none)
  else intResult f.bits sat ((l.map (signed f.bits)).foldl (· + ·) 0)

/-- Maximum or minimum of a row (R236). -/
def rowMax (f : Fmt) (least : Bool) (l : List Nat) : Nat :=
  match l with
  | [] => 0
  | a :: r => r.foldl (fun x y =>
      if f.isFloat then floatMax f least x y
      else if least then (if signed f.bits y < signed f.bits x then y else x)
      else (if signed f.bits x < signed f.bits y then y else x)) a

/-- Conversion of one element by CVT (R237, R238): the source exponent, the destination exponent. -/
def cvtElem (src dst : Fmt) (md : NMode) (imm : Nat) (a : Nat) : Nat × Ev :=
  let e := signed 10 imm
  let es := if src.isFx && !dst.isFx then e else 0
  convertNum (some src) dst (if dst.isFx then e else 0) md (decodeNum src es a)

/-- CVT of a tile (R239, R240). -/
def cvtTile (src dst : Fmt) (md : NMode) (imm : Nat) (a b : List Byte) : List (Nat × Ev) :=
  let ws := 64 / src.bytes
  let wd := 64 / dst.bytes
  let ra := rowsOf ws 16 (tileElems src a)
  let rb := rowsOf ws 16 (tileElems src b)
  let cv := fun x => cvtElem src dst md imm x
  (List.zipWith (fun x y =>
    if pairForm src dst then (x.map cv) ++ (y.map cv)
    else ((x.take wd).map cv) ++ List.replicate (wd - ws) (0, Ev.none)) ra rb).flatten

/-- Elements of l at the active positions of a mask. -/
def packed (mask l : List Nat) : List Nat := (List.zip mask l).filterMap (fun p => if p.1 = 0 then none else some p.2)

/-- EXPAND (R246). -/
def expandL : List Nat → List Nat → List Nat → List Nat
  | [], _, _ => []
  | m :: ms, b, c =>
    if m = 0 then c.headD 0 :: expandL ms b (c.drop 1) else b.headD 0 :: expandL ms (b.drop 1) (c.drop 1)

/-- CAUSAL (R259): A where the key position does not exceed the query position, else −∞. -/
def causalTile (f : Fmt) (kpos : Nat) (a q : List Byte) : List Nat :=
  let w := 64 / f.bytes
  (List.zipWith (fun (row : List Nat) (r : Nat) =>
    let qpos := signed 32 (bytesAt q (64 * r) 4)
    (List.zip row (List.range w)).map (fun p => if ((kpos + p.2 : Nat) : Int) ≤ qpos then p.1 else infBits f true))
    (rowsOf w 16 (tileElems f a)) (List.range 16)).flatten

/-- Working values of a chain: registers by number, events of the iteration by position, the COMPRESS count. -/
structure ChainW where
  regs : Tab (List Byte)
  evs : List Ev
  cnt : Nat
deriving DecidableEq, Repr

def ChainW.reg (w : ChainW) (k : Nat) : List Byte := Tab.get (fun _ => zeros 1024) w.regs k

/-- Events of two position lists joined position by position. -/
def joinEvs : List Ev → List Ev → List Ev
  | [], l => l
  | l, [] => l
  | a :: l, b :: m => a.both b :: joinEvs l m

/-- One stage of iteration i (R223): every operand is read before D is written. -/
def Stage.run (g : Stage) (x : ChainDesc) (i : Nat) (w : ChainW) : ChainW :=
  let md := NMode.of x.nmode
  let a := w.reg g.a
  let b := w.reg g.b
  let c := w.reg g.c
  let put := fun (f : Fmt) (l : List (Nat × Ev)) =>
    { w with regs := Tab.set g.d (elemBytes f.bytes (l.map Prod.fst)) w.regs, evs := joinEvs w.evs (l.map Prod.snd) }
  let rows := rowsOf (64 / g.f.bytes) 16 (tileElems g.f a)
  let byRow := fun (h : List Nat → Nat × Ev) =>
    put g.f (rows.flatMap (fun r => List.replicate (64 / g.f.bytes) (h r)))
  let brows := rowsOf 64 16 a
  match g.op with
  | .cat =>
    { w with regs := Tab.set g.d ((List.zipWith (fun (p q : List Byte) => p.take g.imm ++ q.take (64 - g.imm)) brows
        (rowsOf 64 16 (w.reg g.d))).flatten) w.regs }
  | .rbshr => { w with regs := Tab.set g.d (brows.flatMap (fun p => p.drop g.imm ++ zeros g.imm)) w.regs }
  | .rmax => byRow (fun r => quiet (rowMax g.f false r))
  | .rmin => byRow (fun r => quiet (rowMax g.f true r))
  | .rsum => byRow (rowSum g.f g.sat md)
  | .cvt d => put d (cvtTile g.f d md g.imm a b)
  | .compress =>
    let l := packed (tileElems g.f a) (tileElems g.f b)
    { put g.f ((l ++ List.replicate (1024 / g.f.bytes - l.length) 0).map quiet) with cnt := l.length }
  | .expand => put g.f ((expandL (tileElems g.f a) (tileElems g.f b) (tileElems g.f c)).map quiet)
  | .causal =>
    put g.f ((causalTile g.f (x.kpos0 + i * 2 ^ x.kshift + g.c * (64 / g.f.bytes)) a b).map quiet)
  | o =>
    put g.f (List.zipWith (fun p q => elem1 o g.f g.sat md g.imm p q.1 q.2) (tileElems g.f a)
      (List.zip (tileElems g.f b) (tileElems g.f c)))

/-! ### The chain -/

/-- Tile registers of a tile as working values. -/
def Tile.chainW (x : Tile) : ChainW :=
  ⟨(List.range 32).map (fun k => (k, x.treg.readN (1024 * k) 1024)), [], 0⟩

/-- Stores working registers into the tile registers. -/
def State.putRegs (s : State) (t : TileId) (l : Tab (List Byte)) : State :=
  s.modTile t (fun x => { x with treg := l.foldl (fun m r => m.writeN (1024 * r.1) r.2) x.treg })

/-- Progress of a chain: state, working values, counts so far, and the iteration that met an uncorrectable word. -/
structure ChainSt where
  s : State
  w : ChainW
  nsat : Nat
  nflush : Nat
  active : Nat
  stop : Option Nat

def State.sramTile (s : State) (t : TileId) (n : Nat) : List Byte := s.sram t (1024 * n) 1024

/-- One iteration of R223. -/
def ChainSt.iter (t : TileId) (x : ChainDesc) (bank : Option Pick) (q : ChainSt) (i : Nat) : ChainSt :=
  if q.stop.isSome then q
  else
    let tl := fun (w : StreamW) => (w.at i).getD 0
    if x.ins.any (fun w => q.s.sramBad t (1024 * tl w) 1024) then { q with stop := some i }
    else
      let ld := fun (w : StreamW) (r : Tab (List Byte)) => if w.en then Tab.set w.reg (q.s.sramTile t (tl w)) r else r
      let w := x.stages.foldl (fun w g => g.run x i w) { q.w with regs := ld x.in1 (ld x.in0 q.w.regs), evs := [], cnt := 0 }
      let st := fun (o : StreamW) (s : State) => if o.en then s.sramWrite t (1024 * tl o) (w.reg o.reg) else s
      let s := st x.out1 (st x.out0 q.s)
      let s := if x.auxKind = 1 then s.sramWrite t (x.cnt + 2 * i) (leBytes 2 w.cnt) else s
      let e := 1024 / 2 ^ x.dgW
      let s := match bank with
        | some p =>
          if x.out0.en then
            s.bankAdd t p x.dgSlot ((List.range e).zip (elemsOf (2 ^ x.dgW) e (w.reg x.out0.reg)) |>.map (fun v =>
              (64 * x.dgBase + i * e + v.1, v.2)))
          else s
        | none => s
      { s := s, w := w, nsat := q.nsat + countSat w.evs, nflush := q.nflush + countFlush w.evs,
        active := q.active + w.cnt, stop := none }

/-- Registers that a chain writes. -/
def ChainDesc.writes (x : ChainDesc) : List Nat := (x.ins.map (·.reg) ++ x.stages.map (·.d)).eraseDups

/-- Undefined bytes for what an uncorrectable stream read leaves undefined (Table 6-11). -/
def State.chainUndef (s : State) (t : TileId) (x : ChainDesc) (i : Nat) : State :=
  let its := (List.range x.count).filter (fun j => decide (i ≤ j))
  let s := its.foldl (fun s j =>
    let s := x.outs.foldl (fun s o =>
      let f := s.drawBytes 1024
      f.2.sramWrite t (1024 * (o.at j).getD 0) f.1) s
    if x.auxKind = 1 then
      let f := s.drawBytes 2
      f.2.sramWrite t (x.cnt + 2 * j) f.1
    else s) s
  x.writes.foldl (fun s r =>
    let f := s.drawBytes 1024
    f.2.putRegs t [(r, f.1)]) s

/-- Registers a stage reads (R229, R256). -/
def Stage.reads (g : Stage) : List Nat :=
  let u := g.op.uses g.f
  (if u.a then [g.a] else []) ++ (if u.b then [g.b] else []) ++ (if u.c && g.op != .causal then [g.c] else []) ++
    (if g.op == .cat then [g.d] else [])

/-- II_rec of R256. -/
def ChainDesc.iiRec (x : ChainDesc) : Nat :=
  let st := x.stages
  let n := st.length
  let d := fun k => match st[k]? with | some (g : Stage) => g.d | none => 32
  let spans := (List.range n).flatMap (fun k =>
    match st[k]? with
    | none => []
    | some g => (g.reads.filter (fun r => x.ins.all (fun w => w.reg != r) && (List.range k).all (fun j => d j != r))).flatMap
        (fun r => (List.range n).filterMap (fun j => if k ≤ j ∧ d j = r then some (j - k + 1) else none)))
  4 * spans.foldl max 0

/-- II_bank of R257. -/
def ChainDesc.iiBank (x : ChainDesc) : Nat :=
  ((List.range x.count).flatMap (fun i => (List.range 4).map (fun q =>
    ((x.ins ++ x.outs).filter (fun w => ((w.at i).getD 0) % 4 == q)).length))).foldl max 0

def ChainDesc.ii (x : ChainDesc) : Nat := max 1 (max x.iiRec x.iiBank)

/-- T of R255. -/
def ChainDesc.cycles (x : ChainDesc) : Nat := 16 + 4 * x.nstages + x.ii * (x.count - 1)

/-- The chain at the head of the element queue; x1 of its run is ACTIVE, x2 the bank cycles of R257. -/
def State.chainRun (s : State) (t : TileId) (e : QEntry) : State :=
  let x := ChainDesc.of e.desc
  let bank := if x.dgEn then e.bank else none
  if e.bad then s.startEng t 1 (EngRun.failed e St.uncorrectable none)
  else
    match s.chainCheck t x with
    | some st =>
      let crec := if x.crec % 32 = 0 ∧ (s.tile t).inParts 1 x.crec 32 then some x.crec else none
      s.startEng t 1 (EngRun.failed e st crec)
    | none =>
      let q := (List.range x.count).foldl (fun (q : ChainSt) i => q.iter t x bank i)
        { s := s, w := (s.tile t).chainW, nsat := 0, nflush := 0, active := 0, stop := none }
      match q.stop with
      | some i =>
        ((q.s.putRegs t q.w.regs).chainUndef t x i).startEng t 1
          { EngRun.failed e St.uncorrectable (some x.crec) with cycles := x.cycles, work := i + 1 }
      | none =>
        (q.s.putRegs t q.w.regs).startEng t 1
          { EngRun.failed e St.ok (some x.crec) with
            nsat := satAdd32 q.nsat 0, nflush := satAdd32 q.nflush 0, cycles := x.cycles, work := x.count,
            x1 := q.active, x2 := (x.ii - max 1 x.iiRec) * (x.count - 1) }

/-- CHAIN (R223 to R248): the head of the element queue executes, when the engine runs nothing. -/
def execChain (t : TileId) (s : State) : Host.Outcome State Fault Refusal :=
  .next (match s.engHead t 1 with
    | none => s
    | some e => s.chainRun t e)

/-- Completion record of Table 6-9. -/
def elemRecord (r : EngRun) (cycles : Nat) (now : BitVec 64) : List Byte :=
  leBytes 2 r.status.toNat ++ zeros 2 ++ leBytes 4 r.ticket.toNat ++ leBytes 4 r.nsat ++ leBytes 4 r.nflush ++
    leBytes 4 r.x1 ++ leBytes 4 (stop32 cycles) ++ leBytes 8 now.toNat

/-- The end of the running chain, with the cycles it lost to banks that others held and to the limiter (R249 to R253,
R258). -/
def State.elemEnd (s : State) (t : TileId) (r : EngRun) (bank withheld : Nat) : State :=
  let live := r.cycles != 0
  let s := match r.crec with
    | none => s
    | some a => s.sramWrite t a (elemRecord r (if live then r.cycles + bank + withheld else 0) s.clock.ns)
  let s := s.count (tfld t F.ELEM_ACTIVE_CYCLES) r.work
  let s := (s.countWrap (tfld t F.ELEM_STALL_BANK) (if live then bank + r.x2 else 0)).countWrap
    (tfld t F.ELEM_STALL_WITHHELD) (if live then withheld else 0)
  let s := if r.status = St.ok then (s.countWrap (tfld t F.ELEM_OPS_DONE) 1).numAdd t r.nsat r.nflush
    else s.countWrap (tfld t F.ELEM_OPS_FAILED) 1
  s.endEng t 1 r (r.status != St.ok) (leBytes 4 r.ticket.toNat)

/-- ELEM_COMPLETE (R249 to R253). -/
def execElemComplete (t : TileId) (bank withheld : Nat) (s : State) : Host.Outcome State Fault Refusal :=
  .next (match (s.tile t).running 1 with
    | none => s
    | some r => s.elemEnd t r bank withheld)

end Sys2Proof.Machine
end

