-- ==== Sys2Proof/Machine/Dense.lean ====
section
/-! DEFINITION. The solver unit's descriptor and its dense operations (R262 to R278, R302, R705, R706, R708): images,
the accumulation and final steps, CHOL, LDLT, LU, QR, TRSV and MV. -/

namespace Sys2Proof.Machine

/-! ### The descriptor -/

/-- Fields of a solver descriptor (Table 7-1). -/
structure SolvDesc where
  bases : List Nat
  exps : List Int
  rawExps : List Nat
  md : Nat
  op : Nat
  n : Nat
  m : Nat
  dl : Nat
  batch : Nat
  iterMax : Nat
  crec : Nat
  prog : Nat
  tol : Nat
  dgSlot : Nat
  dgEn : Bool
  resv : Bool
  dgBase : Nat
deriving DecidableEq, Repr

def SolvDesc.of (d : List Byte) : SolvDesc :=
  { bases := (List.range 4).map (fun k => bytesAt d (4 * k) 4),
    exps := (List.range 4).map (fun k => signed 16 (bytesAt d (16 + 2 * k) 2)),
    rawExps := (List.range 4).map (fun k => bytesAt d (16 + 2 * k) 2),
    md := bitsN (bytesAt d 24 1) 7 4, op := bitsN (bytesAt d 24 1) 3 0, n := bytesAt d 25 1, m := bytesAt d 26 1,
    dl := bytesAt d 27 1, batch := bytesAt d 28 2, iterMax := bytesAt d 30 2, crec := bytesAt d 32 4,
    prog := bytesAt d 36 4, tol := bytesAt d 40 8, dgSlot := bitsN (bytesAt d 48 1) 7 4, dgEn := bitN (bytesAt d 48 1) 3,
    resv := bitsN (bytesAt d 48 1) 2 0 != 0 || bytesAt d 49 7 != 0 || bytesAt d 61 3 != 0, dgBase := bytesAt d 56 5 }

def SolvDesc.base (x : SolvDesc) (k : Nat) : Nat := x.bases.getD k 0
def SolvDesc.e (x : SolvDesc) (k : Nat) : Int := x.exps.getD k 0

/-- Modifier bits of Table 7-2. -/
def SolvDesc.form (x : SolvDesc) : Nat := x.md / 4
def SolvDesc.unit (x : SolvDesc) : Bool := bitN x.md 1
def SolvDesc.perm (x : SolvDesc) : Bool := bitN x.md 0
def SolvDesc.accOut (x : SolvDesc) : Bool := bitN x.md 2
def SolvDesc.accIn (x : SolvDesc) : Bool := bitN x.md 1
def SolvDesc.sub (x : SolvDesc) : Bool := bitN x.md 0
def SolvDesc.ws (x : SolvDesc) : Bool := bitN x.md 0

/-- An operand image of one batch element: slot, rows, columns, bytes per element, read, written (R262, Table 7-2). -/
structure Img where
  slot : Nat
  rows : Nat
  cols : Nat
  esz : Nat
  rd : Bool
  wr : Bool
deriving DecidableEq, Repr

def Img.pitch (i : Img) : Nat := alignUp (i.cols * i.esz) 64
def Img.size (i : Img) : Nat := i.rows * i.pitch

/-- Operand images of a dense operation. -/
def SolvDesc.imgs (x : SolvDesc) : List Img :=
  match x.op with
  | 1 | 2 => [⟨0, x.n, x.n, 8, true, false⟩, ⟨1, x.n, x.n, 8, false, true⟩]
  | 3 => [⟨0, x.n, x.n, 8, true, false⟩, ⟨1, x.n, x.n, 8, false, true⟩, ⟨2, x.n, x.n, 8, false, true⟩,
      ⟨3, 1, x.n, 1, false, true⟩]
  | 4 => [⟨0, x.m, x.n, 8, true, false⟩, ⟨1, x.n, x.n, 8, false, true⟩, ⟨2, 1, x.m, 8, true, true⟩]
  | 5 => [⟨0, x.n, x.n, 8, true, false⟩, ⟨1, 1, x.n, 8, true, false⟩, ⟨2, 1, x.n, 8, false, true⟩] ++
      (if x.perm then [⟨3, 1, x.n, 1, true, false⟩] else [])
  | 6 => [⟨0, x.m, x.n, 8, true, false⟩, ⟨1, 1, x.n, 8, true, false⟩,
      ⟨2, 1, x.m, if x.accOut then 16 else 8, false, true⟩] ++
      (if x.accIn then [⟨3, 1, x.m, 16, true, false⟩] else if x.sub then [⟨3, 1, x.m, 8, true, false⟩] else [])
  | _ => []

def fits16 (i : Int) : Bool := decide (-32768 ≤ i) && decide (i ≤ 32767)

/-- Is an event index defined in the node's timetable (R128)? -/
def State.eventDefined (s : State) (i : Nat) : Bool := s.clock.timetable.any (fun e => e.index == i)

/-- Check 2 of Table 7-3. -/
def State.solvFields (s : State) (t : TileId) (x : SolvDesc) : Bool :=
  let slots := if x.op = 8 then [0] else x.imgs.map Img.slot
  let dense := decide (1 ≤ x.op) && decide (x.op ≤ 6)
  let mdOk := match x.op with
    | 5 => !(x.unit && x.form == 3) && !(x.perm && x.form != 0)
    | 6 => !bitN x.md 3 && !(x.accIn && x.sub) &&
        (!x.accIn || (x.e 3 == x.e 0 + x.e 1 && fits16 (x.e 0 + x.e 1))) &&
        (!x.accOut || (x.e 2 == x.e 0 + x.e 1 && fits16 (x.e 0 + x.e 1)))
    | 8 => x.md / 2 == 0
    | _ => x.md == 0
  (dense || x.op == 7 || x.op == 8) && mdOk && !x.resv &&
  (List.range 4).all (fun k => x.base k % 64 == 0 && (slots.contains k || (x.base k == 0 && x.rawExps.getD k 0 == 0))) &&
  (x.op != 8 || x.rawExps.getD 0 0 == 0) && (dense || x.n == 0) && (x.op == 4 || x.op == 6 || x.m == 0) &&
  (if x.op = 8 then decide (x.dl ≤ 126) && (x.dl == 0 || s.eventDefined x.dl) else x.dl == 0 && x.iterMax == 0 && x.tol == 0) &&
  (if dense then x.prog == 0 else x.prog % 64 == 0) &&
  (if x.dgEn then s.slotMapped t x.dgSlot && (x.op == 5 || (x.op == 6 && !x.accOut) || x.op == 8)
    else x.dgSlot == 0 && x.dgBase == 0)

def Tile.inSolver (x : Tile) (a n : Nat) : Bool := x.inParts 2 a n

/-- Regions (base, size, read, written) of a dense operation over the batch. -/
def SolvDesc.regions (x : SolvDesc) : List (Nat × Nat × Bool × Bool) :=
  x.imgs.map (fun i => (x.base i.slot, x.batch * i.size, i.rd, i.wr))

/-- Check 6 of Table 7-3 for a list of regions; `same` lets S1 and S2 of TRSV be one region. -/
def regionsClash (l : List (Nat × Nat × Bool × Bool)) (same : Bool) (crec : Nat) : Bool :=
  let n := l.length
  (List.range n).any (fun i => (List.range n).any (fun j =>
    match l[i]?, l[j]? with
    | some (a, an, _, aw), some (b, bn, _, _) =>
      decide (i ≠ j) && aw && overlaps a an b bn && !(same && (i == 1 && j == 2 || i == 2 && j == 1) && a == b && an == bn)
    | _, _ => false)) || l.any (fun r => overlaps r.1 r.2.1 crec 64)

/-- The checks of Table 7-3 for a dense operation; none when all pass. -/
def State.denseCheck (s : State) (t : TileId) (x : SolvDesc) : Option Status :=
  let ti := s.tile t
  if x.crec % 64 ≠ 0 ∨ ti.inSolver x.crec 64 = false then some St.badDescriptor
  else if s.solvFields t x = false then some St.badDescriptor
  else if 64 < x.n ∨ 64 < x.m ∨ (x.op = 4 ∧ x.m < x.n) ∨ 4096 < x.batch then some 0x0307
  else if x.regions.any (fun r => !ti.inSolver r.1 r.2.1) then some St.badDescriptor
  else if regionsClash x.regions (x.op == 5) x.crec then some 0x0309
  else if x.n = 0 ∨ x.batch = 0 then some St.ok
  else none

/-! ### Accumulation and final steps (R272 to R274) -/

/-- An input value converted into the accumulator's exponent (R272, R84). -/
def accStart (a eIn eAcc : Int) : Int × Ev :=
  let r := clampInt 128 (shiftFloor 128 a (eAcc - eIn))
  (r.1, ⟨r.2, a != 0 && r.1 == 0⟩)

/-- Adds one exact product (R73). -/
def accStep (s : Int × Ev) (p : Int) : Int × Ev :=
  let r := accAdd s.1 p
  (r.1, s.2.both ⟨r.2, false⟩)

/-- An accumulation with its products in order. -/
def accSum (s : Int × Ev) (ps : List Int) : Int × Ev := ps.foldl accStep s

/-- A final value clamped to the FX64 mantissa range (R274); `nz` says whether the exact value was nonzero. -/
def finClamp (i : Int) (nz : Bool) (ev : Ev) : Int × Ev :=
  let r := clampInt 64 i
  (r.1, ev.both ⟨r.2, nz && r.1 == 0⟩)

/-- ROUND to exponent e. -/
def finRound (s : Int × Ev) (eAcc e : Int) : Int × Ev := finClamp (shiftFloor 64 s.1 (e - eAcc)) (s.1 != 0) s.2

/-- DIV by a nonzero mantissa. -/
def finDiv (s : Int × Ev) (d : Int) : Int × Ev := finClamp (Int.fdiv s.1 d) (s.1 != 0) s.2

/-- SQRT of S > 0. -/
def finSqrt (s : Int × Ev) : Int × Ev := finClamp (isqrt 65 0 s.1.toNat) (s.1 != 0) s.2

/-! ### Working images -/

/-- A working image: value and events at row × 64 + column. -/
abbrev WImg := Tab (Int × Ev)

def WImg.at (w : WImg) (i j : Nat) : Int := (Tab.get (fun _ => ((0 : Int), Ev.none)) w (i * 64 + j)).1
def WImg.ev (w : WImg) (i j : Nat) : Ev := (Tab.get (fun _ => ((0 : Int), Ev.none)) w (i * 64 + j)).2
def WImg.put (w : WImg) (i j : Nat) (v : Int × Ev) : WImg := Tab.set (i * 64 + j) v w
/-- Adds events to an element. -/
def WImg.note (w : WImg) (i j : Nat) (e : Ev) : WImg := w.put i j (w.at i j, (w.ev i j).both e)
def WImg.swapRows (w : WImg) (i j n : Nat) : WImg :=
  (List.range n).foldl (fun (w : WImg) k =>
    let a := (w.at i k, w.ev i k)
    let b := (w.at j k, w.ev j k)
    (w.put i k b).put j k a) w

/-- Result of one batch element: its output images in slot order, or the failure. -/
structure DRes where
  fail : Option Status
  outs : List WImg
deriving DecidableEq, Repr

/-- Loads an image at an SRAM base. -/
def State.loadImg (s : State) (t : TileId) (base rows cols esz : Nat) (sgn : Bool) : WImg :=
  (List.range rows).flatMap (fun i => (List.range cols).map (fun j =>
    let v := s.sramNat t (base + i * alignUp (cols * esz) 64 + esz * j) esz
    (i * 64 + j, ((if sgn then signed (8 * esz) v else (v : Int)), Ev.none))))

/-- Columns j0 up to n − 1. -/
def fromTo (lo hi : Nat) : List Nat := (List.range hi).filter (fun k => decide (lo ≤ k))

/-! ### CHOL, LDLT, LU -/

/-- CHOL of Table 7-4; exponents of A and L. -/
def cholF (n : Nat) (ea el : Int) (a : WImg) : DRes :=
  (List.range n).foldl (fun (r : DRes) j =>
    match r.fail, r.outs with
    | none, [l] =>
      let s := accSum (accStart (a.at j j) ea (2 * el)) ((List.range j).map (fun k => -(l.at j k * l.at j k)))
      if s.1 ≤ 0 then ⟨some 0x0302, [l]⟩
      else
        let l := l.put j j (finSqrt s)
        ⟨none, [(fromTo (j + 1) n).foldl (fun (l : WImg) i =>
          let s := accSum (accStart (a.at i j) ea (2 * el)) ((List.range j).map (fun k => -(l.at i k * l.at j k)))
          l.put i j (finDiv s (l.at j j))) l]⟩
    | _, _ => r) ⟨none, [[]]⟩

/-- LDLT of Table 7-4: D on the diagonal of the output, the events of w_ik on element (i, k). -/
def ldltF (n : Nat) (ea el : Int) (a : WImg) : DRes :=
  let row := fun (l : WImg) (i j : Nat) =>
    (List.range j).map (fun k => (k, finRound (accSum (0, Ev.none) [l.at i k * l.at k k]) (2 * el) el))
  let noteW := fun (l : WImg) (i : Nat) (ws : List (Nat × (Int × Ev))) => ws.foldl (fun (l : WImg) w => l.note i w.1 w.2.2) l
  (List.range n).foldl (fun (r : DRes) j =>
    match r.fail, r.outs with
    | none, [l] =>
      let wj := row l j j
      let d := finRound (accSum (accStart (a.at j j) ea (2 * el)) (wj.map (fun w => -(w.2.1 * l.at j w.1)))) (2 * el) el
      let l := (noteW l j wj).put j j d
      if d.1 = 0 then ⟨some 0x0301, [l]⟩
      else
        ⟨none, [(fromTo (j + 1) n).foldl (fun (l : WImg) i =>
          let wi := row l i j
          let s := accSum (accStart (a.at i j) ea (2 * el)) (wi.map (fun w => -(w.2.1 * l.at j w.1)))
          (noteW l i wi).put i j (finDiv s d.1)) l]⟩
    | _, _ => r) ⟨none, [[]]⟩

/-- Working values of LU: A, L, U, pivots. -/
structure LuSt where
  fail : Bool
  a : WImg
  l : WImg
  u : WImg
  p : WImg

/-- The pivot row among candidates: largest magnitude, the smallest row of equals (R276). -/
def pivotRow : List (Nat × (Int × Ev)) → Nat × (Int × Ev) → Nat × (Int × Ev)
  | [], b => b
  | c :: r, b => pivotRow r (if b.2.1.natAbs < c.2.1.natAbs then c else b)

/-- One column of LU (R276). -/
def luCol (n : Nat) (ea el eu : Int) (q : LuSt) (j : Nat) : LuSt :=
  if q.fail then q
  else
    let u := (List.range j).foldl (fun (u : WImg) k =>
      u.put k j (finRound (accSum (accStart (q.a.at k j) ea (el + eu))
        ((List.range k).map (fun i => -(q.l.at k i * u.at i j)))) (el + eu) eu)) q.u
    let cand := (fromTo j n).map (fun i => (i, accSum (accStart (q.a.at i j) ea (el + eu))
      ((List.range j).map (fun k => -(q.l.at i k * u.at k j)))))
    let p := (pivotRow cand (j, (0, Ev.none))).1
    let c := fun i => ((cand.find? (fun e => e.1 == (if i = j then p else if i = p then j else i))).map Prod.snd).getD (0, Ev.none)
    let a := q.a.swapRows j p n
    let l := q.l.swapRows j p j
    let ujj := finRound (c j) (el + eu) eu
    let q := { q with a := a, l := l, u := u.put j j ujj, p := q.p.put 0 j ((p : Int), Ev.none) }
    if ujj.1 = 0 then { q with fail := true }
    else { q with l := (fromTo (j + 1) n).foldl (fun (l : WImg) i => l.put i j (finDiv (c i) ujj.1)) q.l }

def luF (n : Nat) (ea el eu : Int) (a : WImg) : DRes :=
  let q := (List.range n).foldl (luCol n ea el eu) ⟨false, a, [], [], []⟩
  ⟨if q.fail then some 0x0301 else none, [q.l, q.u, q.p]⟩

/-! ### QR -/

/-- Working values of QR: the matrix, b, the R factor and the events of R706. -/
structure QrSt where
  w : WImg
  b : WImg
  r : WImg

/-- One column of QR (R277, R706). -/
def qrCol (m n : Nat) (q : QrSt) (j : Nat) : QrSt :=
  let rows := fromTo j m
  let ajj := q.w.at j j
  let sacc := accSum (0, Ev.none) (rows.map (fun i => q.w.at i j * q.w.at i j))
  let sg := if sacc.1 = 0 then ((0 : Int), sacc.2) else finSqrt sacc
  let takeRow := fun (w r : WImg) => (fromTo (j + 1) n).foldl (fun (r : WImg) k => r.put j k (w.at j k, r.ev j k)) r
  if sg.1 = 0 then { q with r := takeRow q.w ((q.r.note j j sg.2).put j j (0, (q.r.ev j j).both sg.2)) }
  else
    let alpha := if 0 ≤ ajj then -sg.1 else sg.1
    let v := fun i => if i = j then ajj - alpha else q.w.at i j
    let bb := sg.1 * (sg.1 + ajj.natAbs)
    let gOf := fun (xs : List Int) =>
      let wk := accSum (0, Ev.none) xs
      let g := clampInt 128 (wk.1 * (2 ^ 64 : Nat) / bb)
      (g.1, wk.2.both ⟨g.2, false⟩)
    let sub := fun (a : Int) (i : Nat) (g : Int) => clampInt 64 (a - v i * g / ((2 ^ 64 : Nat) : Int))
    let wr := (fromTo (j + 1) n).foldl (fun (p : WImg × WImg) k =>
      let g := gOf (rows.map (fun i => v i * p.1.at i k))
      rows.foldl (fun (p : WImg × WImg) i =>
        let x := sub (p.1.at i k) i g.1
        (p.1.put i k (x.1, Ev.none), p.2.note (min i k) k ⟨x.2, false⟩)) (p.1, p.2.note j k g.2)) (q.w, q.r)
    let gb := gOf (rows.map (fun i => v i * q.b.at 0 i))
    let b := rows.foldl (fun (b : WImg) i =>
      let x := sub (b.at 0 i) i gb.1
      b.put 0 i (x.1, (b.ev 0 i).both ⟨x.2, false⟩)) (q.b.note 0 j gb.2)
    { w := wr.1, b := b, r := takeRow wr.1 (wr.2.put j j (alpha, (wr.2.ev j j).both sg.2)) }

def qrF (m n : Nat) (ea er : Int) (a b : WImg) : DRes :=
  let cv := (List.range m).foldl (fun (p : WImg × WImg) i => (List.range n).foldl (fun (p : WImg × WImg) k =>
    let v := finClamp (shiftFloor 64 (a.at i k) (er - ea)) (a.at i k != 0) Ev.none
    (p.1.put i k (v.1, Ev.none), p.2.note (min i k) k v.2)) p) (([] : WImg), ([] : WImg))
  let q := (List.range n).foldl (qrCol m n) ⟨cv.1, b, cv.2⟩
  ⟨none, [q.r, q.b]⟩

/-! ### TRSV and MV -/

/-- b with rows exchanged by the pivots in ascending order; none when a pivot is at or above n (R708). -/
def applyPivots (n : Nat) (p b : WImg) : Option WImg :=
  if (List.range n).any (fun i => decide ((n : Int) ≤ p.at 0 i)) then none
  else some ((List.range n).foldl (fun (b : WImg) i =>
    let j := (p.at 0 i).toNat
    let x := b.at 0 i
    let y := b.at 0 j
    (b.put 0 i (y, Ev.none)).put 0 j (x, Ev.none)) b)

/-- TRSV of Table 7-4: form 0 L, 1 U, 2 Lᵀ, 3 DIAG. -/
def trsvF (n form : Nat) (unit : Bool) (et eb ex : Int) (t b : WImg) : DRes :=
  let order := if form = 0 ∨ form = 3 then List.range n else (List.range n).reverse
  let el := fun i k => if form = 2 then t.at k i else t.at i k
  order.foldl (fun (r : DRes) i =>
    match r.fail, r.outs with
    | none, [x] =>
      let done := if form = 3 then [] else order.takeWhile (fun k => k != i)
      let s := accSum (accStart (b.at 0 i) eb (et + ex)) (done.map (fun k => -(el i k * x.at 0 k)))
      if unit then ⟨none, [x.put 0 i (finRound s (et + ex) ex)]⟩
      else if t.at i i = 0 then ⟨some 0x0301, [x]⟩
      else ⟨none, [x.put 0 i (finDiv s (t.at i i))]⟩
    | _, _ => r) ⟨none, [[]]⟩

/-- MV of Table 7-4; `c` is the start image, already an accumulator with ACCIN. -/
def mvF (m n : Nat) (accIn sub accOut : Bool) (ea ex ey ec : Int) (a x c : WImg) : DRes :=
  ⟨none, [(List.range m).foldl (fun (y : WImg) i =>
    let st := if accIn then (c.at 0 i, Ev.none) else if sub then accStart (c.at 0 i) ec (ea + ex) else (0, Ev.none)
    let s := accSum st ((List.range n).map (fun k => if sub then -(a.at i k * x.at 0 k) else a.at i k * x.at 0 k))
    y.put 0 i (if accOut then s else finRound s (ea + ex) ey)) []]⟩

/-! ### One operation -/

/-- The result of batch element b. -/
def State.denseElem (s : State) (t : TileId) (x : SolvDesc) (b : Nat) : DRes :=
  let img := fun k => match x.imgs.find? (fun i => i.slot == k) with
    | some i => s.loadImg t (x.base k + b * i.size) i.rows i.cols i.esz (i.esz != 1)
    | none => []
  match x.op with
  | 1 => cholF x.n (x.e 0) (x.e 1) (img 0)
  | 2 => ldltF x.n (x.e 0) (x.e 1) (img 0)
  | 3 => luF x.n (x.e 0) (x.e 1) (x.e 2) (img 0)
  | 4 => qrF x.m x.n (x.e 0) (x.e 1) (img 0) (img 2)
  | 5 =>
    if x.perm then
      match applyPivots x.n (img 3) (img 1) with
      | none => ⟨some 0x030B, [[]]⟩
      | some v => trsvF x.n x.form x.unit (x.e 0) (x.e 1) (x.e 2) (img 0) v
    else trsvF x.n x.form x.unit (x.e 0) (x.e 1) (x.e 2) (img 0) (img 1)
  | _ => mvF x.m x.n x.accIn x.sub x.accOut (x.e 0) (x.e 1) (x.e 2) (x.e 3) (img 0) (img 1) (img 3)

/-- Writes one image: a value for each element (R264, R265). -/
def State.storeImg (s : State) (t : TileId) (base rows cols esz : Nat) (v : Nat → Nat → Int) : State :=
  (List.range rows).foldl (fun s i =>
    s.sramWrite t (base + i * alignUp (cols * esz) 64)
      ((List.range cols).flatMap (fun j => leBytes esz (wrapN (8 * esz) (v i j))))) s

/-- Writes the outputs of one batch element: zeros where it failed (R278). -/
def State.storeElem (s : State) (t : TileId) (x : SolvDesc) (b : Nat) (r : DRes) : State :=
  ((x.imgs.filter Img.wr).zip (r.outs ++ List.replicate 4 [])).foldl (fun s p =>
    s.storeImg t (x.base p.1.slot + b * p.1.size) p.1.rows p.1.cols p.1.esz
      (fun i j => if r.fail.isSome then 0 else WImg.at p.2 i j)) s

/-- Events of the output elements of one batch element. -/
def SolvDesc.elemEvs (x : SolvDesc) (r : DRes) : List Ev :=
  if r.fail.isSome then []
  else ((x.imgs.filter Img.wr).zip r.outs).flatMap (fun p =>
    (List.range p.1.rows).flatMap (fun i => (List.range p.1.cols).map (fun j => WImg.ev p.2 i j)))

/-- MACs F, and divisions, roots and comparisons Q, of one batch element (R302). -/
def denseCost (op form n m : Nat) (unit : Bool) : Nat × Nat :=
  match op with
  | 1 => (n * (n - 1) * (n + 1) / 6, n * (n + 1) / 2)
  | 2 => (n * (n - 1) * (n + 1) / 6 + n * (n - 1) / 2, n * (n - 1) / 2)
  | 3 => (n * (n - 1) * (2 * n - 1) / 6, n * n)
  | 4 => (((List.range n).map (fun j => (m - j) * (2 * (n - j) + 1))).sum, n + n * (n + 1) / 2)
  | 5 => if form = 3 then (0, n) else (n * (n - 1) / 2, if unit then 0 else n)
  | _ => (m * n, 0)

/-- c of R302. -/
def costC (c : Nat × Nat) : Nat := ceilDiv c.1 64 + ceilDiv c.2 8

def SolvDesc.cost (x : SolvDesc) : Nat × Nat := denseCost x.op x.form x.n x.m x.unit

/-- Does the operation meet a poisoned word in an operand it reads? -/
def State.denseBad (s : State) (t : TileId) (x : SolvDesc) : Bool :=
  (x.imgs.filter Img.rd).any (fun i => (List.range x.batch).any (fun b => (List.range i.rows).any (fun r =>
    s.sramBad t (x.base i.slot + b * i.size + r * i.pitch) (i.cols * i.esz))))

/-- Undefined outputs after an uncorrectable operand read (Table 7-13). -/
def State.denseUndef (s : State) (t : TileId) (x : SolvDesc) : State :=
  (x.imgs.filter Img.wr).foldl (fun s i => (List.range x.batch).foldl (fun s b => (List.range i.rows).foldl (fun s r =>
    let f := s.drawBytes (i.cols * i.esz)
    f.2.sramWrite t (x.base i.slot + b * i.size + r * i.pitch) f.1) s) s) s

/-- Digest elements of the primary output (R269): x of TRSV, y of MV. -/
def SolvDesc.digest (x : SolvDesc) (l : Nat) (b : Nat) (vals : List Int) : List (Nat × Nat) :=
  (List.range l).zip vals |>.map (fun p => (x.dgBase + b * l + p.1, wrapN 64 p.2))

/-- The status that a failed check, or an unreadable descriptor, completes with: no operand changes. -/
def State.solvFail (s : State) (t : TileId) (e : QEntry) (st : Status) (crec : Option Nat) : State :=
  s.startEng t 2 { EngRun.failed e st crec with x3 := 0xFFFFFFFF }

/-- A dense operation at the head of the solver queue. The run's x2 is COUNT, x3 INDEX, x1 FLAGS, x4 RESID. -/
def State.denseRun (s : State) (t : TileId) (e : QEntry) (x : SolvDesc) : State :=
  match s.denseCheck t x with
  | some st =>
    s.solvFail t e st (if x.crec % 64 = 0 ∧ (s.tile t).inSolver x.crec 64 then some x.crec else none)
  | none =>
    let cyc := 120 + 6 * x.n + x.batch * costC x.cost
    let work := ceilDiv (x.batch * x.cost.1) 64
    if s.denseBad t x then
      (s.denseUndef t x).startEng t 2
        { EngRun.failed e St.uncorrectable (some x.crec) with cycles := cyc, work := work, x3 := 0xFFFFFFFF }
    else
      let rs := (List.range x.batch).map (fun b => (b, s.denseElem t x b))
      let s' := rs.foldl (fun (s : State) (r : Nat × DRes) => s.storeElem t x r.1 r.2) s
      let len := if x.op = 5 then x.n else x.m
      let s' := match e.bank with
        | some p =>
          if x.dgEn then
            s'.bankAdd t p x.dgSlot (rs.flatMap (fun (r : Nat × DRes) => x.digest len r.1
              ((List.range len).map (fun i => if r.2.fail.isSome then 0 else WImg.at (r.2.outs.headD []) 0 i))))
          else s'
        | none => s'
      let bad := rs.filter (fun (r : Nat × DRes) => r.2.fail.isSome)
      let evs := rs.flatMap (fun (r : Nat × DRes) => x.elemEvs r.2)
      let st := match bad with | [] => St.ok | r :: _ => r.2.fail.getD St.ok
      s'.startEng t 2
        { EngRun.failed e st (some x.crec) with
          nsat := satAdd32 (countSat evs) 0, nflush := satAdd32 (countFlush evs) 0, cycles := cyc, work := work,
          x2 := bad.length, x3 := match bad with | [] => 0xFFFFFFFF | r :: _ => r.1 }

/-- The head of the solver queue executes when its operation is `op`; a reserved operation, which check 2 refuses, and
a descriptor that could not be read execute as any of the solver's operations. -/
def State.solvHead (s : State) (t : TileId) (op : Nat) (run : State → QEntry → SolvDesc → State) : State :=
  match s.engHead t 2 with
  | none => s
  | some e =>
    let x := SolvDesc.of e.desc
    if e.bad then s.solvFail t e St.uncorrectable none
    else if x.op = 0 ∨ 8 < x.op then s.denseRun t e x
    else if x.op = op then run s e x
    else s

/-- CHOL (R275, R278). -/
def execChol (t : TileId) (s : State) : Host.Outcome State Fault Refusal :=
  .next (s.solvHead t 1 (fun s e x => s.denseRun t e x))

/-- LDLT (R275, R278). -/
def execLdlt (t : TileId) (s : State) : Host.Outcome State Fault Refusal :=
  .next (s.solvHead t 2 (fun s e x => s.denseRun t e x))

/-- LU (R276, R278). -/
def execLu (t : TileId) (s : State) : Host.Outcome State Fault Refusal :=
  .next (s.solvHead t 3 (fun s e x => s.denseRun t e x))

/-- QR (R277, R706). -/
def execQr (t : TileId) (s : State) : Host.Outcome State Fault Refusal :=
  .next (s.solvHead t 4 (fun s e x => s.denseRun t e x))

/-- TRSV (R275, R708). -/
def execTrsv (t : TileId) (s : State) : Host.Outcome State Fault Refusal :=
  .next (s.solvHead t 5 (fun s e x => s.denseRun t e x))

/-- MV (R268, R275). -/
def execMv (t : TileId) (s : State) : Host.Outcome State Fault Refusal :=
  .next (s.solvHead t 6 (fun s e x => s.denseRun t e x))

end Sys2Proof.Machine
end

