-- ==== Sys2Proof/Machine/Pattern.lean ====
section
/-! DEFINITION. Pattern programs (R279 to R283, R707), the front-stage assembler (R284 to R288), SOLVE (R289 to R296,
R705, R709) and the completion of solver operations (R297 to R302). Readings of the manual are assumption log 20. -/

namespace Sys2Proof.Machine

/-! ### The program -/

/-- Fields of a pattern program header (Table 7-5). -/
structure PatHdr where
  magic : Nat
  version : Nat
  kind : Nat
  tag : Nat
  size : Nat
  n : Nat
  nsn : Nat
  nblk : Nat
  nfact : Nat
  nsolve : Nat
  nres : Nat
  nterm : Nat
  nsrc : Nat
  ea : Int
  ef : Int
  eb : Int
  ex : Int
  er : Int
  ed : Int
  rawEx : Nat
  oSn : Nat
  oBlk : Nat
  oFact : Nat
  oSolve : Nat
  oRes : Nat
  oSrc : Nat
  oTerm : Nat
  oX0 : Nat
  aReg : Nat
  fReg : Nat
  bReg : Nat
  work : Nat
  aSize : Nat
  batchMax : Nat
  resv : Bool
deriving DecidableEq, Repr

/-- Reads the header; `g o n` is the number in n bytes at offset o of the program. -/
def PatHdr.of (g : Nat → Nat → Nat) : PatHdr :=
  { magic := g 0 4, version := g 4 2, kind := g 6 1, tag := g 8 8, size := g 16 4, n := g 20 4, nsn := g 24 2,
    nblk := g 26 2, nfact := g 28 4, nsolve := g 32 4, nres := g 36 4, nterm := g 40 4, nsrc := g 44 1,
    ea := signed 16 (g 48 2), ef := signed 16 (g 50 2), eb := signed 16 (g 52 2), ex := signed 16 (g 54 2),
    er := signed 16 (g 56 2), ed := signed 16 (g 58 2), rawEx := g 54 2, oSn := g 64 4, oBlk := g 68 4, oFact := g 72 4,
    oSolve := g 76 4, oRes := g 80 4, oSrc := g 84 4, oTerm := g 88 4, oX0 := g 92 4, aReg := g 96 4, fReg := g 100 4,
    bReg := g 104 4, work := g 108 4, aSize := g 112 4, batchMax := g 116 2,
    resv := g 7 1 != 0 || g 45 3 != 0 || g 60 4 != 0 || g 118 10 != 0 }

/-- Check 4 of Table 7-3. -/
def PatHdr.ok (h : PatHdr) : Bool :=
  h.magic == 0x50415454 && h.version == 1 && decide (1 ≤ h.kind) && decide (h.kind ≤ 3)

/-- Pitch of a vector image of N mantissas. -/
def PatHdr.rp (h : PatHdr) : Nat := 64 * ceilDiv h.n 8
/-- W of R280. -/
def PatHdr.workSize (h : PatHdr) : Nat := 2 * h.rp + 64 * ceilDiv h.n 64

structure PatBlk where
  r : Nat
  c : Nat
  off : Nat
deriving DecidableEq, Repr

structure PatOp where
  opc : Nat
  x : Nat
  y : Nat
  z : Nat
deriving DecidableEq, Repr

/-- A source entry (R284). -/
structure PatSrc where
  kind : Nat
  fmt : Nat
  e : Int
  base : Nat
  count : Nat
  maxAge : Nat
  resv : Bool
deriving DecidableEq, Repr

/-- A term (R285). -/
structure PatTerm where
  dst : Nat
  src : Nat
  index : Nat
  coef : Int
  cexp : Int
  resv : Bool
deriving DecidableEq, Repr

def patSrc (g : Nat → Nat → Nat) (o : Nat) : PatSrc :=
  { kind := bitsN (g o 1) 7 4, fmt := bitsN (g o 1) 3 0, e := signed 16 (g (o + 2) 2), base := g (o + 4) 4,
    count := g (o + 8) 4, maxAge := g (o + 12) 2, resv := g (o + 1) 1 != 0 || g (o + 14) 2 != 0 }

def patTerm (g : Nat → Nat → Nat) (o : Nat) : PatTerm :=
  { dst := g o 4, src := bitsN (g (o + 4) 4) 31 28, index := bitsN (g (o + 4) 4) 27 0, coef := signed 32 (g (o + 8) 4),
    cexp := signed 16 (g (o + 12) 2), resv := g (o + 14) 2 != 0 }

def patOp (g : Nat → Nat → Nat) (o : Nat) : PatOp := ⟨g o 1, g (o + 2) 2, g (o + 4) 2, g (o + 6) 2⟩

def PatHdr.srcs (h : PatHdr) (g : Nat → Nat → Nat) : List PatSrc :=
  (List.range h.nsrc).map (fun i => patSrc g (h.oSrc + 16 * i))

/-- The tables of a program whose tables lie within it. -/
structure Pat where
  h : PatHdr
  sn : List (Nat × Nat)
  blk : List PatBlk
  fact : List PatOp
  solve : List PatOp
  res : List PatOp
  src : List PatSrc
  term : List PatTerm
  resv : Bool
deriving DecidableEq, Repr

def Pat.of (h : PatHdr) (g : Nat → Nat → Nat) : Pat :=
  let ops := fun (o n : Nat) => (List.range n).map (fun i => patOp g (o + 8 * i))
  let bad := fun (o n : Nat) => (List.range n).any (fun i => g (o + 8 * i + 1) 1 != 0)
  { h := h
    sn := (List.range h.nsn).map (fun i => (g (h.oSn + 8 * i) 4, g (h.oSn + 8 * i + 4) 1))
    blk := (List.range h.nblk).map (fun i => ⟨g (h.oBlk + 8 * i) 2, g (h.oBlk + 8 * i + 2) 2, g (h.oBlk + 8 * i + 4) 4⟩)
    fact := ops h.oFact h.nfact
    solve := ops h.oSolve h.nsolve
    res := ops h.oRes h.nres
    src := h.srcs g
    term := (List.range h.nterm).map (fun i => patTerm g (h.oTerm + 16 * i))
    resv := h.resv || (List.range h.nsn).any (fun i => g (h.oSn + 8 * i + 5) 3 != 0) || bad h.oFact h.nfact ||
      bad h.oSolve h.nsolve || bad h.oRes h.nres }

def Pat.block (p : Pat) (i : Nat) : PatBlk := p.blk.getD i ⟨0, 0, 0⟩
/-- First row and size of a supernode. -/
def Pat.row0 (p : Pat) (i : Nat) : Nat := (p.sn.getD i (0, 0)).1
def Pat.size (p : Pat) (i : Nat) : Nat := (p.sn.getD i (0, 0)).2
def Pat.rows (p : Pat) (b : Nat) : Nat := p.size (p.block b).r
def Pat.cols (p : Pat) (b : Nat) : Nat := p.size (p.block b).c

/-- Do the header's counts, offsets and sizes hold, and every table lie within SIZE (R279, R283)? -/
def PatHdr.fits (h : PatHdr) : Bool :=
  let tab := fun (o n sz : Nat) => o % 64 == 0 && (n == 0 || (decide (128 ≤ o) && decide (o + n * sz ≤ h.size)))
  h.ok && decide (128 ≤ h.size) && decide (h.size ≤ 0x800000) && decide (1 ≤ h.n) && decide (h.n ≤ 32768) &&
  decide (1 ≤ h.nsn) && decide (h.nsn ≤ 4096) && decide (1 ≤ h.nblk) && decide (h.nblk ≤ 32767) && decide (h.nsrc ≤ 16) &&
  decide (1 ≤ h.batchMax) && decide (h.batchMax ≤ 4096) && tab h.oSn h.nsn 8 && tab h.oBlk h.nblk 8 &&
  tab h.oFact h.nfact 8 && tab h.oSolve h.nsolve 8 && tab h.oRes h.nres 8 && tab h.oSrc h.nsrc 16 &&
  tab h.oTerm h.nterm 16 && tab h.oX0 h.n 8 && h.aReg % 64 == 0 && h.fReg % 64 == 0 && h.bReg % 64 == 0 &&
  h.work % 64 == 0 && h.aSize % 64 == 0

/-- R280 for the supernodes: no gaps from row 0, sizes 1 to 64, N rows in all. -/
def snOk (n : Nat) : List (Nat × Nat) → Nat → Bool
  | [], row => row == n
  | (r0, z) :: l, row => r0 == row && decide (1 ≤ z) && decide (z ≤ 64) && snOk n l (row + z)

/-- Table 7-14: the list that admits an operation, and the supernodes of its blocks. The first number is 0 for the
factor list, 1 for the solve list, 2 for the residual list. -/
def Pat.opOk (p : Pat) (list : Nat) (o : PatOp) : Bool :=
  let k := p.h.kind
  let b := p.block
  let x := b o.x
  let y := b o.y
  let z := b o.z
  let one := o.y == 0 && o.z == 0
  decide (o.x < p.h.nblk) && decide (o.y < p.h.nblk) && decide (o.z < p.h.nblk) &&
  (match list, o.opc with
    | 0, 0x01 => one && x.r == x.c
    | 0, 0x02 => o.z == 0 && y.r == y.c &&
        ((x.c == y.r && decide (y.r < x.r)) || (k == 3 && x.r == y.r && decide (y.r < x.c)))
    | 0, 0x03 =>
      if k = 3 then y.r == x.r && z.c == x.c && y.c == z.r && decide (y.c < x.r) && decide (y.c < x.c)
      else y.r == x.r && z.r == x.c && y.c == z.c && decide (y.c < x.c) && decide (x.c ≤ x.r)
    | 1, 0x11 => one && x.r == x.c
    | 1, 0x14 => one && x.r == x.c
    | 1, 0x12 => one && decide (x.c < x.r)
    | 1, 0x13 => one && k == 2 && x.r == x.c
    | 1, 0x15 => one && (if k = 3 then decide (x.r < x.c) else decide (x.c < x.r))
    | 2, 0x21 => one
    | 2, 0x22 => one && k != 3 && decide (x.c < x.r)
    | _, _ => false)

/-- Element size of a TENSOR source; 0 where the format is not admitted. -/
def PatSrc.esz (x : PatSrc) : Nat :=
  match x.fmt with
  | 1 => 2
  | 2 => 4
  | 8 => 8
  | _ => 0

/-- R284. -/
def PatSrc.ok (x : PatSrc) : Bool :=
  !x.resv &&
  (match x.kind with
    | 1 => x.esz != 0 && x.base % x.esz == 0 && x.maxAge == 0
    | 2 => x.fmt == 0 && x.base % 64 == 0
    | 3 => x.fmt == 0 && x.base == 0 && x.count == 0 && x.maxAge == 0
    | _ => false)

/-- The region of a source for a batch (R284). -/
def PatSrc.region (x : PatSrc) (batch : Nat) : Nat × Nat :=
  match x.kind with
  | 1 => (x.base, batch * x.count * x.esz)
  | 2 => (x.base, batch * x.count * 64)
  | _ => (0, 0)

/-- Product exponent of a term. -/
def Pat.pexp (p : Pat) (a : PatTerm) : Int := a.cexp + ((p.src[a.src]?).map PatSrc.e).getD 0

/-- R285 and R286 for one term. -/
def Pat.termOk (p : Pat) (a : PatTerm) : Bool :=
  !a.resv && (if a.dst / 2 ^ 30 = 0 then decide (8 * a.dst + 8 ≤ p.h.aSize)
    else a.dst / 2 ^ 30 == 1 && decide (a.dst % 2 ^ 30 < p.h.n)) &&
  (match p.src[a.src]? with
    | none => false
    | some x =>
      match x.kind with
      | 1 => decide (a.index < x.count)
      | 2 => decide (a.index < 10 * x.count)
      | _ => a.index == 0)

/-- R285 for the terms, in order: ascending DST, one product exponent for each. -/
def Pat.termsOk (p : Pat) : List PatTerm → Bool
  | [] => true
  | [a] => p.termOk a
  | a :: b :: l =>
    p.termOk a && decide (a.dst ≤ b.dst) && (a.dst != b.dst || p.pexp a == p.pexp b) && p.termsOk (b :: l)

/-- Regions that the program names, for a batch: A, F, b, the work area and the sources. -/
def Pat.regions (p : Pat) (batch : Nat) : List (Nat × Nat) :=
  [(p.h.aReg, batch * p.h.aSize), (p.h.fReg, batch * p.h.aSize), (p.h.bReg, batch * p.h.rp),
   (p.h.work, batch * p.h.workSize)] ++ p.src.map (fun x => x.region batch)

/-- R283 of the tables: every rule but TAG and the partitions. -/
def Pat.ok (p : Pat) : Bool :=
  !p.resv && snOk p.h.n p.sn 0 &&
  p.blk.all (fun b => decide (b.r < p.h.nsn) && decide (b.c < p.h.nsn) && (p.h.kind == 3 || decide (b.c ≤ b.r)) &&
    decide (64 * b.off + p.size b.r * (64 * ceilDiv (p.size b.c) 8) ≤ p.h.aSize)) &&
  (List.range p.h.nsn).all (fun i => p.blk.any (fun b => b.r == i && b.c == i)) &&
  p.fact.all (p.opOk 0) && p.solve.all (p.opOk 1) && p.res.all (p.opOk 2) && p.src.all PatSrc.ok && p.termsOk p.term

/-- TAG of a program image (R279). -/
def patTag (d : List Byte) : List Byte := shake256 (d.take 8 ++ zeros 8 ++ d.drop 16) 8

/-- Does the program image d meet R283 in a tile with these partitions? -/
def patternOk (x : Tile) (d : List Byte) : Bool :=
  let g := bytesAt d
  let h := PatHdr.of g
  h.fits && d.length == h.size && patTag d == (d.drop 8).take 8 &&
  (let p := Pat.of h g
   p.ok && (p.regions h.batchMax).all (fun r => x.inParts 2 r.1 r.2))

/-! ### Values of an operation -/

/-- Loads a block of A or F. -/
def State.loadBlk (s : State) (t : TileId) (base : Nat) (p : Pat) (i : Nat) : WImg :=
  s.loadImg t (base + 64 * (p.block i).off) (p.rows i) (p.cols i) 8 true

/-- A vector of n mantissas as an image row. -/
def State.loadVec (s : State) (t : TileId) (base n : Nat) : WImg :=
  (List.range n).map (fun j => (j, (signed 64 (s.sramNat t (base + 8 * j) 8), Ev.none)))

/-- Converts an element to another exponent, keeping its events (R282). -/
def cvtEl (v : Int × Ev) (e0 e1 : Int) : Int × Ev := finRound v e0 e1

/-- Converts every element of an image. -/
def cvtImg (w : WImg) (e0 e1 : Int) : WImg := w.map (fun c => (c.1, cvtEl c.2 e0 e1))

/-- An element formed from its current value: products subtracted in order, then ROUND to the same exponent (R281). -/
def stepRound (v : Int × Ev) (e eAcc : Int) (ps : List Int) : Int × Ev :=
  let s := accSum (accStart v.1 e eAcc) (ps.map (fun p => -p))
  finRound (s.1, v.2.both s.2) eAcc e

/-- As stepRound, with DIV as the final step. -/
def stepDiv (v : Int × Ev) (e eAcc : Int) (ps : List Int) (d : Int) : Int × Ev :=
  let s := accSum (accStart v.1 e eAcc) (ps.map (fun p => -p))
  finDiv (s.1, v.2.both s.2) d

/-- Working values of one batch element: the blocks of F, the pivots, r, d and x. -/
structure SolvSt where
  f : Tab WImg
  piv : WImg
  r : WImg
  d : WImg
  x : WImg
  fail : Option Status
deriving DecidableEq, Repr

def SolvSt.blk (q : SolvSt) (i : Nat) : WImg := Tab.get (fun _ => []) q.f i
def SolvSt.putBlk (q : SolvSt) (i : Nat) (w : WImg) : SolvSt := { q with f := Tab.set i w q.f }

/-- Events of an older image added to a newer one. -/
def joinEv (old new : WImg) : WImg := new.map (fun c => (c.1, (c.2.1, c.2.2.both ((Tab.get (fun _ => ((0 : Int), Ev.none)) old c.1).2))))

/-- Exchanges rows of an n-column image by the pivots of a supernode, in ascending order. -/
def permRows (p : WImg) (row0 n cols : Nat) (w : WImg) : WImg :=
  (List.range n).foldl (fun (w : WImg) i =>
    let q := (p.at 0 (row0 + i)).toNat
    if q < n then w.swapRows i q cols else w) w

/-- Factors diagonal block x (OPC 0x01). -/
def Pat.factDiag (p : Pat) (q : SolvSt) (x : Nat) : SolvSt :=
  let e := p.h.ef
  let n := p.rows x
  let w := q.blk x
  let row0 := p.row0 (p.block x).r
  let res := match p.h.kind with
    | 1 => cholF n e e w
    | 2 => ldltF n e e w
    | _ => luF n e e e w
  match res.fail with
  | some st => { q with fail := some st }
  | none =>
    match res.outs with
    | [l] => q.putBlk x (joinEv w l)
    | l :: u :: pv :: _ =>
      let out := (List.range n).flatMap (fun i => (List.range n).map (fun j =>
        (i * 64 + j, if i ≤ j then (u.at i j, u.ev i j) else (l.at i j, l.ev i j))))
      { q.putBlk x (joinEv w out) with
        piv := (List.range n).foldl (fun (v : WImg) i => v.put 0 (row0 + i) (pv.at 0 i, Ev.none)) q.piv }
    | _ => q

/-- Solves block x against the factored diagonal block y (OPC 0x02). -/
def Pat.factSolve (p : Pat) (q : SolvSt) (x y : Nat) : SolvSt :=
  let e := p.h.ef
  let b := p.block x
  let rows := p.rows x
  let cols := p.cols x
  let dg := q.blk y
  let w := q.blk x
  if p.h.kind = 3 ∧ b.r < b.c then
    let w := permRows q.piv (p.row0 b.r) rows cols w
    q.putBlk x ((List.range cols).foldl (fun (w : WImg) j => (List.range rows).foldl (fun (w : WImg) i =>
      w.put i j (stepRound (w.at i j, w.ev i j) e (2 * e) ((List.range i).map (fun k => dg.at i k * w.at k j)))) w) w)
  else if (List.range cols).any (fun j => dg.at j j == 0) then { q with fail := some 0x0301 }
  else
    q.putBlk x ((List.range cols).foldl (fun (w : WImg) j => (List.range rows).foldl (fun (w : WImg) i =>
      if p.h.kind = 2 then
        let ws := (List.range j).map (fun k => (k, finRound (accSum (0, Ev.none) [w.at i k * dg.at k k]) (2 * e) e))
        let v := stepDiv (w.at i j, w.ev i j) e (2 * e) (ws.map (fun c => c.2.1 * dg.at j c.1)) (dg.at j j)
        (ws.foldl (fun (w : WImg) c => w.note i c.1 c.2.2) w).put i j v
      else
        w.put i j (stepDiv (w.at i j, w.ev i j) e (2 * e)
          ((List.range j).map (fun k => w.at i k * (if p.h.kind = 1 then dg.at j k else dg.at k j))) (dg.at j j))) w) w)

/-- Index of the diagonal block of a supernode. -/
def Pat.diagOf (p : Pat) (i : Nat) : Nat := p.blk.findIdx (fun b => b.r == i && b.c == i)

/-- Updates block x by blocks y and z (OPC 0x03). The events of w_ik of LDLT count on element (i, k) of Y. -/
def Pat.factUpdate (p : Pat) (q : SolvSt) (x y z : Nat) : SolvSt :=
  let e := p.h.ef
  let rows := p.rows x
  let cols := p.cols x
  let inner := p.cols y
  let yy := q.blk y
  let zz := q.blk z
  let dg := q.blk (p.diagOf (p.block y).c)
  let ww : WImg := if p.h.kind = 2 then
      (List.range rows).flatMap (fun i => (List.range inner).map (fun k =>
        (i * 64 + k, finRound (accSum (0, Ev.none) [yy.at i k * dg.at k k]) (2 * e) e)))
    else yy
  let q := if p.h.kind = 2 then
      q.putBlk y (ww.foldl (fun (w : WImg) c => w.note (c.1 / 64) (c.1 % 64) c.2.2) yy)
    else q
  let zEl := fun (j k : Nat) => if p.h.kind = 3 then zz.at k j else zz.at j k
  q.putBlk x ((List.range rows).foldl (fun (w : WImg) i => (List.range cols).foldl (fun (w : WImg) j =>
    w.put i j (stepRound (w.at i j, w.ev i j) e (2 * e) ((List.range inner).map (fun k => ww.at i k * zEl j k)))) w) (q.blk x))

/-- One factor-list operation. -/
def Pat.factOp (p : Pat) (q : SolvSt) (o : PatOp) : SolvSt :=
  if q.fail.isSome then q
  else match o.opc with
    | 1 => p.factDiag q o.x
    | 2 => p.factSolve q o.x o.y
    | _ => p.factUpdate q o.x o.y o.z

/-- dst[d0 + i] −= Σ_k coef(i, k) × src[s0 + k], kept at exponent e. -/
def vecSub (dst : WImg) (d0 cnt : Nat) (src : WImg) (s0 len : Nat) (coef : Nat → Nat → Int) (e eAcc : Int) : WImg :=
  (List.range cnt).foldl (fun (w : WImg) i =>
    w.put 0 (d0 + i) (stepRound (w.at 0 (d0 + i), w.ev 0 (d0 + i)) e eAcc
      ((List.range len).map (fun k => coef i k * src.at 0 (s0 + k))))) dst

/-- A triangular or diagonal solve of d's segment with diagonal block x. -/
def Pat.segSolve (p : Pat) (q : SolvSt) (x form : Nat) (unit perm : Bool) : SolvSt :=
  let r0 := p.row0 (p.block x).r
  let n := p.rows x
  let seg : WImg := (List.range n).map (fun i => (i, (q.d.at 0 (r0 + i), q.d.ev 0 (r0 + i))))
  let seg := if perm then
      (List.range n).foldl (fun (w : WImg) i =>
        let j := (q.piv.at 0 (r0 + i)).toNat
        if j < n then
          let a := (w.at 0 i, w.ev 0 i)
          let b := (w.at 0 j, w.ev 0 j)
          (w.put 0 i b).put 0 j a
        else w) seg
    else seg
  let r := trsvF n form unit p.h.ef p.h.ed p.h.ed (q.blk x) seg
  match r.fail with
  | some st => { q with fail := some st }
  | none => { q with d := (joinEv seg (r.outs.headD [])).foldl (fun (w : WImg) c => w.put 0 (r0 + c.1) c.2) q.d }

/-- One solve-list operation (Table 7-6). -/
def Pat.solveOp (p : Pat) (q : SolvSt) (o : PatOp) : SolvSt :=
  if q.fail.isSome then q
  else
    let b := p.block o.x
    let w : WImg := q.blk o.x
    let r0 := p.row0 b.r
    let c0 := p.row0 b.c
    let e := p.h.ed
    let ea := p.h.ef + p.h.ed
    match o.opc with
    | 0x11 => p.segSolve q o.x 0 (p.h.kind != 1) (p.h.kind == 3)
    | 0x13 => p.segSolve q o.x 3 false false
    | 0x14 => p.segSolve q o.x (if p.h.kind = 3 then 1 else 2) (p.h.kind == 2) false
    | 0x15 =>
      if p.h.kind = 3 then { q with d := vecSub q.d r0 (p.rows o.x) q.d c0 (p.cols o.x) (fun i k => w.at i k) e ea }
      else { q with d := vecSub q.d c0 (p.cols o.x) q.d r0 (p.rows o.x) (fun i k => w.at k i) e ea }
    | _ => { q with d := vecSub q.d r0 (p.rows o.x) q.d c0 (p.cols o.x) (fun i k => w.at i k) e ea }

/-- One residual-list operation; `a` is the list of A's blocks of the batch element. -/
def Pat.resOp (p : Pat) (a : Tab WImg) (q : SolvSt) (o : PatOp) : SolvSt :=
  let b := p.block o.x
  let w : WImg := Tab.get (fun _ => ([] : WImg)) a o.x
  let r0 := p.row0 b.r
  let c0 := p.row0 b.c
  let ea := p.h.ea + p.h.ex
  if o.opc = 0x21 then { q with r := vecSub q.r r0 (p.rows o.x) q.x c0 (p.cols o.x) (fun i k => w.at i k) p.h.er ea }
  else { q with r := vecSub q.r c0 (p.cols o.x) q.x r0 (p.rows o.x) (fun i k => w.at k i) p.h.er ea }

/-- Inputs of one batch element: blocks of A, and b. -/
structure SolvIn where
  a : Tab WImg
  b : WImg
deriving DecidableEq, Repr

/-- The factor phase of one batch element (R282). -/
def Pat.factor (p : Pat) (c : SolvIn) (q : SolvSt) : SolvSt :=
  p.fact.foldl p.factOp { q with f := c.a.map (fun e => (e.1, cvtImg e.2 p.h.ea p.h.ef)) }

/-- RESID: r = b, then the residual list. Events of earlier residuals stay (R98). -/
def Pat.resid (p : Pat) (c : SolvIn) (q : SolvSt) : SolvSt :=
  p.res.foldl (p.resOp c.a) { q with r := joinEv q.r (cvtImg c.b p.h.eb p.h.er) }

/-- CORR: d = r, then the solve list. -/
def Pat.corr (p : Pat) (q : SolvSt) : SolvSt :=
  p.solve.foldl p.solveOp { q with
    d := joinEv q.d (q.r.map (fun c => (c.1, cvtEl (c.2.1, Ev.none) p.h.er p.h.ed))) }

/-- UPDATE: x + d, saturating. -/
def Pat.update (p : Pat) (q : SolvSt) : SolvSt :=
  { q with x := q.x.map (fun c =>
      let d := cvtEl (q.d.at 0 c.1, Ev.none) p.h.ed p.h.ex
      let r := clampInt 64 (c.2.1 + d.1)
      (c.1, (r.1, (c.2.2.both d.2).both ⟨r.2, false⟩))) }

/-- ρ of R291. -/
def rho (l : List SolvSt) : Nat :=
  l.foldl (fun m q => q.r.foldl (fun m c => max m (min c.2.1.natAbs (2 ^ 63 - 1))) m) 0

/-- ρ not computed. -/
def rhoNone : Nat := 0x7FFFFFFFFFFFFFFF

/-- Does TEST(k) find the deadline fired (Table 7-8)? -/
def dlFired (k : Nat) : DlPoint → Bool
  | .resid j => decide (j ≤ k)
  | .test j => decide (j ≤ k)
  | .update j => decide (j + 1 ≤ k)
  | _ => false

/-- How the deadline of a SOLVE acts: as it fires, or as the log replays it (R295). -/
inductive DlRule where
  | live (d : DlPoint)
  | partial_
  | data
  | at_ (k : Nat)
deriving DecidableEq, Repr

def DlRule.partialNow : DlRule → Bool
  | .live .factor => true
  | .partial_ => true
  | _ => false

def DlRule.test (k : Nat) : DlRule → Bool
  | .live d => dlFired k d
  | .at_ j => j == k
  | _ => false

def DlRule.cuts (k : Nat) : DlRule → Bool
  | .live (.corr j) => j == k
  | _ => false

/-- Outcome of a SOLVE: values per batch element, status, K, ρ, whether F is valid, whether d is, the corrections and
residuals begun (for the cycles). -/
structure SolvRes where
  els : List SolvSt
  status : Status
  k : Nat
  rho : Nat
  dValid : Bool
  fValid : Bool
  corrs : Nat
deriving DecidableEq, Repr

/-- The loop of R291 from RESID(k); the first number is fuel, one for each correction that ITER_MAX allows and one
more. -/
def Pat.loop (p : Pat) (x : SolvDesc) (ins : List SolvIn) (rule : DlRule) : Nat → Nat → Bool → List SolvSt → SolvRes
  | 0, k, dv, l => ⟨l, 0x0305, k, rho l, dv, true, k⟩
  | fuel + 1, k, dv, l =>
    let l := (ins.zip l).map (fun c => p.resid c.1 c.2)
    let m := rho l
    if m ≤ x.tol then ⟨l, St.ok, k, m, dv, true, k⟩
    else if k = x.iterMax then ⟨l, 0x0305, k, m, dv, true, k⟩
    else if rule.test k then ⟨l, 0x0303, k, m, dv, true, k⟩
    else if rule.cuts k then ⟨l, 0x0303, k, m, false, true, k + 1⟩
    else
      let c := l.map p.corr
      if c.any (fun q => q.fail.isSome) then ⟨l, 0x0301, k, m, false, true, k + 1⟩
      else p.loop x ins rule fuel (k + 1) true (c.map p.update)

/-- The whole procedure of R291 to R293. -/
def Pat.course (p : Pat) (x : SolvDesc) (ins : List SolvIn) (rule : DlRule) (st : List SolvSt) : SolvRes :=
  if rule.partialNow then ⟨st, 0x0304, 0, rhoNone, false, false, 0⟩
  else
    let f := (ins.zip st).map (fun c => p.factor c.1 c.2)
    match f.findSome? (fun q => q.fail) with
    | some e => ⟨st, e, 0, rhoNone, false, false, 0⟩
    | none => p.loop x ins rule (x.iterMax + 1) 0 false f

/-! ### Cost (R302) -/

/-- MAC count and Q of a block operation. -/
def Pat.opCost (p : Pat) (o : PatOp) : Nat × Nat :=
  let r := p.rows o.x
  let c := p.cols o.x
  match o.opc with
  | 0x01 => denseCost p.h.kind 0 r r false
  | 0x02 => if p.h.kind = 3 ∧ (p.block o.x).r < (p.block o.x).c then (c * (r * (r - 1) / 2), 0)
      else (r * (c * (c - 1) / 2), r * c)
  | 0x03 => (r * c * p.cols o.y, 0)
  | 0x11 => denseCost 5 0 r r (p.h.kind != 1)
  | 0x13 => denseCost 5 3 r r false
  | 0x14 => denseCost 5 1 r r (p.h.kind == 2)
  | _ => (r * c, 0)

def Pat.listCycles (p : Pat) (batch : Nat) (l : List PatOp) : Nat :=
  (l.map (fun o => 12 + batch * costC (p.opCost o))).sum
def Pat.listWork (p : Pat) (batch : Nat) (l : List PatOp) : Nat :=
  (l.map (fun o => ceilDiv (batch * (p.opCost o).1) 64)).sum

/-! ### Checks 3 to 7 -/

/-- Reader of a program in the tile's SRAM. -/
def State.patRead (s : State) (t : TileId) (prog : Nat) : Nat → Nat → Nat := fun o n => s.sramNat t (prog + o) n

/-- Regions of ASSEMBLE and SOLVE (Table 7-3, checks 5 and 6): base, size, read, written. -/
def patRegions (x : SolvDesc) (h : PatHdr) (src : List PatSrc) : List (Nat × Nat × Bool × Bool) :=
  let b := x.batch
  [(x.prog, h.size, true, false)] ++
  (if x.op = 7 then
    src.map (fun y => ((y.region b).1, (y.region b).2, true, false)) ++
      [(h.aReg, b * h.aSize, false, true), (h.bReg, b * h.rp, false, true)]
  else
    [(h.aReg, b * h.aSize, true, false), (h.bReg, b * h.rp, true, false), (h.fReg, b * h.aSize, false, true),
     (h.work, b * h.workSize, false, true), (x.base 0, 64 + b * h.rp, true, true)])

/-- The checks of Table 7-3 after the first two, with R705. None when all pass. -/
def State.patCheck (s : State) (t : TileId) (x : SolvDesc) : Option Status :=
  if 0x800000 < x.prog + 128 then some St.badDescriptor
  else if s.sramBad t x.prog 128 then some St.uncorrectable
  else
    let g := s.patRead t x.prog
    let h := PatHdr.of g
    let src := h.srcs g
    if h.batchMax < x.batch ∨ 4096 < x.batch then some 0x0307
    else if !h.ok then some 0x0308
    else if x.op = 7 ∧ s.sramBad t (x.prog + h.oSrc) (16 * h.nsrc) then some St.uncorrectable
    else
      let rs := patRegions x h src
      if rs.any (fun r => !(s.tile t).inSolver r.1 r.2.1) then some St.badDescriptor
      else if regionsClash rs false x.crec then some 0x0309
      else if x.batch = 0 then some St.ok
      else none

/-! ### Undefined outputs -/

/-- Undefined mantissas in n bytes from an offset. -/
def State.undefBytes (s : State) (t : TileId) (a n : Nat) : State :=
  let f := s.drawBytes n
  f.2.sramWrite t a f.1

/-- Undefined elements of every block of one batch element's region. -/
def State.undefBlocks (s : State) (t : TileId) (base : Nat) (p : Pat) : State :=
  (List.range p.blk.length).foldl (fun s i => (List.range (p.rows i)).foldl (fun s r =>
    s.undefBytes t (base + 64 * (p.block i).off + r * (64 * ceilDiv (p.cols i) 8)) (8 * p.cols i)) s) s

/-- Undefined results of a program that was changed after loading (R283), or of an operation that met an uncorrectable
word: each output region whole. -/
def State.undefRegions (s : State) (t : TileId) (l : List (Nat × Nat × Bool × Bool)) : State :=
  (l.filter (fun r => r.2.2.2)).foldl (fun s r => s.undefBytes t r.1 r.2.1) s

/-! ### ASSEMBLE -/

/-- The value of a term: its mantissa at E_S with its events, or missing (R284, R286 to R288). `pick` is the current
pick of the tile. -/
def State.termValue (s : State) (t : TileId) (pick : Option Pick) (x : PatSrc) (b index : Nat) : Option (Int × Ev) :=
  let fx := fun (f : Fmt) (w : Nat) => toFx 64 x.e (decodeNum f 0 w)
  match x.kind with
  | 1 =>
    let w := s.sramNat t (x.base + (b * x.count + index) * x.esz) x.esz
    match x.fmt with
    | 1 => some (fx .f16 w)
    | 2 => some (fx .f32 w)
    | _ => some (signed 64 w, Ev.none)
  | 2 =>
    let r := x.base + (b * x.count + index / 10) * 64
    let rp := s.sramNat t (r + 8) 6
    let old := decide (x.maxAge < 0xFFFF) && decide (rp + x.maxAge < (pick.getD noPick).toNat)
    if !bitN (s.sramNat t (r + 4) 1) 0 || decide (s.sramNat t (r + 5) 1 ≤ index % 10) || old then none
    else some (fx .f32 (s.sramNat t (r + 24 + 4 * (index % 10)) 4))
  | _ => some (1, Ev.none)

/-- Does reading a term meet a poisoned word? -/
def State.termBad (s : State) (t : TileId) (x : PatSrc) (b index : Nat) : Bool :=
  match x.kind with
  | 1 => s.sramBad t (x.base + (b * x.count + index) * x.esz) x.esz
  | 2 => s.sramBad t (x.base + (b * x.count + index / 10) * 64) 64
  | _ => false

/-- The sums of the terms of one batch element, by DST: accumulator, its events, its exponent; and the missing terms. -/
def State.assembleSums (s : State) (t : TileId) (p : Pat) (b : Nat) : Tab ((Int × Ev) × Int) × Nat :=
  let pick := (s.tile t).cur
  p.term.foldl (fun (r : Tab ((Int × Ev) × Int) × Nat) a =>
    let x := p.src.getD a.src ⟨3, 0, 0, 0, 0, 0, false⟩
    let cur := Tab.get (fun _ => (((0 : Int), Ev.none), p.pexp a)) r.1 a.dst
    match s.termValue t pick x b a.index with
    | none => (Tab.set a.dst cur r.1, r.2 + 1)
    | some v =>
      let n := accStep cur.1 (a.coef * v.1)
      (Tab.set a.dst ((n.1, n.2.both v.2), cur.2) r.1, r.2)) ([], 0)

/-- Writes the assembled A and b of one batch element: elements that no term names become 0 (R286). -/
def State.assembleStore (s : State) (t : TileId) (p : Pat) (b : Nat) (els : List (Nat × Int)) : State :=
  let aBase := p.h.aReg + b * p.h.aSize
  let bBase := p.h.bReg + b * p.h.rp
  let s := (List.range p.blk.length).foldl (fun s i => (List.range (p.rows i)).foldl (fun s r =>
    s.sramWrite t (aBase + 64 * (p.block i).off + r * (64 * ceilDiv (p.cols i) 8)) (zeros (8 * p.cols i))) s) s
  let s := s.sramWrite t bBase (zeros (8 * p.h.n))
  els.foldl (fun s e =>
    s.sramWrite t ((if e.1 / 2 ^ 30 = 0 then aBase else bBase) + 8 * (e.1 % 2 ^ 30)) (leBytes 8 (wrapN 64 e.2))) s

/-- ASSEMBLE of a program that verifies. -/
def State.assembleRun (s : State) (t : TileId) (e : QEntry) (x : SolvDesc) (p : Pat) : State :=
  let cyc := 100 + x.batch * max (ceilDiv p.h.nterm 4) (ceilDiv (p.h.aSize + p.h.rp) 64)
  let run := { EngRun.failed e St.ok (some x.crec) with cycles := cyc, x3 := 0xFFFFFFFF }
  if (List.range x.batch).any (fun b => p.term.any (fun a =>
      s.termBad t (p.src.getD a.src ⟨3, 0, 0, 0, 0, 0, false⟩) b a.index)) then
    (s.undefRegions t (patRegions x p.h p.src)).startEng t 2 { run with status := St.uncorrectable }
  else
    let rs := (List.range x.batch).map (fun b =>
      let q := s.assembleSums t p b
      (b, q.1.map (fun (c : Nat × ((Int × Ev) × Int)) =>
        (c.1, finRound c.2.1 c.2.2 (if c.1 / 2 ^ 30 = 0 then p.h.ea else p.h.eb))), q.2))
    let s := rs.foldl (fun (s : State) (r : Nat × List (Nat × (Int × Ev)) × Nat) =>
      s.assembleStore t p r.1 (r.2.1.map (fun c => (c.1, c.2.1)))) s
    let evs := rs.flatMap (fun (r : Nat × List (Nat × (Int × Ev)) × Nat) => r.2.1.map (fun c => c.2.2))
    s.startEng t 2 { run with nsat := satAdd32 (countSat evs) 0, nflush := satAdd32 (countFlush evs) 0,
                              x2 := (rs.map (fun (r : Nat × List (Nat × (Int × Ev)) × Nat) => r.2.2)).sum }

/-! ### SOLVE -/

/-- The solution record header (R289). -/
def solHeader (h : PatHdr) (pick : Pick) (batch k : Nat) (st : Status) : List Byte :=
  leBytes 8 h.tag ++ leBytes 4 h.n ++ leBytes 2 h.rawEx ++ zeros 2 ++ leBytes 6 pick.toNat ++ leBytes 2 batch ++
    leBytes 4 k ++ leBytes 2 st.toNat ++ zeros 34

/-- Is the warm start accepted (R290)? -/
def State.warmOk (s : State) (t : TileId) (x : SolvDesc) (h : PatHdr) : Bool :=
  let a := x.base 0
  s.sramNat t a 8 == h.tag && s.sramNat t (a + 8) 4 == h.n && s.sramNat t (a + 12) 2 == h.rawEx &&
    s.sramNat t (a + 22) 2 == x.batch

/-- Bytes of a vector image row. -/
def vecBytes (n : Nat) (w : WImg) : List Byte := (List.range n).flatMap (fun i => leBytes 8 (wrapN 64 (w.at 0 i)))

/-- Writes F and the work area of one batch element (R280, Table 7-8). -/
def State.storeWork (s : State) (t : TileId) (p : Pat) (b : Nat) (r : SolvRes) (q : SolvSt) : State :=
  let fBase := p.h.fReg + b * p.h.aSize
  let wBase := p.h.work + b * p.h.workSize
  if r.fValid then
    let s := (List.range p.blk.length).foldl (fun s i =>
      s.storeImg t (fBase + 64 * (p.block i).off) (p.rows i) (p.cols i) 8 (fun a c => (q.blk i).at a c)) s
    let s := s.sramWrite t wBase (vecBytes p.h.n q.r)
    let s := if r.dValid then s.sramWrite t (wBase + p.h.rp) (vecBytes p.h.n q.d)
      else s.undefBytes t (wBase + p.h.rp) (8 * p.h.n)
    if p.h.kind = 3 then
      s.sramWrite t (wBase + 2 * p.h.rp) ((List.range p.h.n).map (fun i => BitVec.ofInt 8 (q.piv.at 0 i)))
    else s
  else
    (((s.undefBlocks t fBase p).undefBytes t wBase (8 * p.h.n)).undefBytes t (wBase + p.h.rp) (8 * p.h.n)).undefBytes t
      (wBase + 2 * p.h.rp) p.h.n

/-- Events of a SOLVE: each element of F, r, d and x counts once; none where only x_0 is written. -/
def SolvRes.evs (r : SolvRes) : List Ev :=
  if r.fValid then
    r.els.flatMap (fun q => q.f.flatMap (fun c => c.2.map (fun e => e.2.2)) ++ q.r.map (fun e => e.2.2) ++
      q.d.map (fun e => e.2.2) ++ q.x.map (fun e => e.2.2))
  else []

/-- The logged outcome of the SOLVE with a SEQ (R295): status and K. -/
def State.loggedOutcome (s : State) (t : TileId) (seq : Nat) : Option (Status × Nat) :=
  (s.logFind Lt.solve (solveKey t seq)).map (fun e =>
    (BitVec.ofNat 16 (bytesAt e.payload 0 2), bytesAt e.payload 2 4))

/-- The deadline rule of a logged outcome (R295). -/
def ruleOf (l : Option (Status × Nat)) : DlRule :=
  match l with
  | none => .data
  | some (st, k) => if st = 0x0304 then .partial_ else if st = 0x0301 ∨ st = 0x0302 then .data else .at_ k

/-- Does a SOLVE meet a poisoned word in what it reads: the program, A, b and an accepted or examined record? -/
def State.solveBad (s : State) (t : TileId) (x : SolvDesc) (p : Pat) : Bool :=
  s.sramBad t x.prog p.h.size ||
  (List.range x.batch).any (fun b =>
    (List.range p.blk.length).any (fun i => (List.range (p.rows i)).any (fun r =>
      s.sramBad t (p.h.aReg + b * p.h.aSize + 64 * (p.block i).off + r * (64 * ceilDiv (p.cols i) 8)) (8 * p.cols i))) ||
    s.sramBad t (p.h.bReg + b * p.h.rp) (8 * p.h.n)) ||
  (x.ws && (s.sramBad t (x.base 0) 64 ||
    (s.warmOk t x p.h && (List.range x.batch).any (fun b => s.sramBad t (x.base 0 + 64 + b * p.h.rp) (8 * p.h.n)))))

/-- SEQ of a SOLVE that passes every check (R294): with DL not 0 it takes the tile's next number. -/
def State.takeSeq (s : State) (t : TileId) (x : SolvDesc) : State × Option Nat :=
  if x.dl = 0 then (s, none)
  else (s.countWrap (tfld t F.SOLVER_SEQ_SEQ) 1, some (s.fld (tfld t F.SOLVER_SEQ_SEQ)))

/-- Start values of one batch element. -/
def State.solvStart (s : State) (t : TileId) (x : SolvDesc) (p : Pat) (warm : Bool) (b : Nat) : SolvSt :=
  let wBase := p.h.work + b * p.h.workSize
  { f := [], piv := (List.range p.h.n).map (fun i => (i, ((s.sramNat t (wBase + 2 * p.h.rp + i) 1 : Int), Ev.none))),
    r := (List.range p.h.n).map (fun i => (i, ((0 : Int), Ev.none))), d := (List.range p.h.n).map (fun i => (i, ((0 : Int), Ev.none))),
    x := if warm then s.loadVec t (x.base 0 + 64 + b * p.h.rp) p.h.n else s.loadVec t (x.prog + p.h.oX0) p.h.n,
    fail := none }

/-- SOLVE of a program that verifies (R289 to R296). -/
def State.solveRun (s : State) (t : TileId) (e : QEntry) (x : SolvDesc) (dl : DlPoint) (p : Pat) : State :=
  let tk := s.takeSeq t x
  let s := tk.1
  let seq := tk.2
  let run := { EngRun.failed e St.ok (some x.crec) with x3 := seq.getD 0xFFFFFFFF }
  if s.solveBad t x p then
    (s.undefRegions t (patRegions x p.h p.src)).startEng t 2
      { run with status := St.uncorrectable, cycles := 200 + p.listCycles x.batch p.fact }
  else
    let rep := s.bit (tfld t F.SOLVER_STAT_REPLAY)
    let logged := match seq with | some n => s.loggedOutcome t n | none => none
    let rule := if rep then ruleOf logged else if x.dl = 0 then .data else .live dl
    let warm := x.ws && s.warmOk t x p.h
    let wsr := x.ws && !s.warmOk t x p.h
    let ins := (List.range x.batch).map (fun b =>
      (⟨(List.range p.blk.length).map (fun i => (i, s.loadBlk t (p.h.aReg + b * p.h.aSize) p i)),
        s.loadVec t (p.h.bReg + b * p.h.rp) p.h.n⟩ : SolvIn))
    let r := p.course x ins rule ((List.range x.batch).map (s.solvStart t x p warm))
    let miss := rep && (match seq, logged with
      | none, _ => false
      | some _, none => true
      | some _, some l => l != (r.status, r.k))
    let s := if wsr then (s.count (tfld t F.SOLVER_OUTCOME_WSR) 1).raise (tileSrc t) 0x0306 [] else s
    let s := ((List.range x.batch).zip r.els).foldl (fun (s : State) (c : Nat × SolvSt) => s.storeWork t p c.1 r c.2) s
    let pick := ((s.tile t).cur).getD noPick
    let s :=
      if miss then s.undefBytes t (x.base 0) (64 + x.batch * p.h.rp)
      else
        ((List.range x.batch).zip r.els).foldl (fun (s : State) (c : Nat × SolvSt) =>
            s.sramWrite t (x.base 0 + 64 + c.1 * p.h.rp) (vecBytes p.h.n c.2.x))
          (s.sramWrite t (x.base 0) (solHeader p.h pick x.batch r.k r.status))
    let s := match e.bank with
      | some bk => if x.dgEn then
          s.bankAdd t bk x.dgSlot ((List.range x.batch).flatMap (fun b => (List.range p.h.n).map (fun i =>
            (x.dgBase + b * p.h.n + i, s.sramNat t (x.base 0 + 64 + b * p.h.rp + 8 * i) 8))))
        else s
      | none => s
    let evs := if miss then [] else r.evs
    let lists := fun (c : Pat → Nat → List PatOp → Nat) =>
      (if r.fValid = false then c p x.batch p.fact else c p x.batch p.fact + (r.k + 1) * c p x.batch p.res) +
        r.corrs * c p x.batch p.solve
    s.startEng t 2 { run with
      status := if miss then 0x030A else r.status, nsat := satAdd32 (countSat evs) 0, nflush := satAdd32 (countFlush evs) 0,
      cycles := 200 + 100 * r.k + lists Pat.listCycles, work := lists Pat.listWork,
      x1 := natOf wsr + 2 * natOf (rep && seq.isSome), x2 := if miss then 0 else r.k, x4 := r.rho,
      outcome := if miss then none else seq.map (fun n => (BitVec.ofNat 32 n, BitVec.ofNat 32 r.k)) }

/-- ASSEMBLE or SOLVE at the head of the solver queue: the checks, then the operation; a program that no longer meets
R283 was changed after loading, and every result is then undefined. -/
def State.patRun (s : State) (t : TileId) (e : QEntry) (x : SolvDesc) (dl : DlPoint) : State :=
  let crecOk := x.crec % 64 = 0 ∧ (s.tile t).inSolver x.crec 64 = true
  if ¬ crecOk then s.solvFail t e St.badDescriptor none
  else if s.solvFields t x = false then s.solvFail t e St.badDescriptor (some x.crec)
  else
    match s.patCheck t x with
    | some st => s.solvFail t e st (some x.crec)
    | none =>
      let d := s.sram t x.prog (s.sramNat t (x.prog + 16) 4)
      let h := PatHdr.of (bytesAt d)
      let p := Pat.of h (bytesAt d)
      if patternOk (s.tile t) d then
        if x.op = 7 then s.assembleRun t e x p else s.solveRun t e x dl p
      else
        let tk := if x.op = 8 then s.takeSeq t x else (s, none)
        let s := tk.1.undefRegions t (patRegions x h (h.srcs (bytesAt d)))
        let f := s.drawFree
        let g := f.2.drawFree
        let u := g.2.drawFree
        u.2.startEng t 2 { EngRun.failed e (BitVec.ofNat 16 f.1.toNat) (some x.crec) with
          nsat := bitsN g.1.toNat 31 0, nflush := bitsN g.1.toNat 63 32, x1 := bitsN f.1.toNat 23 16,
          x2 := bitsN f.1.toNat 63 32, x3 := tk.2.getD 0xFFFFFFFF, x4 := u.1.toNat }

/-- ASSEMBLE (R284 to R288). -/
def execAssemble (t : TileId) (s : State) : Host.Outcome State Fault Refusal :=
  .next (s.solvHead t 7 (fun s e x => s.patRun t e x .never))

/-- SOLVE (R289 to R296, R709); `dl` is the point of its course at which its deadline fires. -/
def execSolve (t : TileId) (dl : DlPoint) (s : State) : Host.Outcome State Fault Refusal :=
  .next (s.solvHead t 8 (fun s e x => s.patRun t e x dl))

/-! ### Completion -/

/-- Completion record of Table 7-11. -/
def solverRecord (r : EngRun) (cycles stalls : Nat) (now : BitVec 64) : List Byte :=
  leBytes 2 r.status.toNat ++ leBytes 1 r.x1 ++ zeros 1 ++ leBytes 4 r.ticket.toNat ++ leBytes 4 r.nsat ++ leBytes 4 r.nflush ++
    leBytes 4 r.x2 ++ leBytes 4 r.x3 ++ leBytes 8 r.x4 ++ leBytes 4 (stop32 cycles) ++ leBytes 4 (stop32 stalls) ++
    leBytes 8 now.toNat ++ zeros 16

/-- Statuses that set ERR (R301). DEADLINE, DEADLINE_PARTIAL and ITER_LIMIT do not. -/
def solverErr (st : Status) : Bool := st != St.ok && st != 0x0303 && st != 0x0304 && st != 0x0305

/-- Statuses whose SOLVE hands on an outcome entry (R294). -/
def outcomeLogged (st : Status) : Bool :=
  st == St.ok || st == 0x0305 || st == 0x0303 || st == 0x0304 || st == 0x0301 || st == 0x0302

/-- Hands the outcome entry of a SOLVE to the input log (R294). -/
def State.logOutcome (s : State) (t : TileId) (r : EngRun) : State :=
  match r.outcome with
  | none => s
  | some (seq, k) =>
    if outcomeLogged r.status then
      s.logNote Lt.solve (solveKey t seq.toNat) (leBytes 2 r.status.toNat ++ leBytes 4 k.toNat)
    else s

/-- Counts a completion in SOLVER_OUTCOME (R301). -/
def State.countOutcome (s : State) (t : TileId) (st : Status) : State :=
  if st = 0x0304 then s.count (tfld t F.SOLVER_OUTCOME_PARTIAL) 1
  else if st = 0x0303 then s.count (tfld t F.SOLVER_OUTCOME_DEADLINE) 1
  else if st = 0x0305 then s.count (tfld t F.SOLVER_OUTCOME_ITER_LIMIT) 1
  else s

/-- The end of the running solver operation, with the cycles it lost to banks and to the limiter (R298 to R301). -/
def State.solverEnd (s : State) (t : TileId) (r : EngRun) (bank withheld : Nat) : State :=
  let live := r.cycles != 0
  let s := match r.crec with
    | none => s
    | some a => s.sramWrite t a (solverRecord r (if live then r.cycles + bank + withheld else 0)
        (if live then bank + withheld else 0) s.clock.ns)
  let s := s.count (tfld t F.SOLVER_ACTIVE_CYCLES) r.work
  let s := (s.countWrap (tfld t F.SOLVER_STALL_BANK) (if live then bank else 0)).countWrap
    (tfld t F.SOLVER_STALL_WITHHELD) (if live then withheld else 0)
  let err := solverErr r.status
  let s := s.countWrap (tfld t (if err then F.SOLVER_OPS_FAILED else F.SOLVER_OPS_DONE)) 1
  let s := ((s.numAdd t r.nsat r.nflush).countOutcome t r.status).logOutcome t r
  s.endEng t 2 r err (leBytes 4 r.ticket.toNat)

/-- SOLVER_COMPLETE (R294, R298 to R301). -/
def execSolverComplete (t : TileId) (bank withheld : Nat) (s : State) : Host.Outcome State Fault Refusal :=
  .next (match (s.tile t).running 2 with
    | none => s
    | some r => s.solverEnd t r bank withheld)

end Sys2Proof.Machine
end

