-- ==== Sys2Proof/Machine/Tensor.lean ====
section
/-! DEFINITION. The tensor engine (chapter 4): the descriptor, its checks in order, the accumulation order of R161, the
write masks, digests, and completion. -/

namespace Sys2Proof.Machine

/-- Fields of a tensor descriptor (Table 4-3). -/
structure TensorDesc where
  aBase : Nat
  bBase : Nat
  cBase : Nat
  dBase : Nat
  m : Nat
  n : Nat
  k : Nat
  aP : Nat
  bP : Nat
  cP : Nat
  dP : Nat
  abFmt : Nat
  dFmt : Nat
  cFmt : Nat
  nmode : Nat
  ta : Bool
  tb : Bool
  outMode : Nat
  dgEn : Bool
  dgSlot : Nat
  op : Nat
  resv : Nat
  crec : Nat
  rowMask : Nat
  colMask : Nat
  dgBase : Nat
  dgLd : Nat
deriving DecidableEq, Repr

def TensorDesc.of (d : List Byte) : TensorDesc :=
  let b := fun o => bytesAt d o 1
  { aBase := bytesAt d 0 4, bBase := bytesAt d 4 4, cBase := bytesAt d 8 4, dBase := bytesAt d 12 4,
    m := bytesAt d 16 2, n := bytesAt d 18 2, k := bytesAt d 20 2, aP := bytesAt d 22 2, bP := bytesAt d 24 2,
    cP := bytesAt d 26 2, dP := bytesAt d 28 2, abFmt := bitsN (b 30) 7 4, dFmt := bitsN (b 30) 3 0,
    cFmt := bitsN (b 31) 7 4, nmode := bitsN (b 31) 3 0, ta := bitN (b 32) 7, tb := bitN (b 32) 6,
    outMode := bitsN (b 32) 5 4, dgEn := bitN (b 32) 3, dgSlot := bitsN (b 33) 7 4, op := bitsN (b 34) 3 0,
    resv := bitsN (b 32) 2 0 + bitsN (b 33) 3 0 + bitsN (b 34) 7 4 + b 35, crec := bytesAt d 36 4,
    rowMask := bytesAt d 40 8, colMask := bytesAt d 48 8, dgBase := bytesAt d 56 5, dgLd := bytesAt d 61 3 }

/-- A stored operand: base, panel stride, element size, stored rows and columns (Table 4-2). -/
structure Panels where
  base : Nat
  stride : Nat
  esz : Nat
  rows : Nat
  cols : Nat
deriving DecidableEq, Repr

/-- Panel columns of an operand. -/
def Panels.pcols (p : Panels) : Nat := ceilDiv p.cols (128 / p.esz)

/-- Bytes of the operand's region (R152). -/
def Panels.size (p : Panels) : Nat := 8192 * (ceilDiv p.rows 64 * p.stride + p.pcols - p.stride)

/-- SRAM offset of element (r, c) (R114, R151). -/
def Panels.at (p : Panels) (r c : Nat) : Nat :=
  let w := 128 / p.esz
  let q := r / 64 * p.stride + c / w
  let b := c % w * p.esz
  p.base + 8192 * q + 4096 * (b / 64) + 64 * Nat.xor (r % 64) (32 * (b / 64)) + b % 64

/-- Element size of a floating-point format code. -/
def fsize (code : Nat) : Nat := if code = 1 then 2 else 4

def TensorDesc.a (x : TensorDesc) : Panels :=
  ⟨x.aBase, x.aP, fsize x.abFmt, if x.ta then x.k else x.m, if x.ta then x.m else x.k⟩
def TensorDesc.b (x : TensorDesc) : Panels :=
  ⟨x.bBase, x.bP, fsize x.abFmt, if x.tb then x.n else x.k, if x.tb then x.k else x.n⟩
def TensorDesc.c (x : TensorDesc) : Panels := ⟨x.cBase, x.cP, fsize x.cFmt, x.m, x.n⟩
def TensorDesc.d (x : TensorDesc) : Panels := ⟨x.dBase, x.dP, fsize x.dFmt, x.m, x.n⟩

/-- OUTMODE is ADD_C. -/
def TensorDesc.addC (x : TensorDesc) : Bool := x.outMode == 1

/-- The operands the operation reads or writes. -/
def TensorDesc.operands (x : TensorDesc) : List Panels := [x.a, x.b, x.d] ++ (if x.addC then [x.c] else [])

def isFloatCode (c : Nat) : Bool := c == 1 || c == 2

def goodBase (b : Nat) : Bool := b % 8192 == 0 && decide (b < 0x800000)

/-- Check 2 of Table 4-4. -/
def TensorDesc.fieldsOk (x : TensorDesc) (mapped : Bool) : Bool :=
  x.resv == 0 && x.op == 1 && decide (x.outMode < 2) && decide (x.nmode < 8) && isFloatCode x.abFmt && isFloatCode x.dFmt &&
  (if x.addC then isFloatCode x.cFmt && goodBase x.cBase else x.cFmt == 0 && x.cBase == 0 && x.cP == 0) &&
  goodBase x.aBase && goodBase x.bBase && goodBase x.dBase &&
  (if x.dgEn then mapped else x.dgSlot == 0 && x.dgBase == 0 && x.dgLd == 0)

def panelsOverlap (p q : Panels) : Bool := overlaps p.base p.size q.base q.size

/-- C and D are the same region (R157). -/
def TensorDesc.sameCD (x : TensorDesc) : Bool := x.cBase == x.dBase && x.cP == x.dP && x.cFmt == x.dFmt

/-- The checks of Table 4-4 in order; none when all pass. -/
def State.tensorCheck (s : State) (t : TileId) (x : TensorDesc) : Option Status :=
  let ti := s.tile t
  if x.crec % 32 ≠ 0 ∨ ti.inParts 0 x.crec 32 = false then some St.badDescriptor
  else if x.fieldsOk (s.slotMapped t x.dgSlot) = false then some St.badDescriptor
  else if 8192 < x.m ∨ 8192 < x.n ∨ 8192 < x.k then some 0x0101
  else if x.operands.any (fun p => decide (p.stride < p.pcols)) then some 0x0102
  else if x.operands.any (fun p => !ti.inParts 0 p.base p.size) then some St.badDescriptor
  else if panelsOverlap x.d x.a || panelsOverlap x.d x.b || (x.addC && panelsOverlap x.c x.d && !x.sameCD)
      || x.operands.any (fun p => overlaps p.base p.size x.crec 32) then some 0x0103
  else if x.m = 0 ∨ x.n = 0 ∨ x.k = 0 then some St.ok
  else none

/-- One rounding into binary32 with its events kept. -/
def acc32 (md : NMode) (a : Nat × Ev) (x : Num) : Nat × Ev :=
  let r := roundFloat .f32 md ((decodeFloat .f32 a.1).add x)
  (r.1, a.2.both r.2)

/-- A chunk partial of R161: it starts from the first product (R94). binary16 products are exact and each addition
rounds; binary32 rounds the first product and then fuses. Both are one rounding of sum plus exact product. -/
def chunkPartial (md : NMode) : List Num → Nat × Ev
  | [] => (0, Ev.none)
  | p :: r => r.foldl (acc32 md) (roundFloat .f32 md p)

/-- The products of k in ascending order cut into chunks of 64; fuel: one per chunk. -/
def chunksOf : Nat → List Num → List (List Num)
  | 0, _ => []
  | _, [] => []
  | n + 1, l => l.take 64 :: chunksOf n (l.drop 64)

/-- The sum s of R161 from the exact products in ascending k, and the events of its steps. -/
def dotSum (md : NMode) (prods : List Num) : Nat × Ev :=
  match (chunksOf prods.length prods).map (chunkPartial md) with
  | [] => (0, Ev.none)
  | p :: r => r.foldl (fun a q =>
      let v := acc32 md a (decodeFloat .f32 q.1)
      (v.1, v.2.both q.2)) p

/-- An operand's element. -/
def State.panelNat (s : State) (t : TileId) (p : Panels) (r c : Nat) : Nat := s.sramNat t (p.at r c) p.esz

def fmtOfSize (n : Nat) : Fmt := if n = 2 then .f16 else .f32

/-- d(i, j) of R161 with its events. -/
def State.tensorElem (s : State) (t : TileId) (x : TensorDesc) (i j : Nat) : Nat × Ev :=
  let md := NMode.of x.nmode
  let num := fun (p : Panels) r c => decodeFloat (fmtOfSize p.esz) (s.panelNat t p r c)
  let prods := (List.range x.k).map (fun k =>
    (if x.ta then num x.a k i else num x.a i k).mul (if x.tb then num x.b j k else num x.b k j))
  let v := dotSum md prods
  let v := if x.addC then acc32 md v (num x.c i j) else v
  if x.dFmt = 2 then v
  else
    let r := roundFloat .f16 md (decodeFloat .f32 v.1)
    (r.1, v.2.both r.2)

/-- The elements that R166 writes, in row order. -/
def TensorDesc.written (x : TensorDesc) : List (Nat × Nat) :=
  (List.range x.m).flatMap (fun i => (List.range x.n).filterMap (fun j =>
    if bitN x.rowMask (i % 64) && bitN x.colMask (j % 64) then some (i, j) else none))

/-- Does the operation meet a poisoned word in an operand element (Table 4-8)? -/
def State.tensorBad (s : State) (t : TileId) (x : TensorDesc) : Bool :=
  (x.a :: x.b :: (if x.addC then [x.c] else [])).any (fun p =>
    (List.range p.rows).any (fun r => (List.range p.cols).any (fun c => s.sramBad t (p.at r c) p.esz)))

/-- Cycles without contention (R170 to R172). -/
def TensorDesc.cycles (x : TensorDesc) : Nat :=
  let f := if x.abFmt = 1 then 1 else 16
  let load := if x.abFmt = 1 then 64 else 128
  let blocks := (List.range (ceilDiv x.m 256)).map (fun b => max (f * min 256 (x.m - 256 * b)) load)
  load + ceilDiv x.n 64 * ceilDiv x.k 64 * blocks.sum + 80

/-- Cycles in which the array is occupied by a row of op(A). -/
def TensorDesc.work (x : TensorDesc) : Nat :=
  ceilDiv x.n 64 * ceilDiv x.k 64 * x.m * (if x.abFmt = 1 then 1 else 16)

/-- Writes elements of D and adds them to the digest (R166, R169). -/
def State.tensorStore (s : State) (t : TileId) (x : TensorDesc) (bank : Option Pick)
    (els : List ((Nat × Nat) × Nat)) : State :=
  let s := els.foldl (fun s e => s.sramWrite t (x.d.at e.1.1 e.1.2) (leBytes x.d.esz e.2)) s
  match bank with
  | none => s
  | some p => s.bankAdd t p x.dgSlot (els.map (fun e => (x.dgBase + e.1.1 * x.dgLd + e.1.2, e.2)))

/-- Undefined values for a list of elements. -/
def State.freeEls {α : Type} (s : State) : List α → List (α × Nat) × State
  | [] => ([], s)
  | a :: l =>
    let r := s.drawFree
    let q := State.freeEls r.2 l
    ((a, r.1.toNat) :: q.1, q.2)

/-- The operation at the head of the tensor queue (R156, R161 to R169): its checks, its result, and the run that
TENSOR_COMPLETE ends. -/
def State.tensorRun (s : State) (t : TileId) (e : QEntry) : State :=
  let x := TensorDesc.of e.desc
  let bank := if x.dgEn then e.bank else none
  if e.bad then s.startEng t 0 (EngRun.failed e St.uncorrectable none)
  else
    match s.tensorCheck t x with
    | some st =>
      let crec := if x.crec % 32 = 0 ∧ (s.tile t).inParts 0 x.crec 32 then some x.crec else none
      s.startEng t 0 (EngRun.failed e st crec)
    | none =>
      if s.tensorBad t x then
        let f := s.freeEls x.written
        (f.2.tensorStore t x bank f.1).startEng t 0
          { EngRun.failed e St.uncorrectable (some x.crec) with cycles := x.cycles, work := x.work }
      else
        let els := x.written.map (fun ij => (ij, s.tensorElem t x ij.1 ij.2))
        let evs := els.map (fun e => e.2.2)
        (s.tensorStore t x bank (els.map (fun e => (e.1, e.2.1)))).startEng t 0
          { EngRun.failed e St.ok (some x.crec) with
            nsat := satAdd32 (countSat evs) 0, nflush := satAdd32 (countFlush evs) 0, cycles := x.cycles, work := x.work }

/-- MATMUL (R148 to R169): the head of the tensor queue executes, when the engine runs nothing. -/
def execMatmul (t : TileId) (s : State) : Host.Outcome State Fault Refusal :=
  .next (match s.engHead t 0 with
    | none => s
    | some e => s.tensorRun t e)

/-- Completion record of Table 4-7. -/
def tensorRecord (r : EngRun) (cycles stalls : Nat) (now : BitVec 64) : List Byte :=
  leBytes 2 r.status.toNat ++ zeros 2 ++ leBytes 4 r.ticket.toNat ++ leBytes 4 r.nsat ++ leBytes 4 r.nflush ++
    leBytes 4 (stop32 cycles) ++ leBytes 4 (stop32 stalls) ++ leBytes 8 now.toNat

/-- The end of the running tensor operation, with the cycles it lost to banks and to the limiter (R175 to R180). -/
def State.tensorEnd (s : State) (t : TileId) (r : EngRun) (bank withheld : Nat) : State :=
  let cycles := if r.cycles = 0 then 0 else r.cycles + bank + withheld
  let stalls := if r.cycles = 0 then 0 else bank + withheld
  let s := match r.crec with
    | none => s
    | some a => s.sramWrite t a (tensorRecord r cycles stalls s.clock.ns)
  let s := s.count (tfld t F.TENSOR_ACTIVE_CYCLES) r.work
  let s := (s.countWrap (tfld t F.TENSOR_STALL_BANK) (if r.cycles = 0 then 0 else bank)).countWrap
    (tfld t F.TENSOR_STALL_WITHHELD) (if r.cycles = 0 then 0 else withheld)
  let s := if r.status = St.ok then (s.countWrap (tfld t F.TENSOR_OPS_DONE) 1).numAdd t r.nsat r.nflush
    else s.countWrap (tfld t F.TENSOR_OPS_FAILED) 1
  s.endEng t 0 r (r.status != St.ok) (leBytes 4 r.ticket.toNat)

/-- TENSOR_COMPLETE (R176 to R180). -/
def execTensorComplete (t : TileId) (bank withheld : Nat) (s : State) : Host.Outcome State Fault Refusal :=
  .next (match (s.tile t).running 0 with
    | none => s
    | some r => s.tensorEnd t r bank withheld)

end Sys2Proof.Machine
end

