-- ==== Sys2Proof/Machine/Schedule.lean ====
section
/-! DEFINITION. The product schedule of the shuttle runtime (R182 to R194), freeze maps (R195 to R204) and the meaning of
SCHEDULE_ENTRY_ISSUE, one action of the runtime: it settles what has completed, then issues at most one operation.
Readings of the manual are assumption log 26. -/

namespace Sys2Proof.Machine

/-- Schedule header (Table 5-1). -/
structure SchedHdr where
  mode : Nat
  qdepth : Nat
  lookahead : Nat
  mbcount : Nat
  lists : List Nat
  counts : List Nat
  freezeBase : Nat
  freezeSize : Nat
  ctrStep : Nat
  resv : Bool
deriving DecidableEq, Repr

/-- A number of n bytes in the shuttle's memories. -/
def Tile.smemNat (x : Tile) (a n : Nat) : Nat := leNat (x.smem.readN a n)

def Tile.schedHdr (x : Tile) : SchedHdr :=
  let g := fun o n => x.smemNat (0x10000 + o) n
  { mode := g 0 1, qdepth := g 1 1, lookahead := g 2 1, mbcount := g 3 1, lists := [g 4 4, g 8 4, g 12 4],
    counts := [g 16 2, g 18 2, g 20 2], freezeBase := g 24 4, freezeSize := g 28 4, ctrStep := g 32 4,
    resv := g 22 2 != 0 || (x.smem.readN 0x10024 28).any (· != 0) }

/-- Does a header meet Table 5-1 and R193 on a tile with this number of bobbin stacks? -/
def SchedHdr.ok (h : SchedHdr) (nstacks : Nat) : Bool :=
  (h.mode == 1 || h.mode == 2) && decide (1 ≤ h.qdepth) && decide (h.qdepth ≤ 16) && decide (h.lookahead ≤ 3) &&
  decide (h.lookahead < nstacks) && !h.resv && h.lists.all (fun a => a % 128 == 0) && h.freezeBase % 8192 == 0 &&
  h.freezeSize % 16384 == 0

/-- A product entry (Table 5-2). -/
structure ProdEntry where
  layer : Nat
  kind : Nat
  engine : Nat
  mb : Nat
  depList : Nat
  depIndex : Nat
  row0 : Nat
  col0 : Nat
  ctrEn : Bool
  ctr : Nat
  target : Nat
  bob : Nat
  recomp : Nat
  recompCount : Nat
  desc : List Byte
  bad : Bool
deriving DecidableEq, Repr

/-- The entry at an SRAM offset. -/
def State.prodEntry (s : State) (t : TileId) (a : Nat) : ProdEntry :=
  let g := fun o n => s.sramNat t (a + o) n
  { layer := g 0 2, kind := bitsN (g 2 1) 7 4, engine := bitsN (g 2 1) 3 0, mb := g 3 1, depList := bitsN (g 4 4) 31 30,
    depIndex := bitsN (g 4 4) 15 0, row0 := g 8 2, col0 := g 10 2, ctrEn := bitN (g 12 1) 7, ctr := bitsN (g 12 1) 5 0,
    target := g 16 4, bob := g 20 4, recomp := g 24 4, recompCount := g 28 2, desc := s.sram t (a + 64) 64,
    bad := s.sramBad t (a + 64) 64 }

/-- Index of the next entry of a list to issue. -/
def Sched.at_ (q : Sched) (l : Nat) : Nat := Tab.get (fun _ => 0) q.idx l

/-- The entry at the head of a list. -/
def State.schedEntry (s : State) (t : TileId) (h : SchedHdr) (l : Nat) : Option ProdEntry :=
  let i := (s.tile t).sched.at_ l
  if i < h.counts.getD l 0 then some (s.prodEntry t (h.lists.getD l 0 + 128 * i)) else none

/-! ### Freeze maps -/

/-- A map of a tile's FREEZE partition, by the SRAM offset of its first byte. -/
def State.mapNat (s : State) (t : TileId) (base o n : Nat) : Nat := s.sramNat t (base + o) n

/-- Directory entry of a layer, if the map lists it. -/
def State.freezeDir (s : State) (t : TileId) (base layer : Nat) : Option Nat :=
  (List.range (s.mapNat t base 8 2)).find? (fun n => s.mapNat t base (16 + 16 * n) 2 == layer)

/-- Is block (band, slab) of a layer frozen in the active map (R195, R196)? -/
def State.frozen (s : State) (t : TileId) (h : SchedHdr) (layer band slab : Nat) : Bool :=
  let b := h.freezeBase
  if h.freezeSize = 0 then false
  else
    match s.freezeDir t b layer with
    | none => false
    | some n =>
      let d := 16 + 16 * n
      let gran := s.mapNat t b (d + 2) 1
      let rowb := s.mapNat t b (d + 4) 2
      let colb := s.mapNat t b (d + 6) 2
      let bits := s.mapNat t b (d + 8) 4
      let bit := fun (k : Nat) => bitN (s.mapNat t b (bits + k / 8) 1) (k % 8)
      if gran = 3 then true
      else if gran = 1 then decide (band < rowb) && bit band
      else if gran = 2 then decide (band < rowb) && decide (slab < colb) && bit (band * colb + slab)
      else false

/-- Does a sealed staging map validate (R198)? `o` is its offset, `half` its greatest size. -/
def State.mapOk (s : State) (t : TileId) (act o half : Nat) : Bool :=
  let n := s.mapNat t o 8 2
  let size := s.mapNat t o 12 4
  let ent := fun (i a w : Nat) => s.mapNat t o (16 + 16 * i + a) w
  decide (s.mapNat t act 4 4 < s.mapNat t o 4 4) && s.mapNat t o 10 2 == 0 && decide (size ≤ half) && decide (16 + 16 * n ≤ size) &&
  (List.range n).all (fun i =>
    let gran := ent i 2 1
    let used := if gran = 1 then ent i 4 2 else ent i 4 2 * ent i 6 2
    (i == 0 || decide (ent (i - 1) 0 2 < ent i 0 2)) && decide (gran ≤ 3) && ent i 3 1 == 0 && ent i 12 4 == 0 &&
    ent i 8 4 % 8 == 0 && (gran == 2 || ent i 6 2 == 0) &&
    (if gran = 0 ∨ gran = 3 then ent i 8 4 == 0 else decide (ent i 8 4 + ceilDiv used 8 ≤ size)))

/-- Writes an active map: the map's bytes with STATE 1. -/
def State.setActive (s : State) (t : TileId) (base : Nat) (d : List Byte) : State :=
  s.sramWrite t base (leBytes 4 1 ++ d.drop 4)

/-- What the runtime does with the staging map when it returns from TWAIT 0 (R198, R200). -/
def State.freezeActivate (s : State) (t : TileId) : State :=
  let h := (s.tile t).schedHdr
  if h.freezeSize = 0 ∨ h.mbcount = 0 then s
  else if s.replaying then
    match s.logFind Lt.freeze t.toNat with
    | some e => s.setActive t h.freezeBase e.payload
    | none => s
  else if s.resil.reapply.any (fun e => e.type == Lt.freeze && e.key == t.toNat) then
    match s.resil.reapply.find? (fun e => e.type == Lt.freeze && e.key == t.toNat) with
    | some e => { s.setActive t h.freezeBase e.payload with resil := { s.resil with reapply := s.resil.reapply.erase e } }
    | none => s
  else
    let half := h.freezeSize / 2
    let o := h.freezeBase + half
    if s.mapNat t o 0 4 ≠ 1 then s
    else if s.mapOk t h.freezeBase o half then
      let d := s.sram t o (s.mapNat t o 12 4)
      ((s.setActive t h.freezeBase d).sramWrite t o (leBytes 4 0)).logNote Lt.freeze t.toNat (leBytes 4 1 ++ d.drop 4)
    else (s.sramWrite t o (leBytes 4 2)).raise (tileSrc t) St.badDescriptor (leBytes 4 (s.mapNat t o 4 4))

/-- The runtime begins a new pick: freeze map, counter bases (R184), and every list from its first entry. -/
def State.schedPick (s : State) (t : TileId) : State :=
  let h := (s.tile t).schedHdr
  (s.freezeActivate t).modTile t (fun x =>
    { x with sched := { x.sched with
        idx := [], out := [], done := [], pop := none, recompLeft := none, parts := [],
        base := x.sched.base.map (fun e => (e.1, e.2 + BitVec.ofNat 32 (x.smemNat (h.ctrStep + 4 * e.1) 4))) } })

/-! ### Splitting (R201 to R204) -/

/-- Replaces the n bytes at offset o of a descriptor. -/
def patch (d : List Byte) (o n v : Nat) : List Byte := d.take o ++ leBytes n v ++ d.drop (o + n)

/-- Descriptor of the part whose first band is b0, last band b1, first slab c0, last slab c1 of the D region (R204). -/
def partDesc (d : List Byte) (b0 b1 c0 c1 : Nat) : List Byte :=
  let x := TensorDesc.of d
  let i0 := 64 * b0
  let j0 := 64 * c0
  let panel := fun (p : Panels) (r c : Nat) => p.base + 8192 * (r / 64 * p.stride + c / (128 / p.esz))
  let d := patch d 0 4 (if x.ta then panel x.a 0 i0 else panel x.a i0 0)
  let d := patch d 4 4 (if x.tb then panel x.b j0 0 else panel x.b 0 j0)
  let d := if x.addC then patch d 8 4 (panel x.c i0 j0) else d
  let d := patch d 12 4 (panel x.d i0 j0)
  let d := patch d 16 2 (min x.m (64 * (b1 + 1)) - i0)
  let d := patch d 18 2 (min x.n (64 * (c1 + 1)) - j0)
  if x.dgEn then patch d 56 5 (x.dgBase + i0 * x.dgLd + j0) else d

/-- Maximal runs of adjacent members of an ascending list. -/
def runsOf : List Nat → List (Nat × Nat)
  | [] => []
  | a :: l =>
    match runsOf l with
    | (b, c) :: r => if a + 1 = b then (a, c) :: r else (a, a) :: (b, c) :: r
    | [] => [(a, a)]

/-- Adjacent slabs with equal sets of unfrozen bands, as (first, last, set). -/
def colGroups : List (Nat × List Nat) → List (Nat × Nat × List Nat)
  | [] => []
  | (c, u) :: l =>
    match colGroups l with
    | (b, e, v) :: r => if u = v then (c, e, v) :: r else (c, c, u) :: (b, e, v) :: r
    | [] => [(c, c, u)]

/-- The operations that a DW entry becomes: none when it is skipped, itself when nothing is frozen, else its parts.
Only a tensor entry has the D region that R202 covers. -/
def State.dwParts (s : State) (t : TileId) (h : SchedHdr) (e : ProdEntry) : List (List Byte) :=
  if e.engine ≠ 0 then [e.desc]
  else
    let x := TensorDesc.of e.desc
    let nb := ceilDiv x.m 64
    let nc := ceilDiv x.n 64
    let un := (List.range nc).map (fun c =>
      (c, (List.range nb).filter (fun b => !s.frozen t h e.layer (e.row0 + b) (e.col0 + c))))
    if un.all (fun u => u.2.length == nb) then [e.desc]
    else (colGroups un).flatMap (fun g => (runsOf g.2.2).map (fun r => partDesc e.desc r.1 r.2 g.1 g.2.1))

/-- A RECOMP descriptor without its digest (R211). -/
def recompDesc (engine : Nat) (d : List Byte) : List Byte :=
  if engine = 0 then
    patch (patch (patch d 32 1 (let b := bytesAt d 32 1; if bitN b 3 then b - 8 else b)) 33 1 (bytesAt d 33 1 % 16)) 56 8 0
  else
    patch (patch d 1 1 (bytesAt d 1 1 % 128)) 24 4 0

/-! ### Readiness and completion -/

def Sched.isDone (q : Sched) (l i : Nat) : Bool := q.done.contains (l, i)

/-- Has the entry's dependency completed (R184)? -/
def Sched.depDone (q : Sched) (e : ProdEntry) : Bool := e.depList == 0 || q.isDone (e.depList - 1) e.depIndex

/-- The counter condition (R123, R184). -/
def State.ctrReady (s : State) (t : TileId) (e : ProdEntry) : Bool :=
  !e.ctrEn ||
  (let b := Tab.get (fun _ => (0 : Word)) (s.tile t).sched.base e.ctr
   decide (0 ≤ (s.arrival t e.ctr - (b + BitVec.ofNat 32 e.target)).toInt))

/-- Has every ticket of a list completed on an engine? -/
def Tile.allDone (x : Tile) (code : Nat) (l : List Word) : Bool := l.all (fun n => (x.statusOf code n).isSome)

/-- The first status other than OK among tickets. -/
def Tile.firstBad (x : Tile) (code : Nat) (l : List Word) : Option Status :=
  l.findSome? (fun n => match x.statusOf code n with
    | some st => if st = St.ok then none else some st
    | none => none)

/-- DETAIL of R189. -/
def failDetail (kind index layer mb : Nat) : List Byte := leBytes 1 kind ++ leBytes 2 index ++ leBytes 2 layer ++ leBytes 1 mb

/-- The product entry that an outstanding operation belongs to. RECOMP operations stand under list 3, with the index of
their DX entry. -/
def State.outEntry (s : State) (t : TileId) (h : SchedHdr) (o : SchedOut) : ProdEntry :=
  s.prodEntry t (h.lists.getD (if o.list = 3 then 1 else o.list) 0 + 128 * o.index)

/-- Remembers the first failure of the schedule. -/
def State.schedFail (s : State) (t : TileId) (st : Status) (detail : List Byte) : State :=
  s.modTile t (fun x => if x.sched.failed.isSome then x else { x with sched := { x.sched with failed := some (st, detail) } })

/-- Settles one outstanding entry: keeps it while its operations or its push run, issues its push, or completes it
(R187 to R189). -/
def State.settleOut (s : State) (t : TileId) (h : SchedHdr) (o : SchedOut) : State :=
  let x := s.tile t
  let e := s.outEntry t h o
  let keep := fun (s : State) (o : SchedOut) => s.modTile t (fun x => { x with sched := { x.sched with out := x.sched.out ++ [o] } })
  let more := o.list = 2 ∧ o.index = x.sched.at_ 2 ∧ x.sched.parts ≠ []
  if x.allDone o.engine o.tickets = false ∨ more then keep s o
  else
    match x.firstBad o.engine o.tickets with
    | some st => s.schedFail t st (failDetail (if o.list = 3 then 4 else e.kind) o.index e.layer e.mb)
    | none =>
      let fin := fun (s : State) =>
        if o.list = 3 then s else s.modTile t (fun x => { x with sched := { x.sched with done := (o.list, o.index) :: x.sched.done } })
      if o.list = 0 ∧ e.bob ≠ 0 then
        match o.push with
        | none =>
          if x.room 3 ∧ x.sched.failed = none then
            let r := s.enqueue t 3 (s.sram t e.bob 64) (s.sramBad t e.bob 64)
            keep r.1 { o with push := some r.2 }
          else keep s o
        | some n =>
          match x.statusOf 3 n with
          | none => keep s o
          | some st => if st = St.ok then fin s else s.schedFail t st (failDetail e.kind o.index e.layer e.mb)
      else fin s

/-- Settles every outstanding entry; with none left after a failure, the event of R189 is raised and issuing stops for
this pick and the next. -/
def State.settleAll (s : State) (t : TileId) (h : SchedHdr) : State :=
  let out := (s.tile t).sched.out
  let s := out.foldl (fun s o => s.settleOut t h o) (s.modTile t (fun x => { x with sched := { x.sched with out := [] } }))
  let x := s.tile t
  match x.sched.failed with
  | some (st, d) =>
    if x.sched.out.isEmpty then
      (s.raise (tileSrc t) st d).modTile t (fun x =>
        { x with sched := { x.sched with failed := none, stopUntil := x.cur.map (fun p => p + 1) } })
    else s
  | none => s

/-! ### Issuing -/

/-- Entries outstanding at an engine. -/
def Sched.outAt (q : Sched) (engine : Nat) : Nat := (q.out.filter (fun o => o.engine == engine)).length

/-- May one more entry go to an engine (R186)? -/
def Tile.engRoom (x : Tile) (h : SchedHdr) (engine : Nat) : Bool :=
  decide (x.sched.outAt engine < h.qdepth) && x.room engine

def Sched.step_ (q : Sched) (l : Nat) : Sched := { q with idx := Tab.set l (q.at_ l + 1) q.idx }

/-- Adds an issued operation to the outstanding entry of (list, index), or begins one. -/
def Sched.addOut (q : Sched) (l i engine : Nat) (n : Word) : Sched :=
  if q.out.any (fun o => o.list == l && o.index == i) then
    { q with out := q.out.map (fun o => if o.list = l ∧ o.index = i then { o with tickets := o.tickets ++ [n] } else o) }
  else { q with out := q.out ++ [⟨l, i, engine, [n], none⟩] }

/-- Is the pop of the DX head complete (R184)? Its failure stops the schedule in settlePop. -/
def Tile.popDone (x : Tile) (e : ProdEntry) : Bool :=
  e.bob == 0 || (match x.sched.pop with | some n => (x.statusOf 3 n) == some St.ok | none => false)

/-- Did the DX head's pop find a dropped entry (R211)? Its completion record says so. -/
def State.popDropped (s : State) (t : TileId) (e : ProdEntry) : Bool :=
  e.bob != 0 && bitN (s.sramNat t (s.sramNat t (e.bob + 12) 4 + 12) 1) 0

/-- Is the head of a list ready (R184)? -/
def State.headReady (s : State) (t : TileId) (l : Nat) (e : ProdEntry) : Bool :=
  (s.tile t).sched.depDone e && s.ctrReady t e && (l != 1 || (s.tile t).popDone e)

/-- A pop that failed stops the schedule (R189). -/
def State.settlePop (s : State) (t : TileId) (h : SchedHdr) : State :=
  match s.schedEntry t h 1, (s.tile t).sched.pop with
  | some e, some n =>
    match (s.tile t).statusOf 3 n with
    | some st => if st = St.ok then s
        else (s.schedFail t st (failDetail e.kind ((s.tile t).sched.at_ 1) e.layer e.mb)).modTile t
          (fun x => { x with sched := { x.sched with pop := none } })
    | none => s
  | _, _ => s

/-- The lowest MB with incomplete DX or DW entries (R192). -/
def State.lowestMb (s : State) (t : TileId) (h : SchedHdr) : Option Nat :=
  let q := (s.tile t).sched
  ([1, 2].flatMap (fun l => ((List.range (h.counts.getD l 0)).filter (fun i => !q.isDone l i)).map (fun i =>
    (s.prodEntry t (h.lists.getD l 0 + 128 * i)).mb))).min?

/-- The list whose head the runtime takes next: with READY the first ready one in the order DX, FWD, DW; with STRICT the
one that R190 names, whether or not it is ready. -/
def State.pickList (s : State) (t : TileId) (h : SchedHdr) : Option Nat :=
  let f := s.schedEntry t h 0
  let x := s.schedEntry t h 1
  let w := s.schedEntry t h 2
  let room := fun (e : ProdEntry) => (s.tile t).engRoom h e.engine
  if h.mode = 2 then
    let ok := fun (l : Nat) (e : Option ProdEntry) => match e with
      | some e => s.headReady t l e && room e
      | none => false
    let fOk := match f, s.lowestMb t h with
      | some e, some m => decide (e.mb ≤ m + h.lookahead)
      | _, _ => true
    if ok 1 x then some 1 else if fOk && ok 0 f then some 0 else if ok 2 w then some 2 else none
  else
    match ([f, x, w].filterMap (fun e => e.map ProdEntry.mb)).min? with
    | none => none
    | some m =>
      let mine := fun (e : Option ProdEntry) => match e with | some e => e.mb == m | none => false
      if mine f then some 0
      else match mine x, mine w, x, w with
        | true, true, some a, some b => some (if b.layer ≤ a.layer then 1 else 2)
        | true, _, _, _ => some 1
        | _, _, _, _ => some 2

/-- Issues one operation of the head of a list: a RECOMP operation, a part, or the entry; or skips it. -/
def State.issueHead (s : State) (t : TileId) (h : SchedHdr) (l : Nat) (e : ProdEntry) : State :=
  let x := s.tile t
  let i := x.sched.at_ l
  let left := x.sched.recompLeft.getD 0
  if l = 1 ∧ left < e.recompCount ∧ s.popDropped t e = true then
    let r := s.prodEntry t (e.recomp + 128 * left)
    if x.engRoom h r.engine then
      let n := s.enqueue t r.engine (recompDesc r.engine r.desc) r.bad
      n.1.modTile t (fun x => { x with sched := { x.sched.addOut 3 i r.engine n.2 with recompLeft := some (left + 1) } })
    else s
  else
    let parts := if l ≠ 2 then [e.desc] else if x.sched.parts ≠ [] then x.sched.parts else s.dwParts t h e
    match parts with
    | [] => s.modTile t (fun x => { x with sched := { x.sched.step_ l with done := (l, i) :: x.sched.done } })
    | d :: rest =>
      if x.room e.engine && !(descDg e.engine d && x.bankStall) then
        let n := s.enqueue t e.engine d e.bad
        n.1.modTile t (fun x =>
          let q := x.sched.addOut l i e.engine n.2
          { x with sched := if rest = [] then { q.step_ l with parts := [], pop := if l = 1 then none else q.pop,
                                                               recompLeft := if l = 1 then none else q.recompLeft }
                            else { q with parts := rest } })
      else s

/-- Issues the pop of the DX head, when its dependency has completed and it has not been issued (R187). -/
def State.issuePop (s : State) (t : TileId) (h : SchedHdr) : Option State :=
  match s.schedEntry t h 1 with
  | none => none
  | some e =>
    let x := s.tile t
    if e.bob ≠ 0 ∧ x.sched.pop = none ∧ x.sched.depDone e = true ∧ x.room 3 = true then
      let n := s.enqueue t 3 (s.sram t e.bob 64) (s.sramBad t e.bob 64)
      some (n.1.modTile t (fun x => { x with sched := { x.sched with pop := some n.2 } }))
    else none

/-- One action of the runtime. -/
def State.schedStep (s : State) (t : TileId) : State :=
  let h := (s.tile t).schedHdr
  let s := (s.settlePop t h).settleAll t h
  let x := s.tile t
  let stopped := match x.sched.stopUntil, x.cur with
    | some p, some c => decide (c ≤ p)
    | _, _ => false
  if x.sched.failed.isSome ∨ stopped = true then s
  else
    match s.issuePop t h with
    | some s' => s'
    | none =>
      match s.pickList t h with
      | none => s
      | some l =>
        match s.schedEntry t h l with
        | none => s
        | some e =>
          if s.headReady t l e && ((s.tile t).engRoom h e.engine || (s.tile t).sched.parts != []) then s.issueHead t h l e else s

/-- SCHEDULE_ENTRY_ISSUE (R182 to R193): the runtime acts while the shuttle executes, waits for nothing and has a
current pick, and the tile's schedule header is valid. -/
def execScheduleEntryIssue (t : TileId) (s : State) : Host.Outcome State Fault Refusal :=
  let h := (s.tile t).schedHdr
  .next (
    if s.shuttleRuns t ∧ (s.tile t).waiting = none ∧ (s.tile t).cur.isSome ∧ h.mbcount ≠ 0 ∧
        h.ok (2 ^ min 2 (s.fld (tfld t F.BOBBIN_HBM_NSTACKS))) = true ∧ s.haltedNode = false then s.schedStep t
    else s)

end Sys2Proof.Machine
end

