-- ==== Sys2Proof/Machine/Timebase.lean ====
section
/-! DEFINITION. The timebase (R499 to R510, R531), timetable events (R516), the rebase (R513) and the digest log
(R527, R528): the commands of chapter 12 but PICK_START, SNAPSHOT_MARK and REPLAY_EVENT_FIRE. Offsets to a source are in
units of 2^-8 ns (TIME_STAT.OFFSET). Readings of the manual are assumption log 24 and 25. -/

namespace Sys2Proof.Machine

/-- Event SOURCE of the timebase. -/
def timeSrc : Nat := 0x0400

/-- Is a draft loaded (GLB_JOB.STATE LOADED or later)? -/
def State.draftLoaded (s : State) : Bool := match s.draft with | some d => d.loaded | none => false

/-- One cycle of the 156.25 MHz reference: the counter advances by 6.4 ns and the servo's adjustment (R500). -/
def Clock.tick (c : Clock) : Clock :=
  let f : Int := (c.ns.toNat * 2 ^ 32 + c.frac.toNat : Nat) + (27487790694 + c.adj)
  { c with ns := BitVec.ofInt 64 (f / (2 ^ 32 : Nat)), frac := BitVec.ofInt 32 (f % (2 ^ 32 : Nat)) }

/-- Greatest servo adjustment in units of 2^-32 ns per step of 6.4 ns: 100 ppm with a draft loaded, else 200 ppm
(R500, R501). -/
def State.adjLimit (s : State) : Nat := if s.draftLoaded then 2748779 else 5497558

/-- The servo takes a new rate within its limit. The manual gives no servo law: the rate is a free value. -/
def State.servo (s : State) (off : Int) : State :=
  let f := s.drawFree
  let l := s.adjLimit
  { f.2 with clock := { f.2.clock with adj := ((f.1.toNat % (2 * l + 1) : Nat) : Int) - l, slew := off } }

/-- Is a source present: on a root a master on the primary's port, else a parent? -/
def State.hasSource (s : State) : Bool :=
  if s.bit F.TIME_PTP_CFG_ROOT then
    (Tab.find s.clock.masters (s.fld F.TIME_STAT_PRIMARY)).isSome
  else s.clock.parent.isSome

/-- LOCKED judged on one measurement (R502). -/
def State.judgeLock (s : State) (off : Int) : State :=
  let run := if off.natAbs ≤ 10 * 256 then s.clock.lockRun + 1 else 0
  let s := { s with clock := { s.clock with lockRun := run } }
  if 200 * 256 < off.natAbs then
    if s.bit F.TIME_STAT_LOCKED then
      ((s.setFld F.TIME_STAT_LOCKED 0).putReady 10 false).raise timeSrc 0x0702 (leBytes 8 (wrapN 64 (off / 256)))
    else s
  else if 64 ≤ run then (s.setFld F.TIME_STAT_LOCKED 1).putReady 10 true
  else s

/-- Steps the counter by an offset while no draft is loaded (R501). -/
def Clock.step (c : Clock) (off : Int) : Clock :=
  let f : Int := (c.ns.toNat * 2 ^ 32 + c.frac.toNat : Nat) + off * (2 ^ 24 : Nat)
  { c with ns := BitVec.ofInt 64 (f / (2 ^ 32 : Nat)), frac := BitVec.ofInt 32 (f % (2 ^ 32 : Nat)) }

/-- A measured offset to the source (R500 to R502, R510). -/
def State.measure (s : State) (off : Int) : State :=
  let s := s.setFld F.TIME_STAT_OFFSET (wrapN 32 off)
  let s := s.setFld F.TIME_STAT_HOLDOVER 0
  let far := decide (1000000 * 256 < off.natAbs)
  let s := if !s.bit F.TIME_STAT_COARSE && far && !s.draftLoaded then { s with clock := s.clock.step off } else s
  let s := if !s.bit F.TIME_STAT_COARSE && (!far || !s.draftLoaded) then
      (s.setFld F.TIME_STAT_COARSE 1).putReady 9 true else s
  (s.judgeLock off).servo off

/-! ### Parents (R505) -/

/-- Span peers on live direct ports: node number and port. -/
def State.livePeers (s : State) : List (NodeId × PortId) :=
  (s.livePorts.filter (fun p => s.bit (pfld p F.FAB_PORT_STAT_PEER_VALID))).map (fun p =>
    (BitVec.ofNat 14 (s.fld (pfld p F.FAB_PORT_STAT_PEER)), p))

/-- The candidate of the lowest slot. -/
def lowestPeer (l : List (NodeId × PortId)) : Option (NodeId × PortId) :=
  l.foldl (fun b c => match b with
    | none => some c
    | some d => if c.1.toNat % 16 < d.1.toNat % 16 then some c else some d) none

/-- The parent that R505 gives; `k` tells of each peer whether it is a root (1) or has a root for parent (2). -/
def State.chooseParent (s : State) (k : NodeId → Nat) : Option (NodeId × PortId) :=
  let l := s.livePeers.filter (fun c => c.1.toNat / 16 == s.nodeId.toNat / 16)
  match lowestPeer (l.filter (fun c => k c.1 == 1)) with
  | some c => some c
  | none =>
    match l.find? (fun c => Nat.xor c.1.toNat s.nodeId.toNat == 1 && k c.1 == 2) with
    | some c => some c
    | none => lowestPeer (l.filter (fun c => k c.1 == 2))

/-- FBC0 gives the node its parent (R505). A change of parent raises TIME_SOURCE_CHANGE. -/
def State.assignParent (s : State) : State :=
  if s.bit F.TIME_PTP_CFG_ROOT then
    { (s.setFld F.TIME_STAT_PARENT_PORT 0x1F).setFld F.TIME_STAT_SOURCE (s.fld F.TIME_STAT_PRIMARY) with
      clock := { s.clock with parent := none, parentRoot := false } }
  else
    let n := s.free
    let s := { s with free := n + 1 }
    match s.chooseParent (Config.peerTime n) with
    | none => { s.setFld F.TIME_STAT_SOURCE 3 with clock := { s.clock with parent := none, parentRoot := false } }
    | some c =>
      let old := s.clock.parent
      let s := (s.setFld F.TIME_STAT_PARENT_PORT c.2.val).setFld F.TIME_STAT_SOURCE 2
      let s := { s with clock := { s.clock with parent := some c.1, parentRoot := Config.peerTime n c.1 == 1 } }
      if old.isSome ∧ old ≠ some c.1 then s.raise timeSrc 0x0704 [] else s

/-- Does the node serve as a parent (R505)? -/
def State.serves (s : State) : Bool := s.bit F.TIME_PTP_CFG_ROOT || (s.clock.parent.isSome && s.clock.parentRoot)

/-! ### Commands -/

/-- TIME_NOW_READ (R499): the read latches FRAC. -/
def execTimeNowRead (q : Requester) (s : State) : Host.Outcome State Fault Refusal :=
  .next (if s.reaches q R.TIME_NOW then s.setFld F.TIME_FRAC_FRAC (s.clock.frac.toNat / 65536) else s)

/-- A write of TIME_REBASE_AT (R513). -/
def State.rebaseAt (s : State) (v : BitVec 64) : State :=
  let at_ := v.toNat % 2 ^ 48
  let s := s.setFld F.TIME_REBASE_AT_PICK at_
  let refused := (s.setFld F.TIME_REBASE_AT_PENDING 0).raise timeSrc 0x0706 []
  let now := s.clock.ns.toNat
  let new := s.startOn (s.fld F.TIME_REBASE_BASE_BASE) at_
  let old := s.startOn (s.fld F.TIME_PICK_BASE_BASE) at_
  if s.fld F.GLB_JOB_STATE ≠ 3 then refused
  else if 2 ≤ s.fld F.CKPT_STAT_STATE ∧ s.fld F.CKPT_STAT_STATE ≤ 4 then
    if now + 1000000 ≤ new then
      { s.setFld F.TIME_REBASE_AT_PENDING 1 with clock := { s.clock with rebaseForced := true } }
    else refused
  else if new < old ∨ old ≤ now then refused
  else s.setFld F.TIME_REBASE_AT_PENDING 1

/-- TIME_REBASE_AT_WRITE (R513). Only a firmware processor writes it. -/
def execTimeRebaseAtWrite (q : Requester) (v : BitVec 64) (s : State) : Host.Outcome State Fault Refusal :=
  .next (if Requester.isFw q then s.rebaseAt v else s)

/-- A write of TIME_DIGLOG_TAIL: a value beyond HEAD becomes HEAD (R528). -/
def State.diglogTail (s : State) (v : BitVec 64) : State :=
  let head := s.fld F.TIME_DIGLOG_HEAD
  let tail := v.toNat % 2 ^ 32
  s.setFld F.TIME_DIGLOG_TAIL_TAIL (if 0 < signed 32 (tail + (2 ^ 32 - head)) then head else tail)

/-- TIME_DIGLOG_TAIL_WRITE (R528). -/
def execTimeDiglogTailWrite (q : Requester) (v : BitVec 64) (s : State) : Host.Outcome State Fault Refusal :=
  .next (if s.reaches q R.TIME_DIGLOG_TAIL ∧ q ≠ .host then s.diglogTail v else s)

/-- TIME_REQ (R507): a child asks its parent, its request stamped t1; a parent answers with t2 and t3. -/
def execTimeReq (d : Dir) (p : PortId) (src : NodeId) (tag : BitVec 16) (stamp1 stamp2 : BitVec 64) (s : State) :
    Host.Outcome State Fault Refusal :=
  .next (match d with
    | .send =>
      if s.portUp p ∧ s.clock.parent.isSome ∧ s.fld F.TIME_STAT_PARENT_PORT = p.val then
        s.send { plainMsg (some p) 0 0 0x50 [stamp1.toNat] [] with loc := true, tag := tag }
      else s
    | .recv =>
      if s.portUp p ∧ s.serves then
        { s with clock := { s.clock with children := src :: s.clock.children.filter (· != src) } }.send
          { plainMsg (some p) 0 0 0x51 [stamp1.toNat, stamp2.toNat] [] with loc := true, rsp := true, tag := tag }
      else s)

/-- TIME_RSP (R507): the offset ((t2 − t1) − (t4 − t3)) / 2 − A to the parent. -/
def execTimeRsp (p : PortId) (src : NodeId) (t1 t2 t3 t4 : Int) (s : State) : Host.Outcome State Fault Refusal :=
  .next (
    if s.portUp p ∧ s.clock.parent = some src then s.measure (((t2 - t1) - (t4 - t3)) / 2 - (s.port p).asym)
    else s)

/-- An Announce of a master on Ethernet port e (R506): the better rank is kept; a change of the primary's master raises
TIME_SOURCE_CHANGE (R531). -/
def State.announce (s : State) (e : EthId) (rank master : Nat) : State :=
  let s := { s with clock := { s.clock with announced := Tab.set e.val s.clock.ns.toNat s.clock.announced } }
  match Tab.find s.clock.masters e.val with
  | none =>
    let s := { s with clock := { s.clock with masters := Tab.set e.val (rank, master) s.clock.masters } }
    if s.fld F.TIME_STAT_PRIMARY = e.val then s.setFld F.TIME_STAT_SOURCE e.val else s
  | some o =>
    if rank < o.1 ∨ o.2 = master then
      let s := { s with clock := { s.clock with masters := Tab.set e.val (rank, master) s.clock.masters } }
      if o.2 ≠ master ∧ s.fld F.TIME_STAT_PRIMARY = e.val then s.raise timeSrc 0x0704 (leBytes 1 e.val) else s
    else s

/-- PTP_MESSAGE (R506): heard only by a root, on an enabled port. -/
def execPtpMessage (e : EthId) (k : PtpKind) (now : BitVec 64) (s : State) : Host.Outcome State Fault Refusal :=
  let s := s.at_ now
  .next (
    if s.bit F.TIME_PTP_CFG_ROOT ∧ bitN (s.fld F.TIME_PTP_CFG_PORT_EN) e.val then
      match k with
      | .announce rank master => s.announce e rank master
      | .measure off => if s.fld F.TIME_STAT_PRIMARY = e.val then s.measure off else s
      | .other => s
    else s)

/-- ANNOUNCE_TIMEOUT (R509): the primary's port has heard no Announce for three intervals; the other timebase becomes
primary without a step. -/
def execAnnounceTimeout (now : BitVec 64) (s : State) : Host.Outcome State Fault Refusal :=
  let s := s.at_ now
  .next (
    if s.bit F.TIME_PTP_CFG_ROOT then
      let e := s.fld F.TIME_STAT_PRIMARY
      let n := 1 - e
      let s := { s with clock := { s.clock with masters := Tab.erase e s.clock.masters } }
      ((s.setFld F.TIME_STAT_PRIMARY n).setFld F.TIME_STAT_SOURCE (if (Tab.find s.clock.masters n).isSome then n else 3)).raise
        timeSrc 0x0704 (leBytes 1 n)
    else s)

/-- TIME_HOLDOVER (R510): no source remains. -/
def execTimeHoldover (s : State) : Host.Outcome State Fault Refusal :=
  .next (
    if s.hasSource || s.bit F.TIME_STAT_HOLDOVER then s
    else ((s.setFld F.TIME_STAT_HOLDOVER 1).setFld F.TIME_STAT_SOURCE 3).raise timeSrc 0x0703 [])

/-- TIMETABLE_EVENT_FIRE (R53, R516): event i of the current pick, when its time has come and the earlier events have
fired. -/
def execTimetableEventFire (i : BitVec 7) (now : BitVec 64) (s : State) : Host.Outcome State Fault Refusal :=
  let s := s.at_ now
  .next (
    if s.picksRun && s.eventDue i.toNat && decide (s.eventNs s.pick i.toNat ≤ s.clock.ns.toNat) then s.fireEvent i.toNat
    else s)

/-- DIGEST_BANK_HANDOFF (R527). -/
def execDigestBankHandoff (t : TileId) (s : State) : Host.Outcome State Fault Refusal :=
  .next (match (s.tile t).handable with
    | none => s
    | some b => s.handBank t b)

/-- DIGEST_RECORD_WRITE (R527 to R529): the record of the oldest pick that has none, once it is due. -/
def execDigestRecordWrite (s : State) : Host.Outcome State Fault Refusal :=
  .next (match s.draft, s.clock.digests with
    | some x, d :: r =>
      if s.recordDue d then { s with clock := { s.clock with digests := r } }.putDigest x d else s
    | _, _ => s)

end Sys2Proof.Machine
end

