-- ==== Sys2Proof/Machine/Draft.lean ====
section
/-! DEFINITION. Draft images (R532 to R547): the image in the staging region, its directory and sections, the checks of
Table 13-5 in order, and the loading of a node's sections (R559). Readings of the manual are assumption log 30. -/

namespace Sys2Proof.Machine

def St.timeNotLocked : Status := 0x0705
def St.badPattern : Status := 0x0308

/-- Event SOURCE of FBC0's draft intake (R544). -/
def draftSrc : Nat := 0x300

/-! ### The staging region (R547) -/

/-- A number of n bytes of the image. -/
def State.img (s : State) (d : Draft) (o n : Nat) : Nat := leNat (s.bytes (d.base + o) n)

/-- The member map as it stands in the staging region. -/
def State.mapBytes (s : State) (d : Draft) : List Byte := s.bytes (d.base + d.total) (2 * d.nmembers)

def mapOfBytes (b : List Byte) (n : Nat) : List NodeId :=
  (List.range n).map (fun i => BitVec.ofNat 14 (bytesAt b (2 * i) 2))

/-- First 8 bytes of SHAKE256 over the map. -/
def mapDigestOf (b : List Byte) : List Byte := shake256 b 8

/-- DIGEST of R533. -/
def State.imageDigest (s : State) (d : Draft) (signed_ : Bool) : List Byte :=
  let n := if signed_ then d.total - 32768 else d.total
  shake256 (s.bytes d.base 64 ++ zeros 64 ++ s.bytes (d.base + 128) (n - 128)) 64

/-! ### Directory -/

/-- A directory entry (Table 13-2). -/
structure Sect where
  idx : Nat
  type : Nat
  sver : Nat
  off : Nat
  size : Nat
  mlo : Nat
  mhi : Nat
  tlo : Nat
  thi : Nat
  resv : Bool
deriving DecidableEq, Repr

def State.sectAt (s : State) (d : Draft) (dir i : Nat) : Sect :=
  let g := fun o n => s.img d (dir + 32 * i + o) n
  { idx := i, type := g 0 2, sver := g 2 2, off := g 8 8, size := g 16 8, mlo := g 24 2, mhi := g 26 2, tlo := g 28 1,
    thi := g 29 1, resv := g 4 4 != 0 || g 30 2 != 0 }

def State.sects (s : State) (d : Draft) : List Sect :=
  (List.range (s.img d 24 2)).map (s.sectAt d (s.img d 40 8))

/-- Tile-level types and partition-level types of Table 13-3; the others are member-level. -/
def Sect.tileLevel (x : Sect) : Bool := (decide (1 ≤ x.type) && decide (x.type ≤ 5)) || x.type == 10
def Sect.partLevel (x : Sect) : Bool := x.type == 6 || x.type == 7 || x.type == 9

/-- Does the section apply to a member, and a tile? -/
def Sect.forMember (x : Sect) (m : Nat) : Bool := decide (x.mlo ≤ m) && decide (m ≤ x.mhi)
def Sect.forTile (x : Sect) (m t : Nat) : Bool := x.forMember m && decide (x.tlo ≤ t) && decide (t ≤ x.thi)

/-- Sections with records (R538). -/
def live (l : List Sect) : List Sect := l.filter (fun x => x.size != 0)

/-- Why a draft is rejected: status, REASON and the other DETAIL bytes of R544. -/
structure DraftErr where
  status : Status
  reason : Nat
  dir : Nat
  tile : Nat
  off : Nat
  low : Nat
deriving DecidableEq, Repr

def DraftErr.plain (st : Status) (reason : Nat) : DraftErr := ⟨st, reason, 0, 0, 0, 0⟩
def DraftErr.inSect (x : Sect) (st : Status) (reason t off : Nat) : DraftErr := ⟨st, reason, x.idx, t, off, 0⟩

/-- Is condition c met? Then it is no error. -/
def must (c : Bool) (e : DraftErr) : Option DraftErr := if c then none else some e

/-- The first error of a list of checks. -/
def firstErr (l : List (Option DraftErr)) : Option DraftErr := l.findSome? id

/-! ### Checks 1 to 6 -/

def draftMagic : Nat := 0x54464152444E5646

def State.check1 (s : State) (d : Draft) : Option DraftErr :=
  must (s.img d 0 8 == draftMagic && s.img d 8 2 == 1 && s.img d 10 2 == 0) (.plain St.badDescriptor 1)

/-- Is the image signed? -/
def State.imgSigned (s : State) (d : Draft) : Bool := bitN (s.img d 12 4) 0

def State.check2 (s : State) (d : Draft) : Option DraftErr :=
  let total := s.img d 16 8
  must (total % 4096 == 0 && decide (8192 ≤ total) && decide (total ≤ 2 ^ 32) && total == d.total &&
    s.img d 48 8 == (if s.imgSigned d then total - 32768 else 0) && s.img d 12 4 / 2 == 0 && s.img d 26 2 == 0 &&
    s.img d 30 2 == 0 && s.img d 56 8 == 0 && (s.bytes (d.base + 128) 3968).all (· == 0)) (.plain St.badDescriptor 2)

def State.check3 (s : State) (d : Draft) : Option DraftErr :=
  let h := s.imageDigest d (s.imgSigned d)
  must (decide (s.bytes (d.base + 64) 64 = h) && decide (h = d.digest) && decide (mapDigestOf (s.mapBytes d) = d.mapDigest))
    (.plain St.badDescriptor 3)

/-- Signature parameter sets: 0 SLH-DSA-SHAKE-256s, 1 SLH-DSA-SHAKE-256f. -/
def slh256s : Nat := 0
def slh256f : Nat := 1

def State.check4 (s : State) (d : Draft) : Option DraftErr :=
  if s.imgSigned d then
    let a := d.base + s.img d 48 8
    let key := s.bytes a 64
    must (Config.slhVerify slh256s key [] (s.bytes d.base 128) (s.bytes (a + 64) 29792) &&
      s.fw.jobKeys.any (fun k => decide (shake256 key k.length = k))) (.plain St.badDescriptor 4)
  else must (!s.fw.sigRequired) (.plain St.badDescriptor 4)

/-- Do two sections of one type apply to a common member, and tile? -/
def Sect.clashes (x y : Sect) : Bool :=
  x.idx != y.idx && x.type == y.type && decide (x.mlo ≤ y.mhi) && decide (y.mlo ≤ x.mhi) &&
    (!x.tileLevel || (decide (x.tlo ≤ y.thi) && decide (y.tlo ≤ x.thi)))

/-- Is a directory entry's form right (R535 to R538)? -/
def Sect.ok (x : Sect) (nmem lo hi : Nat) : Bool :=
  !x.resv && x.sver == 1 && decide (1 ≤ x.type) && decide (x.type ≤ 12) && x.off % 4096 == 0 &&
  decide (x.mlo ≤ x.mhi) && decide (x.mhi < nmem) &&
  (if x.tileLevel then decide (x.tlo ≤ x.thi) else x.tlo == 0 && x.thi == 0) &&
  decide (lo ≤ x.off) && decide (x.off + x.size ≤ hi) && (x.size != 0 || [2, 4, 5, 6, 7, 8, 11].contains x.type) &&
  (!x.partLevel || (x.mlo == 0 && x.mhi == nmem - 1))

def State.check5 (s : State) (d : Draft) : Option DraftErr :=
  let n := s.img d 24 2
  let dir := s.img d 40 8
  let nmem := s.img d 28 2
  let hi := if s.imgSigned d then s.img d 48 8 else d.total
  let l := s.sects d
  let bad := fun (x : Sect) => DraftErr.inSect x St.badDescriptor 5 0 0
  firstErr
    ([must (decide (1 ≤ n) && dir % 4096 == 0 && decide (4096 ≤ dir) && decide (dir + 32 * n ≤ hi)) (.plain St.badDescriptor 5)] ++
     (if dir + 32 * n ≤ hi then
        l.map (fun x => must (x.ok nmem (dir + 32 * n) hi && l.all (fun y =>
          !(x.clashes y && (x.partLevel || (x.size != 0 && y.size != 0))) && (x.idx == y.idx || !overlaps x.off x.size y.off y.size)))
          (bad x)) ++
        [must (l.any (fun x => x.type == 9)) (.plain St.badDescriptor 5),
         must ((List.range nmem).all (fun m => l.any (fun x => x.type == 12 && x.forMember m))) (.plain St.badDescriptor 5)] ++
        (l.filter (fun x => x.type == 1)).map (fun x =>
          must ((List.range nmem).all (fun m => (List.range 256).all (fun t =>
            !x.forTile m t || l.any (fun y => y.type == 3 && y.forTile m t)))) (bad x))
      else []))

/-- Check 6; the node must stand in the map. -/
def State.check6 (s : State) (d : Draft) : Option DraftErr :=
  let ms := mapOfBytes (s.mapBytes d) d.nmembers
  must (s.img d 28 2 == d.nmembers && decide (1 ≤ d.nmembers) && decide (d.nmembers ≤ 16384) && decide ms.Nodup && ms.contains s.nodeId) (.plain St.badDescriptor 6)

/-! ### Check 7 -/

/-- Groups of a GROUP section, as offsets of their heads; `n` bounds their number. -/
def groupHeads (g : Nat → Nat → Nat) (size : Nat) : Nat → Nat → List Nat
  | 0, _ => []
  | n + 1, o => if o + 16 ≤ size then o :: groupHeads g size n (o + 16 + alignUp (2 * g (o + 8) 2) 16) else []

def State.secNat (s : State) (d : Draft) (x : Sect) (o n : Nat) : Nat := s.img d (x.off + o) n

def State.groupsOf (s : State) (d : Draft) (x : Sect) : List Nat := groupHeads (s.secNat d x) x.size x.size 0

def State.ttOf (s : State) (d : Draft) (x : Sect) : List TtEntry :=
  (List.range (s.secNat d x 4 2)).map (fun i =>
    let g := fun o n => s.secNat d x (16 + 16 * i + o) n
    { offset := g 0 6, index := g 6 1, kind := g 7 1, every := g 8 2, phase := g 10 2 })

/-- The first fault of a timetable (Table 12-3, R58, R515), with the offset of the entry it lies in. -/
def State.ttErr (s : State) (d : Draft) (x : Sect) : Option DraftErr :=
  let us := s.secNat d x 0 4
  let n := s.secNat d x 4 2
  let l := s.ttOf d x
  let bad := fun o => DraftErr.inSect x St.badDescriptor 7 0 o
  firstErr ([must (decide (100 ≤ us) && decide (us ≤ 60000000) && decide (1 ≤ n) && decide (n ≤ 126) && decide (16 + 16 * n ≤ x.size) &&
      (s.bytes (d.base + x.off + 6) 10).all (· == 0)) (bad 0)] ++
    (List.range n).map (fun i => match l[i]? with
      | none => none
      | some e => must (s.secNat d x (16 + 16 * i + 12) 4 == 0 && (l.take i).all (fun f => f.index != e.index) &&
          decide (e.offset < us * 1000) && decide (1 ≤ e.index) && decide (e.index ≤ 126) && decide (1 ≤ e.kind) && decide (e.kind ≤ 6) &&
          (if e.kind = 4 then decide (1 ≤ e.every) && decide (e.phase < e.every) else e.every == 1 && e.phase == 0)) (bad (16 + 16 * i))) ++
    [must ((l.filter (fun e => e.kind == 6)).length == 1 && decide ((l.filter (fun e => e.kind == 4)).length ≤ 1)) (bad 0)])

/-- SNAPSHOT_MAP records of the image: section, first byte, pages, replica set. -/
def State.snapRecs (s : State) (d : Draft) : List (Sect × Nat × Nat × Nat) :=
  ((live (s.sects d)).filter (fun x => x.type == 11)).flatMap (fun x => (List.range (x.size / 16)).map (fun i =>
    (x, s.secNat d x (16 * i) 8, s.secNat d x (16 * i + 8) 4, s.secNat d x (16 * i + 12) 2)))

/-- Do the records of each replica set agree in PAGES (R570)? -/
def State.setsAgree (s : State) (d : Draft) : Bool :=
  (s.snapRecs d).all (fun q => q.2.2.2 == 0xFFFF || (s.snapRecs d).all (fun r => r.2.2.2 != q.2.2.2 || r.2.2.1 == q.2.2.1))

/-- Check 7, and R570, which names the same REASON and looks at every member's records. -/
def State.check7 (s : State) (d : Draft) : Option DraftErr :=
  let l := live (s.sects d)
  let keys := (l.filter (fun x => x.type == 12)).map (fun x => s.secNat d x 0 8)
  let gids := (l.filter (fun x => x.type == 6)).flatMap (fun x => (s.groupsOf d x).map (fun o => s.secNat d x o 4))
  firstErr [
    must (keys.all (fun k => k == keys.headD 0)) (.plain St.badDescriptor 7),
    must (decide gids.Nodup) (.plain St.badDescriptor 7),
    must (s.setsAgree d) (.plain St.badDescriptor 7),
    firstErr ((l.filter (fun x => x.type == 9)).map (s.ttErr d))]

/-! ### Check 8: the node's own sections -/

/-- Is the padding from byte o up to the next multiple of k zero and inside the section? Bytes not named are reserved (R539). -/
def State.padOk (s : State) (d : Draft) (x : Sect) (o k : Nat) : Bool :=
  decide (alignUp o k ≤ x.size) && (s.bytes (d.base + x.off + o) (alignUp o k - o)).all (· == 0)

/-- The partitions of an SRAM_MAP section. -/
def State.partsOf (s : State) (d : Draft) (x : Sect) : List Part :=
  (List.range (x.size / 16)).map (fun i =>
    ⟨s.secNat d x (16 * i) 4, s.secNat d x (16 * i + 4) 4, BitVec.ofNat 8 (s.secNat d x (16 * i + 8) 1)⟩)

/-- The section of a tile-level type that applies to a tile of the member. -/
def State.tileSect (s : State) (d : Draft) (type t : Nat) : Option Sect :=
  (live (s.sects d)).find? (fun x => x.type == type && x.forTile d.member t)

/-- Partitions that the draft gives a tile. -/
def State.draftParts (s : State) (d : Draft) (t : Nat) : List Part :=
  match s.tileSect d 3 t with
  | some x => s.partsOf d x
  | none => []

/-- Do all bytes of a region lie in partitions of a tile that name an engine bit, or any partition (8)? -/
def partsHold (ps : List Part) (eng a n : Nat) : Bool :=
  n == 0 || (decide (a + n ≤ 0x800000) && (List.range ((a + n - 1) / 8192 - a / 8192 + 1)).all (fun i =>
    ps.any (fun p => (eng == 8 || p.engines.getLsbD eng) && decide (p.off ≤ (a / 8192 + i) * 8192) &&
      decide ((a / 8192 + i) * 8192 < p.off + p.size))))

/-- Offsets of the preloads of a TILE_PROGRAM. -/
def preHeads (g : Nat → Nat → Nat) (size : Nat) : Nat → Nat → List Nat
  | 0, _ => []
  | n + 1, o => if o + 16 ≤ size ∨ o + 8 ≤ size then o :: preHeads g size n (o + alignUp (8 + g (o + 4) 4) 16) else [size]

def State.preloads (s : State) (d : Draft) (x : Sect) : List Nat :=
  preHeads (s.secNat d x) x.size (s.secNat d x 8 4) (64 + alignUp (s.secNat d x 0 4) 64 + alignUp (s.secNat d x 4 4) 64)

/-- A TILE_PROGRAM on a tile. -/
def State.progErr (s : State) (d : Draft) (x : Sect) (t : Nat) : Option DraftErr :=
  let g := s.secNat d x
  let ps := s.draftParts d t
  let bad := fun o => DraftErr.inSect x St.badDescriptor 7 t o
  let dm := 64 + alignUp (g 0 4) 64
  firstErr ([must (decide (g 0 4 ≤ 65536) && decide (g 4 4 ≤ 65536) && (s.bytes (d.base + x.off + 12) 52).all (· == 0) &&
      s.padOk d x (64 + g 0 4) 64 && s.padOk d x (dm + g 4 4) 64) (bad 0)] ++
    (s.preloads d x).map (fun o => must (s.padOk d x (o + 8 + g (o + 4) 4) 16 && g o 4 % 64 == 0 && g (o + 4) 4 % 64 == 0 &&
      partsHold ps 8 (g o 4) (g (o + 4) 4)) (bad o)) ++
    [must (if 64 ≤ g 4 4 ∧ g (dm + 3) 1 ≠ 0 then partsHold ps 5 (g (dm + 24) 4) (g (dm + 28) 4) else true) (bad dm)])

/-- A ROUTE section on a tile: distinct numbers, reserved bits, and landings inside the destination's partitions. -/
def State.routeErr (s : State) (d : Draft) (x : Sect) (t : Nat) : Option DraftErr :=
  let n := x.size / 16
  let num := fun i => s.secNat d x (16 * i) 1
  firstErr ((List.range n).map (fun i =>
    let v := s.secNat d x (16 * i + 8) 8
    must (decide (n ≤ 16) && x.size % 16 == 0 && decide (num i < 16) && s.secNat d x (16 * i + 1) 7 == 0 && bitN v 63 &&
      bitsN v 62 48 == 0 && (List.range n).all (fun j => i == j || num i != num j) &&
      partsHold (s.draftParts d (bitsN v 47 40)) 4 (bitsN v 39 17) (64 * bitsN v 16 0)) (.inSect x St.badDescriptor 7 t (16 * i))))

/-- An SRAM_MAP section on a tile. -/
def State.mapErr (s : State) (d : Draft) (x : Sect) (t : Nat) : Option DraftErr :=
  let ps := s.partsOf d x
  firstErr ((List.range ps.length).map (fun i =>
    let p := ps.getD i ⟨0, 0, 0⟩
    must (x.size % 16 == 0 && p.off % 8192 == 0 && p.size % 8192 == 0 && p.size != 0 && decide (p.off + p.size ≤ 0x800000) &&
      decide (p.engines.toNat < 64) && s.secNat d x (16 * i + 9) 7 == 0 &&
      (List.range ps.length).all (fun j => i == j || !overlaps p.off p.size (ps.getD j ⟨0, 0, 0⟩).off (ps.getD j ⟨0, 0, 0⟩).size))
      (.inSect x St.badDescriptor 7 t (16 * i))))

/-- Digest slots (tile, slot, DID) that the member's DIGEST_KEY maps. -/
def State.digestMaps (s : State) (d : Draft) : List (Nat × Nat × Nat) :=
  match (live (s.sects d)).find? (fun x => x.type == 12 && x.forMember d.member) with
  | none => []
  | some x => (List.range (s.secNat d x 20 2)).map (fun i =>
      (s.secNat d x (32 + 4 * i) 1, s.secNat d x (33 + 4 * i) 1, s.secNat d x (34 + 4 * i) 2))

/-- DIGEST_CFG of the tiles as the draft sets it. -/
def State.loadDigestCfg (s : State) (d : Draft) : State :=
  (s.digestMaps d).foldl (fun s e =>
    let off := R.DIGEST_CFG + tileBase (BitVec.ofNat 8 e.1) + 8 * (e.2.1 % 16)
    s.setReg off (BitVec.ofNat 64 (2 ^ 63 + e.2.2))) s

/-- A CHAIN section on a tile: checks 1 to 7 of Table 6-7 against the partitions and slots of the draft. -/
def State.chainErr (s : State) (d : Draft) (x : Sect) (t : Nat) : Option DraftErr :=
  let g := s.secNat d x
  let n := g 4 4
  let tid : TileId := BitVec.ofNat 8 t
  let s' := ((s.loadDigestCfg d).modTile tid (fun y => { y with parts := s.draftParts d t }))
  firstErr ([must (g 0 4 % 64 == 0 && (s.bytes (d.base + x.off + 8) 8).all (· == 0) && decide (16 + 64 * n ≤ x.size) &&
      decide (g 0 4 + 64 * n ≤ 0x800000)) (.inSect x St.badDescriptor 7 t 0)] ++
    (if 16 + 64 * n ≤ x.size then
      (List.range n).map (fun i =>
        match s'.chainCheck tid (ChainDesc.of (s.bytes (d.base + x.off + 16 + 64 * i) 64)) with
        | none => none
        | some st => if st = St.ok then none else some ⟨St.badDescriptor, 7, x.idx, t, 16 + 64 * i, st.toNat % 256⟩)
     else []))

/-- Offsets of the programs of a PATTERN section. -/
def State.patHeads (s : State) (d : Draft) (x : Sect) : Nat → Nat → List Nat
  | 0, _ => []
  | n + 1, o => if o + 8 ≤ x.size then o :: State.patHeads s d x n (o + alignUp (8 + s.secNat d x (o + 4) 4) 16) else []

/-- A PATTERN section on a tile: the heads of its programs. -/
def State.patErr (s : State) (d : Draft) (x : Sect) (t : Nat) : Option DraftErr :=
  firstErr (must (x.size % 16 == 0) (.inSect x St.badDescriptor 7 t 0) :: (s.patHeads d x x.size 0).map (fun o =>
    let n := s.secNat d x (o + 4) 4
    must (s.secNat d x o 4 % 64 == 0 && s.padOk d x (o + 8 + n) 16 && decide (s.secNat d x o 4 + n ≤ 0x800000))
      (.inSect x St.badDescriptor 7 t o)))

/-- A window set's name: ASCII, padded with zeros. -/
def nameOk (l : List Byte) : Bool := l.all (fun b => decide (b.toNat < 128)) && (l.dropWhile (· != 0)).all (· == 0)

/-- Member-level and partition-level fields (check 8); a ring that holds no slot fails too (R528). -/
def State.memberErr (s : State) (d : Draft) (x : Sect) : Option DraftErr :=
  let g := s.secNat d x
  let bad := fun o => DraftErr.inSect x St.badDescriptor 7 0 o
  match x.type with
  | 6 => firstErr (must (x.size % 16 == 0) (bad 0) :: (s.groupsOf d x).map (fun o =>
      let n := g (o + 8) 2
      must (decide (g (o + 5) 1 < 2) && decide (1 ≤ n) && decide (n ≤ 16384) && s.padOk d x (o + 16 + 2 * n) 16 &&
        decide (g (o + 6) 2 < 32768) && (s.bytes (d.base + x.off + o + 10) 6).all (· == 0) &&
        (List.range n).all (fun i => decide (g (o + 16 + 2 * i) 2 < d.nmembers)) &&
        decide ((List.range n).map (fun i => g (o + 16 + 2 * i) 2)).Nodup) (bad o)))
  | 7 => firstErr ((List.range (x.size / 32)).map (fun i =>
      must (x.size % 32 == 0 && decide (g (32 * i + 24) 1 < 8) && g (32 * i + 25) 7 == 0 &&
        nameOk (s.bytes (d.base + x.off + 32 * i) 24)) (bad (32 * i))))
  | 8 => firstErr ((List.range (x.size / 16)).map (fun i =>
      must (x.size % 16 == 0 && decide (g (16 * i) 4 < 2 ^ 20) && g (16 * i + 10) 6 == 0) (bad (16 * i))))
  | 11 => firstErr ((List.range (x.size / 16)).map (fun i =>
      must (x.size % 16 == 0 && g (16 * i) 8 % 65536 == 0 && decide (1 ≤ g (16 * i + 8) 4) && g (16 * i + 14) 2 == 0) (bad (16 * i))))
  | 12 =>
    let n := g 20 2
    let nent := ((List.range n).map (fun i => g (34 + 4 * i) 2)).eraseDups.length
    firstErr ([must (decide (g 0 8 < 2 ^ 61) && g 8 8 % 65536 == 0 && decide (lpBase ≤ g 8 8) && decide (g 8 8 < 0x030000000000) &&
        decide (1 ≤ g 16 4) && (s.bytes (d.base + x.off + 22) 10).all (· == 0) && decide (32 + 4 * n ≤ x.size)) (bad 0)] ++
      (List.range n).map (fun i => must (decide (g (33 + 4 * i) 1 < 16)) (bad (32 + 4 * i))) ++
      [must (decide (alignUp (32 + 16 * nent) 64 ≤ g 16 4 * 65536)) (bad 16)])
  | _ => none

/-- A BOBBIN record on a tile. -/
def State.bobbinErr (s : State) (d : Draft) (x : Sect) (t : Nat) : Option DraftErr :=
  let g := s.secNat d x
  must (x.size == 32 && g 0 8 % 65536 == 0 && g 12 8 % 65536 == 0 && decide (g 8 4 ≤ 16384) && decide (g 20 4 < 65536) &&
    (g 24 1 == 1 || g 24 1 == 2 || g 24 1 == 4) && g 25 7 == 0) (.inSect x St.badDescriptor 7 t 0)

/-- The member's own sections, in directory order. -/
def State.ownSects (s : State) (d : Draft) : List Sect := (live (s.sects d)).filter (fun x => x.forMember d.member)

def tilesOf (x : Sect) : List Nat := (List.range 256).filter (fun t => decide (x.tlo ≤ t) && decide (t ≤ x.thi))

def State.check8 (s : State) (d : Draft) : Option DraftErr :=
  firstErr ((s.ownSects d).map (fun x =>
    if x.tileLevel then
      firstErr ((tilesOf x).map (fun t =>
        match x.type with
        | 1 => s.progErr d x t
        | 2 => s.routeErr d x t
        | 3 => s.mapErr d x t
        | 4 => s.chainErr d x t
        | 5 => s.patErr d x t
        | 10 => s.bobbinErr d x t
        | _ => none))
    else s.memberErr d x))

/-! ### Checks 9 to 13 -/

def State.check9 (s : State) (d : Draft) : Option DraftErr :=
  firstErr (((s.ownSects d).filter (fun x => x.type == 5)).map (fun x =>
    firstErr ((tilesOf x).map (fun t =>
      let y := { s.tile (BitVec.ofNat 8 t) with parts := s.draftParts d t }
      firstErr ((s.patHeads d x x.size 0).map (fun o =>
        let n := s.secNat d x (o + 4) 4
        must (patternOk y (s.bytes (d.base + x.off + o + 8) n)) (.inSect x St.badPattern 7 t o)))))))

/-- Regions that the draft takes on the node: section, tile, offset of the record, first byte, size. -/
def State.regions (s : State) (d : Draft) : List (Sect × Nat × Nat × Nat × Nat) :=
  (s.ownSects d).flatMap (fun x =>
    let g := s.secNat d x
    match x.type with
    | 10 => (tilesOf x).flatMap (fun t => [(x, t, 0, g 0 8, g 8 4 * 65536), (x, t, 12, g 12 8, g 20 4 * 65536)])
    | 11 => (List.range (x.size / 16)).map (fun i => (x, 0, 16 * i, g (16 * i) 8, g (16 * i + 8) 4 * 65536))
    | 12 => [(x, 0, 8, g 8 8, g 16 4 * 65536)]
    | _ => [])

/-- The firmware region (R653). -/
def fwRegion : Nat × Nat := (lpBase, 0x4000000)

/-! ### Shard and resilience area (R569 to R572) -/

/-- Rank 0 of a replica set: the lowest member that holds it (R570). -/
def State.rank0 (s : State) (d : Draft) (set : Nat) : Nat :=
  ((s.snapRecs d).filter (fun r => r.2.2.2 == set)).foldl (fun m r => min m r.1.mlo) d.nmembers

/-- Is a SNAPSHOT_MAP record in the shard of member m? -/
def State.snapOwn (s : State) (d : Draft) (m : Nat) (r : Sect × Nat × Nat × Nat) : Bool :=
  r.1.forMember m && (r.2.2.2 == 0xFFFF || s.rank0 d r.2.2.2 == m)

/-- Regions of member m's shard after the image, in shard order (R569): first byte, pages, bobbin. -/
def State.shardRegions (s : State) (d : Draft) (m : Nat) : List (Nat × Nat × Bool) :=
  ((s.snapRecs d).filter (s.snapOwn d m)).map (fun r => (r.2.1, r.2.2.1, false)) ++
  ((List.range 256).flatMap (fun t =>
    match (live (s.sects d)).find? (fun x => x.type == 10 && x.forTile m t) with
    | none => []
    | some x => [(s.secNat d x 0 8, s.secNat d x 8 4, true), (s.secNat d x 12 8, s.secNat d x 20 4, true)])).filter (fun r => r.2.1 != 0)

/-- Stripes of member m's shard (R573). -/
def State.shardStripes (s : State) (d : Draft) (m : Nat) : Nat :=
  ceilDiv (imagePages + ((s.shardRegions d m).map (fun r => r.2.1)).sum) 13

/-- The stripes of every member of the logical span. -/
def State.spanStripes (s : State) (d : Draft) : List Nat := (spanOf d.member d.nmembers).map (s.shardStripes d)

/-- The area of this member for a draft: first byte and size; it ends directly below the staging region. -/
def State.areaFor (s : State) (d : Draft) : Nat × Nat :=
  let n := (areaMap d.member (s.spanStripes d) (s.fld F.CKPT_LOG_CFG_SIZE) (s.bit F.CKPT_CFG_TWIN)).size
  (d.base - n, n)

def State.check10 (s : State) (d : Draft) : Option DraftErr :=
  let l := (s.regions d).filter (fun r => r.2.2.2.2 != 0)
  let inLp := fun (a n : Nat) => decide (lpBase ≤ a) && decide (a + n ≤ 0x030000000000)
  let inHbm := fun (a n : Nat) => decide (a + n ≤ 0x006C00000000)
  firstErr ((List.range l.length).map (fun i =>
    match l[i]? with
    | none => none
    | some r =>
      let a := r.2.2.2.1
      let n := r.2.2.2.2
      let right := match r.1.type with
        | 10 => if r.2.2.1 = 0 then inHbm a n else inLp a n
        | 12 => inLp a n
        | _ => inHbm a n || inLp a n
      must (right && !overlaps a n fwRegion.1 fwRegion.2 && decide (a + n ≤ d.base ∨ 0x030000000000 ≤ a) &&
        !overlaps a n (s.areaFor d).1 (s.areaFor d).2 &&
        (List.range l.length).all (fun j => i == j || (match l[j]? with
          | some q => !overlaps a n q.2.2.2.1 q.2.2.2.2
          | none => true))) (.inSect r.1 St.badDescriptor 8 r.2.1 r.2.2.1)))

/-- The groups that hold the member: head offset, GROUP_ID, CTX, FORCE_RING, THRESH and members as node numbers. -/
def State.ownGroups (s : State) (d : Draft) (map : List NodeId) : List (Nat × Word × CtxId × Bool × Nat × List NodeId) :=
  ((live (s.sects d)).filter (fun x => x.type == 6)).flatMap (fun x =>
    (s.groupsOf d x).filterMap (fun o =>
      let g := s.secNat d x
      let idx := (List.range (g (o + 8) 2)).map (fun i => g (o + 16 + 2 * i) 2)
      if idx.contains d.member then
        some (o, BitVec.ofNat 32 (g o 4), BitVec.ofNat 8 (g (o + 4) 1), bitN (g (o + 5) 1) 0, g (o + 6) 2, idx.map (fun m => map.getD m 0))
      else none))

/-- Creates the node's contexts of the GROUP section; none when one cannot be created (check 11, R459). -/
def State.createGroups (s : State) (d : Draft) (aborted : Bool) : Option State :=
  (s.ownGroups d d.map).foldl (fun a g =>
    match a with
    | none => none
    | some s => s.createCtx g.2.2.1 g.2.1 g.2.2.2.2.2 g.2.2.2.1 false aborted g.2.2.2.2.1) (some s)

def State.check11 (s : State) (d : Draft) : Option DraftErr :=
  must (s.createGroups d false).isSome (.plain St.colNoContext 7)

/-- Rights (READ, WRITE, ATOMIC) that an entry of a window set grants. -/
def winRights (e : BitVec 64 × BitVec 64 × BitVec 64) : Nat :=
  natOf (e.1.getLsbD 62) + 2 * natOf (e.1.getLsbD 61) + 4 * natOf (e.1.getLsbD 60)

/-- The installed set of a window request, none when R541 refuses it. -/
def State.windowSet (s : State) (d : Draft) (x : Sect) (i : Nat) : Option WindowSet :=
  let name := (s.bytes (d.base + x.off + 32 * i) 24)
  let rights := s.secNat d x (32 * i + 24) 1
  match s.fw.windowSets.find? (fun w => decide (w.name ++ zeros (24 - w.name.length) = name) && (w.jobTag == 0 || w.jobTag == d.jobTag)) with
  | none => none
  | some w => if w.entries.all (fun e => Nat.land rights (winRights e) == rights) then some w else none

/-- Entries of every requested window set, in request order; none when the requests fail R541. -/
def State.windowEntries (s : State) (d : Draft) : Option (List (BitVec 64 × BitVec 64 × BitVec 64)) :=
  let reqs := ((live (s.sects d)).filter (fun x => x.type == 7)).flatMap (fun x => (List.range (x.size / 32)).map (fun i => s.windowSet d x i))
  if reqs.any Option.isNone then none
  else
    let l := reqs.flatMap (fun w => match w with | some w => w.entries | none => [])
    if l.length ≤ 64 then some l else none

/-- Window entries not in use. -/
def State.freeWindows (s : State) : List Nat := (List.range 64).filter (fun n => s.fld (winFld F.FAB_WIN_CTL_VALID n) == 0)

def State.check12 (s : State) (d : Draft) : Option DraftErr :=
  must (match s.windowEntries d with | some l => decide (l.length ≤ s.freeWindows.length) | none => false) (.plain St.accessBlocked 9)

def State.check13 (s : State) : Option DraftErr :=
  firstErr [must (s.bit F.TIME_STAT_LOCKED) (.plain St.timeNotLocked 10),
    must ((List.range 48).all (fun i => s.ready (16 + i)) && s.livePorts.all (fun p => s.ready (64 + p.val))) (.plain St.aborted 10)]

/-- The checks of Table 13-5 in order. -/
def State.draftErr (s : State) (d : Draft) : Option DraftErr :=
  match s.check1 d with
  | some e => some e
  | none => match s.check2 d with
  | some e => some e
  | none => match s.check3 d with
  | some e => some e
  | none => match s.check4 d with
  | some e => some e
  | none => match s.check5 d with
  | some e => some e
  | none => match s.check6 d with
  | some e => some e
  | none =>
    let ms := mapOfBytes (s.mapBytes d) d.nmembers
    let d := { d with map := ms, member := ms.idxOf s.nodeId }
    match s.check7 d with
  | some e => some e
  | none => match s.check8 d with
  | some e => some e
  | none => match s.check9 d with
  | some e => some e
  | none => match s.check10 d with
  | some e => some e
  | none => match s.check11 d with
  | some e => some e
  | none => match s.check12 d with
  | some e => some e
  | none => s.check13

/-! ### Tree (R550) -/

/-- Home span of a logical span: the span that holds most of its members, the first in the map among equals. -/
def homeSpan (ms : List NodeId) (g : Nat) : Nat :=
  let l := (ms.drop (16 * g)).take 16
  (l.foldl (fun (b : Nat × Nat) n =>
    let k := (l.filter (fun m => spanKey m == spanKey n)).length
    if b.1 < k then (k, spanKey n) else b) (0, 0)).2

/-- Does member m stand in from outside the span of its logical position? -/
def outsider (ms : List NodeId) (m : Nat) : Bool := spanKey (ms.getD m 0) != homeSpan ms (m / 16)

/-- Partition members of a span that stand in their own place and are not lost. -/
def spanMembers (ms lost : List NodeId) (sp : Nat) : List NodeId :=
  ((List.range ms.length).filter (fun m => spanKey (ms.getD m 0) == sp && !outsider ms m && !lost.contains (ms.getD m 0))).map
    (fun m => ms.getD m 0)

/-- Leader of a span: its member of lowest slot. -/
def spanLeader (ms lost : List NodeId) (sp : Nat) : Option NodeId :=
  (spanMembers ms lost sp).foldl (fun b n => match b with
    | none => some n
    | some k => if n < k then some n else some k) none

/-- Leaders of a chain in ascending span number. -/
def chainLeaders (ms lost : List NodeId) (c : Nat) : List NodeId :=
  (List.range 16).filterMap (fun k => spanLeader ms lost (c * 16 + k))

/-- Leaders rotated so that the root's span, or the lowest span, has index 0. -/
def rotated (l : List NodeId) (root : NodeId) : List NodeId :=
  match l.findIdx? (fun n => spanKey n == spanKey root) with
  | some i => l.drop i ++ l.take i
  | none => l

/-- Children of leader j of a chain's leaders. -/
def leaderKids (l : List NodeId) (j : Nat) : List NodeId := (l.drop (2 * j + 1)).take 2

/-- The rotation of a chain's leaders that makes `src` the parent of `me`: the first that does, else none turned. -/
def rotationFor (l : List NodeId) (me src : NodeId) : List NodeId :=
  match (List.range l.length).find? (fun r =>
    let k := l.drop r ++ l.take r
    (List.range k.length).any (fun j => k[j]? == some src && (leaderKids k j).contains me)) with
  | some r => l.drop r ++ l.take r
  | none => l

/-- Children inside the span: a leader's members, and the outsiders whose logical position lies there. -/
def spanKids (ms lost : List NodeId) (me : NodeId) : List NodeId :=
  if spanLeader ms lost (spanKey me) = some me then
    (spanMembers ms lost (spanKey me)).filter (· != me) ++
    ((List.range ms.length).filter (fun m => outsider ms m && homeSpan ms (m / 16) == spanKey me && !lost.contains (ms.getD m 0))).map
      (fun m => ms.getD m 0)
  else []

/-- The children of this node. -/
def State.treeKids (s : State) (d : Draft) : List NodeId :=
  let me := s.nodeId
  let lost := s.resil.lost
  let up := if d.root then
      d.chains.flatMap (fun c =>
        let l := rotated (chainLeaders d.map lost c) me
        if chainKey me = c then leaderKids l 0 else l.take 1)
    else if spanLeader d.map lost (spanKey me) = some me then
      match d.source with
      | some src =>
        let l := rotationFor (chainLeaders d.map lost (chainKey me)) me src
        leaderKids l (l.idxOf me)
      | none => []
    else []
  (up ++ spanKids d.map lost me).filter (· != me)

/-- Nodes from which this node takes downward messages: the source of its intake, its span's leader, or for a leader the
other leaders of its chain. -/
def State.treeParents (s : State) (d : Draft) : List NodeId :=
  let me := s.nodeId
  let m := d.map.idxOf me
  d.source.toList ++ (spanLeader d.map s.resil.lost (if outsider d.map m then homeSpan d.map (m / 16) else spanKey me)).toList ++
    (if spanLeader d.map s.resil.lost (spanKey me) = some me then chainLeaders d.map s.resil.lost (chainKey me) else [])

/-! ### Loading (R559) -/

/-- Writes one window entry. Both fabric dies hold the same (R431). -/
def State.putWindow (s : State) (n : Nat) (e : BitVec 64 × BitVec 64 × BitVec 64) : State :=
  [0, 0x400000].foldl (fun (s : State) b =>
    ((s.setReg (R.FAB_WIN_CTL + 32 * n + b) (e.1 &&& 0xF3FFFFFFFFC00000)).setReg (R.FAB_WIN_BASE + 32 * n + b)
      (e.2.1 &&& 0x0000FFFFFFFF0000)).setReg (R.FAB_WIN_LIMIT + 32 * n + b) (e.2.2 &&& 0x0000FFFFFFFF0000)) s

/-- FAB_VC_WEIGHT of every port at its default (R430). -/
def State.defaultWeights (s : State) : State :=
  (List.finRange 20).foldl (fun s (p : PortId) =>
    let o := (pfld p F.FAB_VC_WEIGHT_VC1).off
    s.setReg o (resetVal o)) s

/-- VC weights of the draft, none below the host policy's minimum (R559). -/
def State.loadWeights (s : State) (d : Draft) : State :=
  ((s.ownSects d).filter (fun x => x.type == 8)).foldl (fun s x =>
    (List.range (x.size / 16)).foldl (fun s i =>
      (List.finRange 20).foldl (fun s (p : PortId) =>
        if bitN (s.secNat d x (16 * i) 4) p.val then
          (List.range 6).foldl (fun (s : State) v =>
            let w := max (s.secNat d x (16 * i + 4 + v) 1) ((s.fw.vcMin.getD v 0).toNat)
            s.setFld ⟨(pfld p F.FAB_VC_WEIGHT_VC1).off, 8 * v + 7, 8 * v⟩ w) s
        else s) s) s) s

/-- CPU_COHDOM: the members of the node's span that stand in their own place; a node that stands in from outside has none
(R314). -/
def State.loadDomain (s : State) (d : Draft) : State :=
  let me := s.nodeId
  let ns := if outsider d.map d.member then [] else spanMembers d.map s.resil.lost (spanKey me)
  (s.setFld F.CPU_COHDOM_SPAN0 (me.toNat / 16 * 16)).setFld F.CPU_COHDOM_MEMBERS
    (ns.foldl (fun a n => Nat.lor a (2 ^ (n.toNat % 16))) 0)

/-- Writes a tile's SRAM while loading: whole words, poison cleared. -/
def State.loadSram (s : State) (t a : Nat) (b : List Byte) : State := s.sramWrite (BitVec.ofNat 8 t) a b

/-- One tile-level section into its tiles (R559 step 2). -/
def State.loadTile (s : State) (d : Draft) (x : Sect) (t : Nat) : State :=
  let g := s.secNat d x
  let raw := fun o n => s.bytes (d.base + x.off + o) n
  let tid : TileId := BitVec.ofNat 8 t
  match x.type with
  | 1 =>
    let im := raw 64 (g 0 4)
    let dm := raw (64 + alignUp (g 0 4) 64) (g 4 4)
    let s := s.modTile tid (fun y => { y with smem := Memory.writeN (Memory.writeN [] 0 im) 0x10000 dm, program := true })
    (s.preloads d x).foldl (fun s o => s.loadSram t (s.secNat d x o 4) (s.bytes (d.base + x.off + o + 8) (s.secNat d x (o + 4) 4))) s
  | 2 => (List.range (x.size / 16)).foldl (fun s i =>
      s.setReg (R.SEQ_ROUTE + tileBase tid + 8 * (s.secNat d x (16 * i) 1 % 16)) (BitVec.ofNat 64 (s.secNat d x (16 * i + 8) 8))) s
  | 3 => s.modTile tid (fun y => { y with parts := s.partsOf d x })
  | 4 => s.loadSram t (g 0 4) (raw 16 (64 * g 4 4))
  | 5 => (s.patHeads d x x.size 0).foldl (fun s o =>
      s.loadSram t (s.secNat d x o 4) (s.bytes (d.base + x.off + o + 8) (s.secNat d x (o + 4) 4))) s
  | 10 =>
    let ns := match g 24 1 with | 1 => 0 | 2 => 1 | _ => 2
    (((((s.setFld (tfld tid F.BOBBIN_HBM_BASE) (g 0 8 / 65536)).setFld (tfld tid F.BOBBIN_HBM_SIZE) (g 8 4)).setFld
      (tfld tid F.BOBBIN_HBM_NSTACKS) ns).setFld (tfld tid F.BOBBIN_LP_BASE) (g 12 8 / 65536)).setFld
      (tfld tid F.BOBBIN_LP_SIZE) (g 20 4))
  | _ => s

/-- A schedule header that breaks R193 stops the runtime at load. -/
def State.headerEvent (s : State) (t : TileId) : State :=
  let h := (s.tile t).schedHdr
  if (s.tile t).program && h.mbcount != 0 && !h.ok (2 ^ min 2 (s.fld (tfld t F.BOBBIN_HBM_NSTACKS))) then
    s.raise (tileSrc t) St.badDescriptor []
  else s

/-- Steps 2 to 4 of R559. -/
def State.loadTiles (s : State) (d : Draft) : State :=
  let secs := (s.ownSects d).filter Sect.tileLevel
  let s := secs.foldl (fun s x => (tilesOf x).foldl (fun s t => s.loadTile d x t) s) s
  let s := s.loadDigestCfg d
  let s := ((secs.filter (fun x => x.type == 1)).flatMap tilesOf).foldl (fun s t => s.headerEvent (BitVec.ofNat 8 t)) s
  match (s.ownSects d).find? (fun x => x.type == 9) with
  | none => s
  | some x => { s.setFld F.TIME_PICK_CFG_PERIOD_US (s.secNat d x 0 4) with clock := { s.clock with timetable := s.ttOf d x } }

/-- What the draft tells the node beside its registers: map, member, digest ring and DIDs, snapshot map (step 3). -/
def State.fillDraft (s : State) (d : Draft) : Draft :=
  let ms := mapOfBytes (s.mapBytes d) d.nmembers
  let d := { d with map := ms, member := ms.idxOf s.nodeId }
  let dids := (((s.digestMaps d).map (fun e => e.2.2)).eraseDups).mergeSort (fun a b => decide (a ≤ b))
  let key := (s.ownSects d).find? (fun x => x.type == 12)
  let ring := match key with | some x => (s.secNat d x 8 8, s.secNat d x 16 4) | none => (0, 1)
  let k := match key with | some x => s.secNat d x 0 8 | none => 0
  let snap := ((s.ownSects d).filter (fun x => x.type == 11)).flatMap (fun x => (List.range (x.size / 16)).map (fun i =>
    (s.secNat d x (16 * i) 8, s.secNat d x (16 * i + 8) 4, s.secNat d x (16 * i + 12) 2)))
  { d with dids := dids, nent := dids.length, ring := ring, key := k, snapshotMap := snap }

/-- Job state (GLB_JOB.STATE). -/
def State.jobState (s : State) : Nat := s.fld F.GLB_JOB_STATE
def State.setJob (s : State) (n : Nat) : State := s.setFld F.GLB_JOB_STATE n

/-- The coordinator: the lowest logical member that is not lost. -/
def State.coordinator (s : State) : Option NodeId :=
  match s.draft with
  | none => none
  | some d => d.map.find? (fun n => !s.resil.lost.contains n)

/-- CKPT_STAT.COORD. -/
def State.showCoord (s : State) : State := s.setFld F.CKPT_STAT_COORD (natOf (s.coordinator == some s.nodeId))

/-- Every page of the regions of a shard, by node-local page number. -/
def regionPages (l : List (Nat × Nat × Bool)) : List Nat := l.flatMap (fun r => (List.range r.2.1).map (fun k => r.1 / 65536 + k))

/-- RCC at load (R572, R576): the resilience area, an empty log, twin mode, every dirty bit of the shard. -/
def State.loadResil (s : State) (d : Draft) : State :=
  let a := s.areaFor d
  let rg := s.shardRegions d d.member
  let s := ((s.setFld F.CKPT_AREA_BASE (a.1 / 65536)).setFld F.CKPT_AREA_SIZE (ceilDiv a.2 (2 ^ 30))).setFld F.CKPT_STAT_TWIN
    (s.fld F.CKPT_CFG_TWIN)
  let s := ((s.setFld F.CKPT_GEN_COMMITTED 0).setFld F.CKPT_GEN_WRITING 0).setReg R.CKPT_LOG 0
  { s with resil := { Resil.reset with
      area := a, regions := rg, logGib := s.fld F.CKPT_LOG_CFG_SIZE, stripes := s.spanStripes d, fence := s.resil.fence, lost := s.resil.lost, heard := s.resil.heard,
      spareHold := s.resil.spareHold, replicas := s.resil.replicas, logRings := s.resil.logRings, log := s.resil.log,
      dirtySkein := regionPages rg, dirtyFlash := regionPages rg, dirtyTwin := regionPages rg, runSince := s.clock.ns.toNat,
      inputSince := s.clock.ns.toNat } }.showCoord

/-- Loads a draft that has passed the checks (R559). -/
def State.loadDraft (s : State) (d : Draft) : State :=
  let d := s.fillDraft d
  let ents := (s.windowEntries d).getD []
  let free := s.freeWindows.take ents.length
  let s := (List.zip free ents).foldl (fun (s : State) e => s.putWindow e.1 e.2) s
  let s := (s.loadWeights d).loadDomain d
  let s := (s.createGroups d false).getD s
  let d := { d with windows := free, loaded := true, outcome := some (St.ok, 0, []) }
  let s := (s.loadTiles d).setFld F.GLB_JOB_MEMBER d.member
  (({ s with draft := some d, clock := { s.clock with records := 0 } }).loadResil d).setJob 2

/-- Reload after a CMP reset (R566, R685): the contexts of the GROUP section, then steps 2 to 4. -/
def State.reloadDraft (s : State) : State :=
  match s.draft with
  | none => s
  | some d =>
    if d.loaded then
      let s := (s.createGroups d (s.jobState == 3)).getD s
      s.loadTiles d
    else s

/-- A rejected draft loads nothing (R544). -/
def State.rejectDraft (s : State) (d : Draft) (e : DraftErr) : State :=
  let ms := mapOfBytes (s.mapBytes d) d.nmembers
  let m := ms.idxOf s.nodeId
  let d := { d with map := ms, member := m, outcome := some (e.status, e.reason, []) }
  { s with draft := some d }.raise draftSrc e.status
    (leBytes 2 e.reason ++ leBytes 2 e.dir ++ leBytes 2 m ++ leBytes 1 e.tile ++ leBytes 6 e.off ++ leBytes 1 e.low)

end Sys2Proof.Machine
end

