-- ==== Sys2Proof/Machine/Replies.lean ====
section
/-! DEFINITION. What becomes of a request when its response is in or will never come: the copy that waits for it
(R134 to R137) and the hart that is parked on it (Table 8-7). Responses that bring data are handled in Fabric.lean; here
stand the failures, which resets, lost nodes and time limits share. -/

namespace Sys2Proof.Machine

/-! ### Copies -/

/-- Changes the entry of a copy queue with a ticket. -/
def State.modCopy (s : State) (t : TileId) (k : Nat) (n : Word) (f : CopyEntry → CopyEntry) : State :=
  s.modTile t (fun x => { x with cq := Tab.set k ((x.copyQ k).map (fun e => if e.ticket = n then f e else e)) x.cq })

/-- The entry of a copy queue with a ticket. -/
def Tile.copyEntry (x : Tile) (k : Nat) (n : Word) : Option CopyEntry := (x.copyQ k).find? (fun e => e.ticket == n)

/-- A failure of one part: the first one is the status, parts not yet requested are given up, and the transfer ends when
no response is due. -/
def CopyEntry.failed (e : CopyEntry) (st : Status) : CopyEntry :=
  { e with status := if e.status = St.ok then st else e.status, left := [],
           phase := if e.waits = 0 then .moved else e.phase }

/-- One response fewer is due. -/
def CopyEntry.answered (e : CopyEntry) : CopyEntry := { e with waits := e.waits - 1 }

/-! ### Parked harts -/

/-- Does the instruction report a failed access as a load (cause 24, else 25)? -/
def CoreCmd.isLoad : CoreCmd → Bool
  | .load _ => true
  | .store _ => false
  | .amo _ => false
  | .lrsc sc _ => !sc
  | .fvx op _ => match op with
    | .vst => false
    | .vsts => false
    | .vstx => false
    | .vstseg => false
    | .vstp => false
    | .vcas => false
    | _ => true

/-- A core's own name of a byte: a byte of this node by its node-local address, another's above all of those. -/
def farKey (n : NodeId) (a : Nat) : Nat := 2 ^ 62 + n.toNat * 2 ^ 48 + a

/-- A reply for a parked hart: bytes by key, or a failure of n bytes from a key. -/
def Hart.reply (x : Hart) (tag : BitVec 16) (got : List Host.Cell) (fail : Option (Nat × Nat × Status)) : Hart :=
  match x.park with
  | none => x
  | some k =>
    if k.waits.contains tag then
      { x with park := some { k with waits := k.waits.erase tag, got := got ++ k.got, fails := k.fails ++ fail.toList } }
    else x

/-- The same for every hart that waits for the tag: a line that several harts need is requested once. -/
def State.replyAll (s : State) (tag : BitVec 16) (fail : Option (Nat × Nat × Status)) : State :=
  { s with harts := s.harts.map (fun e => (e.1, e.2.reply tag [] fail)) }

/-! ### Failures -/

/-- A request ends without its response. -/
def State.reqFail (s : State) (r : Req) (st : Status) : State :=
  let key := farKey r.msg.dst r.msg.addr.toNat
  let n := if r.msg.len = 0 then 64 else r.msg.len.toNat
  match r.owner with
  | .hart h => s.modHart h (fun x => x.reply r.msg.tag [] (some (key, n, st)))
  | .copy t k m => s.modCopy t k.val m (fun e => (e.answered).failed st)
  | .coh _ => s.replyAll r.msg.tag (some (key, n, st))
  | .node => s

/-- Every outstanding request that meets a condition ends with a status. -/
def State.failReqs (s : State) (c : Req → Bool) (st : Status) : State :=
  (s.reqs.filter c).foldl (fun s r => s.reqFail r st) { s with reqs := s.reqs.filter (fun r => !c r) }

end Sys2Proof.Machine
end

