-- ==== Sys2Proof/Machine/Resets.lean ====
section
/-! DEFINITION. The reset classes (R15, R16, R678 to R680), what each keeps and loses (Table 16-10), and the restart of a
firmware processor (R619 to R623). Readings of the manual are assumption log 31. -/

namespace Sys2Proof.Machine

/-! ### Codes -/

def St.sessionVersion : Status := 0x0901
def St.serviceRestarting : Status := 0x0906
def St.serviceHeld : Status := 0x0907
def St.bootReverted : Status := 0x090E
def St.watchdogRestart : Status := 0x090F
def St.measurementMismatch : Status := 0x0A09

/-- Event SOURCE of the power block and of the mailbox and firmware block. -/
def pwrSrc : Nat := 0x0500
def mbxSrc : Nat := 0x0600

/-! ### Contents lost -/

/-- SRAM of every tile, its poison marks, tile registers, shuttle memories, queues and banks. -/
def State.loseTiles (s : State) : State :=
  { s with tiles := [], mem := Memory.clear sramWindow (sramWindow + 0x80000000) s.mem,
           poison := s.poison.filter (fun a => decide (a < sramWindow)) }

/-- Every byte, held write and buffer of DRAM in a range of addresses. -/
def State.loseDram (s : State) (lo hi : Nat) : State :=
  { s with mem := Memory.clear lo hi s.mem, poison := s.poison.filter (fun a => !(decide (lo ≤ a) && decide (a < hi))),
           heldWrites := s.heldWrites.filter (fun w => !(decide (lo ≤ w.addr) && decide (w.addr < hi))) }

/-- Core registers and caches; dirty lines are discarded (Table 16-10). -/
def State.loseCores (s : State) : State := { s with harts := [], running := [], dirty := [], coh := [] }

/-- Every write-combining buffer drains (R384). -/
def State.drainEvery (s : State) : State := (List.finRange 44).foldl (fun s c => s.drainAll c) s

/-- Pick registers' hidden part: the timetable, fired events, digest sums, and the count of records. -/
def State.losePicks (s : State) : State :=
  { s with clock := { s.clock with fired := [], timetable := [], everyPending := none, rebaseForced := false,
                                   digests := [], records := 0 } }

/-- Resets the registers of class c in a window of space type 01. -/
def State.resetBlock (s : State) (c : RClass) (lo hi : Nat) : State := { s with regs := resetRegs c lo hi s.regs }

/-- A port leaves service without an event of its own: its readiness bit equals FAB_PORT_STAT.UP (R676). -/
def State.portOff (s : State) (p : PortId) : State :=
  ((s.setFld (pfld p F.FAB_PORT_STAT_UP) 0).setFld (pfld p F.FAB_PORT_STAT_PEER_VALID) 0).putReady (64 + p.val) false

/-- Every port leaves service. -/
def State.portsOff (s : State) : State := (List.finRange 20).foldl State.portOff s

/-! ### CMP reset -/

/-- Collectives at a CMP reset: the running ones complete with ABORTED and abort their groups; every context is destroyed
(R458, Table 11-12). -/
def State.colsAborted (s : State) : State :=
  let ids := s.ctxs.map (fun e => (BitVec.ofNat 8 e.1 : CtxId))
  ids.foldl State.colDrop (ids.foldl (fun s c => s.colAbortRun c St.aborted St.aborted) s)

/-- Requests of harts and copies are abandoned; their responses will find no one (Table 8-7). -/
def State.orphanReqs (s : State) : State := { s with reqs := s.reqs.map (fun r => { r with owner := .node }) }

/-- What a CMP reset does (Table 16-10); its readiness bits return at completion. An intake in progress is lost
(Table 13-10). -/
def State.cmpReset (s : State) : State :=
  let s := s.colsAborted.orphanReqs
  let s := (s.drainEvery.loseCores.loseTiles).losePicks
  let s := (s.resetBlock .cmp 0 0x10000000).defaultWeights
  let s := if s.jobState = 1 then
      { s with draft := s.draft.map (fun d => { d with got := 0, mapGot := 0, arrived := [], source := none, outcome := none }) }
    else s
  (s.putReady 12 false).putReadyRange 16 false 4

/-! ### FAB reset -/

/-- What a FAB reset does (Tables 10-14 and 11-12): requests in flight fail with LINK_RESET, contexts are lost, links
retrain. -/
def State.fabReset (s : State) : State :=
  let s := s.failReqs (fun _ => true) St.linkReset
  let s := (s.ctxs.map (fun e => (BitVec.ofNat 8 e.1 : CtxId))).foldl State.colDrop s
  let s := (s.resetBlock .fab 0 0x10000000).portsOff
  let s := (List.finRange 20).foldl (fun s p => s.setFld (pfld p F.FAB_PORT_STAT_TRAINING) 1) s
  { s with ports := [], cong := [], overflow := [] }.putReady 13 false

/-! ### FWP reset -/

/-- The processor that serves a Dripol TYPE; none for the mailbox (Table 15-7). -/
def serverOf (type : Nat) : Option Nat :=
  if type = 0x05 ∨ type = 0x10 ∨ type = 0x11 ∨ (0x13 ≤ type ∧ type ≤ 0x16) then none
  else if type = 0x25 ∨ type = 0x71 then some 1
  else if type = 0x40 ∨ type = 0x41 then some 3
  else if (0x22 ≤ type ∧ type ≤ 0x24) ∨ (0x26 ≤ type ∧ type ≤ 0x37) then some 4
  else some 0

/-- A response of the node to a request. -/
def hostReply (session seq : BitVec 32) (type : Nat) (st : Status) (args : List Nat) (d : List Byte) : HostMsg :=
  { session := session, type := type, seq := seq, status := st, notify := false, args := args, data := d }

/-- A response leaves; its session keeps it among its last 64 (R648). -/
def State.respond (s : State) (m : HostMsg) : State :=
  { s with hostOut := s.hostOut ++ [m], fw := { s.fw with sessions := s.fw.sessions.map (fun (x : Session) =>
      if x.id = m.session then { x with cache := (x.cache ++ [(m.seq, m)]).drop (x.cache.length + 1 - 64) } else x) } }

/-- The processor that serves a request: FBC1 the PORT_ENABLE of its own ports. -/
def Taken.server (q : Taken) : Option Nat :=
  if q.type = 0x27 ∧ 10 ≤ bytesAt q.payload 0 1 then some 5 else serverOf q.type

/-- Requests that wait for processor p complete with a status (R623). -/
def State.flushTaken (s : State) (p : Nat) (st : Status) : State :=
  let hit := s.fw.taken.filter (fun q => q.server == some p)
  hit.foldl (fun s q => s.respond (hostReply q.session q.seq q.type st [] []))
    { s with fw := { s.fw with taken := s.fw.taken.filter (fun q => q.server != some p) } }

/-- Field of processor p. -/
def fwpFld (p : Nat) (f : Fld) : Fld := f.plus (8 * p)

/-- The inactive boot slot. -/
def State.idleSlot (s : State) : Nat := 1 - s.fld F.SEC_BUNDLE_SLOT

/-- A stage in progress ends and its slot is marked empty (Table 15-9). -/
def State.dropStage (s : State) : State :=
  if s.fw.stagingLen = 0 then s
  else { s with fw := { s.fw with staging := [], stagingLen := 0, slots := Tab.set s.idleSlot [] s.fw.slots } }

/-- What an FWP reset of processor p does: its execution is lost and FWP_WDT returns to its default. -/
def State.fwpReset (s : State) (p : Nat) : State :=
  let s := (s.flushTaken p St.serviceRestarting).resetBlock .fwp (R.FWP_WDT + 8 * p) (R.FWP_WDT + 8 * p + 8)
  let s := if p = 0 then s.dropStage else s
  ((s.setFld (fwpFld p F.FWP_STAT_RUNNING) 0).setFld (fwpFld p F.FWP_STAT_RESTARTING) 1).putReady p false

/-- Processor p is held (R620, R621): only a PKG reset or POR releases it. -/
def State.fwpHold (s : State) (p : Nat) (st : Status) : State :=
  let s := (s.flushTaken p St.serviceHeld).setFld (fwpFld p F.FWP_STAT_HELD) 1
  (((s.setFld (fwpFld p F.FWP_STAT_RUNNING) 0).setFld (fwpFld p F.FWP_STAT_RESTARTING) 0).putReady p false).raiseFatal mbxSrc st
    (leBytes 1 p)

/-- Measurement log entry (R637) of component p + 1, whose image has the given bytes. -/
def measureEntry (p event : Nat) (time : BitVec 64) (image : List Byte) : List Byte :=
  leBytes 2 (p + 1) ++ leBytes 1 event ++ zeros 5 ++ leBytes 8 time.toNat ++ shake256 image 64 ++ leBytes 4 image.length ++ zeros 12

/-- Image of a component (1 to 7) in a bundle: its directory entry's bytes (Table 15-4). -/
def bundleImage (b : List Byte) (comp : Nat) : List Byte :=
  match (List.range (bytesAt b 14 2)).find? (fun i => bytesAt b (64 + 32 * i) 2 == comp) with
  | none => []
  | some i => (b.drop (bytesAt b (64 + 32 * i + 8) 8)).take (bytesAt b (64 + 32 * i + 16) 8)

/-- The running bundle. -/
def State.bundle (s : State) : List Byte := Tab.get (fun _ => []) s.fw.slots (s.fld F.SEC_BUNDLE_SLOT)

/-- Appends the measurement of processor p's image. -/
def State.measureFwp (s : State) (p event : Nat) : State :=
  { s with fw := { s.fw with measure := s.fw.measure ++ [measureEntry p event s.stamp (bundleImage s.bundle (p + 1))] } }

/-- Processor p comes into service, and its watchdog period begins. -/
def State.fwpStart (s : State) (p : Nat) : State :=
  let s := { s with fw := { s.fw with kicked := Tab.set p s.clock.ns.toNat s.fw.kicked } }
  ((s.setFld (fwpFld p F.FWP_STAT_RUNNING) 1).setFld (fwpFld p F.FWP_STAT_RESTARTING) 0).putReady p true

/-! ### PKG reset and POR -/

/-- What survives in NAND and fuses. -/
def Firmware.kept (f : Firmware) : Firmware :=
  { Firmware.reset with slots := f.slots, reverted := f.reverted, trialSince := f.trialSince, ownerKey := f.ownerKey, ownerSecret := f.ownerSecret,
                        hostKeys := f.hostKeys, sigRequired := f.sigRequired, jobKeys := f.jobKeys, vcMin := f.vcMin,
                        windowSets := f.windowSets, draws := f.draws }

/-- The whole package after a reset of class c, POR or PKG (Table 16-10): SLOT_ID is sampled at its release (R662). -/
def State.packageReset (s : State) (c : RClass) : State :=
  let k := State.reset
  let s := { k with
    regs := resetRegs c 0 0x10000000 s.regs, flash := s.flash, flashBytes := s.flashBytes, flashRegion := s.flashRegion,
    outbox := s.outbox, hostOut := s.hostOut, fw := s.fw.kept, free := s.free, pending := s.pending,
    power := { s.power with slotId := s.power.slotPins, throttling := [], withheld := [], resets := [], stateTarget := none,
                            resetAfter := none, stopped := false } }
  ((s.setReg R.GLB_FUNC_READY 0).setReg (R.GLB_FUNC_READY + 8) 0).setFld F.SEC_STAT_IDENTITY 0

/-! ### Requests for resets -/

/-- Classes of R680: 1 POR, 2 PKG, 3 CMP, 4 FAB, 5 FWP, 6 and 7 exits from P2 and P3. A request is absorbed into a reset of
the same or a containing class in progress (R679). -/
def State.absorbs (s : State) (c p : Nat) : Bool :=
  (s.power.resets ++ s.power.resetAfter.toList).any (fun r =>
    (r.1 == c && (c != 5 || r.2.1 == p)) || (decide (r.1 ≤ 2) && decide (r.1 ≤ c)))

/-- PWR_RESET shows the last reset or state exit. -/
def State.lastReset (s : State) (c trig : Nat) : State :=
  (s.setFld F.PWR_RESET_LAST_CLASS c).setFld F.PWR_RESET_LAST_TRIGGER trig

/-- Performs a reset; its completion is reported later (R680). A PKG reset contains every reset in progress. -/
def State.performReset (s : State) (c p trig : Nat) : State :=
  let old := s.power.resets
  let s := match c with
    | 1 => s.packageReset .por
    | 2 => s.packageReset .pkg
    | 3 => s.cmpReset
    | 4 => s.fabReset
    | _ => s.fwpReset p
  let s := s.lastReset c trig
  { s with power := { s.power with resets := if c ≤ 2 then [(c, 0, trig)] else old ++ [(c, p, trig)] } }

/-- A request for a reset (R678, R679). In P1, P2 or P3 the node first returns to P0. After a thermal trip only R666 starts
the node again (R689). -/
def State.requestReset (s : State) (c p trig : Nat) : State :=
  if !s.power.on || (s.power.off.isSome && decide (c ≤ 4)) || s.absorbs c p then s
  else if s.fld F.PWR_STATE_CUR = 0 then s.performReset c p trig
  else
    { s.setFld F.PWR_STATE_BUSY 1 with power := { s.power with stateTarget := some 0, resetAfter := some (c, p, trig) } }

/-- The reset event (R680). -/
def State.resetEvent (s : State) (c p trig : Nat) : State :=
  s.raise pwrSrc St.aborted (leBytes 1 c ++ leBytes 1 p ++ leBytes 1 trig)

/-! ### Restart of a firmware processor -/

/-- Restarts of processor p within the 10 s before a time. -/
def State.recentRestarts (s : State) (p now : Nat) : List Nat :=
  (Tab.get (fun _ => []) s.fw.restarts p).filter (fun t => decide (now < t + 10000000000))

/-- Processor p would restart (R619, R621): at the third restart within 10 s it is held instead. -/
def State.restartFwp (s : State) (p trig : Nat) : State :=
  let now := s.clock.ns.toNat
  let l := s.recentRestarts p now
  if !s.power.on || s.absorbs 5 p || s.bit (fwpFld p F.FWP_STAT_HELD) then s
  else if 2 ≤ l.length then s.fwpHold p St.serviceHeld
  else
    { s with fw := { s.fw with restarts := Tab.set p (l ++ [now]) s.fw.restarts } }.requestReset 5 p trig

/-- Processor p comes back after its reset: its retained image is compared with the boot measurement (R619, R620). The
copy may have been damaged, which the manual leaves open: a free value. -/
def State.fwpReturn (s : State) (p trig : Nat) : State :=
  let f := s.drawFree
  let s := f.2
  if f.1 = 0 then s.fwpHold p St.measurementMismatch
  else
    let s := (s.countWrap (fwpFld p F.FWP_STAT_RESTARTS) 1).fwpStart p
    let s := s.measureFwp p 2
    if trig = 2 then s.raise mbxSrc St.watchdogRestart (leBytes 1 p) else s

/-! ### Completion -/

/-- The contexts of the draft's GROUP section in state ABORTED after a FAB reset (Table 11-12). -/
def State.regroupAborted (s : State) : State :=
  match s.draft with
  | none => s
  | some d => if d.loaded then (s.createGroups d true).getD s else s

/-- A reset of class CMP, FAB or FWP completes: functions return, the draft is reloaded (R566), the reset event is raised
(R680). -/
def State.resetDone (s : State) (c p trig : Nat) : State :=
  let s := match c with
    | 3 =>
      let s := (s.putReady 12 true).putReadyRange 16 true 4
      if s.jobState = 2 ∨ s.jobState = 3 ∨ s.jobState = 4 then s.reloadDraft else s
    | 4 => (s.putReady 13 true).regroupAborted
    | 5 => s.fwpReturn p trig
    | _ => s
  s.resetEvent c p trig

/-- Takes the oldest reset of class CMP, FAB or FWP that has not been reported. -/
def State.nextReset (s : State) : Option ((Nat × Nat × Nat) × State) :=
  match s.power.resets.find? (fun r => decide (3 ≤ r.1)) with
  | none => none
  | some r => some (r, { s with power := { s.power with resets := s.power.resets.erase r } })

end Sys2Proof.Machine
end

