-- ==== Sys2Proof/Machine/Power.lean ====
section
/-! DEFINITION. Power, connector and bring-up (chapter 16): power states (R681 to R684), the input stage and its
protections (R664 to R674), the limiter and trips (R686 to R691), reset requests in PWR_RESET, JTAG, and what a cycle of the
reference clock does while no command waits. Readings of the manual are assumption log 32. -/

namespace Sys2Proof.Machine

/-! ### Codes -/

def St.powerEmergency : Status := 0x0A01
def St.thermalThrottle : Status := 0x0A02
def St.thermalTrip : Status := 0x0A03
def St.inputUndervoltage : Status := 0x0A04
def St.inputOvervoltage : Status := 0x0A05
def St.overcurrent : Status := 0x0A06
def St.planRefused : Status := 0x0A07
def St.removalRequested : Status := 0x0A0A

/-! ### Power states (R681 to R684) -/

/-- Every memory controller in or out of service (readiness bits 20 to 63). -/
def State.memService (s : State) (lo n : Nat) (b : Bool) : State :=
  (List.range n).foldl (fun s i => s.setFld (cfld (Fin.ofNat 44 (lo + i)) F.MEM_STAT_READY) (natOf b)) (s.putReadyRange (20 + lo) b n)

/-- SELF_REFRESH of controllers lo to lo + n − 1. -/
def State.selfRefresh (s : State) (lo n : Nat) (b : Bool) : State :=
  (List.range n).foldl (fun s i => s.setFld (cfld (Fin.ofNat 44 (lo + i)) F.MEM_STAT_SELF_REFRESH) (natOf b)) s

/-- Firmware processors MRC, RCC, FBC0 and FBC1 stop; requests they serve complete with ABORTED (R683). -/
def State.mainFwpsOff (s : State) : State :=
  [2, 3, 4, 5].foldl (fun s p =>
    let s := (s.flushTaken p St.aborted).resetBlock .fwp (R.FWP_WDT + 8 * p) (R.FWP_WDT + 8 * p + 8)
    (s.setFld (fwpFld p F.FWP_STAT_RUNNING) 0).putReady p false) s

/-- Everything outside the standby group loses power; LPDDR5X contents, the event rings among them, are kept when `keepLp`
(Tables 16-4 and 16-10). -/
def State.mainOff (s : State) (keepLp : Bool) : State :=
  let s := if keepLp then s.drainEvery else s
  let s := ((s.loseTiles.loseCores).loseDram 0 lpBase).losePicks
  let s := if keepLp then s
    else { s.loseDram lpBase sramWindow with rings := { s.rings with host := [], first := s.rings.first + s.rings.host.length, fw := [] } }
  let s := s.portsOff.mainFwpsOff
  let ptp := s.reg R.TIME_PTP_CFG
  let s := ((s.resetBlock .pkg 0 0x4010000).resetBlock .pkg 0x7000000 0x8000000).setReg R.TIME_PTP_CFG ptp
  let s := ((s.putReadyRange 9 false 11).memService 0 44 false)
  { s with ports := [], reqs := [], cong := [], overflow := [], dir := [], dirTrans := [], ledger := [], replays := [],
           atomSeq := [], synced := [], mustSync := true, ctxs := [], wcb := [], ceCount := [], guard := [], shadow := [], draft := none,
           resil := Resil.reset }

/-- What entering state n from P0 does. -/
def State.enterState (s : State) (n : Nat) : State :=
  match n with
  | 1 => (s.putReady 12 false).putReadyRange 16 false 4
  | 2 =>
    let s := s.drainEvery.loseTiles.losePicks
    let s := (s.resetBlock .cmp 0 0x1000000).resetBlock .cmp R.TIME_PICK (R.TIME_PICK + 0x40)
    let s := ((s.putReady 12 false).putReady 14 false).putReadyRange 16 false 4
    (s.memService 0 44 false).selfRefresh 0 44 true
  | 3 => (s.mainOff true).selfRefresh 12 32 true
  | _ => s

/-- The functions of the main rails come back: memories are trained, processor, tiles, engines return (Table 16-7). -/
def State.mainOn (s : State) : State :=
  let s := ((s.memService 0 44 true).selfRefresh 0 44 false).setFld F.NAND_STAT_READY 1
  let s := s.setFld F.NAND_STAT_CH_READY 0xFF
  let s := (s.putReadyRange 11 true 4).putReadyRange 16 true 4
  s.settleRings

/-- What the exit from state n to P0 does; an exit from P2 or P3 raises the reset event (R680), and after P3 BSC restarts
the four processors from their verified images (R683). -/
def State.exitState (s : State) (n : Nat) : State :=
  match n with
  | 1 => (s.putReady 12 true).putReadyRange 16 true 4
  | 2 =>
    let s := (s.memService 0 44 true).selfRefresh 0 44 false
    let s := ((s.putReady 12 true).putReady 14 true).putReadyRange 16 true 4
    (s.lastReset 6 8).resetEvent 6 0 8
  | 3 =>
    let s := [2, 3, 4, 5].foldl (fun s p => ((s.countWrap (fwpFld p F.FWP_STAT_RESTARTS) 1).fwpStart p).measureFwp p 2) s
    ((s.mainOn).lastReset 7 8).resetEvent 7 0 8
  | _ => s

/-- A write of PWR_STATE.TARGET (R682): ignored unless the job is IDLE; accepted from firmware processors only. -/
def State.targetWrite (s : State) (q : Requester) (v : BitVec 64) : State :=
  let n := bitsOf v 3 2
  if Requester.isFw q then
    if n ≠ 0 ∧ s.jobState ≠ 0 then s.setFld F.PWR_STATE_REFUSED 1
    else
      let s := s.setFld F.PWR_STATE_TARGET n
      if n = s.fld F.PWR_STATE_CUR ∧ s.power.stateTarget = none then s
      else { s.setFld F.PWR_STATE_BUSY 1 with power := { s.power with stateTarget := some n } }
  else s

/-- A reset held until P0 is performed there (R679). -/
def State.heldReset (s : State) : State :=
  match s.power.resetAfter with
  | none => s
  | some r => { s with power := { s.power with resetAfter := none } }.performReset r.1 r.2.1 r.2.2

/-- A change of state completes; between two states other than P0 it passes through P0 (R682), and it waits for a reset in
progress (R692). -/
def State.stateDone (s : State) : State :=
  match s.power.stateTarget with
  | none => s
  | some n =>
    if !s.power.on || s.power.off.isSome || !s.power.resets.isEmpty then s
    else
      let cur := s.fld F.PWR_STATE_CUR
      let ended := fun (s : State) => { s.setFld F.PWR_STATE_BUSY 0 with power := { s.power with stateTarget := none } }
      if cur ≠ 0 ∧ cur ≠ n then
        let s := (s.setFld F.PWR_STATE_CUR 0).exitState cur
        if n = 0 then (ended s).heldReset else s
      else if cur = n then ended s
      else if s.jobState ≠ 0 then (ended s).setFld F.PWR_STATE_REFUSED 1
      else ended ((s.setFld F.PWR_STATE_CUR n).enterState n)

/-! ### Turning off and starting -/

/-- PWR_OFF_CAUSE names a protective turn-off. -/
def State.offCause (s : State) (code : Status) : State :=
  (s.setFld F.PWR_OFF_CAUSE_CODE code.toNat).setFld F.PWR_OFF_CAUSE_VALID 1

/-- The input switch opens: every rail falls and every content is lost. -/
def State.railsOff (s : State) (why : OffCause) : State :=
  let s := s.packageReset .por
  { s with power := { s.power with on := false, pwrGood := false, off := some why } }

/-- A fatal turn-off (R665): FATAL goes out first, then the switch opens. -/
def State.fatalOff (s : State) (code : Status) (detail : List Byte) (why : OffCause) : State :=
  if !s.power.on then s
  else ((s.raiseFatal pwrSrc code detail).offCause code).railsOff why

/-- The node starts with a POR: the standby rails come up and BSC is about to boot (Table 16-5). -/
def State.startPor (s : State) : State :=
  let s := s.packageReset .por
  { s with power := { s.power with on := true, pwrGood := true, off := none, thermtripN := true, resets := [(1, 0, 5)] } }.lastReset 1 5

/-- Time that Table 16-6 takes from the acceptance of REMOVE, in nanoseconds. -/
def removeNs : Nat := 200000000

/-- The removal sequence has run its course by a time: the standby rails go off and PWR_GOOD falls (Table 16-6). -/
def State.removeDue (s : State) (now : Nat) : State :=
  match s.fw.removing with
  | none => s
  | some t => if s.power.on ∧ t + removeNs ≤ now then s.railsOff .removed else s

/-- REMOVE has been accepted: every fabric port leaves service, the flash translation table is saved, main rails go off in
turn (Table 16-6). -/
def State.startRemoval (s : State) : State :=
  let s := s.portsOff
  let s := (s.putReady 11 false).setFld F.NAND_STAT_READY 0
  { s with fw := { s.fw with removing := some s.clock.ns.toNat } }

/-- One cycle of the 156.25 MHz reference with no command waiting (R500), with the end of a removal (Table 16-6). -/
def State.idle (s : State) : State :=
  if s.power.on then { s with clock := s.clock.tick }.removeDue s.clock.ns.toNat else s

/-! ### Commands of the input stage -/

/-- PWR_EN_RISE (R666, R671, R672). -/
def execPwrEnRise (slot : BitVec 6) (vin : BitVec 16) (now : BitVec 64) (s : State) : Host.Outcome State Fault Refusal :=
  let low := match s.power.enLowSince with | some t => now.toNat - t | none => 0
  let may := match s.power.off with
    | none => true
    | some .removed => true
    | some .lockout => decide (32000 < vin.toNat)
    | some .latched => decide (100000000 ≤ low)
    | some .trip => decide (1000000000 ≤ low) && decide (32000 ≤ vin.toNat) && decide (vin.toNat ≤ 40000)
  let up := !s.power.pwrEn
  let s := { s with power := { s.power with pwrEn := true, slotPins := slot } }.setFld F.PWR_INPUT_VIN vin.toNat
  .next (if up && may && !s.power.on then s.startPor else s)

/-- PWR_EN_FALL (R674): the switch opens; before Table 16-6 has completed, FATAL with REMOVAL_REQUESTED goes out first. -/
def execPwrEnFall (now : BitVec 64) (s : State) : Host.Outcome State Fault Refusal :=
  let s := s.removeDue now.toNat
  let s := { s with power := { s.power with pwrEn := false, thermtripN := true, enLowSince := some now.toNat } }
  .next (
    match s.power.off with
    | none => s.fatalOff St.removalRequested [] .removed
    | some why => if s.power.on then s.railsOff why else s)

/-- PRESENT_N_RISE (R674): the contact breaks; lowering PWR_EN is the chassis' part. -/
def execPresentNRise (s : State) : Host.Outcome State Fault Refusal :=
  .next { s with power := { s.power with presentN := true } }

/-- NODE_RESET_N_LOW (R661): low for 10 µs or more holds the package in PKG reset; SLOT_ID is sampled at release. -/
def execNodeResetNLow (us : Nat) (slot : BitVec 6) (s : State) : Host.Outcome State Fault Refusal :=
  .next (if 10 ≤ us then { s with power := { s.power with slotPins := slot } }.requestReset 2 0 6 else s)

/-- The input leaves or returns to 32 V to 40 V for 1 ms (R664, R691). -/
def State.inputEmergency (s : State) (mv : BitVec 16) (us : Nat) : State :=
  let out := decide (mv.toNat < 32000) || decide (40000 < mv.toNat)
  let s := s.setFld F.PWR_INPUT_VIN mv.toNat
  if s.power.on && decide (1000 ≤ us) && (out != s.power.emergencyInput) then
    { s with power := { s.power with emergencyInput := out } }.raise pwrSrc St.powerEmergency (leBytes 1 (natOf out) ++ leBytes 1 1)
  else s

/-- LOW_INPUT (R664): input below 32 V, or above 40 V, for 1 ms. -/
def execLowInput (mv : BitVec 16) (us : Nat) (s : State) : Host.Outcome State Fault Refusal :=
  .next (s.inputEmergency mv us)

/-- POWER_EMERGENCY_EXIT (R691): the input is back between 32 V and 40 V for 1 ms. -/
def execPowerEmergencyExit (mv : BitVec 16) (us : Nat) (s : State) : Host.Outcome State Fault Refusal :=
  .next (s.inputEmergency mv us)

/-- INPUT_UNDERVOLTAGE (R664, R666). DETAIL: input in 10 mV units. -/
def execInputUndervoltage (mv : BitVec 16) (us : Nat) (s : State) : Host.Outcome State Fault Refusal :=
  let s := s.setFld F.PWR_INPUT_VIN mv.toNat
  .next (if mv.toNat < 30000 ∧ 50 ≤ us then s.fatalOff St.inputUndervoltage (leBytes 2 (mv.toNat / 10)) .lockout else s)

/-- INPUT_OVERVOLTAGE (R664, R666): latched. -/
def execInputOvervoltage (mv : BitVec 16) (us : Nat) (s : State) : Host.Outcome State Fault Refusal :=
  let s := s.setFld F.PWR_INPUT_VIN mv.toNat
  .next (if 42000 < mv.toNat ∧ 10 ≤ us then s.fatalOff St.inputOvervoltage (leBytes 2 (mv.toNat / 10)) .latched else s)

/-- One step up of every die's withholding level. -/
def State.levelsUp (s : State) : State :=
  (List.range 5).foldl (fun s d =>
    let f := F.PWR_WITHHELD_LEVEL.plus (8 * d)
    s.setFld f (min 31 (s.fld f + 1))) s

/-- OVERCURRENT (R664): above 85 A over 1 ms the limiter raises its level; 500 µs in the 95 A limit latches off. The current
is in 100 mA units. -/
def execOvercurrent (ma100 : BitVec 16) (limit : Bool) (us : Nat) (s : State) : Host.Outcome State Fault Refusal :=
  let s := s.setFld F.PWR_INPUT_IIN (10 * ma100.toNat)
  .next (
    if !s.power.on then s
    else if limit && decide (500 ≤ us) then s.fatalOff St.overcurrent (leBytes 2 ma100.toNat) .latched
    else if 850 < ma100.toNat ∧ 1000 ≤ us then (s.raise pwrSrc St.overcurrent (leBytes 2 ma100.toNat)).levelsUp
    else s)

/-- INPUT_RESTART (R666): after a lockout, once the input has stayed above 32.0 V for 100 ms with PWR_EN high; after a
latch-off or trip PWR_EN must have been low for its time and have risen. -/
def execInputRestart (mv : BitVec 16) (goodMs : Nat) (now : BitVec 64) (s : State) : Host.Outcome State Fault Refusal :=
  let low := match s.power.enLowSince with | some t => now.toNat - t | none => 0
  let may := match s.power.off with
    | some .lockout => decide (32000 < mv.toNat) && decide (100 ≤ goodMs)
    | some .latched => decide (100000000 ≤ low)
    | some .trip => decide (1000000000 ≤ low) && decide (32000 ≤ mv.toNat) && decide (mv.toNat ≤ 40000)
    | _ => false
  let s := s.setFld F.PWR_INPUT_VIN mv.toNat
  let waits := match s.power.off with | some .lockout => true | _ => s.power.enLowSince.isSome
  .next (if s.power.pwrEn && waits && may then { s with power := { s.power with enLowSince := none } }.startPor else s)

/-- RAIL_FAULT (R669, R670): PWR_GOOD falls; a rail out of its band for 100 µs takes the node through a PKG reset. -/
def execRailFault (us : Nat) (s : State) : Host.Outcome State Fault Refusal :=
  .next (
    if !s.power.on then s
    else if 100 ≤ us then { s with power := { s.power with pwrGood := false } }.requestReset 2 0 7
    else s)

/-! ### Heat (R686 to R691) -/

/-- DETAIL byte 0 of a site. -/
def ThermSite.code : ThermSite → Nat
  | .die d => d.val
  | .stack k => 0x10 + k.val
  | .package k => 0x20 + k.val

/-- Trip limit of a site in 1/16 °C (Table 16-12). -/
def ThermSite.trip : ThermSite → Int
  | .die _ => 115 * 16
  | _ => 105 * 16

/-- THERMAL_TRIP (R689): FATAL, main rails off, THERMTRIP_N low; what was in progress has no further effect (Table 16-14). -/
def execThermalTrip (where_ : ThermSite) (temp : Int) (s : State) : Host.Outcome State Fault Refusal :=
  .next (
    if !s.power.on || decide (temp < ThermSite.trip where_) || s.power.off.isSome then s
    else
      let s := s.raiseFatal pwrSrc St.thermalTrip (leBytes 1 (ThermSite.code where_) ++ zeros 1 ++ leBytes 2 (wrapN 16 temp))
      let s := (s.offCause St.thermalTrip).mainOff false
      { s with power := { s.power with thermtripN := false, pwrGood := false, off := some .trip, resets := [], stateTarget := none, resetAfter := none },
               fw := { s.fw with removing := none, deferred := false } })

/-- The accelerator die (0 to 3) or processor die (4) to which a memory site code is attached (R358, R361). -/
def siteDie (code : Nat) : Nat :=
  if code < 0x10 then code
  else if code < 0x20 then (code - 0x10) / 3
  else if code < 0x20 + 24 then (code - 0x20) / 6
  else 4

/-- Does site code c with temperature t withhold: from its limit until below its release (Table 16-12)? -/
def hot (c : Nat) (t : Int) (was : Bool) : Bool :=
  if c < 0x10 then decide (105 * 16 ≤ t) || (was && decide (102 * 16 ≤ t))
  else decide (95 * 16 ≤ t) || (was && decide (92 * 16 ≤ t))

/-- One site's reading: THERMAL_THROTTLE when it starts withholding. -/
def State.siteReading (s : State) (c : Nat) (t : Int) : State :=
  let was := s.power.throttling.contains c
  let h := hot c t was
  if h && !was then
    { s with power := { s.power with throttling := s.power.throttling ++ [c] } }.raise pwrSrc St.thermalThrottle
      (leBytes 1 c ++ zeros 1 ++ leBytes 2 (wrapN 16 t))
  else if !h && was then { s with power := { s.power with throttling := s.power.throttling.filter (· != c) } }
  else s

/-- Does heat demand withholding on die d: its own, an attached memory's, or the processor die's when that is hottest? -/
def State.heatOn (s : State) (dies : List Int) (d : Nat) : Bool :=
  s.power.throttling.any (fun c => siteDie c == d) ||
    (decide (d < 4) && s.power.throttling.contains 4 && dies.all (fun t => decide (t ≤ dies.getD 4 0)))

/-- Cycles of the arithmetic clock in one update of 10 µs (PWR_PLAN.CLOCK). -/
def State.updateCycles (s : State) : Nat :=
  match s.fld F.PWR_PLAN_CLOCK with | 0 => 19000 | 1 => 16000 | _ => 13000

/-- Counts the cycles that die d has withheld in one update, in units of 1,024. -/
def State.countWithheld (s : State) (d : Nat) (heat : Bool) : State :=
  let n := s.updateCycles * s.fld (F.PWR_WITHHELD_LEVEL.plus (8 * d)) / 32
  let o := Tab.get (fun _ => (0, 0)) s.power.withheld d
  let a := (o.1 + (if heat then n else 0), o.2 + (if heat then 0 else n))
  let s := { s with power := { s.power with withheld := Tab.set d (a.1 % 1024, a.2 % 1024) s.power.withheld } }
  (s.count (F.PWR_WITHHELD_THERMAL.plus (8 * d)) (a.1 / 1024)).count (F.PWR_WITHHELD_POWER.plus (8 * d)) (a.2 / 1024)

/-- The thermal side of an emergency: any junction reaches 105 °C, or all fall below 102 °C (R691). -/
def State.heatEmergency (s : State) (dies : List Int) : State :=
  let on := dies.any (fun t => decide (105 * 16 ≤ t))
  let off := dies.all (fun t => decide (t < 102 * 16))
  let now := on || (s.power.emergencyThermal && !off)
  if now = s.power.emergencyThermal then s
  else { s with power := { s.power with emergencyThermal := now } }.raise pwrSrc St.powerEmergency (leBytes 1 (natOf now) ++ leBytes 1 2)

/-- LIMITER_UPDATE (R688): each die's level moves by at most one step of 1/32, up while a limit demands it, down when none
does. -/
def execLimiterUpdate (x : LimiterIn) (s : State) : Host.Outcome State Fault Refusal :=
  let dies := x.dies.take 7
  let s := (s.setFld F.PWR_INPUT_PIN x.power).setFld F.PWR_INPUT_IIN (10 * x.current)
  let s := (List.range dies.length).foldl (fun s i => s.siteReading i (dies.getD i 0)) s
  let s := (List.range (min 44 x.devices.length)).foldl (fun s i =>
    s.siteReading (if i < 12 then 0x10 + i else 0x20 + (i - 12)) (x.devices.getD i 0)) s
  let s := (List.range dies.length).foldl (fun (s : State) i =>
    (s.setFld (F.MON_DIE_TMAX.plus (8 * i)) (wrapN 16 (dies.getD i 0))).setFld (F.MON_DIE_THROTTLE.plus (8 * i)) (natOf (s.heatOn dies i))) s
  let s := s.heatEmergency dies
  let excess := decide (100 * s.fld F.PWR_PLAN_CAP < x.power) || decide (850 < x.current)
  .next (
    if !s.power.on then s
    else (List.range 5).foldl (fun s d =>
      let f := F.PWR_WITHHELD_LEVEL.plus (8 * d)
      let heat := s.heatOn dies d
      let l := s.fld f
      (s.setFld f (if excess || heat then min 31 (l + 1) else l - 1)).countWithheld d heat) s)

/-- DROOP_EVENT (R687): a sample of the supply below the fused threshold. -/
def execDroopEvent (t : TileId) (mv : BitVec 16) (s : State) : Host.Outcome State Fault Refusal :=
  let f := tfld t F.MON_DROOP_VMIN
  .next (if s.tileReady t then (s.countWrap (tfld t F.MON_DROOP_EVENTS) 1).setFld f (min (s.fld f) mv.toNat) else s)

/-! ### State and reset requests -/

/-- PWR_STATE_TARGET (R682). -/
def execPwrStateTarget (q : Requester) (v : BitVec 64) (s : State) : Host.Outcome State Fault Refusal :=
  .next (s.targetWrite q v)

/-- POWER_STATE_CHANGE_DONE (R681 to R683). -/
def execPowerStateChangeDone (s : State) : Host.Outcome State Fault Refusal := .next s.stateDone

/-- A write of PWR_RESET: accepted from BSC only; other values of REQUEST have no effect. -/
def State.resetWrite (s : State) (q : Requester) (v : BitVec 64) : State :=
  let p := bitsOf v 11 8
  match q with
  | .fw n =>
    if n.val = 0 then
      match bitsOf v 2 0 with
      | 2 => s.requestReset 2 0 4
      | 3 => s.requestReset 3 0 4
      | 4 => s.requestReset 4 0 4
      | 5 => if p < 6 then s.restartFwp p 4 else s
      | _ => s
    else s
  | _ => s

/-- PWR_RESET_PKG (R678). -/
def execPwrResetPkg (q : Requester) (v : BitVec 64) (s : State) : Host.Outcome State Fault Refusal := .next (s.resetWrite q v)
/-- PWR_RESET_CMP (R678). -/
def execPwrResetCmp (q : Requester) (v : BitVec 64) (s : State) : Host.Outcome State Fault Refusal := .next (s.resetWrite q v)
/-- PWR_RESET_FAB (R678). -/
def execPwrResetFab (q : Requester) (v : BitVec 64) (s : State) : Host.Outcome State Fault Refusal := .next (s.resetWrite q v)
/-- PWR_RESET_FWP (R678). -/
def execPwrResetFwp (q : Requester) (v : BitVec 64) (s : State) : Host.Outcome State Fault Refusal := .next (s.resetWrite q v)

/-! ### JTAG -/

/-- Is the node in maintenance state? -/
def State.maint (s : State) : Bool := s.bit F.MBX_STAT_MAINT

/-- JTAG_INSTRUCTION (R663): outside maintenance state an instruction that drives pins acts as BYPASS. -/
def execJtagInstruction (i : JtagOp) (s : State) : Host.Outcome State Fault Refusal :=
  let drives := i == .extest || i == .extestPulse || i == .extestTrain || i == .clamp || i == .highz
  .next { s with power := { s.power with jtag := if drives && !s.maint then .bypass else i } }

/-- ETH_LINK_CHANGE (R676): ETH_PORT_STAT.UP and readiness bit 6 + e follow the link, the mailbox follows the ports
(Table 16-7). A port needs its fabric die's processor. -/
def execEthLinkChange (e : EthId) (up : Bool) (s : State) : Host.Outcome State Fault Refusal :=
  let ok := up && (s.ready (4 + e.val) || (s.bit F.SEC_STAT_RECOVERY && e.val == 0))
  let s := (s.setFld (F.ETH_PORT_STAT_UP.plus (8 * e.val)) (natOf ok)).putReady (6 + e.val) ok
  .next (s.putReady 8 ((s.ready 0 || s.bit F.SEC_STAT_RECOVERY) && (s.ready 6 || s.ready 7)))

end Sys2Proof.Machine
end

