-- ==== Sys2Proof/Machine/Shard.lean ====
section
/-! DEFINITION. The shard of the member and what stands for it elsewhere: pages and stripes (R569 to R575), parity over
GF(2^8) (R573), commit records (Table 14-3), control-state records and their restoration (Table 14-5, R593, R598), and
what a spare receives (R592, R603). Readings of the manual are assumption log 40. -/

namespace Sys2Proof.Machine

def St.logFull : Status := 0x0801
def St.genAbandoned : Status := 0x0802
def St.chunkDigest : Status := 0x0803
def St.genInconsistent : Status := 0x0804
def St.skeinLost : Status := 0x0805
def St.logLost : Status := 0x0806
def St.shapeMismatch : Status := 0x0807
def St.mirrorDiverged : Status := 0x0808
def St.noSpare : Status := 0x080A

/-- Event SOURCE of the resilience block. -/
def ckptSrc : Nat := 0x0700

/-! ### Members and places -/

/-- The holder of chunk c of stripe t of member m (R574). -/
def Draft.holder (d : Draft) (m t c : Nat) : Option Nat := ((spanOf m d.nmembers).filter (· != m))[(c + t) % 15]?

/-- The page of a list of regions that has an index: address and whether it is a bobbin page. -/
def regionPage : List (Nat × Nat × Bool) → Nat → Option (Nat × Bool)
  | [], _ => none
  | (a, n, b) :: r, k => if k < n then some (a + k * 65536, b) else regionPage r (k - n)

/-- Shard page k (R569). -/
def State.shardPage (s : State) (d : Draft) (k : Nat) : Option (Nat × Bool) :=
  if k < imagePages then some (s.areaAt d AreaMap.image + k * 65536, false) else regionPage s.resil.regions (k - imagePages)

/-- Stripes of this member. -/
def State.ownStripes (s : State) (d : Draft) : Nat := s.resil.stripes.getD (d.member % 16) 0

/-- Does chunk c of stripe t hold bytes: a data page that exists and is no empty bobbin page, or parity? -/
def State.chunkKept (s : State) (d : Draft) (t c : Nat) : Bool :=
  if 13 ≤ c then true
  else
    match s.shardPage d (13 * t + c) with
    | none => false
    | some (a, bob) => !bob || s.resil.bobPages.contains (a / 65536)

/-! ### Parity over GF(2^8) (R573) -/

/-- Multiplication by g = 0x02 with the polynomial 0x11D. -/
def gfStep (a : Nat) : Nat := if a < 128 then 2 * a else Nat.xor (2 * a) 0x11D

/-- a times g^c. -/
def gfPow : Nat → Nat → Nat
  | 0, a => a
  | c + 1, a => gfPow c (gfStep a)

/-- Product of two elements. -/
def gfMul (a b : Nat) : Nat := (List.range 8).foldl (fun r i => if bitN b i then Nat.xor r (gfPow i a) else r) 0

/-- Inverse of a nonzero element: its 254th power. -/
def gfInv (a : Nat) : Nat := (List.range 253).foldl (fun r _ => gfMul r a) a

def xorBytes (a b : List Byte) : List Byte := List.zipWith (fun x y => x ^^^ y) a b
def mulBytes (k : Nat) (a : List Byte) : List Byte := a.map (fun x => BitVec.ofNat 8 (gfMul x.toNat k))

/-- 65,536 bytes of 0. -/
def zeroChunk : List Byte := zeros 65536

/-- Chunk P of 13 data chunks. -/
def parityP (ds : List (List Byte)) : List Byte := ds.foldl xorBytes zeroChunk

/-- Chunk Q of 13 data chunks. -/
def parityQ (ds : List (List Byte)) : List Byte :=
  (List.range ds.length).foldl (fun r c => xorBytes r (mulBytes (gfPow c 1) (ds.getD c []))) zeroChunk

/-- The 13 data chunks from those that are there; none when more than two of the 15 are missing. -/
def decodeStripe (got : Nat → Option (List Byte)) : Option (List (List Byte)) :=
  let ds := (List.range 13).map (fun c => (got c).getD zeroChunk)
  let gap := (List.range 13).filter (fun c => (got c).isNone)
  match gap, got 13, got 14 with
  | [], _, _ => some ds
  | [x], some p, _ => some (ds.set x (xorBytes p (parityP ds)))
  | [x], none, some q => some (ds.set x (mulBytes (gfInv (gfPow x 1)) (xorBytes q (parityQ ds))))
  | [x, y], some p, some q =>
    let a := xorBytes p (parityP ds)
    let b := xorBytes q (parityQ ds)
    let gx := gfPow x 1
    let gy := gfPow y 1
    let dy := mulBytes (gfInv (Nat.xor gx gy)) (xorBytes (mulBytes gx a) b)
    some ((ds.set y dy).set x (xorBytes a dy))
  | _, _, _ => none

/-- Chunk digest (R578). -/
def chunkDig (b : List Byte) : List Byte := shake256 b 16

/-! ### Commit records (Table 14-3) -/

/-- Bytes of a commit record without its RECDIG. -/
def recBody (d : Draft) (r : CommitRec) (state : Nat) : List Byte × List Byte :=
  (leBytes 4 0x544D4B43 ++ leBytes 1 state ++ leBytes 1 (if r.tier = .skein then 1 else 2) ++ leBytes 2 r.member ++ leBytes 8 r.gen ++
    leBytes 6 r.markPick.toNat ++ leBytes 1 r.markIndex ++ zeros 1 ++ leBytes 6 r.commitPick.toNat ++ zeros 2 ++ leBytes 8 r.cut ++
    leBytes 4 r.stripes.length ++ leBytes 4 r.refs.length ++ d.digest.take 32 ++ d.mapDigest.take 8 ++ zeros 8,
   r.stripes.flatMap (fun e => leBytes 8 e.1 ++ leBytes 1 e.2.1 ++ zeros 7 ++ (e.2.2.flatMap id ++ zeros 240).take 240) ++
    r.refs.flatMap (fun e => leBytes 2 e.1 ++ leBytes 2 e.2.1 ++ leBytes 4 e.2.2.1 ++ leBytes 4 e.2.2.2 ++ zeros 4))

/-- RECDIG: SHAKE256 over the record with STATE and this field taken as 0. -/
def recDig (d : Draft) (r : CommitRec) : List Byte :=
  let b := recBody d r 0
  shake256 (b.1 ++ zeros 32 ++ b.2) 32

def recBytes (d : Draft) (r : CommitRec) : List Byte :=
  let b := recBody d r (if r.committed then 2 else 1)
  b.1 ++ recDig d r ++ b.2

/-- Reads a commit record. -/
def recOf (b : List Byte) : CommitRec :=
  let g := bytesAt b
  let n := g 40 4
  { committed := g 4 1 == 2, tier := if g 5 1 = 2 then .flash else .skein, member := g 6 2, gen := g 8 8, markPick := BitVec.ofNat 48 (g 16 6),
    markIndex := g 22 1, commitPick := BitVec.ofNat 48 (g 24 6), cut := g 32 8,
    stripes := (List.range n).map (fun t => (g (128 + 256 * t) 8, g (136 + 256 * t) 1,
      (List.range 15).map (fun c => (b.drop (144 + 256 * t + 16 * c)).take 16))),
    refs := (List.range (g 44 4)).map (fun i =>
      let o := 128 + 256 * n + 16 * i
      (g o 2, g (o + 2) 2, g (o + 4) 4, g (o + 8) 4)) }

/-- RECDIG as a stored record holds it. -/
def storedDig (b : List Byte) : List Byte := (b.drop 96).take 32

/-- Reference entries: the records of replica sets that lie in another member's shard (R570). -/
def State.refsOf (s : State) (d : Draft) : List (Nat × Nat × Nat × Nat) :=
  let l := (s.snapRecs d).filter (fun r => r.1.forMember d.member)
  (List.range l.length).filterMap (fun i =>
    match l[i]? with
    | some r => if s.snapOwn d d.member r then none else some (r.2.2.2, s.rank0 d r.2.2.2, r.2.2.1, i)
    | none => none)

/-- Newest committed record of a tier. -/
def State.newest (s : State) (tier : Tier) : Option CommitRec :=
  (s.resil.recs.filter (fun r => r.committed && r.tier == tier)).foldl (fun b r => match b with
    | some k => if k.gen < r.gen then some r else some k
    | none => some r) none

/-! ### Control-state record (Table 14-5) -/

/-- Open digest bank of a slot. -/
def Tile.openAcc (x : Tile) (slot : Nat) : Nat :=
  match x.banks.find? (fun b => b.pick == x.openBank) with
  | some b => Tab.get (fun _ => 0) b.acc slot
  | none => 0

def State.tileEntry (s : State) (t : TileId) (copies : Bool) : List Byte :=
  let x := s.tile t
  leBytes 4 x.pc.toNat ++ (List.range 8).flatMap (fun k => leBytes 4 (x.tickets k)) ++
    (List.range 64).flatMap (fun n => leBytes 4 (s.arrival t n).toNat) ++
    (List.range 4).flatMap (fun k => leBytes 8 (s.fld ((tfld t F.BOBBIN_TOP_USED).plus (8 * k))) ++
      leBytes 8 (s.fld ((tfld t F.BOBBIN_TOP_DEPTH).plus (8 * k)))) ++
    (List.range 16).flatMap (fun i => leBytes 8 (x.openAcc i)) ++
    (List.range 4).flatMap (fun k => leBytes 1 (if copies then (x.copyQ k).length else 0)) ++
    leBytes 4 (s.fld (tfld t F.SOLVER_SEQ_SEQ)) ++ zeros 16

/-- Descriptors that a context has not completed, the running one first. -/
def Ctx.open_ (x : Ctx) : List (Word × Nat) := (match x.run with | some r => [(r.seq, r.addr)] | none => []) ++ x.queue.map (fun q => (q.seq, q.addr))

/-- A context entry: SEQ is that of the first collective not completed (Table 11-12). -/
def State.ctxEntry (s : State) (c : CtxId) (x : Ctx) : List Byte :=
  let l := x.open_
  let seq := match l with | q :: _ => q.1.toNat | [] => s.fld (ctxStat c F.COL_CTX_STAT_SEQ)
  leBytes 1 c.toNat ++ leBytes 1 (s.fld (ctxStat c F.COL_CTX_STAT_STATE)) ++ leBytes 1 l.length ++ zeros 1 ++ leBytes 4 x.gid.toNat ++
    leBytes 4 seq ++ zeros 4 ++ (l.flatMap (fun q => leBytes 8 q.2) ++ zeros 128).take 128 ++ zeros 112

/-- The record of an event: its index, and whether copy queues are held. -/
def State.controlRecord (s : State) (gen index : Nat) (copies : Bool) : List Byte :=
  leBytes 4 0x52435343 ++ zeros 4 ++ leBytes 8 gen ++ leBytes 6 s.pick.toNat ++ leBytes 1 index ++ zeros 1 ++ leBytes 8 s.resil.lsn ++
    zeros 32 ++ (List.range 256).flatMap (fun t => s.tileEntry (BitVec.ofNat 8 t) copies) ++
    (s.ctxs.flatMap (fun e => s.ctxEntry (BitVec.ofNat 8 e.1) e.2) ++ zeros 131008).take 131008 ++
    (List.range 256).flatMap (fun t => (List.range 4).flatMap (fun k =>
      let l := if copies then ((s.tile (BitVec.ofNat 8 t)).copyQ k).map CopyEntry.desc else []
      (l.flatMap id ++ zeros 2048).take 2048))

/-! ### Restoring -/

/-- Entries of a stack of the given depth, j of them in the HBM share, read from their headers (R206); the top first. -/
def State.readStack (s : State) (t : TileId) (k j : Nat) : Nat → List BobEntry → List BobEntry
  | 0, l => l
  | n + 1, l =>
    let next := match l with | [] => 0 | e :: _ => e.off + e.occ
    let off := if l.length < j then next else if l.length = j then s.hbmShare t else next
    let h := s.bytes (s.bobAddr t k off) 64
    let drop := bitN (bytesAt h 2 1) 0
    let len := bytesAt h 4 4
    State.readStack s t k j n (⟨off, bobOcc len drop, bytesAt h 0 2, len, drop⟩ :: l)

/-- A stack of DEPTH and USED as a record names it: the top entries dropped, or every entry read again. -/
def State.restoreStack (s : State) (t : TileId) (k used depth : Nat) : List BobEntry :=
  let l := (s.tile t).bobStack k
  if depth ≤ l.length ∧ ((l.drop (l.length - depth)).map BobEntry.occ).sum = used then l.drop (l.length - depth)
  else
    let tries := (List.range (depth + 1)).reverse.map (fun j => s.readStack t k j depth [])
    (tries.find? (fun r => (r.map BobEntry.occ).sum == used)).getD []

/-- Copy descriptors of a queue entry list, waiting with their tickets. -/
def restoredCopies (issued n : Nat) (b : List Byte) : List CopyEntry :=
  (List.range n).map (fun i => ⟨BitVec.ofNat 32 (issued + 2 ^ 32 - n + i), (b.drop (64 * i)).take 64, false, .queued, St.ok, false, 0, [], [], false⟩)

/-- One tile from its entry. -/
def State.restoreTile (s : State) (b : List Byte) (t : TileId) : State :=
  let o := 64 + 512 * t.toNat
  let g := fun i n => bytesAt b (o + i) n
  let pick : Pick := BitVec.ofNat 48 (bytesAt b 16 6)
  let start := bytesAt b 22 1 == 0
  let cqs : Tab (List CopyEntry) := (List.range 4).map (fun k =>
    (k, restoredCopies (g (8 + 4 * (4 + k)) 4) (g (488 + k) 1) ((b.drop (262144 + 8192 * t.toNat + 2048 * k)).take 2048)))
  let acc : Tab Nat := (List.range 16).map (fun i => (i, g (360 + 8 * i) 8))
  let s := (List.range 64).foldl (fun s n => s.setArrival t n (BitVec.ofNat 32 (g (40 + 4 * n) 4))) s
  let s := (List.range 4).foldl (fun s k => s.setStack t k (s.restoreStack t k (g (296 + 16 * k) 8) (g (304 + 16 * k) 8))) s
  let s := s.setFld (tfld t F.SOLVER_SEQ_SEQ) (g 492 4)
  let cur : Option Pick := if start then some (pick - 1) else some pick
  s.modTile t (fun x => { x with
    pc := BitVec.ofNat 32 (g 0 4), waiting := none, cur := cur, shut := none, q := [], run := [], cq := cqs, lateOwed := [],
    issued := (List.range 8).map (fun k => (k, g (4 + 4 * k) 4)),
    banks := if start then [] else [⟨pick, acc, false, false⟩],
    sched := { Sched.reset with base := (List.range 64).map (fun n => (n, BitVec.ofNat 32 (g (40 + 4 * n) 4))) } })

/-- One context from its entry: its SEQ through COL_CTX_CTL, then the descriptors that it had not completed. -/
def State.restoreCtx (s : State) (b : List Byte) (i : Nat) : State :=
  let o := 131136 + 256 * i
  let c : CtxId := BitVec.ofNat 8 (bytesAt b o 1)
  let gid : Word := BitVec.ofNat 32 (bytesAt b (o + 4) 4)
  if (s.ctx c).any (fun x => x.gid == gid) then
    let s := s.colReset c (bytesAt b (o + 8) 4)
    (List.range (bytesAt b (o + 2) 1)).foldl (fun s k => s.colSubmit (bytesAt b (o + 16 + 8 * k) 8)) s
  else s

/-- Every field of a control-state record (R598, R604). The pick that it names is then current, or is the next to start
when the record is that of a pick start. -/
def State.restoreRecord (s : State) (b : List Byte) : State :=
  let pick : Pick := BitVec.ofNat 48 (bytesAt b 16 6)
  let index := bytesAt b 22 1
  let s := (s.tileIds.filter (fun t => (s.tile t).program)).foldl (fun s t => s.restoreTile b t) s
  let s := (List.range s.ctxs.length).foldl (fun s i => s.restoreCtx b i) s
  let s := s.setFld F.TIME_PICK_PICK (if index = 0 then pick - 1 else pick).toNat
  let fired := if index = 0 then [] else
    (s.clock.timetable.filter (fun e => (s.ttEntry index).any (fun m => ttBefore e m || e.index == index))).map TtEntry.index
  { s with clock := { s.clock with
      fired := if fired.contains index then index :: fired.erase index else fired,
      digests := (s.clock.digests.filter (fun d => decide (d.1 < pick))) ++ (if index = 0 then [] else [(pick, [], [], false)]) } }

/-! ### What a spare receives (R592, R603, R604) -/

/-- Sends a retained log ring to a node, entry by entry, for addresses from `base` there; `mine` is where the ring begins here. -/
def State.sendRing (s : State) (n : NodeId) (mine base : Nat) (r : LogRing) : State :=
  r.entries.foldl (fun s e => s.tellBulk n 0x32 [e.1] (base + (e.2.1 - mine)) e.2.2) s

/-- Sends the commit records held for a member to the node that stands for it now. -/
def State.sendRecs (s : State) (d : Draft) (old new : NodeId) : State :=
  let m := (d.memberOf new).getD 0
  (s.resil.replicas.filter (fun r => r.1 == old)).foldl (fun s r =>
    let c := recOf r.2
    s.tellBulk new 0x34 [] (s.recPlace d m m c.tier c.gen) r.2) s

/-- Member m of the old map has been replaced: its partner and its copy holder send what they keep of it; the copy holder
of its partner's log sends that log. -/
def State.serveSpare (s : State) (d : Draft) (old new : NodeId) : State :=
  let ring := fun (n : NodeId) => s.resil.logRings.find? (fun r => r.owner == n)
  match d.memberOf new with
  | none => s
  | some m =>
    let x := { d with member := m }
    let me := some s.nodeId
    let keeper := x.partner == me || x.copyHolder == me
    let alone := match x.partner with | some p => s.isLost p | none => true
    let here := fun (q : Nat) (part : AreaMap → Nat) => s.areaOf d q part
    let s := if keeper then s.sendRecs d old new else s
    let s := if x.partner = me ∨ (x.copyHolder = me ∧ alone = true) then
        match ring old with
        | some r =>
          s.sendRing new (here d.member (if x.partner = me then AreaMap.ring else AreaMap.copy)) 0 r
        | none => s
      else s
    match x.partner with
    | none => s
    | some p =>
      let y := { d with member := (d.memberOf p).getD 0 }
      if y.copyHolder = me then
        match ring p with
        | some r => s.sendRing new (here d.member AreaMap.copy) (here m AreaMap.ring) r
        | none => s
      else s

/-- A spare begins to rebuild (R603, R604). -/
def State.startRebuild (s : State) : State :=
  { s.setFld F.CKPT_STAT_STATE 3 with resil := { s.resil with rebuildRec := none, rebuilt := [], missing := [] } }

/-- What a substitution means to this node: a spare that was held rebuilds; the others serve it, and the span's next
generation is written in full (R608). -/
def State.substituted (s : State) (old : Draft) (subs : List (Nat × NodeId)) : State :=
  match s.draft with
  | none => s
  | some d =>
    if !d.loaded || s.jobState ≠ 3 && s.resil.spareHold ≠ some d.jobTag then s
    else
      let s := subs.foldl (fun s e =>
        match old.map[e.1]? with
        | none => s
        | some o =>
          let s := if o = e.2 then s else s.serveSpare d o e.2
          if e.1 / 16 = d.member / 16 then
            { s.setFld F.CKPT_STAT_DEGRADED 1 with resil := { s.resil with dirtySkein := regionPages s.resil.regions } }
          else s) s
      let s := { s with resil := { s.resil with
        logRings := s.resil.logRings.map (fun (r : LogRing) => match subs.find? (fun (e : Nat × NodeId) => old.map[e.1]? == some r.owner) with
          | some e => { r with owner := e.2 }
          | none => r) } }
      let s := if [d.partner, d.copyHolder].any (fun n => subs.any (fun e => some e.2 == n)) then s.resendLog else s
      let s := if subs.any (fun e => e.2 == s.nodeId) && s.resil.spareHold == some d.jobTag then (s.setJob 3).startRebuild else s
      s.showCoord

end Sys2Proof.Machine
end

