-- ==== Sys2Proof/Machine/Job.lean ====
section
/-! DEFINITION. Job start and job end (R546 to R566): the broadcast of a draft, acknowledgements, substitution, JOB_GO,
drain and teardown, RDMA into the staging region, and the completion of a reset, which reloads a draft or ends a
teardown. Readings of the manual are assumption log 30. -/

namespace Sys2Proof.Machine

/-! ### Messages of VC6 -/

/-- Sends a job-management message, if a window lets it out (R433). -/
def State.sendJob (s : State) (n : NodeId) (opc addr : Nat) (d : List Byte) : State :=
  if s.windowMatch n 6 opc 0 0 then s.sendTo (request n 6 opc addr d.length 0 d) else s.blockedOne

/-- Sends the same message to several nodes. -/
def State.sendJobs (s : State) (l : List NodeId) (opc addr : Nat) (d : List Byte) : State :=
  l.foldl (fun s n => s.sendJob n opc addr d) s

/-- A discarded job-management message is counted (R549). -/
def State.jobDiscard (s : State) (p : PortId) : State := s.count (pfld p F.FAB_PORT_ERR_MALFORMED) 1

/-- JOB_TAG that opens a payload. -/
def tagOf (m : Msg) : BitVec 64 := BitVec.ofNat 64 (bytesAt m.data 0 8)

/-- Is a request of one operation? -/
def isOpc (m : Msg) (opc : Nat) : Bool := m.opc.toNat == opc && !m.rsp

/-- The draft that a message other than DRAFT_BEGIN concerns, if R549 lets it in. -/
def State.jobFor (s : State) (m : Msg) : Option Draft :=
  match s.draft with
  | none => none
  | some d => if d.jobTag = tagOf m ∧ (s.treeKids d ++ s.treeParents d).contains m.src = true then some d else none

/-- Takes a job-management message: the state after its intake, and the draft it concerns; a message that R549 discards
is counted. -/
def State.jobIntake (s : State) (p : PortId) (m : Msg) (opc : Nat) (now : BitVec 64) : State × Option Draft :=
  let r := (s.at_ now).intake p m
  if r.2 && isOpc m opc then
    match r.1.jobFor m with
    | some d => (r.1, some d)
    | none => (r.1.jobDiscard p, none)
  else (r.1, none)

/-! ### Acknowledgements (R553) -/

/-- Are image and map complete? -/
def Draft.complete (d : Draft) : Bool := d.got == d.total + 2 * d.nmembers && d.mapGot == 2 * d.nmembers

/-- Children that have not acknowledged. -/
def State.unacked (s : State) (d : Draft) : List NodeId := (s.treeKids d).filter (fun n => !d.acks.any (fun a => a.child == n))

/-- The aggregate of a subtree: accepted members, status and reason of the first failure, lowest rejecting member, missing
children. -/
def State.aggregate (s : State) (d : Draft) : AckInfo :=
  let kids := d.acks.filter (fun a => (s.treeKids d).contains a.child)
  let own := d.outcome.getD (St.aborted, 0, [])
  let bad := kids.find? (fun a => a.status != St.ok)
  let failed := if own.1 != St.ok then some (own.1, own.2.1) else bad.map (fun a => (a.status, a.reason))
  { child := s.nodeId, accepted := natOf (own.1 == St.ok) + (kids.map AckInfo.accepted).sum,
    status := (failed.map Prod.fst).getD St.ok, reason := (failed.map Prod.snd).getD 0,
    lowest := (kids.map AckInfo.lowest).foldl min (if own.1 = St.ok then 0xFFFF else d.member),
    missing := (s.unacked d ++ kids.flatMap AckInfo.missing).take 80 }

/-- Payload of DRAFT_ACK. -/
def ackBytes (d : Draft) (a : AckInfo) : List Byte :=
  leBytes 8 d.jobTag.toNat ++ d.digest ++ d.mapDigest ++ leBytes 2 a.accepted ++ leBytes 2 a.status.toNat ++ leBytes 2 a.reason ++
    leBytes 2 a.lowest ++ leBytes 2 a.missing.length ++ a.missing.flatMap (fun n => leBytes 2 n.toNat)

/-- A report of a root to the host session that started the job: TYPE 0x30 with the fields of DRAFT_ACK or DRAIN_DONE. -/
def State.tellHost (s : State) (d : Draft) (type : Nat) (st : Status) (args : List Nat) : State :=
  { s with hostOut := s.hostOut ++ [{ session := d.session, type := type, seq := 0, status := st, notify := true, args := args, data := [] }] }

/-- Sends the aggregate up: a root reports to the host. -/
def State.sendAck (s : State) (d : Draft) : State :=
  let a := s.aggregate d
  let s := { s with draft := some { d with acked := true } }
  match d.source with
  | some n => s.sendJob n 0x42 0 (ackBytes d a)
  | none => s.tellHost d 0x30 a.status ([a.accepted, a.reason, a.lowest] ++ a.missing.map (fun (n : NodeId) => n.toNat))

/-- Has ACK_TIMEOUT passed since the node's own digest completed? -/
def State.ackLate (s : State) (d : Draft) : Bool :=
  match d.digestAt with
  | some t => decide (t + d.ackTimeout * 1000000 ≤ s.clock.ns.toNat)
  | none => false

/-- Acknowledges once the draft is loaded or rejected and every child has acknowledged or timed out; FBC0 aggregates. -/
def State.tryAck (s : State) : State :=
  match s.draft with
  | none => s
  | some d =>
    if d.outcome.isSome && !d.acked && s.ready 4 && ((s.unacked d).isEmpty || s.ackLate d) then s.sendAck d else s

/-! ### Broadcast -/

/-- A draft whose intake begins. -/
def newDraft (tag : BitVec 64) (total : Nat) (dig mdig : List Byte) (nmem ms : Nat) (src : Option NodeId) (root : Bool)
    (chains : List Nat) (session : BitVec 32) : Draft :=
  { jobTag := tag, total := total, digest := dig, mapDigest := mdig, nmembers := nmem, ackTimeout := if ms = 0 then 50 else ms,
    source := src, root := root, chains := chains, session := session, got := 0, mapGot := 0, arrived := [], forwarded := false,
    digestAt := none, outcome := none, acks := [], acked := false, map := [], member := 0, loaded := false, windows := [],
    snapshotMap := [], ring := (0, 1), nent := 0, dids := [], key := 0, firstPick := 0, drainLast := none, drainAsked := 0,
    drainDone := [], drained := false, tearDone := [], scrub := false }

/-- Payload of DRAFT_BEGIN. -/
def beginBytes (d : Draft) : List Byte :=
  leBytes 8 d.jobTag.toNat ++ leBytes 8 d.total ++ d.digest ++ d.mapDigest ++ leBytes 2 d.nmembers ++ leBytes 2 d.ackTimeout

/-- The draft that a DRAFT_BEGIN opens. -/
def draftOf (m : Msg) : Draft :=
  let b := m.data
  newDraft (tagOf m) (bytesAt b 8 8) ((b.drop 16).take 64) ((b.drop 80).take 8) (bytesAt b 88 2) (bytesAt b 90 2) (some m.src) false [] 0

/-- Begins an intake: RECEIVING, GLB_JOB and GLB_JOB_TAG show the draft. -/
def State.openIntake (s : State) (d : Draft) : State :=
  (({ s with draft := some d }.setJob 1).setFld F.GLB_JOB_NMEMBERS d.nmembers).setFld F.GLB_JOB_TAG_JOB_TAG d.jobTag.toNat

/-- DRAFT_ACK of a node that is busy (R554). -/
def busyBytes (m : Msg) : List Byte :=
  leBytes 8 (bytesAt m.data 0 8) ++ (m.data.drop 16).take 72 ++ leBytes 2 0 ++ leBytes 2 St.aborted.toNat ++ leBytes 2 0x0B ++
    leBytes 2 0xFFFF ++ leBytes 2 0

/-- Is the node busy for every DRAFT_BEGIN: in maintenance state or about to be removed (R630, R673)? -/
def State.busyNode (s : State) : Bool := s.maint || s.fw.removing.isSome

/-- DRAFT_BEGIN (R549, R554, R564). -/
def State.draftBegin (s : State) (m : Msg) : State :=
  let d := draftOf m
  match s.draft with
  | none => if s.jobState = 0 ∧ s.busyNode = false then s.openIntake d else s.sendJob m.src 0x42 0 (busyBytes m)
  | some o =>
    if o.jobTag = d.jobTag ∧ o.digest = d.digest then
      if o.outcome.isSome then { s with draft := some { o with source := some m.src } }.sendAck { o with source := some m.src }
      else { s with draft := some { d with root := o.root, chains := o.chains, session := o.session } }
    else s.sendJob m.src 0x42 0 (busyBytes m)

def execDraftBegin (p : PortId) (m : Msg) (now : BitVec 64) (s : State) : Host.Outcome State Fault Refusal :=
  let r := (s.at_ now).intake p m
  .next (if r.2 && isOpc m 0x40 then r.1.draftBegin m else r.1)

/-- The draft with its map read, once the map is complete. -/
def State.withMap (s : State) (d : Draft) : Draft :=
  let ms := mapOfBytes (s.mapBytes d) d.nmembers
  { d with map := ms, member := ms.idxOf s.nodeId }

/-- Sends the chunk of some staging bytes to the children. -/
def State.relay (s : State) (d : Draft) (kids : List NodeId) (a n : Nat) : State := s.sendJobs kids 0x41 a (s.bytes (d.base + a) n)

/-- Forwards DRAFT_BEGIN and the chunks that have arrived once the map tells the children (R551). -/
def State.forwardDraft (s : State) : State :=
  match s.draft with
  | none => s
  | some d =>
    if d.mapGot < 2 * d.nmembers then s
    else
      let d := s.withMap d
      let kids := s.treeKids d
      let s := if d.forwarded then s else s.sendJobs kids 0x40 0 (beginBytes d)
      let s := d.arrived.foldl (fun s c => s.relay d kids c.1 c.2) s
      { s with draft := some { d with arrived := [], forwarded := true } }

/-- DRAFT_CHUNK (R548, R549, R551): only from the source of the intake; a chunk of a completed intake is discarded. -/
def State.draftChunk (s : State) (p : PortId) (m : Msg) : State :=
  let a := m.addr.toNat
  let n := m.data.length
  match s.draft with
  | none => s.jobDiscard p
  | some d =>
    if d.source ≠ some m.src ∨ d.total + 2 * d.nmembers < a + n ∨ n = 0 then s.jobDiscard p
    else if d.complete || d.outcome.isSome || s.memStatus (d.base + a) n != St.ok then s
    else
      let inMap := a + n - max a d.total
      let d := { d with got := d.got + n, mapGot := d.mapGot + inMap, arrived := d.arrived ++ [(a, n)] }
      { s.writeBytes (d.base + a) m.data with draft := some d }.forwardDraft

def execDraftChunk (p : PortId) (m : Msg) (now : BitVec 64) (s : State) : Host.Outcome State Fault Refusal :=
  let r := (s.at_ now).intake p m
  .next (if r.2 && isOpc m 0x41 then r.1.draftChunk p m else r.1)

/-- DRAFT_VALIDATE (R543, R544, R552, R559): digest, signature and checks of a complete image, then loading or rejection.
BSC verifies and FBC0 loads. -/
def execDraftValidate (now : BitVec 64) (s : State) : Host.Outcome State Fault Refusal :=
  let s := s.at_ now
  .next (match s.draft with
    | none => s
    | some d =>
      if s.jobState = 1 ∧ d.complete ∧ d.outcome = none ∧ s.ready 0 ∧ s.ready 4 then
        let d := { s.withMap d with digestAt := some s.clock.ns.toNat }
        let s := match s.draftErr d with
          | some e => s.rejectDraft d e
          | none => s.loadDraft d
        s.tryAck
      else s)

/-- DRAFT_ACK of a child (R553, R557). -/
def State.childAck (s : State) (d : Draft) (m : Msg) : State :=
  let b := m.data
  let a : AckInfo := { child := m.src, accepted := bytesAt b 80 2, status := BitVec.ofNat 16 (bytesAt b 82 2), reason := bytesAt b 84 2,
                       lowest := bytesAt b 86 2, missing := (List.range (min 80 (bytesAt b 88 2))).map (fun i => BitVec.ofNat 14 (bytesAt b (90 + 2 * i) 2)) }
  { s with draft := some { d with acks := d.acks.filter (fun (x : AckInfo) => x.child != m.src) ++ [a], acked := false } }.tryAck

def execDraftAck (p : PortId) (m : Msg) (now : BitVec 64) (s : State) : Host.Outcome State Fault Refusal :=
  let r := s.jobIntake p m 0x42 now
  .next (match r.2 with
    | some d => if (r.1.treeKids d).contains m.src then r.1.childAck d m else r.1.jobDiscard p
    | none => r.1)

/-- DRAFT_ACK_TIMEOUT (R553): children that have not acknowledged are listed as missing. -/
def execDraftAckTimeout (now : BitVec 64) (s : State) : Host.Outcome State Fault Refusal := .next (s.at_ now).tryAck

/-! ### Substitution (R556, R557) -/

/-- Applies substitutions to map, MAP_DIGEST, groups and coherence domain, and acknowledges again when loaded. -/
def State.substitute (s : State) (d : Draft) (subs : List (Nat × NodeId)) : State :=
  let old := d.map
  let ms := subs.foldl (fun (l : List NodeId) e => l.set e.1 e.2) d.map
  let b := ms.flatMap (fun n => leBytes 2 n.toNat)
  let d := { d with map := ms, member := ms.idxOf s.nodeId, mapDigest := mapDigestOf b, acked := false }
  let s := { s.writeBytes (d.base + d.total) b with draft := some d }
  if d.loaded then
    let swap := fun (n : NodeId) => ms.getD (old.idxOf n) n
    let s := s.ctxs.foldl (fun s e => s.regroup (BitVec.ofNat 8 e.1) (e.2.members.map swap)) s
    let s := (s.loadDomain d).setFld F.GLB_JOB_MEMBER d.member
    s.tryAck
  else s

/-- Substitutions of a TREE_UPDATE. -/
def subsOf (b : List Byte) : List (Nat × NodeId) :=
  (List.range (bytesAt b 8 2)).map (fun i => (bytesAt b (10 + 4 * i) 2, BitVec.ofNat 14 (bytesAt b (12 + 4 * i) 2)))

/-- Payload of TREE_UPDATE. -/
def updateBytes (d : Draft) (subs : List (Nat × NodeId)) : List Byte :=
  leBytes 8 d.jobTag.toNat ++ leBytes 2 subs.length ++ subs.flatMap (fun e => leBytes 2 e.1 ++ leBytes 2 e.2.toNat)

/-- Applies substitutions and passes them down the tree of the updated map. -/
def State.applyUpdate (s : State) (d : Draft) (subs : List (Nat × NodeId)) : State :=
  let s := (s.substitute d subs).substituted d subs
  match s.draft with
  | some d => s.sendJobs (s.treeKids d) 0x43 0 (updateBytes d subs)
  | none => s

def execTreeUpdate (p : PortId) (m : Msg) (now : BitVec 64) (s : State) : Host.Outcome State Fault Refusal :=
  let r := s.jobIntake p m 0x43 now
  .next (match r.2 with
    | some d => r.1.applyUpdate d (subsOf m.data)
    | none => r.1)

/-! ### JOB_GO (R560) -/

/-- Tiles with a TILE_PROGRAM. -/
def State.programTiles (s : State) : List TileId := s.tileIds.filter (fun t => (s.tile t).program)

/-- A shuttle that a RESTORE has set to its mark runs on from there (R612). -/
def State.continueShuttle (s : State) (t : TileId) : State :=
  (s.setFld (tfld t F.SEQ_CTRL_RUN) 1).setFld (tfld t F.SEQ_CTRL_HALTED) 0

/-- Applies JOB_GO: less than 1 ms before BASE it is refused with TIMEOUT. -/
def State.goJob (s : State) (d : Draft) (base : Nat) (first : Pick) : State :=
  if s.jobState ≠ 2 then s
  else if base < s.clock.ns.toNat + 1000000 then s.raise draftSrc St.timeout []
  else
    let s := s.setFld F.TIME_PICK_BASE_BASE (wrapN 64 ((base : Int) - (first.toNat * s.periodNs : Nat)))
    let s := ({ s with draft := some { d with firstPick := first } }.setJob 3).setFld F.CKPT_STAT_STATE 1
    if s.resil.restored then
      { (s.programTiles.filter (fun t => !s.shuttleRuns t)).foldl State.continueShuttle s with resil := { s.resil with restored := false } }
    else s.programTiles.foldl (fun s t => s.seqCtrlWrite t 1) s

/-- Payload of JOB_GO. -/
def goBytes (d : Draft) (base : Nat) (first : Pick) : List Byte := leBytes 8 d.jobTag.toNat ++ leBytes 8 base ++ leBytes 6 first.toNat

/-- Passes JOB_GO down and applies it. -/
def State.jobGo (s : State) (d : Draft) (base : Nat) (first : Pick) : State :=
  (s.sendJobs (s.treeKids d) 0x44 0 (goBytes d base first)).goJob d base first

def execJobGo (p : PortId) (m : Msg) (now : BitVec 64) (s : State) : Host.Outcome State Fault Refusal :=
  let r := s.jobIntake p m 0x44 now
  .next (match r.2 with
    | some d => r.1.jobGo d (bytesAt m.data 8 8) (BitVec.ofNat 48 (bytesAt m.data 16 6))
    | none => r.1)

/-! ### Teardown (R563) -/

/-- Clears the window entries that the load wrote (R542). -/
def State.clearWindows (s : State) (l : List Nat) : State := l.foldl (fun s n => s.putWindow n (0, 0, 0)) s

/-- Begins a teardown: contexts, windows, weights, then a CMP reset. -/
def State.startTeardown (s : State) (d : Draft) (scrub : Bool) : State :=
  if s.jobState = 5 then s
  else
    let s := { s with draft := some { d with scrub := scrub } }.setJob 5
    let s := (s.ctxs.map (fun e => (BitVec.ofNat 8 e.1 : CtxId))).foldl State.colDestroy s
    ((s.clearWindows d.windows).defaultWeights).requestReset 3 0 3

/-- No job: CKPT_STAT.STATE is IDLE, and no area is reserved. -/
def State.clearCkpt (s : State) : State :=
  ((((s.setFld F.CKPT_STAT_STATE 0).setFld F.CKPT_STAT_COORD 0).setFld F.CKPT_STAT_DEGRADED 0).setFld F.CKPT_STAT_TWIN 0).setReg R.CKPT_AREA 0

/-- The job is over: TEARDOWN_DONE with the members done, and IDLE. -/
def State.endTeardown (s : State) : State :=
  match s.draft with
  | none => s
  | some d =>
    let kids := s.treeKids d
    if s.jobState = 5 && d.tearDone.any (fun e => e.1 == s.nodeId) && kids.all (fun n => d.tearDone.any (fun e => e.1 == n)) then
      let n := (d.tearDone.map Prod.snd).sum
      let s := match d.source with
        | some src => s.sendJob src 0x49 0 (leBytes 8 d.jobTag.toNat ++ leBytes 2 n)
        | none => s.tellHost d 0x35 St.ok [n]
      (({ s with draft := none, resil := { Resil.reset with fence := s.resil.fence, spareHold := s.resil.spareHold } }.setReg R.GLB_JOB 0).setReg
        R.GLB_JOB_TAG 0).clearCkpt
    else s

/-- The CMP reset of a teardown has completed: SCRUB zeroes HBM3 and LPDDR5X; without it the staging region is released. -/
def State.tornDown (s : State) : State :=
  match s.draft with
  | none => s
  | some d =>
    let s := if d.scrub then
        { (s.loseDram 0 lpBase).loseDram lpBase sramWindow with wcb := [] }
      else s
    { s with draft := some { d with tearDone := d.tearDone ++ [(s.nodeId, 1)] } }.endTeardown

/-- Passes TEARDOWN down and applies it. -/
def State.tearDown (s : State) (d : Draft) (scrub : Bool) : State :=
  (s.sendJobs (s.treeKids d) 0x48 0 (leBytes 8 d.jobTag.toNat ++ leBytes 1 (natOf scrub))).startTeardown d scrub

def execTeardown (p : PortId) (m : Msg) (now : BitVec 64) (s : State) : Host.Outcome State Fault Refusal :=
  let r := s.jobIntake p m 0x48 now
  .next (match r.2 with
    | some d => r.1.tearDown d (bitN (bytesAt m.data 8 1) 0)
    | none => r.1)

/-- JOB_ABANDON (R558): every member tears down. -/
def State.abandon (s : State) (d : Draft) (st : Status) : State :=
  (s.sendJobs (s.treeKids d) 0x45 0 (leBytes 8 d.jobTag.toNat ++ leBytes 2 st.toNat)).startTeardown d false

def execJobAbandon (p : PortId) (m : Msg) (now : BitVec 64) (s : State) : Host.Outcome State Fault Refusal :=
  let r := s.jobIntake p m 0x45 now
  .next (match r.2 with
    | some d => r.1.abandon d (BitVec.ofNat 16 (bytesAt m.data 8 2))
    | none => r.1)

def execTeardownDone (p : PortId) (m : Msg) (now : BitVec 64) (s : State) : Host.Outcome State Fault Refusal :=
  let r := s.jobIntake p m 0x49 now
  .next (match r.2 with
    | some d =>
      { r.1 with draft := some { d with tearDone := d.tearDone.filter (fun (e : NodeId × Nat) => e.1 != m.src) ++ [(m.src, bytesAt m.data 8 2)] } }.endTeardown
    | none => r.1)

/-! ### Drain (R561, R562) -/

/-- Payload of DRAIN_DONE. -/
def drainBytes (d : Draft) (last : Pick) (st : Status) (n : Nat) : List Byte :=
  leBytes 8 d.jobTag.toNat ++ leBytes 6 last.toNat ++ leBytes 2 st.toNat ++ leBytes 2 n

/-- DRAIN_DONE of this node's subtree, once the node and every child are done. -/
def State.reportDrain (s : State) : State :=
  match s.draft with
  | none => s
  | some d =>
    if d.drainDone.any (fun e => e.1 == s.nodeId) && (s.treeKids d).all (fun n => d.drainDone.any (fun e => e.1 == n)) then
      let n := (d.drainDone.map (fun e => e.2.1)).sum
      let st := ((d.drainDone.map (fun e => e.2.2)).find? (fun c => c != St.ok)).getD St.ok
      let s := { s with draft := some { d with drainDone := [] } }
      match d.source with
      | some src => s.sendJob src 0x47 0 (drainBytes d d.drainAsked st n)
      | none => s.tellHost d 0x34 st [d.drainAsked.toNat, n]
    else s

/-- This node's own part of the drain has ended. -/
def State.ownDrain (s : State) (d : Draft) (n : Nat) (st : Status) : State :=
  { s with draft := some { d with drainDone := d.drainDone.filter (fun (e : NodeId × Nat × Status) => e.1 != s.nodeId) ++ [(s.nodeId, n, st)] } }.reportDrain

/-- JOB_DRAIN at this node: refused with TIMEOUT less than 1 ms before S(LAST_PICK + 1). -/
def State.drainJob (s : State) (d : Draft) (last : Pick) (final : Bool) : State :=
  let d := { d with drainAsked := last }
  if s.jobState ≠ 3 ∨ s.pickStartNs (last.toNat + 1) < s.clock.ns.toNat + 1000000 then s.ownDrain d 0 St.timeout
  else { s with draft := some { d with drainLast := some (last, final) } }

/-- Passes JOB_DRAIN down and applies it. -/
def State.jobDrain (s : State) (d : Draft) (last : Pick) (final : Bool) : State :=
  (s.sendJobs (s.treeKids d) 0x46 0 (leBytes 8 d.jobTag.toNat ++ leBytes 6 last.toNat ++ leBytes 1 (natOf final))).drainJob d last final

def execJobDrain (p : PortId) (m : Msg) (now : BitVec 64) (s : State) : Host.Outcome State Fault Refusal :=
  let r := s.jobIntake p m 0x46 now
  .next (match r.2 with
    | some d => r.1.jobDrain d (BitVec.ofNat 48 (bytesAt m.data 8 6)) (bitN (bytesAt m.data 14 1) 0)
    | none => r.1)

def execDrainDone (p : PortId) (m : Msg) (now : BitVec 64) (s : State) : Host.Outcome State Fault Refusal :=
  let r := s.jobIntake p m 0x47 now
  .next (match r.2 with
    | some d =>
      let e := (m.src, bytesAt m.data 16 2, (BitVec.ofNat 16 (bytesAt m.data 14 2) : Status))
      { r.1 with draft := some { d with drainDone := d.drainDone.filter (fun (e : NodeId × Nat × Status) => e.1 != m.src) ++ [e] } }.reportDrain
    | none => r.1)

/-- Has a draining node finished (R562): shuttles halted, copies and collectives done, the input log acknowledged, the digest
record of LAST_PICK written, and with FINAL_SNAPSHOT a snapshot of LAST_PICK committed? -/
def State.drainReady (s : State) (last : Pick) (final : Bool) : Bool :=
  s.tileIds.all (fun t => !s.shuttleRuns t && (List.range 4).all (fun k => ((s.tile t).copyQ k).isEmpty)) &&
  s.ctxs.all (fun e => e.2.pending == 0) && s.resil.ackedLsn == s.resil.lsn && s.resil.held.isEmpty &&
  s.pick != noPick && decide (last ≤ s.pick) && s.clock.digests.all (fun d => decide (last < d.1)) &&
  (!final || s.resil.recs.any (fun r => r.committed && r.markPick == last.toNat))

/-- DRAIN_COMPLETE (R562). -/
def execDrainComplete (now : BitVec 64) (s : State) : Host.Outcome State Fault Refusal :=
  let s := s.at_ now
  .next (match s.draft with
    | none => s
    | some d =>
      match d.drainLast with
      | none => s
      | some (last, final) =>
        if s.jobState = 3 ∧ d.drained = false ∧ s.drainReady last final = true then
          (s.setJob 4).ownDrain { d with drained := true } 1 St.ok
        else s)

/-! ### Completion of a reset -/

/-- RESET_COMPLETE (R680): the oldest CMP, FAB or FWP reset in progress completes. A teardown goes on after its CMP reset,
and a loaded node acknowledges again (Table 13-10). -/
def execResetComplete (s : State) : Host.Outcome State Fault Refusal :=
  .next (match s.nextReset with
    | none => s
    | some (r, s) =>
      let s := s.resetDone r.1 r.2.1 r.2.2
      if r.1 = 3 ∧ s.jobState = 5 then s.tornDown
      else if r.1 = 3 ∧ s.jobState = 2 then
        match s.draft with
        | some d => s.sendAck d
        | none => s
      else s)

/-! ### RDMA (R546) -/

/-- The staging region: that of the draft held, else the largest there can be. -/
def State.rdmaLow (s : State) : Nat :=
  match s.draft with
  | some d => d.base
  | none => stagingBase (2 ^ 32) 16384

/-- An answer of the RoCEv2 responder. -/
def State.rdmaAnswer (s : State) (e : EthId) (ok : Bool) (n : Nat) : State :=
  { s with hostOut := s.hostOut ++ [{ session := 0, type := 0, seq := 0, status := if ok then St.ok else St.accessBlocked, notify := false,
                                      args := [e.val, n], data := [] }] }

/-- RDMA_WRITE (R546, R547): a write outside the staging region receives a remote access error. -/
def execRdmaWrite (e : EthId) (off : BitVec 48) (d : List Byte) (s : State) : Host.Outcome State Fault Refusal :=
  let a := off.toNat
  .next (
    if !s.bit (F.ETH_PORT_STAT_UP.plus (8 * e.val)) then s
    else if decide (s.rdmaLow ≤ a) && decide (a + d.length ≤ 0x030000000000) && s.memStatus a d.length == St.ok then
      ((s.writeBytes a d).logNote Lt.external a d).rdmaAnswer e true d.length
    else s.rdmaAnswer e false d.length)

/-- RDMA_SEND (R546): acknowledged; the manual gives a received message no effect. -/
def execRdmaSend (e : EthId) (d : List Byte) (s : State) : Host.Outcome State Fault Refusal :=
  .next (if s.bit (F.ETH_PORT_STAT_UP.plus (8 * e.val)) then s.rdmaAnswer e true d.length else s)

end Sys2Proof.Machine
end

