-- ==== Sys2Proof/Machine/RegBus.lean ====
section
/-! DEFINITION. Space type 01 (R8 to R14, R693 to R699): what a register access reads and what it does. Fields that show
live hardware are laid over the stored words; registers whose write is an action have it here; the rest follow their
access codes. Readings of the manual are assumption log 33. -/

namespace Sys2Proof.Machine

/-! ### Live fields -/

/-- A word with a field replaced. -/
def put (v : BitVec 64) (f : Fld) (n : Nat) : BitVec 64 := withBits v f.hi f.lo n

/-- Operations queued or running on an engine. -/
def Tile.engPending (x : Tile) (k : Nat) : Nat := (x.queue k).length + natOf (x.running k).isSome

/-- Tile registers as read: PENDING and BUSY of the engines, PENDING of the copy queues, the open digest bank. -/
def State.tileLive (s : State) (t : TileId) (o : Nat) (v : BitVec 64) : BitVec 64 :=
  let x := s.tile t
  let eng := fun (k : Nat) (pend busy : Fld) => put (put v pend (x.engPending k)) busy (natOf (x.running k).isSome)
  if o = 0x1000 then eng 0 F.TENSOR_STAT_PENDING F.TENSOR_STAT_BUSY
  else if o = 0x2000 then eng 1 F.ELEM_STAT_PENDING F.ELEM_STAT_BUSY
  else if o = 0x3000 then eng 2 F.SOLVER_STAT_PENDING F.SOLVER_STAT_BUSY
  else if o = 0x5000 then eng 3 F.BOBBIN_STAT_PENDING F.BOBBIN_STAT_BUSY
  else if 0x4000 ≤ o ∧ o < 0x4020 then put v F.COPY_QSTAT_PENDING (x.copyQ ((o - 0x4000) / 8)).length
  else if o = 0x7000 then put v F.DIGEST_STAT_STALL (natOf (x.waiting == some .bank))
  else if 0x7100 ≤ o ∧ o < 0x7180 then
    match x.cur.bind (fun p => x.banks.find? (fun b => b.pick == p && !b.closed)) with
    | some b => put v F.DIGEST_ACC_ACC (Tab.get (fun _ => 0) b.acc ((o - 0x7100) / 8))
    | none => put v F.DIGEST_ACC_ACC 0
  else v

/-- Thread t of core c. -/
def hartOf (c t : Nat) : HartId := BitVec.ofNat 10 (8 * c + t)

/-- A bit map over the threads of a core. -/
def State.threadMap (s : State) (c : Nat) (f : Hart → Bool) : Nat :=
  ((List.range 8).map (fun t => if f (s.hart (hartOf c t)) then 2 ^ t else 0)).sum

/-- CPU_CORE_STAT of core c. -/
def State.coreStat (s : State) (c : Nat) (v : BitVec 64) : BitVec 64 :=
  let v := put v F.CPU_CORE_STAT_HALTED (s.threadMap c (fun x => x.st == .notStarted || x.st == .wfi))
  let v := put v F.CPU_CORE_STAT_PARKED (s.threadMap c (fun x => x.st == .parked))
  let v := put v F.CPU_CORE_STAT_READY (s.threadMap c (fun x => x.st == .ready))
  let v := put v F.CPU_CORE_STAT_IDLE (natOf (s.threadMap c (fun x => x.st == .running) == 0))
  put v F.CPU_CORE_STAT_RUNNING (Tab.get (fun _ => 0) s.running c)

/-- Does a tile show an error (GLB_TILE_ERR)? -/
def State.tileErr (s : State) (t : TileId) : Bool :=
  s.bit (tfld t F.SEQ_CTRL_TRAP) || (List.range 4).any (fun k => s.bit ((tfld t F.COPY_QSTAT_ERR).plus (8 * k))) ||
    s.bit (tfld t F.TENSOR_STAT_ERR) || s.bit (tfld t F.ELEM_STAT_ERR) || s.bit (tfld t F.SOLVER_STAT_ERR) || s.bit (tfld t F.BOBBIN_STAT_ERR)

/-- Word w of GLB_TILE_ERR. -/
def State.tileErrWord (s : State) (w : Nat) : Nat :=
  ((List.range 64).map (fun i => if s.tileErr (BitVec.ofNat 8 (64 * w + i)) then 2 ^ i else 0)).sum

/-- GLB_ERR_SUMMARY: the OR of its sources (R699). -/
def State.errSummary (s : State) : Nat :=
  let b := fun (n : Nat) (c : Bool) => if c then 2 ^ n else 0
  let downs := fun (d : Nat) => (List.range 10).any (fun i => s.bit (pfld (Fin.ofNat 20 (10 * d + i)) F.FAB_PORT_STAT_DOWN_EV))
  b 16 (s.bit F.GLB_FATAL_VALID) + b 13 ((List.range 9).any (fun k => s.bit (F.GLB_D2D_ERR_FAILED.plus (8 * k)))) +
  b 12 (s.bit F.SEC_STAT_RECOVERY) + b 11 (s.bit F.CKPT_STAT_ERR) + b 10 ((List.range 6).any (fun p => s.bit (fwpFld p F.FWP_STAT_HELD))) +
  b 9 (s.bit F.PWR_STATE_REFUSED || s.bit F.PWR_OFF_CAUSE_VALID) +
  b 8 ((List.range 2).any (fun e => bitN (s.fld F.TIME_PTP_CFG_PORT_EN) e && !s.bit (F.ETH_PORT_STAT_UP.plus (8 * e)))) +
  b 7 (s.bit F.TIME_STAT_EV) + b 6 (s.bit F.COL_STAT_ERR) + b 5 (downs 1) + b 4 (downs 0) + b 3 (s.bit F.NAND_STAT_ERR) +
  b 2 ((List.finRange 44).any (fun c => s.bit (cfld c F.MEM_STAT_ERR) || s.bit (cfld c F.MEM_STAT_FAILED))) +
  b 1 (s.fld F.CPU_CACHE_ECC_UNCORR != 0) + b 0 ((List.range 4).any (fun w => s.tileErrWord w != 0))

/-- Global registers as read. -/
def State.glbLive (s : State) (o : Nat) (v : BitVec 64) : BitVec 64 :=
  if o = 0x08 then Config.serial
  else if o = 0x10 then put v F.GLB_CAPS_FMAX_MIN ((List.range 5).foldl (fun m d => min m (1900 + Config.fmaxExtra d)) (1900 + Config.fmaxExtra 0))
  else if o = 0x40 then BitVec.ofNat 64 s.errSummary
  else if 0x48 ≤ o ∧ o < 0x68 then BitVec.ofNat 64 (s.tileErrWord ((o - 0x48) / 8))
  else v

/-- Collective registers as read. -/
def State.colLive (s : State) (o : Nat) (v : BitVec 64) : BitVec 64 :=
  if o = 0 then
    put (put v F.COL_STAT_CONTEXTS s.ctxs.length) F.COL_STAT_ACTIVE (s.ctxs.filter (fun e => decide (0 < e.2.pending))).length
  else if 0x1000 ≤ o ∧ o < 0x1800 then
    match s.ctx (BitVec.ofNat 8 ((o - 0x1000) / 8)) with
    | some x =>
      let v := put v F.COL_CTX_STAT_PENDING x.pending
      if 0 < x.pending ∧ bitsOf v 62 61 = 0 then put v F.COL_CTX_STAT_STATE 1 else v
    | none => v
  else v

/-- The word at an offset as a read returns it, before any RC field clears. -/
def State.liveReg (s : State) (off : Nat) : BitVec 64 :=
  let v := s.reg off
  match blockAt off with
  | none => 0
  | some (.tile, o) => s.tileLive (BitVec.ofNat 8 (off / 0x10000)) o v
  | some (.cpu, o) => if 0x1000 ≤ o ∧ o < 0x1400 then s.coreStat ((o - 0x1000) / 8) v else v
  | some (.mem, o) =>
    if o = 0x18 then
      let c : CtrlId := if off < 0x20C0000 then Fin.ofNat 44 ((off - 0x2000000) / 0x10000) else Fin.ofNat 44 (12 + (off - 0x2100000) / 0x10000)
      put v F.MEM_WCB_OCCUPIED (s.wcbOf c).length
    else v
  | some (.fab, o) => if o = 0x28 then put v F.FAB_CONG_ENTRIES (s.cong.filter (fun c => c.1 == natOf (decide (0x3400000 ≤ off)))).length else v
  | some (.col, o) => s.colLive o v
  | some (.time, o) => if o = 0 then s.clock.ns else v
  | some (.mbx, o) =>
    if o = 0 then put v F.MBX_STAT_SESSIONS (s.fw.sessions.filter Session.opened).length
    else if o = 8 then put v F.MBX_EVQ_PENDING s.rings.host.length
    else v
  | some (.sec, o) =>
    if o = 0 then put (put v F.SEC_STAT_SIG_REQUIRED (natOf s.fw.sigRequired)) F.SEC_STAT_ENROLLED (natOf (!s.fw.ownerKey.isEmpty)) else v
  | some (.eth, o) => put (put v ⟨0, 1, 1⟩ (bitsOf v 0 0)) ⟨0, 2, 2⟩ (natOf (bitN (s.fld F.TIME_PTP_CFG_PORT_EN) (o / 8)))
  | some (.pwr, o) =>
    if 0x100 ≤ o ∧ o < 0x138 then put v F.MON_DIE_FMAX (if o < 0x128 then 1900 + Config.fmaxExtra ((o - 0x100) / 8) else 0) else v
  | some (.glb, o) => s.glbLive o v
  | some (.nand, _) => v
  | some (.ckpt, _) => v

/-! ### Reading -/

/-- RC fields clear when read; MON_DROOP.VMIN then reads its reset value until a sample is taken. -/
def clearRc (v : BitVec 64) : List FieldDesc → BitVec 64
  | [] => v
  | f :: l => clearRc (if f.acc = .rc then withBits v f.hi f.lo f.rst else v) l

/-- An 8-byte read of the register at an offset: the word and the state after it (R12, R14). -/
def State.busRead (s : State) (q : Requester) (off : Nat) : BitVec 64 × State :=
  if !s.reaches q off then (0, s)
  else
    match regAt off with
    | none => (0, s)
    | some r =>
      let v := s.liveReg off
      let s := if off = R.TIME_NOW then s.setFld F.TIME_FRAC_FRAC (s.clock.frac.toNat / 65536) else s
      (v, if r.fields.any (fun f => f.acc == .rc) then s.setReg off (clearRc (s.reg off) r.fields) else s)

/-! ### Writing -/

/-- The word after a write by access codes: RW fields take the written bits, W1C and W1S bits clear and set (R12). -/
def writeFields (q : Requester) (off : Nat) (old new : BitVec 64) : List FieldDesc → BitVec 64
  | [] => old
  | f :: l =>
    let n := bitsOf new f.hi f.lo
    let o := bitsOf old f.hi f.lo
    let v := if writerOk q off f.acc then
        match f.acc with
        | .rw => withBits old f.hi f.lo n
        | .w1c => withBits old f.hi f.lo (o - Nat.land o n)
        | .w1s => withBits old f.hi f.lo (Nat.lor o n)
        | _ => old
      else old
    writeFields q off v new l

/-- A write by access codes alone. -/
def State.plainWrite (s : State) (q : Requester) (off : Nat) (v : BitVec 64) : State :=
  match regAt off with
  | none => s
  | some r => s.setReg off (writeFields q off (s.reg off) v r.fields)

/-- A write by access codes with a condition on the fields it would set. -/
def State.writeIf (s : State) (c : Bool) (q : Requester) (off : Nat) (v : BitVec 64) : State := if c then s.plainWrite q off v else s

/-- GO of CPU_START: all harts start at ADDR in machine mode; thread 0 of each core runs first. -/
def State.startHarts (s : State) : State :=
  let pc := BitVec.ofNat 64 (4 * s.fld F.CPU_START_ADDR)
  { s.setFld F.CPU_START_STARTED 1 with
    harts := (List.range 1024).map (fun n => (n, { s.hart (BitVec.ofNat 10 n) with
      pc := pc, machineMode := true, st := if n % 8 = 0 then .running else .ready })),
    running := (List.range 128).map (fun c => (c, 0)) }

/-- A write of CPU_START: ADDR is set, GO starts the harts unless STARTED is 1. The die must be in service. -/
def State.cpuStart (s : State) (q : Requester) (v : BitVec 64) : State :=
  let s := s.plainWrite q R.CPU_START v
  if bitN v.toNat 0 && !s.bit F.CPU_START_STARTED && s.ready 12 then s.startHarts else s

/-- Registers of a fabric die that only FBC0 and FBC1 write (R436). -/
def fbcOnly (o : Nat) : Bool := o == 0 || (decide (0x200 ≤ o) && decide (o < 0x250)) || (decide (0x1000 ≤ o) && decide (o < 0x1800))

/-- Registers of which both fabric dies hold the same copy (R431): node number, time limit, window table. -/
def bothDies (o : Nat) : Bool := decide (o ≤ 8) || (decide (0x1000 ≤ o) && decide (o < 0x1800))

/-- A write to a fabric die's block. -/
def State.fabWrite (s : State) (q : Requester) (off : Nat) (v : BitVec 64) : State :=
  let o := off % 0x400000
  let die := (off - 0x3000000) / 0x400000
  let other := if die = 0 then off + 0x400000 else off - 0x400000
  if fbcOnly o && (regAt off).isSome && !Requester.isFbc q then
    (s.countWrap (F.FAB_WIN_REFUSED_WRITES.plus (dieBase die)) 1).raise (0x300 + 0x40 * die) St.accessBlocked []
  else if o = 8 ∧ ¬ (2 ≤ bitsOf v 15 0 ∧ bitsOf v 15 0 ≤ 1000) then s
  else
    let s := s.plainWrite q off v
    if bothDies o then s.plainWrite q other v else s

/-- A write of FWP_WDT[p]: PERIOD from processor p alone, 10 to 1,000; KICK restarts the period. -/
def State.wdtWrite (s : State) (q : Requester) (p : Nat) (v : BitVec 64) : State :=
  let n := bitsOf v 15 1
  let own := match q with | .fw k => k.val == p | _ => false
  let s := if own && decide (10 ≤ n) && decide (n ≤ 1000) then s.setFld (fwpFld p F.FWP_WDT_PERIOD) n else s
  if bitN v.toNat 0 then { s with fw := { s.fw with kicked := Tab.set p s.clock.ns.toNat s.fw.kicked } } else s

/-- Plans are within range and no draft is loaded (R46, R690). -/
def State.planOk (s : State) (clock cap : Nat) : Bool := decide (clock < 3) && decide (16 ≤ cap) && decide (cap ≤ 26) && s.jobState == 0

/-- A write to the collective engine's block. -/
def State.colWrite (s : State) (q : Requester) (o off : Nat) (v : BitVec 64) : State :=
  if o = 8 then s.colSubmit (bitsOf v 47 6 * 64)
  else if o = 0x10 then s.writeIf (bitsOf v 15 0 != 0) q off v
  else if 0x2000 ≤ o ∧ o < 0x2800 then s.colPolicyWrite q (BitVec.ofNat 8 ((o - 0x2000) / 8)) v
  else if 0x2800 ≤ o ∧ o < 0x3000 then s.colCtl q (BitVec.ofNat 8 ((o - 0x2800) / 8)) v
  else s.plainWrite q off v

/-- A write to the timebase's block. -/
def State.timeWrite (s : State) (q : Requester) (o off : Nat) (v : BitVec 64) : State :=
  if o = 0x38 then (if Requester.isFw q then s.rebaseAt v else s)
  else if o = 0x50 then s.diglogTail v
  else if o = 0x18 then (s.plainWrite q off v).assignParent
  else s.plainWrite q off v

/-- A write to the power block. -/
def State.pwrWrite (s : State) (q : Requester) (o off : Nat) (v : BitVec 64) : State :=
  if o = 0 then s.writeIf (s.planOk (bitsOf v 1 0) (bitsOf v 15 8)) q off v
  else if o = 8 then (if bitN v.toNat 7 then s.setFld F.PWR_STATE_REFUSED 0 else s).targetWrite q v
  else if o = 0x20 then s.resetWrite q v
  else s.plainWrite q off v

/-- An 8-byte write of the register at an offset (R10 to R13). -/
def State.busWrite (s : State) (q : Requester) (off : Nat) (v : BitVec 64) : State :=
  if !s.reaches q off then s
  else
    match blockAt off with
    | none => s
    | some (.tile, o) =>
      let t : TileId := BitVec.ofNat 8 (off / 0x10000)
      if o = 0 then s.seqCtrlWrite t v
      else if 0x4100 ≤ o ∧ o < 0x4300 ∧ o % 8 = 0 then s.arriveWrite t ((o - 0x4100) / 8) v 0
      else s.plainWrite q off v
    | some (.cpu, o) => if o = 8 then s.cpuStart q v else s.plainWrite q off v
    | some (.mem, o) =>
      if o = 0x18 then
        s.drainWrite (if off < 0x20C0000 then Fin.ofNat 44 ((off - 0x2000000) / 0x10000) else Fin.ofNat 44 (12 + (off - 0x2100000) / 0x10000)) v
      else s.plainWrite q off v
    | some (.fab, _) => s.fabWrite q off v
    | some (.col, o) => s.colWrite q o off v
    | some (.time, o) => s.timeWrite q o off v
    | some (.mbx, o) => if 0x1040 ≤ o ∧ o < 0x1070 ∧ o % 8 = 0 then s.wdtWrite q ((o - 0x1040) / 8) v else s.plainWrite q off v
    | some (.pwr, o) => s.pwrWrite q o off v
    | some (.nand, _) => s.plainWrite q off v
    | some (.eth, _) => s.plainWrite q off v
    | some (.ckpt, _) => s.plainWrite q off v
    | some (.sec, _) => s.plainWrite q off v
    | some (.glb, _) => s.plainWrite q off v

/-- Is an access to space type 01 whole: 8 bytes, 8-byte aligned (R9)? -/
def regShape (off size : Nat) : Bool := size == 8 && off % 8 == 0

/-! ### Meanings -/

/-- READ_CLEAR_REGISTER (R14): a read of the register at offset `a`. -/
def execReadClearRegister (q : Requester) (a : BitVec 48) (size : Nat) (s : State) : Host.Outcome State Fault Refusal :=
  .next (if regShape a.toNat size then (s.busRead q a.toNat).2 else s)

/-- REGISTER_WRITE (R12): a write of the register at offset `a`. -/
def execRegisterWrite (q : Requester) (a : BitVec 48) (size : Nat) (v : BitVec 64) (s : State) : Host.Outcome State Fault Refusal :=
  .next (if regShape a.toNat size && q != .host then s.busWrite q a.toNat v else s)

/-- SEQ_CTRL_RUN (R129). -/
def execSeqCtrlRun (q : Requester) (t : TileId) (v : BitVec 64) (s : State) : Host.Outcome State Fault Refusal :=
  .next (if s.reaches q (tileBase t) && q != .host then s.seqCtrlWrite t v else s)

/-- COPY_ARRIVE_WRITE (R139), with the increments that meet it. -/
def execCopyArriveWrite (q : Requester) (t : TileId) (n : BitVec 6) (v : BitVec 64) (same : Nat) (s : State) : Host.Outcome State Fault Refusal :=
  .next (if s.reaches q (tileBase t) && q != .host then s.arriveWrite t n.toNat v same else s)

/-- CPU_START_GO (R306). -/
def execCpuStartGo (q : Requester) (v : BitVec 64) (s : State) : Host.Outcome State Fault Refusal :=
  .next (if s.reaches q R.CPU_START && q != .host then s.cpuStart q v else s)

/-- DRAIN (R372): a write of MEM_WCB. -/
def execDrain (q : Requester) (c : CtrlId) (v : BitVec 64) (s : State) : Host.Outcome State Fault Refusal :=
  .next (if s.reaches q (R.MEM_WCB + ctrlBase c) && q != .host then s.drainWrite c v else s)

/-- FAB_WINDOW_WRITE (R436): a write of a register of a fabric die that only FBC0 and FBC1 write. -/
def execFabWindowWrite (q : Requester) (off : BitVec 24) (v : BitVec 64) (s : State) : Host.Outcome State Fault Refusal :=
  let a := 0x3000000 + off.toNat % 0x800000
  .next (if s.reaches q a && a % 8 == 0 && q != .host then s.fabWrite q a v else s)

/-- KICK (R619): processor p writes KICK. -/
def execKick (p : FwpId) (now : BitVec 64) (s : State) : Host.Outcome State Fault Refusal :=
  .next ((s.at_ now).wdtWrite (.fw p) p.val 1)

/-- SHUTTLE_DEFERRED_START (R677): a kept RUN starts the shuttle once its die is in service. -/
def execShuttleDeferredStart (t : TileId) (s : State) : Host.Outcome State Fault Refusal :=
  .next (if s.bit (tfld t F.SEQ_CTRL_RUN) && !s.shuttleRuns t && s.tileReady t then s.startShuttle t else s)

end Sys2Proof.Machine
end

