-- ==== Sys2Proof/Machine/Copy.lean ====
section
/-! DEFINITION. The copy engine (R130 to R137, R353, R702, R703): the descriptor and its checks, the rows that stay in the
node, the parts that cross the fabric, the arrival and completion counters, and the meanings of its commands. Readings
of the manual are assumption log 34. -/

namespace Sys2Proof.Machine

/-! ### The descriptor -/

/-- A copy descriptor (Table 3-7); `resv` says that a reserved field is not 0. -/
structure CopyDesc where
  src : BitVec 64
  dst : BitVec 64
  len : Nat
  rows : Nat
  op : Nat
  route : Nat
  sstride : Int
  dstride : Int
  idx : Nat
  arrLocal : Bool
  arrNode : NodeId
  arrTile : TileId
  arrEn : Bool
  arrCtr : BitVec 6
  doneEn : Bool
  doneCtr : BitVec 6
  resv : Bool
deriving DecidableEq, Repr

def CopyDesc.of (d : List Byte) : CopyDesc :=
  let a := bytesAt d 40 2
  let op := bytesAt d 22 1 % 16
  let route := bytesAt d 23 1 / 16
  { src := BitVec.ofNat 64 (bytesAt d 0 8), dst := BitVec.ofNat 64 (bytesAt d 8 8), len := bytesAt d 16 4, rows := bytesAt d 20 2,
    op := op, route := route, sstride := signed 32 (bytesAt d 24 4), dstride := signed 32 (bytesAt d 28 4), idx := bytesAt d 32 8,
    arrLocal := bitN a 15, arrNode := BitVec.ofNat 14 a, arrTile := BitVec.ofNat 8 (bytesAt d 42 1), arrEn := bitN (bytesAt d 43 1) 7,
    arrCtr := BitVec.ofNat 6 (bytesAt d 43 1), doneEn := bitN (bytesAt d 44 1) 7, doneCtr := BitVec.ofNat 6 (bytesAt d 44 1),
    resv := bytesAt d 22 1 / 16 != 0 || bytesAt d 23 1 % 16 != 0 || (op != 5 && route != 0) || bitN a 14 || bitN (bytesAt d 43 1) 6 ||
      bitN (bytesAt d 44 1) 6 || (d.drop 45).any (· != 0) }

/-- A field of SEQ_ROUTE[n]. -/
def State.routeFld (s : State) (t : TileId) (f : Fld) (n : Nat) : Nat := s.fld ((f.plus (8 * n)).plus (tileBase t))

/-- Where the address of row i of a route's destination lies in the destination's SRAM, and that of its source. -/
def CopyDesc.routeDst (d : CopyDesc) (i : Nat) : Int := (d.dst.toNat : Int) + i * d.dstride
def CopyDesc.routeSrc (d : CopyDesc) (i : Nat) : Int := (d.src.toNat : Int) + i * d.sstride

/-- Do n bytes from offset o lie in a region of `size` bytes? -/
def within (o : Int) (n size : Nat) : Bool := decide (0 ≤ o) && decide (o + n ≤ size)

/-- The checks of R133. -/
def State.copyOk (s : State) (t : TileId) (d : CopyDesc) : Bool :=
  let fld := fun (f : Fld) => s.routeFld t f d.route
  !d.resv && decide (1 ≤ d.op) && decide (d.op ≤ 5) && !(d.arrLocal && d.arrNode != 0) &&
  (!(d.op == 2 || d.op == 3) || (d.idx % 8 == 0 && decide (d.idx + 8 * d.rows ≤ 0x800000))) &&
  (d.op != 5 ||
    (fld F.SEQ_ROUTE_VALID == 1 && fld F.SEQ_ROUTE_DEST_SIZE != 0 &&
      (!d.arrEn || (d.arrLocal && d.arrTile.toNat == fld F.SEQ_ROUTE_DEST_TILE)) &&
      (d.len == 0 || (List.range d.rows).all (fun i =>
        within (d.routeDst i) d.len (64 * fld F.SEQ_ROUTE_DEST_SIZE) && within (d.routeSrc i) d.len 0x800000))))

/-! ### Addresses -/

/-- What a global address names (Table 10-7, R308, R703). -/
inductive Place where
  | mem (a : Nat)
  | reg (off : Nat)
  | far (n : NodeId) (a : Nat)
  | blocked
deriving DecidableEq, Repr

def addrNode (a : BitVec 64) : NodeId := BitVec.ofNat 14 (bitsOf a 61 48)

def State.placeOf (s : State) (a : BitVec 64) : Place :=
  let o := bitsOf a 47 0
  if bitsOf a 63 62 = 0 then (if s.isLocal (addrNode a) then .mem o else .far (addrNode a) o)
  else if bitsOf a 63 62 = 1 then (if s.isLocal (addrNode a) then .reg o else .blocked)
  else .blocked

/-- Is the place in the node? -/
def Place.local_ : Place → Bool
  | .far _ _ => false
  | _ => true

/-- The check of one range before any byte moves (R353, R703, R9). -/
def State.placeStatus (s : State) (n : Nat) : Place → Status
  | .mem a => s.memStatus a n
  | .reg o => if o % 8 = 0 ∧ n % 8 = 0 then St.ok else St.badDescriptor
  | .far _ _ => St.ok
  | .blocked => St.accessBlocked

/-- Source and destination of row i; FILL has no source (R131, R702). `idx` is the index list. -/
def CopyDesc.row (d : CopyDesc) (idx : List Byte) (i : Nat) : Option (BitVec 64) × BitVec 64 :=
  let step := fun (b : BitVec 64) (k : Int) => b + BitVec.ofInt 64 (i * k)
  let ix := BitVec.ofNat 64 (bytesAt idx (8 * i) 8)
  let src := if d.op = 4 then none else if d.op = 2 then some (d.src + ix) else some (step d.src d.sstride)
  (src, if d.op = 3 then d.dst + ix else step d.dst d.dstride)

/-- Byte k of a FILL row (R702). -/
def fillByte (pat : BitVec 64) (k : Nat) : Byte := BitVec.ofNat 8 (pat.toNat / 256 ^ (k % 8))

/-! ### Moving bytes inside the node -/

/-- Reads n bytes at a place of the node; none when a word is uncorrectable. -/
def State.pull (s : State) (t : TileId) (n : Nat) : Place → State × Option (List Byte)
  | .mem a => if s.badRead a n then (s.noteRead a n, none) else (s, some (s.bytes a n))
  | .reg o =>
    let r := (List.range (n / 8)).foldl (fun (a : State × List Byte) i =>
      let q := a.1.busRead (.copy t) (o + 8 * i)
      (q.2, a.2 ++ leBytes 8 q.1.toNat)) (s, [])
    (r.1, some r.2)
  | _ => (s, none)

/-- Writes bytes at a place of the node. -/
def State.place (s : State) (t : TileId) (d : List Byte) : Place → State
  | .mem a => s.writeBytes a d
  | .reg o => (List.range (d.length / 8)).foldl (fun s i => s.busWrite (.copy t) (o + 8 * i) (BitVec.ofNat 64 (bytesAt d (8 * i) 8))) s
  | _ => s

/-- The bytes of a row, or part of a row from byte `pos` of it, whose source lies in the node. -/
def State.rowBytes (s : State) (t : TileId) (d : CopyDesc) (src : Option (BitVec 64)) (pos n : Nat) : State × Option (List Byte) :=
  match src with
  | none => (s, some ((List.range n).map (fun k => fillByte d.src (pos + k))))
  | some a => s.pull t n (s.placeOf a)

/-- What a local access needs of the span directory first (R445). -/
def State.placeRecall (s : State) (n : Nat) (write : Bool) : Place → Option State
  | .mem a => s.recall a n write []
  | _ => none

/-- Gives undefined bytes to every local destination byte of a failed copy (R20, R353). -/
def State.spoilCopy (s : State) (d : CopyDesc) (rows : List (Option (BitVec 64) × BitVec 64)) : State :=
  rows.foldl (fun s r =>
    match s.placeOf r.2 with
    | .mem a => let b := s.drawBytes d.len; b.2.writeBytes a b.1
    | _ => s) s

/-! ### Parts that cross the fabric -/

/-- Cuts n bytes into parts that cross no 256-byte granule at either end (R413). The first number is fuel. -/
def cutPieces : Nat → Option (BitVec 64) → BitVec 64 → BitVec 64 → Nat → Nat → List CopyPiece
  | 0, _, _, _, _, _ => []
  | f + 1, src, pat, dst, pos, n =>
    if n = 0 then []
    else
      let a := match src with | some a => 256 - a.toNat % 256 | none => 256
      let k := min n (min a (256 - dst.toNat % 256))
      ⟨match src with | some a => a | none => pat, dst, k, pos⟩ ::
        cutPieces f (src.map (· + BitVec.ofNat 64 k)) pat (dst + BitVec.ofNat 64 k) (pos + k) (n - k)

/-- One part has arrived or been read: it is written here, or sent on with WR. -/
def State.copyPut (s : State) (t : TileId) (k : QId) (n : Word) (p : CopyPiece) (d : List Byte) : State :=
  match s.placeOf p.dst with
  | .far m a =>
    if s.replaying then s
    else
      let r := s.ask (.copy t k n) m 3 2 a d.length d
      if r.2.1 = St.ok then r.1.modCopy t k.val n (fun e => { e with waits := e.waits + 1 })
      else r.1.modCopy t k.val n (fun e => e.failed r.2.1)
  | x => s.place t d x

/-- The READ entry of a part of a copy, in replay; without one its logged status, else the replay ends (R605, R606). -/
def State.copyReplayed (s : State) (t : TileId) (k : QId) (n : Word) (p : CopyPiece) : State :=
  match s.logRead (copyKey t k.val n) p.dst.toNat with
  | (s, some b) => s.copyPut t k n p b
  | (s, none) =>
    match s.logFind Lt.status (copyKey t k.val n) with
    | some _ => s
    | none => s.replayBroken.modCopy t k.val n (fun e => e.failed St.replayMismatch)

/-- Requests one part. -/
def State.copyIssue (s : State) (t : TileId) (k : QId) (n : Word) (d : CopyDesc) (p : CopyPiece) : State :=
  let src := if d.op = 4 then none else some p.src
  match src.map s.placeOf with
  | some (.far m a) =>
    if s.replaying then s.copyReplayed t k n p
    else
      let r := s.ask (.copy t k n) m 3 1 a p.len []
      if r.2.1 = St.ok then r.1.modCopy t k.val n (fun e => { e with waits := e.waits + 1, gets := e.gets ++ [(r.2.2, p)] })
      else r.1.modCopy t k.val n (fun e => e.failed r.2.1)
  | _ =>
    match s.rowBytes t d src p.pos p.len with
    | (s, some b) => s.copyPut t k n p b
    | (s, none) => s.modCopy t k.val n (fun e => e.failed St.uncorrectable)

/-- Outstanding requests of one descriptor. -/
def copyWindow : Nat := 64

/-- Requests parts while the window has room; the first number is fuel. -/
def State.copyPump : Nat → State → TileId → QId → Word → CopyDesc → State
  | 0, s, _, _, _, _ => s
  | f + 1, s, t, k, n, d =>
    match (s.tile t).copyEntry k.val n with
    | none => s
    | some e =>
      match e.left with
      | [] => s
      | p :: r =>
        if e.status ≠ St.ok ∨ copyWindow ≤ e.waits then s
        else State.copyPump f ((s.modCopy t k.val n (fun e => { e with left := r })).copyIssue t k n d p) t k n d

/-- Ends the transfer of a descriptor with a status. -/
def State.copySettle (s : State) (t : TileId) (k : QId) (n : Word) (st : Status) : State :=
  s.modCopy t k.val n (fun e => { e with phase := .moved, status := st })

/-- Once every part has been answered: a logged status in replay, the arrival counter, or the ARRIVE of a remote one
(R135, R136, R414). -/
def State.copyEnd (s : State) (t : TileId) (k : QId) (n : Word) (d : CopyDesc) : State :=
  match (s.tile t).copyEntry k.val n with
  | none => s
  | some e =>
    if e.phase ≠ .moving ∨ e.left ≠ [] ∨ e.waits ≠ 0 then s
    else
      let logged := if s.replaying then s.logTake Lt.status (copyKey t k.val n) else (s, none)
      let s := logged.1
      let st := match logged.2 with | some x => BitVec.ofNat 16 (bytesAt x.payload 0 2) | none => e.status
      if st ≠ St.ok ∨ e.marker = true ∨ d.arrEn = false then s.copySettle t k n st
      else if d.arrLocal ∨ s.isLocal d.arrNode = true then (s.bumpArrival d.arrTile d.arrCtr.toNat 1).copySettle t k n St.ok
      else if s.replaying then s.copySettle t k n St.ok
      else
        let r := s.ask (.copy t k n) d.arrNode 3 4 (d.arrTile.toNat * 64 + d.arrCtr.toNat) 0 []
        if r.2.1 = St.ok then r.1.modCopy t k.val n (fun e => { e with waits := 1, marker := true })
        else r.1.copySettle t k n r.2.1

/-! ### Starting -/

/-- Moves the rows whose two ends lie in the node, in row order; the first uncorrectable read ends the descriptor. -/
def State.localRows (s : State) (t : TileId) (k : QId) (n : Word) (d : CopyDesc) : List (Option (BitVec 64) × BitVec 64) → State
  | [] => s
  | r :: l =>
    match s.rowBytes t d r.1 0 d.len with
    | (s, some b) => State.localRows (s.place t b (s.placeOf r.2)) t k n d l
    | (s, none) => s.modCopy t k.val n (fun e => e.failed St.uncorrectable)

/-- Does a row stay in the node? -/
def State.rowLocal (s : State) (r : Option (BitVec 64) × BitVec 64) : Bool :=
  (match r.1 with | some a => (s.placeOf a).local_ | none => true) && (s.placeOf r.2).local_

/-- The rows of a LINEAR, GATHER, SCATTER or FILL. -/
def CopyDesc.allRows (d : CopyDesc) (idx : List Byte) : List (Option (BitVec 64) × BitVec 64) := (List.range d.rows).map (d.row idx)

/-- First status other than OK of the rows' ranges. -/
def State.rowsStatus (s : State) (d : CopyDesc) (rows : List (Option (BitVec 64) × BitVec 64)) : Status :=
  (rows.findSome? (fun r =>
    let a := match r.1 with | some a => s.placeStatus d.len (s.placeOf a) | none => St.ok
    let b := s.placeStatus d.len (s.placeOf r.2)
    if a ≠ St.ok then some a else if b ≠ St.ok then some b else none)).getD St.ok

/-- The state in which the span directory recalls a line that a row needs. -/
def State.rowsRecall (s : State) (d : CopyDesc) (rows : List (Option (BitVec 64) × BitVec 64)) : Option State :=
  rows.findSome? (fun r =>
    match r.1.bind (fun a => s.placeRecall d.len false (s.placeOf a)) with
    | some s' => some s'
    | none => s.placeRecall d.len true (s.placeOf r.2))

/-- Starts the transfer of rows that have passed the checks. -/
def State.startRows (s : State) (t : TileId) (k : QId) (n : Word) (d : CopyDesc) (rows : List (Option (BitVec 64) × BitVec 64)) : State :=
  let far := (rows.filter (fun r => !s.rowLocal r)).flatMap (fun r => cutPieces d.len r.1 d.src r.2 0 d.len)
  let s := s.modCopy t k.val n (fun e => { e with phase := .moving, moved := true, left := far })
  let s := s.localRows t k n d (rows.filter s.rowLocal)
  (s.copyPump far.length t k n d).copyEnd t k n d

/-- ROUTE: rows of the tile's SRAM to the route's region in the destination tile (R132). -/
def State.startRoute (s : State) (t : TileId) (k : QId) (n : Word) (d : CopyDesc) : State :=
  let dt : TileId := BitVec.ofNat 8 (s.routeFld t F.SEQ_ROUTE_DEST_TILE d.route)
  let base := s.routeFld t F.SEQ_ROUTE_DEST_BASE d.route
  let src := fun (i : Nat) => sramAddr t (d.routeSrc i).toNat
  let dst := fun (i : Nat) => sramAddr dt (base + (d.routeDst i).toNat)
  let st := ((List.range d.rows).map (fun i => s.memStatus (dst i) d.len)).find? (· != St.ok)
  match st with
  | some st => s.copySettle t k n st
  | none =>
    if (List.range d.rows).any (fun i => s.badRead (src i) d.len) then s.copySettle t k n St.uncorrectable
    else
      let s := s.modCopy t k.val n (fun e => { e with phase := .moving, moved := true })
      let data := (List.range d.rows).map (fun i => (dst i, s.bytes (src i) d.len))
      (data.foldl (fun s e => s.writeBytes e.1 e.2) s).copyEnd t k n d

/-- Starts the first descriptor of a queue that has not started, if its operation is the command's (R134). -/
def State.startCopy (s : State) (t : TileId) (k : QId) (mine : Nat → Bool) : State :=
  if !s.tileReady t then s
  else
    match ((s.tile t).copyQ k.val).find? (fun e => e.phase == .queued) with
    | none => s
    | some e =>
      let d := CopyDesc.of e.desc
      if !mine d.op then s
      else if e.bad then s.copySettle t k e.ticket St.uncorrectable
      else if !s.copyOk t d then s.copySettle t k e.ticket St.badDescriptor
      else if d.len = 0 ∨ d.rows = 0 then
        (s.modCopy t k.val e.ticket (fun e => { e with phase := .moving })).copyEnd t k e.ticket d
      else if d.op = 5 then s.startRoute t k e.ticket d
      else if (d.op == 2 || d.op == 3) && s.sramBad t d.idx (8 * d.rows) then s.copySettle t k e.ticket St.uncorrectable
      else
        let rows := d.allRows (if d.op = 2 ∨ d.op = 3 then s.sram t d.idx (8 * d.rows) else [])
        let st := s.rowsStatus d rows
        if st ≠ St.ok then s.copySettle t k e.ticket st
        else
          match s.rowsRecall d rows with
          | some s' => s'
          | none => s.startRows t k e.ticket d rows

/-! ### Meanings -/

/-- LINEAR (R130, R131): also takes a descriptor whose OP is reserved, which no other command takes. -/
def execLinear (t : TileId) (k : QId) (s : State) : Host.Outcome State Fault Refusal :=
  .next (s.startCopy t k (fun op => op == 1 || op == 0 || decide (5 < op)))

/-- GATHER (R131). -/
def execGather (t : TileId) (k : QId) (s : State) : Host.Outcome State Fault Refusal := .next (s.startCopy t k (· == 2))

/-- SCATTER (R131). -/
def execScatter (t : TileId) (k : QId) (s : State) : Host.Outcome State Fault Refusal := .next (s.startCopy t k (· == 3))

/-- FILL (R702). -/
def execFill (t : TileId) (k : QId) (s : State) : Host.Outcome State Fault Refusal := .next (s.startCopy t k (· == 4))

/-- ROUTE (R132). -/
def execRoute (t : TileId) (k : QId) (s : State) : Host.Outcome State Fault Refusal := .next (s.startCopy t k (· == 5))

/-- Completes the first descriptor of a queue (R134, R137). -/
def State.completeCopy (s : State) (t : TileId) (k : QId) : State :=
  match (s.tile t).copyQ k.val with
  | [] => s
  | e :: r =>
    if e.phase ≠ .moved then s
    else
      let d := CopyDesc.of e.desc
      let err := (F.COPY_QSTAT_ERR.plus (8 * k.val)).plus (tileBase t)
      let s := s.modTile t (fun x => ({ x with cq := Tab.set k.val r x.cq }).putStatus (4 + k.val) e.ticket e.status)
      let s :=
        if e.status = St.ok then s
        else
          let s := if e.moved ∧ d.op ≠ 5 then
              s.spoilCopy d (d.allRows (if d.op = 2 ∨ d.op = 3 then s.sram t d.idx (8 * d.rows) else []))
            else s
          let s := if s.bit err then s
            else s.setFld ((F.COPY_QSTAT_FIRST_STATUS.plus (8 * k.val)).plus (tileBase t)) e.status.toNat
          (s.setFld err 1).raise (tileSrc t) e.status (leBytes 4 e.ticket.toNat)
      if d.doneEn && !e.bad then s.bumpArrival t d.doneCtr.toNat 1 else s

/-- COPY_COMPLETE (R134, R137). -/
def execCopyComplete (t : TileId) (k : QId) (s : State) : Host.Outcome State Fault Refusal := .next (s.completeCopy t k)

end Sys2Proof.Machine
end

