-- ==== Sys2Proof/Machine/Links.lean ====
section
/-! DEFINITION. Links (R37, R38, R401 to R410, R420, R425, R639): flits with go-back-N retry, ports that leave and enter
service, the link exchange, and node numbers. Readings of the manual are assumption log 27 and 39. -/

namespace Sys2Proof.Machine

/-! ### Die-to-die links -/

/-- The node stops (R38): nothing of it but the standby group stays in service. -/
def State.stopNode (s : State) : State :=
  let s := (s.putReadyRange 12 false 3).putReadyRange 16 false 4
  { s.portsOff with power := { s.power with stopped := true, thermtripN := true } }

/-- D2D_FLIT_RETRY (R37, R38): the retry is counted; the sixteenth in a row stops the node with a fatal event, whose code
the manual does not give (a free value, assumption log 9). -/
def execD2dFlitRetry (k : LinkId) (consecutive : Nat) (s : State) : Host.Outcome State Fault Refusal :=
  let s := s.count (F.GLB_D2D_ERR_RETRIES.plus (8 * k.val)) 1
  .next (
    if consecutive < 16 then s
    else
      let r := (s.setFld (F.GLB_D2D_ERR_FAILED.plus (8 * k.val)) 1).drawFree
      (r.2.raiseFatal 0x0900 (BitVec.ofNat 16 r.1.toNat) []).stopNode)

/-! ### Flits -/

/-- Header fields of a flit (Table 10-2). -/
structure LinkHdr where
  seq : BitVec 16
  ack : BitVec 16
  nak : Bool
  credit : Nat
  count : Nat
  type : Nat
deriving DecidableEq, Repr

def linkHdr (flit : List Byte) : LinkHdr :=
  let h := bytesAt flit 0 8
  { seq := BitVec.ofNat 16 (bitsN h 63 52 + bitsN h 23 20 * 4096), ack := BitVec.ofNat 16 (bitsN h 51 40 + bitsN h 19 16 * 4096),
    nak := bitN h 39, credit := bitsN h 38 36 * 2 + bitsN h 35 35, count := bitsN h 34 27, type := bitsN h 26 24 }

/-- Is the CRC of a flit right (R405)? -/
def crcOk (flit : List Byte) : Bool := bytesAt flit 248 8 == (crc64 (flit.take 248)).toNat

/-- Acknowledges the DATA flits up to a sequence number. What a message has left to be acknowledged is kept. -/
def Port.acked (x : Port) (n : BitVec 16) : Port :=
  match x.unacked.findIdx? (fun e => e.1 == n) with
  | none => x
  | some i =>
    let d := x.txPart ++ (x.unacked.take (i + 1)).flatMap Prod.snd
    { x with unacked := x.unacked.drop (i + 1), txPart := (parseSlots d.length d).2, txFails := 0 }

/-- Resends every unacknowledged DATA flit from the oldest onward (R406). -/
def Port.resend (x : Port) : Port :=
  if x.unacked.isEmpty then x
  else { x with tx := x.tx ++ x.unacked.map (fun e => dataFlit x e.1 e.2), txFails := x.txFails + 1 }

/-- Resends at port p, counted (R406). -/
def State.resendPort (s : State) (p : PortId) : State :=
  if (s.port p).unacked.isEmpty then s
  else (s.modPort p Port.resend).count (pfld p F.FAB_PORT_ERR_RETRIES) 1

/-- Sends an IDLE flit with the port's acknowledgement. -/
def Port.idle (x : Port) : Port := { x with tx := x.tx ++ [idleFlit x] }

/-- Acknowledgement, NAK and credits of an intact flit; freed space takes waiting slots. -/
def State.takeHeader (s : State) (p : PortId) (h : LinkHdr) : State :=
  let s := s.modPort p (fun x => { x.acked h.ack with credits := Tab.set h.credit (Tab.get (fun _ => 0) x.credits h.credit + h.count) x.credits })
  let s := if h.nak then s.resendPort p else s
  s.modPort p (fun x => x.pump (retryFlits p) x.backlog.length)

/-- Operations whose commands take the message from the port. -/
def heldOpc (o : Nat) : Bool :=
  (decide (1 ≤ o) && decide (o ≤ 5)) || (decide (0x10 ≤ o) && decide (o ≤ 0x17)) || (decide (0x20 ≤ o) && decide (o ≤ 0x22)) ||
    (decide (0x40 ≤ o) && decide (o ≤ 0x49)) || o == 0x60 || o == 0x61

/-- One message that a port has delivered: discarded, forwarded (R425), or kept for its unit. -/
def State.delivered (s : State) (p : PortId) (m : Msg) : State :=
  if s.resil.fence.contains m.src then s
  else if s.malformed m then s.noteMalformed p m
  else if !m.loc && s.nodeValid && m.dst != s.nodeId then s.forward m
  else if heldOpc m.opc.toNat then s.modPort p (fun x => { x with rxMsgs := x.rxMsgs ++ [m] })
  else s

/-- A DATA flit in order: its slots join the stream, and it is acknowledged (R406, R410). -/
def State.takeData (s : State) (p : PortId) (h : LinkHdr) (slots : List Byte) : State :=
  let x := s.port p
  let r := parseSlots (x.rxSlots.length + slots.length) (x.rxSlots ++ slots)
  let s := s.setPort p ({ x with rxSeq := h.seq, nak := false, fails := 0, rxSlots := r.2 }).idle
  r.1.foldl (fun s m => s.delivered p m) s

/-- A damaged or out-of-order DATA flit: NAK (R406). -/
def Port.refuse (x : Port) (damaged : Bool) : Port :=
  ({ x with nak := true, fails := if damaged then x.fails + 1 else x.fails }).idle

/-- FLIT_RECEIVE (R403 to R406, R410). A flit of another length than 256 bytes cannot arrive. -/
def execFlitReceive (p : PortId) (flit : List Byte) (s : State) : Host.Outcome State Fault Refusal :=
  if flit.length ≠ 256 then .fault .notAFlit
  else
    let h := linkHdr flit
    .next (
      if !s.portUp p then s
      else if !crcOk flit then s.modPort p (fun x => x.refuse true)
      else if h.type = 0 then s.takeHeader p h
      else if h.type = 1 then
        let s := s.takeHeader p h
        if h.seq = (s.port p).rxSeq + 1 then s.takeData p h ((flit.drop 8).take 240) else s.modPort p (fun x => x.refuse false)
      else s)

/-- ACK_TIMEOUT_RESEND (R406). -/
def execAckTimeoutResend (p : PortId) (s : State) : Host.Outcome State Fault Refusal :=
  .next (if s.portUp p then s.resendPort p else s)

/-! ### Ports that leave service -/

/-- The messages of a port's retry buffer and of the slots behind it. -/
def Port.unsent (x : Port) : List Msg :=
  let d := x.txPart ++ x.unacked.flatMap Prod.snd ++ x.backlog
  (parseSlots d.length d).1

/-- Slots of a message that is resent. -/
def msgSlots (m : Msg) : List Byte := let s := (msgOut m).slots m.src; s ++ zeros (alignUp s.length 240 - s.length)

/-- The retry buffer goes to the new paths (R425); what has none waits for the port to return (Table 10-14). Link-local
messages end with the link. -/
def State.moveUnsent (s : State) (p : PortId) : State :=
  let x := s.port p
  let s := s.setPort p { x with unacked := [], txPart := [], backlog := [], rxSlots := [], nak := false, fails := 0, txFails := 0 }
  x.unsent.foldl (fun s m =>
    if m.loc then s
    else
      match s.pathTo m.src m.dst m.vc.toNat m.addr.toNat with
      | some _ => s.forward m
      | none => s.modPort p (fun x => { x with backlog := x.backlog ++ msgSlots m })) s

/-- Port p leaves service (R408): LINK_DOWN, and it retrains while its firmware processor runs (Table 10-14). -/
def State.portLeaves (s : State) (p : PortId) : State :=
  if !s.portUp p then s
  else
    let s := ((s.portOff p).setFld (pfld p F.FAB_PORT_STAT_AUTH) 0).setFld (pfld p F.FAB_PORT_STAT_DOWN_EV) 1
    let s := s.setFld (pfld p F.FAB_PORT_STAT_TRAINING) (natOf (s.ready (4 + p.val / 10)))
    ((s.raise (fabSrc p) St.linkDown (leBytes 1 p.val)).moveUnsent p).assignParent

/-- PORT_LEAVES_SERVICE (R408): after 16 failures of one flit, a lost lock, or at the word of FBC0 or FBC1. -/
def execPortLeavesService (p : PortId) (why : DownCause) (now : BitVec 64) (s : State) : Host.Outcome State Fault Refusal :=
  let s := s.at_ now
  .next (match why with
    | .failures => if 16 ≤ (s.port p).fails ∨ 16 ≤ (s.port p).txFails then s.portLeaves p else s
    | .lockLoss => s.portLeaves p
    | .firmware => s.portLeaves p)

/-- A port is put out of service because of what its peer shows (R409, R420). -/
def State.portDenied (s : State) (p : PortId) : State :=
  (s.portLeaves p).raise (fabSrc p) St.linkAuthFailed (leBytes 1 p.val)

/-! ### Node numbers -/

/-- NODE_ANNOUNCE on a port. -/
def State.announceOn (s : State) (p : PortId) : State :=
  s.sendOn p { request 0 7 0x61 s.nodeId.toNat 0 0 [] with loc := true }

/-- Does a port's peer stand in another span? -/
def State.alienPeer (s : State) (p : PortId) : Bool :=
  s.bit (pfld p F.FAB_PORT_STAT_PEER_VALID) && decide (s.fld (pfld p F.FAB_PORT_STAT_PEER) / 16 ≠ s.nodeId.toNat / 16)

/-- FBC0 forms the node number from chain and span (R420): both dies hold it, copper peers of another span are put out of
service, the others are told. -/
def State.assignNumber (s : State) (chainSpan : Nat) : State :=
  let n := chainSpan % 1024 * 16 + s.power.slotId.toNat % 16
  let s := s.busWrite (.fw 4) R.FAB_NODE_ID (BitVec.ofNat 64 (2 ^ 63 + n))
  let copper := s.livePorts.filter (fun p => !optical p)
  let s := copper.foldl (fun s p => if s.alienPeer p then s.portDenied p else s) s
  ((copper.filter s.portUp).foldl State.announceOn s).assignParent

/-- SW_ASSIGN (R420): the first one gives the node its number; an uplink that names another span is put out of service. -/
def execSwAssign (p : PortId) (m : Msg) (s : State) : Host.Outcome State Fault Refusal :=
  let a := s.intake p m
  let chainSpan := m.addr.toNat % 16384 / 16
  .next (
    if a.2 = false ∨ optical p = false then a.1
    else if !a.1.nodeValid then a.1.assignNumber chainSpan
    else if a.1.nodeId.toNat / 16 ≠ chainSpan then a.1.portDenied p
    else a.1)

/-- NODE_ANNOUNCE (R420): recorded, or the port is put out of service when the peer stands in another span. -/
def execNodeAnnounce (p : PortId) (m : Msg) (s : State) : Host.Outcome State Fault Refusal :=
  let a := s.intake p m
  let n := m.addr.toNat % 16384
  .next (
    if a.2 = false ∨ optical p = true then a.1
    else if a.1.nodeValid = true ∧ n / 16 ≠ a.1.nodeId.toNat / 16 then a.1.portDenied p
    else
      ((a.1.setFld (pfld p F.FAB_PORT_STAT_PEER) n).setFld (pfld p F.FAB_PORT_STAT_PEER_VALID) 1).assignParent)

/-! ### Training -/

/-- The link comes up with new sequence numbers; slots that wait for it follow. -/
def Port.trained (x : Port) (p : PortId) : Port :=
  let y := { x with txSeq := 0, rxSeq := BitVec.allOnes 16, nak := false, unacked := [], txPart := [], rxSlots := [], credits := [],
                    fails := 0, txFails := 0, proof := false }
  y.pump (retryFlits p) y.backlog.length

/-- PORT_TRAINED (R408, R409): training ends. With the proof of the link exchange the port enters service; three failures
within 10 s disable it. -/
def execPortTrained (p : PortId) (peerPort : BitVec 5) (ok : Bool) (now : BitVec 64) (s : State) : Host.Outcome State Fault Refusal :=
  let s := s.at_ now
  .next (
    if s.portUp p ∨ s.bit (pfld p F.FAB_PORT_STAT_DISABLED) = true ∨ s.ready (4 + p.val / 10) = false ∨ s.power.stopped = true then s
    else
      let s := if s.bit (pfld p F.FAB_PORT_STAT_TRAINING) then s.count (pfld p F.FAB_PORT_ERR_RETRAINS) 1 else s
      if ok then
        let s := s.setFld (pfld p F.FAB_PORT_STAT_TRAINING) 0
        if (s.port p).proof then
          let s := ((s.setFld (pfld p F.FAB_PORT_STAT_AUTH) 1).setFld (pfld p F.FAB_PORT_STAT_UP) 1).setFld (pfld p F.FAB_PORT_STAT_PEER_PORT) peerPort.toNat
          let s := (s.putReady (64 + p.val) true).modPort p (fun x => { x.trained p with retrains := [] })
          if s.nodeValid && !optical p then s.announceOn p else s
        else s
      else
        let t := s.clock.ns.toNat
        let l := (s.port p).retrains.filter (fun n => decide (t < n + 10000000000)) ++ [t]
        let s := s.modPort p (fun x => { x with retrains := l })
        if 3 ≤ l.length then (s.setFld (pfld p F.FAB_PORT_STAT_TRAINING) 0).setFld (pfld p F.FAB_PORT_STAT_DISABLED) 1
        else s.setFld (pfld p F.FAB_PORT_STAT_TRAINING) 1)

/-! ### Link exchange -/

/-- ASCII bytes of a context string. -/
def ascii (t : String) : List Byte := t.toList.map (fun c => BitVec.ofNat 8 c.toNat)

/-- Position word of this node (R639). -/
def State.position (s : State) : Nat := if s.nodeValid then s.nodeId.toNat else 0x8000 + s.power.slotId.toNat % 16

/-- The vendor public key: bytes 0 to 63 of the running bundle's signature block (R628). -/
def State.vendorKey (s : State) : List Byte := (s.bundle.drop (s.bundle.length - 32768)).take 64

/-- What an end of a link signs (R639): both nonces, its position word and port, the peer's. -/
def linkText (nonce other : List Byte) (pos port opos oport : Nat) : List Byte :=
  nonce ++ other ++ leBytes 2 pos ++ leBytes 1 port ++ leBytes 2 opos ++ leBytes 1 oport

/-- Does the peer's place agree with the wiring (R409, Table 10-5)? -/
def State.placeOk (s : State) (p : PortId) (x : LinkProof) : Bool :=
  if optical p then x.switch && x.position.toNat == 0xC000 + x.port.toNat
  else
    let slot := if x.position.toNat < 0x8000 then x.position.toNat % 16 else x.position.toNat - 0x8000
    !x.switch && decide (x.position.toNat < 0x8010) && peerSlot (s.power.slotId.toNat % 16) p == some slot && x.port.toNat == p.val

/-- LINK_EXCHANGE (R409, R639): the node sends its own nonce, certificate and signature, and checks those of the peer. A
failed check keeps the port out of service. -/
def execLinkExchange (p : PortId) (x : LinkProof) (s : State) : Host.Outcome State Fault Refusal :=
  let nonce := (Config.random s.fw.draws).take 32
  let s := { s with fw := { s.fw with draws := s.fw.draws + 1 } }
  let mine := linkText nonce x.nonce s.position p.val x.position.toNat x.port.toNat
  let theirs := linkText x.nonce nonce x.position.toNat x.port.toNat s.position p.val
  let s := s.send { plainMsg (some p) 0 7 0x62 [s.position, p.val] (nonce ++ Config.certificate ++ Config.slhSign (ascii "FVN-LINK") mine) with loc := true }
  let ok := Config.slhVerify slh256s s.vendorKey (ascii (if x.switch then "FVN-SWITCH" else "FVN-IDENT")) x.cert x.certSig &&
    Config.slhVerify slh256f x.key (ascii "FVN-LINK") theirs x.sig && s.placeOk p x
  let s := s.modPort p (fun y => { y with proof := ok, peerSwitch := x.switch })
  .next (if ok then s else s.raise (fabSrc p) St.linkAuthFailed (leBytes 1 p.val))

end Sys2Proof.Machine
end

