-- ==== Sys2Proof/Machine/Harts.lean ====
section
/-! DEFINITION. The processor cores (chapter 8): threads and their switching (R318 to R323), exceptions (R325, R326),
memory accesses by place (R308 to R317) with the requests they make to other nodes, and the scalar commands. An
instruction that needs replies parks its thread; THREAD_RESUME runs it again once they are in. Readings: assumption
log 36. -/

namespace Sys2Proof.Machine

/-! ### Registers, exceptions, threads -/

def Hart.xreg (x : Hart) (n : BitVec 5) : BitVec 64 := if n = 0 then 0 else Tab.get (fun _ => 0) x.x n.toNat
def Hart.setX (x : Hart) (n : BitVec 5) (v : BitVec 64) : Hart := if n = 0 then x else { x with x := Tab.set n.toNat v x.x }

/-- Are the f registers off (mstatus.FS is 0)? -/
def Hart.fpOff (x : Hart) : Bool := bitsOf x.mstatus 14 13 == 0

/-- The f registers or fcsr have been written: mstatus.FS becomes Dirty. -/
def Hart.fpDirty (x : Hart) : Hart := { x with mstatus := withBits x.mstatus 14 13 3 }

/-- Core and thread of a hart (R306). -/
def coreOf (h : HartId) : Nat := h.toNat / 8
def threadOf (h : HartId) : Nat := h.toNat % 8

/-- The program counter moves past an instruction of n bytes. -/
def State.pass (s : State) (h : HartId) (n : Nat) : State := s.modHart h (fun x => { x with pc := x.pc + BitVec.ofNat 64 n, park := none })

/-- Raises an exception: trap entry of the RISC-V privileged architecture, in machine mode (R307). -/
def State.exception (s : State) (h : HartId) (cause : Nat) (tval : BitVec 64) : State :=
  s.modHart h (fun x => { x with
    mepc := x.pc, mcause := BitVec.ofNat 64 cause, mtval := tval, machineMode := true,
    mstatus := BitVec.ofNat 64 (withBits (withBits (withBits x.mstatus 7 7 (bitsOf x.mstatus 3 3)) 3 3 0) 12 11
      (if x.machineMode then 3 else 0)).toNat,
    pc := x.mtvec / 4 * 4, park := none })

/-- An exception of Table 8-2: fvrstat receives the status. -/
def State.accessException (s : State) (h : HartId) (cause : Nat) (st : Status) (a : BitVec 64) : State :=
  (s.modHart h (fun x => { x with fvrstat := BitVec.setWidth 64 st })).exception h cause a

/-- Counts of CPU_CORE_PARKS. -/
def corePark (c : Nat) (f : Fld) : Fld := f.plus (8 * c)

/-- The core of thread t starts the first ready thread after it (R320). -/
def State.startNext (s : State) (c t : Nat) : State :=
  match (List.range 8).find? (fun i => (s.hart (hartOf c ((t + 1 + i) % 8))).st == .ready) with
  | none => s
  | some i =>
    let n := (t + 1 + i) % 8
    { (s.modHart (hartOf c n) (fun x => { x with st := .running })).count (corePark c F.CPU_CORE_PARKS_SWITCHES) 1 with
      running := Tab.set c n s.running }

/-- The running thread leaves its core (R319 to R321). -/
def State.leaveCore (s : State) (h : HartId) (st : HartState) : State :=
  (s.modHart h (fun x => { x with st := st })).startNext (coreOf h) (threadOf h)

/-- A thread becomes ready; an idle core starts it at once (R320). -/
def State.makeReady (s : State) (h : HartId) : State :=
  let c := coreOf h
  let s := s.modHart h (fun x => { x with st := .ready })
  if (List.range 8).any (fun t => (s.hart (hartOf c t)).st == .running) then s
  else s.startNext c (Tab.get (fun _ => 0) s.running c)

/-- Runs an instruction of hart h, if it is the running thread of a core in service. -/
def State.coreDo (s : State) (h : HartId) (f : State → State) : State :=
  if s.ready 12 && (s.hart h).st == .running then f s else s

/-! ### Places -/

/-- Where a core's access goes: memory of the node that the cores cache, the tile SRAM window, a register, a line of
another node in the coherence domain, another node uncached; or the status that refuses it. -/
inductive CorePlace where
  | dram (a : Nat)
  | window (a : Nat)
  | reg (off : Nat)
  | coh (n : NodeId) (a : Nat)
  | far (n : NodeId) (a : Nat)
  | refused (st : Status)
deriving DecidableEq, Repr

/-- The place of n bytes at a global address (R308, R309, R313, R314, R351, R352). -/
def State.corePlace (s : State) (h : HartId) (a : BitVec 64) (n : Nat) : CorePlace :=
  let sp := bitsOf a 63 62
  let node : NodeId := BitVec.ofNat 14 (bitsOf a 61 48)
  let o := bitsOf a 47 0
  if 2 ≤ sp then .refused St.accessBlocked
  else if sp = 1 then
    if !(s.hart h).dataMachine || !s.isLocal node then .refused St.accessBlocked
    else if regShape o n then .reg o
    else .refused St.badDescriptor
  else if s.isLocal node then
    let st := s.memStatus o n
    if st ≠ St.ok then .refused st else if sramWindow ≤ o then .window o else .dram o
  else if s.inDomain node && o < sramWindow then .coh node o
  else .far node o

/-- An element of an access: its address and bytes. -/
structure El where
  addr : BitVec 64
  n : Nat
deriving DecidableEq, Repr

/-- A core's own name of an element's first byte (Replies.lean). -/
def State.elKey (s : State) (h : HartId) (e : El) : Nat :=
  match s.corePlace h e.addr e.n with
  | .coh n a => farKey n a
  | .far n a => farKey n a
  | _ => bitsOf e.addr 47 0

/-- What a remote access of the instruction is: reads, writes (bytes by key), or one atomic (operation code, X, Y). -/
inductive FarOp where
  | load
  | store (d : Tab Byte)
  | atom (aop x y : Nat)
deriving DecidableEq, Repr

def FarOp.isWrite : FarOp → Bool
  | .load => false
  | _ => true

/-- The exception cause of a status (Table 8-2, R352). -/
def accessCause (load : Bool) (st : Status) : Nat :=
  if st = St.accessBlocked ∨ st = St.badDescriptor ∨ st = St.memUnmapped ∨ st = St.memOffline then (if load then 5 else 7)
  else if st = St.coherenceDomain then 26
  else if st = St.uncorrectable then 24
  else if load then 24 else 25

/-- The fault of an element before anything is sent: refused, or let out by no window entry (R310). -/
def State.elFault (s : State) (h : HartId) (op : FarOp) (e : El) : Option Status :=
  match s.corePlace h e.addr e.n with
  | .refused st => some st
  | .coh n a => if s.windowMatch n 1 (if op.isWrite then 0x11 else 0x10) (a / 64 * 64) 64 then none else some St.accessBlocked
  | .far n a =>
    let opc := match op with | .load => 1 | .store _ => 2 | .atom _ _ _ => 3
    if s.windowMatch n 4 opc a e.n then none else some St.accessBlocked
  | _ => none

/-! ### Requests to other nodes -/

/-- Progress of the requests of an instruction: tags to wait for, failures at the source, and whether the core's 64
requests are in flight (R322). -/
structure Need where
  s : State
  tags : List (BitVec 16)
  fails : List (Nat × Nat × Status)
  short : Bool
deriving DecidableEq, Repr

/-- Remote requests of a core in flight. -/
def State.flights (s : State) (c : Nat) : Nat :=
  ((List.range 8).map (fun t => match (s.hart (hartOf c t)).park with | some k => k.waits.length | none => 0)).sum

/-- Makes one request for an instruction of hart h. -/
def Need.ask (w : Need) (h : HartId) (o : Owner) (n : NodeId) (vc opc a len : Nat) (d : List Byte) : Need :=
  if 64 ≤ w.s.flights (coreOf h) + w.tags.length then { w with short := true }
  else
    let r := w.s.ask o n vc opc a len d
    if r.2.1 = St.ok then { w with s := r.1, tags := w.tags ++ [r.2.2] }
    else { w with s := r.1, fails := w.fails ++ [(farKey n a, max len 1, r.2.1)] }

/-- A line of the node's own memory that another node holds (R445): the holders' answers are awaited. -/
def Need.own (w : Need) (line : Nat) (write : Bool) : Need :=
  if w.s.dir.isEmpty && w.s.dirTrans.isEmpty then w
  else
    match w.s.recallLine line write [] with
    | none => w
    | some s =>
      match s.dirTrans.find? (fun t => t.line == line) with
      | some t => { w with s := s, tags := w.tags ++ t.acks.map Prod.snd }
      | none => { w with s := s, short := true }

/-- A line of another node of the domain: held as the access needs it, or asked for with GETS or GETM. One request for a
line serves every hart that waits for it. -/
def Need.line (w : Need) (h : HartId) (n : NodeId) (line : Nat) (write : Bool) : Need :=
  let key := farKey n line
  let held := match Tab.find w.s.coh key with | some c => c.modified || !write | none => false
  if held then w
  else
    match w.s.reqs.find? (fun r => r.owner == .coh key) with
    | some r => { w with tags := w.tags ++ [r.msg.tag] }
    | none =>
      if w.s.replaying then
        match w.s.logRead (hartKey h (w.s.hart h).remoteCount) key with
        | (s, some b) => { w with s := { s with coh := Tab.set key ⟨write, b⟩ s.coh } }
        | (s, none) => { w with s := s.replayBroken, fails := w.fails ++ [(key, 64, St.replayMismatch)] }
      else w.ask h (.coh key) n 1 (if write then 0x11 else 0x10) line 0 []

/-- Runs of consecutive keys that cross no 64-byte line, of keys in rising order. -/
def lineRuns : List Nat → List (Nat × Nat)
  | [] => []
  | k :: l =>
    match lineRuns l with
    | [] => [(k, 1)]
    | (a, n) :: r => if a = k + 1 ∧ a % 64 ≠ 0 then (k, n + 1) :: r else (k, 1) :: (a, n) :: r

/-- Node and node-local address of a far key. -/
def keyNode (k : Nat) : NodeId := BitVec.ofNat 14 (k / 2 ^ 48)
def keyAddr (k : Nat) : Nat := k % 2 ^ 48

/-- The SEQ of the next atomic to a node (R449), and LEDGER_SYNC before the first one (R454). -/
def State.atomTo (s : State) (h : HartId) (n : NodeId) (a aop x y : Nat) : State × Status × BitVec 16 :=
  let w := if aop = 5 then 16 else 8
  let seq := Tab.get (fun _ => 0) s.atomSeq n.toNat
  let d := leBytes 4 seq.toNat ++ leBytes 1 aop ++ zeros 3 ++ leBytes w x ++ leBytes w y
  let s := if s.mustSync && !s.synced.contains n then
      let q := s.ask .node n 4 5 0 0 []
      if q.2.1 = St.ok then { q.1 with synced := n :: q.1.synced } else q.1
    else s
  let r := s.ask (.hart h) n 4 3 a d.length d
  if r.2.1 = St.ok then ({ r.1 with atomSeq := Tab.set n.toNat (seq + 1) r.1.atomSeq }, r.2) else r

/-- Bytes of a request to another node, by runs. -/
def Need.run (w : Need) (h : HartId) (op : FarOp) (r : Nat × Nat) : Need :=
  match op with
  | .load => w.ask h (.hart h) (keyNode r.1) 4 1 (keyAddr r.1) r.2 []
  | .store d => w.ask h (.hart h) (keyNode r.1) 4 2 (keyAddr r.1) r.2 ((List.range r.2).map (fun i => Tab.get (fun _ => 0) d (r.1 + i)))
  | .atom aop x y =>
    if 64 ≤ w.s.flights (coreOf h) + w.tags.length then { w with short := true }
    else
      let q := w.s.atomTo h (keyNode r.1) (keyAddr r.1) aop x y
      if q.2.1 = St.ok then { w with s := q.1, tags := w.tags ++ [q.2.2] }
      else { w with s := q.1, fails := w.fails ++ [(r.1, r.2, q.2.1)] }

/-- In replay the bytes of a remote access come from the log, and writes complete (R605, R606). -/
def State.hartReplay (s : State) (h : HartId) (op : FarOp) (keys : List Nat) : State × List Host.Cell :=
  match op with
  | .store _ => (s, keys.map (fun k => (k, 0)))
  | _ =>
    (lineRuns keys).foldl (fun (a : State × List Host.Cell) r =>
      match a.1.logRead (hartKey h (a.1.hart h).remoteCount) r.1 with
      | (s, some b) => (s, a.2 ++ (List.range r.2).map (fun i => (r.1 + i, b.getD i 0)))
      | (s, none) => (s.replayBroken, a.2)) (s, [])

/-- Does an access go to another node, past the lines that the cores hold? -/
def State.goesFar (s : State) (h : HartId) (op : FarOp) (e : El) : Bool :=
  match s.corePlace h e.addr e.n with
  | .far _ _ => true
  | .coh n a => match Tab.find s.coh (farKey n (a / 64 * 64)) with | some c => !c.modified && op.isWrite | none => true
  | _ => false

/-- The bytes of other nodes, uncached, that an instruction still needs: their keys in rising order. -/
def State.farKeys (s : State) (h : HartId) (els : List El) (got : List Host.Cell) : List Nat :=
  let t : Tab Unit := els.foldl (fun t e =>
    match s.corePlace h e.addr e.n with
    | .far n a => (List.range e.n).foldl (fun t i => if (Tab.find got (farKey n a + i)).isSome then t else Tab.set (farKey n a + i) () t) t
    | _ => t) []
  t.map Prod.fst

/-- Everything that an instruction on these elements still needs. -/
def State.coreNeeds (s : State) (h : HartId) (op : FarOp) (els : List El) (got : List Host.Cell) : Need :=
  let w : Need := ⟨s, [], [], false⟩
  let w := els.foldl (fun (w : Need) e =>
    match s.corePlace h e.addr e.n with
    | .dram a => w.own (a / 64 * 64) op.isWrite
    | .coh n a => w.line h n (a / 64 * 64) op.isWrite
    | _ => w) w
  (lineRuns (s.farKeys h els got)).foldl (fun w r => w.run h op r) { w with tags := w.tags.eraseDups }

/-! ### One access instruction -/

/-- Raises the exception of the lowest failing element (R325). -/
def State.raiseFails (s : State) (h : HartId) (load : Bool) (els : List El) (fails : List (Nat × Nat × Status)) : State :=
  let hit := els.findSome? (fun e =>
    (fails.find? (fun f => overlaps (s.elKey h e) e.n f.1 f.2.1)).map (fun f => (e, f.2.2)))
  match hit, fails with
  | some (e, st), _ => s.accessException h (accessCause load st) st e.addr
  | none, f :: _ => s.accessException h (accessCause load f.2.2) f.2.2 (BitVec.ofNat 64 (f.1 % 2 ^ 62))
  | none, [] => s

/-- Parks the thread on its requests (R319). -/
def State.parkHart (s : State) (h : HartId) (k : Park) : State :=
  let x := s.hart h
  let s := s.setHart h { x with park := some k }
  if x.st = .parked then s
  else
    let s := (s.modHart h (fun x => { x with remoteCount := x.remoteCount + 1 })).count (corePark (coreOf h) F.CPU_CORE_PARKS_PARKS) 1
    s.leaveCore h .parked

/-- An instruction that accesses memory: the faults of its elements in order, then what it needs of other nodes, then its
completion `done`, which is given the bytes that came from other nodes. `load` chooses the causes of Table 8-2. -/
def State.coreAccess (s : State) (h : HartId) (cmd : CoreCmd) (load : Bool) (op : FarOp) (els : List El)
    (done : State → List Host.Cell → State) : State :=
  let k : Park := match (s.hart h).park with | some k => k | none => ⟨cmd, [], [], []⟩
  let fault := if (s.hart h).park.isSome then none else els.findSome? (fun e => (s.elFault h op e).map (fun st => (e, st)))
  match fault with
  | some (e, st) => s.accessException h (accessCause load st) st e.addr
  | none =>
    if k.fails ≠ [] then s.raiseFails h load els k.fails
    else
      let s := if s.replaying && (s.hart h).park.isNone && els.any (s.goesFar h op) then
          s.modHart h (fun x => { x with remoteCount := x.remoteCount + 1 })
        else s
      let rep := if s.replaying && k.got.isEmpty then s.hartReplay h op (s.farKeys h els []) else (s, k.got)
      let w := rep.1.coreNeeds h op els rep.2
      if w.tags ≠ [] ∨ w.short = true then w.s.parkHart h { k with waits := w.tags, got := rep.2, fails := w.fails }
      else if w.fails ≠ [] then w.s.raiseFails h load els w.fails
      else done w.s rep.2

/-- The bytes of one element once it can be read; none when a word is uncorrectable. -/
def State.elRead (s : State) (h : HartId) (got : List Host.Cell) (e : El) : State × Option (List Byte) :=
  match s.corePlace h e.addr e.n with
  | .reg o => let r := s.busRead (.hart h) o; (r.2, some (leBytes 8 r.1.toNat))
  | .dram a => if s.badRead a e.n then (s.noteRead a e.n, none) else (s, some (s.bytes a e.n))
  | .window a => if s.badRead a e.n then (s, none) else (s, some (s.bytes a e.n))
  | .coh n a =>
    let l := match Tab.find s.coh (farKey n (a / 64 * 64)) with | some c => c.bytes | none => []
    (s, some ((l.drop (a % 64)).take e.n))
  | .far n a => (s, some ((List.range e.n).map (fun i => (Tab.find got (farKey n a + i)).getD 0)))
  | .refused _ => (s, none)

/-- Writes one element inside the node; what goes to another node uncached has been sent. -/
def State.elWrite (s : State) (h : HartId) (e : El) (d : List Byte) : State :=
  match s.corePlace h e.addr e.n with
  | .reg o => s.busWrite (.hart h) o (BitVec.ofNat 64 (leNat d))
  | .dram a => s.coreLine a d
  | .window a => s.sramPut a d
  | .coh n a =>
    let key := farKey n (a / 64 * 64)
    match Tab.find s.coh key with
    | some c =>
      let l := c.bytes.take (a % 64) ++ d ++ c.bytes.drop (a % 64 + d.length)
      { s.breakResv key 64 with coh := Tab.set key ⟨true, l⟩ s.coh }
    | none => s
  | _ => s

/-- The bytes of a store by key, for its remote part. -/
def State.storeMap (s : State) (h : HartId) (els : List El) (ds : List (List Byte)) : Tab Byte :=
  (List.range els.length).foldl (fun (t : Tab Byte) i =>
    match els[i]? with
    | some e =>
      match s.corePlace h e.addr e.n with
      | .far n a => (List.range e.n).foldl (fun t j => Tab.set (farKey n a + j) ((ds.getD i []).getD j 0) t) t
      | _ => t
    | none => t) []

/-- Writes every element in order. -/
def State.writeEls (s : State) (h : HartId) : List El → List (List Byte) → State
  | e :: els, d :: ds => State.writeEls (s.elWrite h e d) h els ds
  | _, _ => s

/-- Reads every element in order; the first uncorrectable one is named. -/
def State.readEls (s : State) (h : HartId) (got : List Host.Cell) : List El → State × List (List Byte) × Option El
  | [] => (s, [], none)
  | e :: els =>
    match s.elRead h got e with
    | (s, none) => (s, [], some e)
    | (s, some d) =>
      let r := State.readEls s h got els
      (r.1, d :: r.2.1, r.2.2)

/-! ### Scalar instructions -/

/-- Bytes of a scalar access. -/
def sizeBytes : MemSize → Nat
  | .b => 1
  | .h => 2
  | .w => 4
  | .d => 8

/-- Instruction bits of a scalar load or store in its 32-bit encoding. -/
def coreMemBits (i : CoreMem) (store : Bool) : Nat :=
  let m := i.imm.toNat
  let f := ((match i.size with | .b => 0 | .h => 1 | .w => 2 | .d => 3) + (if i.signed || store || i.fp then 0 else 4)) * 2 ^ 12 +
    i.base.toNat * 2 ^ 15
  if store then m / 32 * 2 ^ 25 + i.reg.toNat * 2 ^ 20 + f + m % 32 * 2 ^ 7 + (if i.fp then 0x27 else 0x23)
  else m * 2 ^ 20 + f + i.reg.toNat * 2 ^ 7 + (if i.fp then 0x07 else 0x03)

/-- An encoding that the core does not implement: no binary64 (R304), no unsigned doubleword, no compressed f access. -/
def coreMemBad (i : CoreMem) (store : Bool) : Bool :=
  (i.fp && (i.size == .b || i.size == .d || i.short)) || (!store && !i.fp && i.size == .d && !i.signed)

/-- An illegal-instruction exception. -/
def State.illegal (s : State) (h : HartId) (bits : Nat) : State := s.exception h 2 (Config.illegalTval (BitVec.ofNat 64 bits))

/-- Length of an instruction that may have a compressed form. -/
def coreLen (i : CoreMem) : Nat := if i.short then 2 else 4

/-- The register that a load writes: f registers hold 32 bits, and a binary16 is NaN-boxed. -/
def Hart.setLoad (x : Hart) (i : CoreMem) (d : List Byte) : Hart :=
  if i.fp then
    { x.fpDirty with f := Tab.set i.reg.toNat (BitVec.ofNat 32 (if i.size = .h then 0xFFFF0000 + leNat d else leNat d)) x.f }
  else x.setX i.reg (if i.signed then BitVec.ofInt 64 (signed (8 * d.length) (leNat d)) else BitVec.ofNat 64 (leNat d))

/-- A scalar load (R309 to R317, R325). -/
def State.coreLoad (s : State) (h : HartId) (i : CoreMem) : State :=
  let a := (s.hart h).xreg i.base + BitVec.signExtend 64 i.imm
  let e : El := ⟨a, sizeBytes i.size⟩
  if coreMemBad i false || (i.fp && (s.hart h).fpOff) then s.illegal h (coreMemBits i false)
  else if a.toNat % e.n ≠ 0 then s.exception h 4 a
  else
    s.coreAccess h (.load i) true .load [e] (fun s got =>
      match s.elRead h got e with
      | (s, none) => s.accessException h 24 St.uncorrectable a
      | (s, some d) => (s.modHart h (fun x => x.setLoad i d)).pass h (coreLen i))

/-- A scalar store (R309 to R317, R325). -/
def State.coreStore (s : State) (h : HartId) (i : CoreMem) : State :=
  let x := s.hart h
  let a := x.xreg i.base + BitVec.signExtend 64 i.imm
  let e : El := ⟨a, sizeBytes i.size⟩
  let v := if i.fp then (Tab.get (fun _ => 0) x.f i.reg.toNat).toNat else (x.xreg i.reg).toNat
  let d := leBytes e.n v
  if coreMemBad i true || (i.fp && x.fpOff) then s.illegal h (coreMemBits i true)
  else if a.toNat % e.n ≠ 0 then s.exception h 6 a
  else
    s.coreAccess h (.store i) false (.store (s.storeMap h [e] [d])) [e] (fun s _ => (s.elWrite h e d).pass h (coreLen i))

/-- Result of an AMO on two words of w bits. -/
def amoResult (w : Nat) (op : AmoOp) (old x : Nat) : Nat :=
  match op with
  | .swap => x
  | .add => (old + x) % 2 ^ w
  | .xor => Nat.xor old x
  | .and => Nat.land old x
  | .or => Nat.lor old x
  | .min => if signed w x < signed w old then x else old
  | .max => if signed w old < signed w x then x else old
  | .minu => min old x
  | .maxu => max old x

/-- The fabric operation of an AMO (R317, Table 10-10). -/
def amoAop : AmoOp → Nat
  | .swap => 3
  | .add => 1
  | .xor => 0xC
  | .and => 0xA
  | .or => 0xB
  | .min => 6
  | .max => 7
  | .minu => 8
  | .maxu => 9

/-- A value of w bits as an x register receives it. -/
def signExt (w v : Nat) : BitVec 64 := BitVec.ofInt 64 (signed w v)

/-- An AMO of a core (R317, R325). -/
def State.coreAmo (s : State) (h : HartId) (i : AmoInst) : State :=
  let x := s.hart h
  let a := x.xreg i.rs1
  let n := if i.dword then 8 else 4
  let v := (x.xreg i.rs2).toNat % 2 ^ (8 * n)
  let e : El := ⟨a, n⟩
  let ret := fun (s : State) (old : Nat) => (s.modHart h (fun x => x.setX i.rd (signExt (8 * n) old))).pass h 4
  if a.toNat % n ≠ 0 then s.exception h 6 a
  else
    match s.corePlace h a n with
    | .reg _ => s.accessException h 7 St.badDescriptor a
    | .far _ _ =>
      if !i.dword then s.accessException h 7 St.badDescriptor a
      else
        s.coreAccess h (.amo i) false (.atom (amoAop i.op) v 0) [e] (fun s got =>
          ret s (leNat ((List.range n).map (fun j => (Tab.find got (s.elKey h e + j)).getD 0))))
    | _ =>
      s.coreAccess h (.amo i) false (.store []) [e] (fun s got =>
        match s.elRead h got e with
        | (s, none) => s.accessException h 24 St.uncorrectable a
        | (s, some d) => ret (s.elWrite h e (leBytes n (amoResult (8 * n) i.op (leNat d) v))) (leNat d))

/-- LR and SC (R315, R325). -/
def State.coreLrSc (s : State) (h : HartId) (sc : Bool) (i : AmoInst) : State :=
  let x := s.hart h
  let a := x.xreg i.rs1
  let n := if i.dword then 8 else 4
  let e : El := ⟨a, n⟩
  if a.toNat % n ≠ 0 then s.exception h (if sc then 6 else 4) a
  else
    match s.corePlace h a n with
    | .far _ _ => s.accessException h 26 St.coherenceDomain a
    | .window _ => s.exception h (if sc then 7 else 5) a
    | .reg _ => s.accessException h (if sc then 7 else 5) St.badDescriptor a
    | _ =>
      if sc then
        let d := leBytes n (x.xreg i.rs2).toNat
        if x.resv = some (s.elKey h e, n) then
          s.coreAccess h (.lrsc true i) false (.store []) [e] (fun s _ =>
            if (s.hart h).resv = some (s.elKey h e, n) then
              ((s.elWrite h e d).modHart h (fun x => { x with resv := none }.setX i.rd 0)).pass h 4
            else (s.modHart h (fun x => { x with resv := none }.setX i.rd 1)).pass h 4)
        else
          match s.elFault h (.store []) e with
          | some st => s.accessException h (accessCause false st) st a
          | none => (s.modHart h (fun x => { x with resv := none }.setX i.rd 1)).pass h 4
      else
        s.coreAccess h (.lrsc false i) true .load [e] (fun s got =>
          match s.elRead h got e with
          | (s, none) => s.accessException h 24 St.uncorrectable a
          | (s, some d) =>
            (s.modHart h (fun x => { x with resv := some (s.elKey h e, n) }.setX i.rd (signExt (8 * n) (leNat d)))).pass h 4)

/-! ### CSRs -/

/-- Is fvctl.EN set? -/
def Hart.fvxOn (x : Hart) : Bool := x.fvctl.getLsbD 0

/-- mstatus as it reads: UXL says 64 bits, SD sums up FS. -/
def Hart.mstatusRead (x : Hart) : BitVec 64 := withBits (withBits x.mstatus 33 32 2) 63 63 (natOf (bitsOf x.mstatus 14 13 == 3))

/-- Machine CSRs of the privileged architecture that read 0 here: counters that do not exist and their controls. -/
def csrZero (n : Nat) : Bool :=
  n == 0x306 || n == 0x30A || n == 0x320 || (decide (0x323 ≤ n) && decide (n < 0x340)) || (decide (0xB03 ≤ n) && decide (n < 0xB20))

/-- Machine CSRs whose value the manual does not give: misa, mvendorid, marchid, mimpid, mconfigptr. -/
def csrFixed (n : Nat) : Bool := n == 0x301 || n == 0xF11 || n == 0xF12 || n == 0xF13 || n == 0xF15

/-- The value of a CSR, none where the hart has none or may not reach it (R305, R306, R307, R349). mip, mcycle and
minstret depend on what is outside the model or on time: free values. -/
def State.csrRead (s : State) (h : HartId) (n : Nat) : Option (State × BitVec 64) :=
  let x := s.hart h
  let m := fun (v : BitVec 64) => if x.machineMode then some (s, v) else none
  if n = 0x7C0 then m x.fvctl
  else if n = 0x800 then (if x.fvxOn then some (s, x.fvnsat) else none)
  else if n = 0x801 then (if x.fvxOn then some (s, x.fvnflush) else none)
  else if n = 0xCC0 then some (s, x.fvrstat)
  else if n = 0xCC1 then some (s, s.clock.ns)
  else if n = 0xCC2 then
    let r := s.drawFree
    some (r.2.modHart h (fun x => { x with fvcycle := r.1 }), r.1)
  else if 1 ≤ n ∧ n ≤ 3 then
    if x.fpOff then none
    else some (s, if n = 1 then x.fcsr &&& 0x1F else if n = 2 then (x.fcsr >>> 5) &&& 7 else x.fcsr)
  else if n = 0x300 then m x.mstatusRead
  else if n = 0x304 then m x.mie
  else if n = 0x305 then m x.mtvec
  else if n = 0x340 then m x.mscratch
  else if n = 0x341 then m x.mepc
  else if n = 0x342 then m x.mcause
  else if n = 0x343 then m x.mtval
  else if n = 0x344 then (if x.machineMode then some (s.drawFree.2, s.drawFree.1 &&& 0x808) else none)
  else if n = 0xB00 ∨ n = 0xB02 then (if x.machineMode then some (s.drawFree.2, s.drawFree.1) else none)
  else if n = 0xF14 then m (BitVec.ofNat 64 h.toNat)
  else if csrFixed n then m (Config.machineId n)
  else if csrZero n then m 0
  else none

/-- Writes a CSR that takes writes. -/
def Hart.csrWrite (x : Hart) (n : Nat) (v : BitVec 64) : Hart :=
  if n = 0x7C0 then { x with fvctl := v &&& 1 }
  else if n = 0x800 then { x with fvnsat := v }
  else if n = 0x801 then { x with fvnflush := v }
  else if n = 1 then { x with fcsr := withBits x.fcsr 4 0 v.toNat }.fpDirty
  else if n = 2 then { x with fcsr := withBits x.fcsr 7 5 v.toNat }.fpDirty
  else if n = 3 then { x with fcsr := v &&& 0xFF }.fpDirty
  else if n = 0x340 then { x with mscratch := v }
  else if n = 0x300 then
    let mpp := if bitsOf v 12 11 = 3 then 3 else 0
    { x with mstatus := withBits (v &&& 0x226088) 12 11 mpp }
  else if n = 0x304 then { x with mie := v &&& 0x808 }
  else if n = 0x305 then { x with mtvec := v &&& 0xFFFFFFFFFFFFFFFD }
  else if n = 0x341 then { x with mepc := v &&& 0xFFFFFFFFFFFFFFFE }
  else if n = 0x342 then { x with mcause := v }
  else if n = 0x343 then { x with mtval := v }
  else x

/-- The bits of a CSR instruction. -/
def csrBits (i : CsrInst) : Nat :=
  let f := (match i.op with | .rw => 1 | .rs => 2 | .rc => 3) + (if i.useImm then 4 else 0)
  i.csr.toNat * 2 ^ 20 + i.rs1.toNat * 2 ^ 15 + f * 2 ^ 12 + i.rd.toNat * 2 ^ 7 + 0x73

/-- A CSR instruction (R349, Zicsr): CSRRW with rd = x0 does not read; CSRRS and CSRRC with rs1 = 0 do not write. -/
def State.csrAccess (s : State) (h : HartId) (i : CsrInst) : State :=
  let n := i.csr.toNat
  let x := s.hart h
  let v := if i.useImm then BitVec.setWidth 64 i.rs1 else x.xreg i.rs1
  let writes := i.op == .rw || i.rs1 != 0
  match s.csrRead h n with
  | none => s.illegal h (csrBits i)
  | some (s', old) =>
    if writes && decide (n / 0x400 = 3) then s.illegal h (csrBits i)
    else
      let s := if i.op = .rw ∧ i.rd = 0 then s else s'
      let new := match i.op with | .rw => v | .rs => old ||| v | .rc => old &&& ~~~v
      (s.modHart h (fun x => (if writes then x.csrWrite n new else x).setX i.rd old)).pass h 4

/-! ### Meanings -/

/-- CORE_LOAD (R309). -/
def execCoreLoad (h : HartId) (i : CoreMem) (s : State) : Host.Outcome State Fault Refusal :=
  .next (s.coreDo h (fun s => s.coreLoad h i))

/-- CORE_STORE (R309). -/
def execCoreStore (h : HartId) (i : CoreMem) (s : State) : Host.Outcome State Fault Refusal :=
  .next (s.coreDo h (fun s => s.coreStore h i))

/-- AMO (R317). -/
def execAmo (h : HartId) (i : AmoInst) (s : State) : Host.Outcome State Fault Refusal :=
  .next (s.coreDo h (fun s => s.coreAmo h i))

/-- REMOTE_AMO (R317): the same instruction, to a node outside the coherence domain. -/
def execRemoteAmo (h : HartId) (i : AmoInst) (s : State) : Host.Outcome State Fault Refusal :=
  .next (s.coreDo h (fun s => s.coreAmo h i))

/-- LR_SC (R315). -/
def execLrSc (h : HartId) (sc : Bool) (i : AmoInst) (s : State) : Host.Outcome State Fault Refusal :=
  .next (s.coreDo h (fun s => s.coreLrSc h sc i))

/-- FENCE (R316): every access of the hart is complete when its next instruction runs, so only the program counter
moves. -/
def execFence (h : HartId) (_pred _succ : BitVec 4) (s : State) : Host.Outcome State Fault Refusal :=
  .next (s.coreDo h (fun s => s.pass h 4))

/-- CORE_WFI (R321): the thread leaves the core. User mode may not wait when mstatus.TW is set. -/
def execCoreWfi (h : HartId) (s : State) : Host.Outcome State Fault Refusal :=
  .next (s.coreDo h (fun s =>
    if !(s.hart h).machineMode && (s.hart h).mstatus.getLsbD 21 then s.illegal h 0x10500073
    else (s.pass h 4).leaveCore h .wfi))

/-- THREAD_TIMESLICE (R321): the running thread has run 1,024 cycles while another is ready. -/
def execThreadTimeslice (c : CoreId) (s : State) : Host.Outcome State Fault Refusal :=
  let st := fun (t : Nat) => (s.hart (hartOf c.toNat t)).st
  .next (
    match (List.range 8).find? (fun t => st t == .running) with
    | some t => if (List.range 8).any (fun u => st u == .ready) then s.leaveCore (hartOf c.toNat t) .ready else s
    | none => s)

/-- FVX_CSR_ACCESS (R349). -/
def execFvxCsrAccess (h : HartId) (i : CsrInst) (s : State) : Host.Outcome State Fault Refusal :=
  .next (s.coreDo h (fun s => s.csrAccess h i))

end Sys2Proof.Machine
end

