-- ==== Sys2Proof/Machine/Remote.lean ====
section
/-! DEFINITION. Requests that arrive over the fabric and responses to the node's own (R413, R414, R429, R438, R442 to
R455, R587, R590): reads, writes, atomics with their ledger, arrival markers, and span coherence at the home and at a
holder. Readings of the manual are assumption log 27, 28 and 38. -/

namespace Sys2Proof.Machine

/-! ### Answers -/

/-- A field of the fabric die that holds a port. -/
def dieFld (p : PortId) (f : Fld) : Fld := f.plus (dieBase (p.val / 10))

/-- CONG of a response (R438): messages of the channel wait at the port. How much of the buffer they fill the manual does
not let the model say, so the mark is free then. -/
def State.congested (s : State) (p : PortId) (m : Msg) : State × Bool :=
  if (s.port p).rxMsgs.any (fun x => x.vc == m.vc) then (s.drawFree.2, s.drawFree.1.getLsbD 0) else (s, false)

/-- Sends the response to a request. -/
def State.answer (s : State) (p : PortId) (m : Msg) (st : Status) (d : List Byte) : State :=
  let r := s.congested p m
  r.1.sendTo { response m st d with cong := r.2 }

/-- Answers OK, once the log entry that the answer waits for is acknowledged (R590). -/
def State.answerLogged (s : State) (p : PortId) (m : Msg) (lsn : Option Nat) (d : List Byte) : State :=
  match lsn with
  | none => s.answer p m St.ok d
  | some n =>
    let r := s.congested p m
    { r.1 with resil := { r.1.resil with held := r.1.resil.held ++ [.respond n { response m St.ok d with cong := r.2 }] } }

/-- DATA to the source of a coherent request. -/
def State.answerData (s : State) (p : PortId) (m : Msg) (st : Status) (d : List Byte) : State :=
  let r := s.congested p m
  r.1.sendTo { response m st d with opc := 0x16, cong := r.2 }

/-- ACK to the source of a coherent message. -/
def State.answerAck (s : State) (p : PortId) (m : Msg) : State :=
  let r := s.congested p m
  r.1.sendTo { response m St.ok [] with opc := 0x17, cong := r.2 }

/-! ### RD and WR -/

/-- The registers of a request in space type 01, read one after the other for a fabric-die processor (R421). -/
def State.regsRead (s : State) (a n : Nat) : State × List Byte :=
  (List.range (n / 8)).foldl (fun (r : State × List Byte) i =>
    let q := r.1.busRead (.fw 4) (a + 8 * i)
    (q.2, r.2 ++ leBytes 8 q.1.toNat)) (s, [])

/-- The same for a write. -/
def State.regsWrite (s : State) (a : Nat) (d : List Byte) : State :=
  (List.range (d.length / 8)).foldl (fun s i => s.busWrite (.fw 4) (a + 8 * i) (BitVec.ofNat 64 (bytesAt d (8 * i) 8))) s

/-- Serves RD (R352, R377, R413). -/
def State.serveRd (s : State) (p : PortId) (m : Msg) : State :=
  let a := m.addr.toNat
  let n := m.len.toNat
  if m.space = 1 then
    if a % 8 = 0 ∧ n % 8 = 0 then (s.regsRead a n).1.answer p m St.ok (s.regsRead a n).2 else s.answer p m St.badDescriptor []
  else if s.memStatus a n ≠ St.ok then s.answer p m (s.memStatus a n) []
  else
    match s.recall a n false [(p, m)] with
    | some s => s
    | none => if s.badRead a n then (s.noteRead a n).answer p m St.uncorrectable [] else s.answer p m St.ok (s.bytes a n)

/-- Serves WR: the bytes are written, logged, and answered when the log holds them (R414, R587, R590). -/
def State.serveWr (s : State) (p : PortId) (m : Msg) : State :=
  let a := m.addr.toNat
  if m.space = 1 then
    if a % 8 = 0 ∧ m.data.length % 8 = 0 then (s.regsWrite a m.data).answer p m St.ok [] else s.answer p m St.badDescriptor []
  else if s.memStatus a m.data.length ≠ St.ok then s.answer p m (s.memStatus a m.data.length) []
  else
    match s.recall a m.data.length true [(p, m)] with
    | some s => s
    | none =>
      let l := (s.writeBytes a m.data).logInput Lt.write a m.data
      l.1.answerLogged p m l.2 []

/-! ### ATOM -/

/-- The value that an operation of Table 10-10 writes, of w bytes; none when it writes nothing. -/
def atomNew (aop w old x y : Nat) : Option Nat :=
  let o := signed 64 old
  let i := signed 64 x
  match aop with
  | 1 => some ((old + x) % 2 ^ 64)
  | 2 => some (wrapN 64 (max (-(2 ^ 63 : Int)) (min (2 ^ 63 - 1) (o + i))))
  | 3 => some x
  | 4 => if old = y then some x else none
  | 5 => if old = y then some x else none
  | 6 => some (if i < o then x else old)
  | 7 => some (if o < i then x else old)
  | 8 => some (min old x)
  | 9 => some (max old x)
  | 0xA => some (Nat.land old x)
  | 0xB => some (Nat.lor old x)
  | 0xC => some (Nat.xor old x % 2 ^ (8 * w))
  | _ => none

/-- Life of a result in the replay cache, in ns (R451). -/
def replayLife : Nat := 16000000

/-- Takes the results that have had their time out of the cache. -/
def State.expireReplays (s : State) : State :=
  { s with replays := s.replays.filter (fun r => decide (s.clock.ns.toNat < r.applied + replayLife)) }

/-- Caches a result; a full cache evicts its oldest, counted when that is early (R451). -/
def State.cacheResult (s : State) (p : PortId) (r : Replay) : State :=
  if s.replays.length < 65536 then { s with replays := s.replays ++ [r] }
  else { s with replays := s.replays.drop 1 ++ [r] }.count (dieFld p F.FAB_ATOM_EARLY_EVICT) 1

/-- Applies a new atomic (R366): old value, new value, ledger, cache, log entry, answer. -/
def State.applyAtom (s : State) (p : PortId) (m : Msg) (w : Nat) : State :=
  let a := m.addr.toNat
  let b := bytesAt m.data
  let old := s.bytes a w
  let new := match atomNew (b 4 1) w (leNat old) (b 8 w) (b (8 + w) w) with
    | some v => leBytes w v
    | none => old
  let s := if new = old then s else s.writeBytes a new
  let s := { s with ledger := Tab.set m.src.toNat (BitVec.ofNat 32 (b 0 4)) s.ledger }
  let s := s.cacheResult p ⟨m.src, BitVec.ofNat 32 (b 0 4), old, s.clock.ns.toNat⟩
  let l := s.logInput Lt.write a new
  l.1.answerLogged p m l.2 old

/-- Serves ATOM (R447 to R451). -/
def State.serveAtom (s : State) (p : PortId) (m : Msg) : State :=
  let s := s.expireReplays
  let a := m.addr.toNat
  let b := bytesAt m.data
  let w := if b 4 1 = 5 then 16 else 8
  let seq : Word := BitVec.ofNat 32 (b 0 4)
  let newer := match Tab.find s.ledger m.src.toNat with
    | none => true
    | some h => decide (0 < signed 32 (seq - h).toNat)
  if b 4 1 = 0 ∨ 0xC < b 4 1 ∨ b 5 3 ≠ 0 ∨ a % w ≠ 0 ∨ m.space ≠ 0 then s.answer p m St.badDescriptor []
  else if newer then
    if s.memStatus a w ≠ St.ok then s.answer p m (s.memStatus a w) []
    else
      match s.recall a w true [(p, m)] with
      | some s => s
      | none => if s.badRead a w then (s.noteRead a w).answer p m St.uncorrectable [] else s.applyAtom p m w
  else
    match s.replays.find? (fun r => r.src == m.src && r.seq == seq) with
    | some r => (s.countWrap (dieFld p F.FAB_ATOM_REPLAYED) 1).answer p m St.ok r.result
    | none => (s.count (dieFld p F.FAB_ATOM_UNKNOWN) 1).answer p m St.outcomeUnknown []

/-! ### Coherence at the home -/

/-- Capacity: a new line in a full set of 16 ways evicts one, whose holders give it up (R442, Table 10-9). -/
def State.dirEvict (s : State) (line : Nat) : State :=
  let mates := s.dir.filter (fun e => e.1 / 64 % 2 == line / 64 % 2 && Config.dirSet e.1 == Config.dirSet line)
  if s.dir.length < 16 ∨ (Tab.find s.dir line).isSome ∨ mates.length < 16 then s
  else
    match mates[(Config.dirVictim line).val]? with
    | none => s
    | some (v, d) =>
      if s.dirOpen v then s
      else
        let s := s.countWrap (F.FAB_COH_RECALLS.plus (dieBase (line / 64 % 2))) 1
        match d with
        | .shared set => s.openDir v 0x15 set [] none []
        | .owned o => s.openDir v 0x14 [o] (leBytes 2 s.srcNode.toNat ++ leBytes 2 0) none []

/-- Sends the line from memory and enters the state that the request leads to. -/
def State.grantLine (s : State) (p : PortId) (m : Msg) (line : Nat) (d : DirState) : State :=
  let s := s.flushLine line
  if s.badRead line 64 then (s.noteRead line 64).answerData p m St.uncorrectable []
  else (s.answerData p m St.ok (s.bytes line 64)).dirEvict line |>.setDir line (some d)

/-- A message for a line waits until the open transaction ends (R444). -/
def State.dirWait (s : State) (line : Nat) (p : PortId) (m : Msg) : State :=
  { s with dirTrans := s.dirTrans.map (fun t => if t.line = line then { t with waiting := t.waiting ++ [(p, m)] } else t) }

/-- A VC1 request from outside the domain (R443). -/
def State.refuseCoh (s : State) (p : PortId) (m : Msg) (line : Nat) : State :=
  (s.countWrap (F.FAB_COH_REFUSED.plus (dieBase (line / 64 % 2))) 1).answerData p m St.coherenceDomain []

/-- Node and tag of a requester, as FWD_GETS and FWD_GETM carry them. -/
def fwdBody (m : Msg) : List Byte := leBytes 2 m.src.toNat ++ leBytes 2 m.tag.toNat

/-- Serves GETS (Table 10-9). -/
def State.serveGets (s : State) (p : PortId) (m : Msg) : State :=
  let line := m.addr.toNat / 64 * 64
  if !s.inDomain m.src then s.refuseCoh p m line
  else if s.memStatus line 64 ≠ St.ok then s.answerData p m (s.memStatus line 64) []
  else if s.dirOpen line then s.dirWait line p m
  else
    match Tab.find s.dir line with
    | none => s.grantLine p m line (.shared [m.src])
    | some (.shared set) => s.grantLine p m line (.shared (if set.contains m.src then set else m.src :: set))
    | some (.owned o) =>
      if o = m.src then s.grantLine p m line (.shared [m.src])
      else s.openDir line 0x13 [o] (fwdBody m) (some (.shared [o, m.src])) []

/-- Serves GETM (Table 10-9). With other holders the request waits for their ACKs and then finds state I. -/
def State.serveGetm (s : State) (p : PortId) (m : Msg) : State :=
  let line := m.addr.toNat / 64 * 64
  if !s.inDomain m.src then s.refuseCoh p m line
  else if s.memStatus line 64 ≠ St.ok then s.answerData p m (s.memStatus line 64) []
  else if s.dirOpen line then s.dirWait line p m
  else
    let own := fun (s : State) => (s.breakResv line 64).grantLine p m line (.owned m.src)
    match Tab.find s.dir line with
    | none => own s
    | some (.shared set) =>
      let others := set.filter (· != m.src)
      if others.isEmpty then own s else s.openDir line 0x15 others [] none [(p, m)]
    | some (.owned o) => if o = m.src then own s else s.openDir line 0x14 [o] (fwdBody m) (some (.owned m.src)) []

/-- Serves PUTM (Table 10-9): from the owner the data go to memory; from any other node nothing changes. -/
def State.servePutm (s : State) (p : PortId) (m : Msg) : State :=
  let line := m.addr.toNat / 64 * 64
  if !s.inDomain m.src then s.refuseCoh p m line
  else if s.dirOpen line then s.dirWait line p m
  else if Tab.find s.dir line = some (.owned m.src) then
    let s := if m.data.length = 64 ∧ s.memStatus line 64 = St.ok then s.writeBytes line m.data else s
    (s.setDir line none).answerAck p m
  else s.answerAck p m

/-- Serves a request that has been taken from a port, or that has waited for a transaction. -/
def State.serve (s : State) (p : PortId) (m : Msg) : State :=
  match m.opc.toNat with
  | 0x01 => s.serveRd p m
  | 0x02 => s.serveWr p m
  | 0x03 => s.serveAtom p m
  | 0x10 => s.serveGets p m
  | 0x11 => s.serveGetm p m
  | 0x12 => s.servePutm p m
  | _ => s

/-- One holder has answered: with the last one the transaction ends and the requests that wait are served (R444). -/
def State.dirAnswer (s : State) (n : NodeId) (tag : BitVec 16) : State :=
  match s.dirTrans.find? (fun t => t.acks.contains (n, tag)) with
  | none => s
  | some t =>
    let left := t.acks.erase (n, tag)
    let s := s.replyAll tag none
    if !left.isEmpty then
      { s with dirTrans := s.dirTrans.map (fun u => if u.line = t.line then { u with acks := left } else u) }
    else
      t.waiting.foldl (fun s w => s.serve w.1 w.2) ({ s with dirTrans := s.dirTrans.filter (fun u => u.line != t.line) }.setDir t.line t.next)

/-- A directory state without a lost holder (Table 10-9). -/
def DirState.without (n : NodeId) : DirState → Option DirState
  | .shared set => if (set.filter (· != n)).isEmpty then none else some (.shared (set.filter (· != n)))
  | .owned o => if o = n then none else some (.owned o)

/-- A holder is declared lost: it leaves every set, M(lost) becomes I, and nothing waits for it. -/
def State.dropHolder (s : State) (n : NodeId) : State :=
  let s := { s with
    dir := s.dir.filterMap (fun (e : Nat × DirState) => (e.2.without n).map (fun d => (e.1, d))),
    dirTrans := s.dirTrans.map (fun (t : DirTrans) => { t with next := t.next.bind (DirState.without n), waiting := t.waiting.filter (fun w => w.2.src != n) }) }
  (s.dirTrans.flatMap (fun (t : DirTrans) => t.acks.filter (fun a => a.1 == n))).foldl (fun (s : State) a => s.dirAnswer a.1 a.2) s

/-! ### Coherence at a holder -/

/-- The cores give up a line of another node. -/
def State.dropLine (s : State) (key : Nat) : State := { s with coh := Tab.erase key s.coh }.breakResv key 64

/-- The owner's answer to FWD_GETS or FWD_GETM: DATA to the requester; to the home DATA that it writes back, or ACK. An
owner that has lost the line (a CMP reset) has nothing to write back, and its DATA are undefined. -/
def State.ownerAnswer (s : State) (m : Msg) (give : Bool) : State :=
  let key := farKey m.src (m.addr.toNat / 64 * 64)
  let r : NodeId := BitVec.ofNat 14 (bytesAt m.data 0 2)
  let home := fun (d : Option (List Byte)) => match d with
    | some d => { response m St.ok d with opc := 0x16 }
    | none => { response m St.ok [] with opc := 0x17 }
  let data := fun (d : List Byte) => { response m St.ok d with opc := 0x16, dst := r, tag := BitVec.ofNat 16 (bytesAt m.data 2 2) }
  match Tab.find s.coh key with
  | some c =>
    let s := if give then s.dropLine key else { s with coh := Tab.set key { c with modified := false } s.coh }
    if r = m.src then s.sendTo (home (some c.bytes))
    else (s.sendTo (data c.bytes)).sendTo (home (if give then none else some c.bytes))
  | none =>
    if r = m.src then s.sendTo (home none)
    else let b := s.drawBytes 64; (b.2.sendTo (data b.1)).sendTo (home none)

/-- FWD_GETS or FWD_GETM at the owner: it waits for the line's own DATA if they are under way. -/
def State.forwarded (s : State) (p : PortId) (m : Msg) (give : Bool) : State :=
  if s.reqs.any (fun r => r.owner == .coh (farKey m.src (m.addr.toNat / 64 * 64))) then s
  else
    let a := s.intake p m
    if a.2 then a.1.ownerAnswer m give else a.1

/-! ### Responses -/

/-- A CONG mark of a destination: the congestion table of the die, or the overflow queue when that is full (R438). -/
def State.noteCong (s : State) (p : PortId) (n : NodeId) : State :=
  let die := p.val / 10
  let s := s.countWrap (dieFld p F.FAB_CONG_MARKS) 1
  let e := (die, n, s.clock.ns.toNat)
  let mine := fun (c : Nat × NodeId × Nat) => c.1 == die && c.2.1 == n
  if s.cong.any mine then { s with cong := s.cong.map (fun c => if mine c then e else c) }
  else if (s.cong.filter (fun c => c.1 == die)).length < 128 then { s with cong := s.cong ++ [e] }
  else { s with overflow := s.overflow.filter (fun c => !mine c) ++ [e] }

/-- Status that a response carries (Table 10-3). -/
def respStatus (m : Msg) : Status := BitVec.ofNat 16 m.addr.toNat

/-- The response to a request of a hart: its bytes, acknowledged bytes, or a failure; logged as an input (R587). -/
def State.hartResponse (s : State) (h : HartId) (r : Req) (m : Msg) : State :=
  let key := farKey r.msg.dst r.msg.addr.toNat
  let log := hartKey h (s.hart h).remoteCount
  let store := r.msg.opc == 2
  if respStatus m ≠ St.ok then
    let s := if store then s.logNote Lt.status log (leBytes 2 (respStatus m).toNat) else s
    s.modHart h (fun x => x.reply m.tag [] (some (key, r.msg.len.toNat, respStatus m)))
  else
    let s := if store then s else s.logNote Lt.read log (readPayload key m.data)
    let cells : List Host.Cell :=
      if store then (List.range r.msg.len.toNat).map (fun i => (key + i, 0))
      else (List.range m.data.length).map (fun i => (key + i, m.data.getD i 0))
    s.modHart h (fun x => x.reply m.tag cells none)

/-- The response to a request of a copy: bytes to place, or one answer less to wait for (R134 to R137). -/
def State.copyResponse (s : State) (t : TileId) (k : QId) (n : Word) (m : Msg) : State :=
  match (s.tile t).copyEntry k.val n with
  | none => s
  | some e =>
    let d := CopyDesc.of e.desc
    let log := copyKey t k.val n
    let s := s.modCopy t k.val n (fun e => { e.answered with gets := e.gets.filter (fun g => g.1 != m.tag) })
    let s :=
      if respStatus m ≠ St.ok then
        (s.logNote Lt.status log (leBytes 2 (respStatus m).toNat)).modCopy t k.val n (fun e => e.failed (respStatus m))
      else
        match e.gets.find? (fun g => g.1 == m.tag) with
        | some g =>
          if e.status = St.ok then (s.logNote Lt.read log (readPayload g.2.dst.toNat m.data)).copyPut t k n g.2 m.data else s
        | none => s
    (s.copyPump (e.left.length + 1) t k n d).copyEnd t k n d

/-- What the bytes of an arriving response need of the span directory before they are placed (R445). -/
def State.responseRecall (s : State) (r : Req) (m : Msg) : Option State :=
  match r.owner with
  | .copy t k n =>
    match (s.tile t).copyEntry k.val n with
    | some e =>
      match e.gets.find? (fun g => g.1 == m.tag) with
      | some g => if e.status = St.ok then s.placeRecall m.data.length true (s.placeOf g.2.dst) else none
      | none => none
    | none => none
  | _ => none

/-- The outstanding request that a response answers. -/
def State.reqOf (s : State) (m : Msg) : Option Req :=
  s.reqs.find? (fun r => r.msg.tag == m.tag && r.msg.opc == m.opc && r.msg.dst == m.src && m.rsp)

/-- A response that has been taken from its port. -/
def State.takeResponse (s : State) (p : PortId) (m : Msg) : State :=
  match s.reqOf m with
  | none => s
  | some r =>
    let s := { s with reqs := s.reqs.erase r }
    let s := if m.cong then s.noteCong p m.src else s
    match r.owner with
    | .hart h => s.hartResponse h r m
    | .copy t k n => s.copyResponse t k n m
    | .coh _ => s
    | .node => s

/-! ### Meanings -/

/-- A request: taken from its port and served. -/
def State.arriving (s : State) (p : PortId) (m : Msg) (opc : Nat) (f : State → State) : State :=
  let a := s.intake p m
  if a.2 = true ∧ m.opc.toNat = opc ∧ m.rsp = false then f a.1 else a.1

/-- RD (R413, R435): served at its target. -/
def execRd (p : PortId) (m : Msg) (now : BitVec 64) (s : State) : Host.Outcome State Fault Refusal :=
  .next ((s.at_ now).arriving p m 1 (fun s => s.serveRd p m))

/-- WR (R414, R590). -/
def execWr (p : PortId) (m : Msg) (now : BitVec 64) (s : State) : Host.Outcome State Fault Refusal :=
  .next ((s.at_ now).arriving p m 2 (fun s => s.serveWr p m))

/-- ATOM (R450). -/
def execAtom (p : PortId) (m : Msg) (now : BitVec 64) (s : State) : Host.Outcome State Fault Refusal :=
  .next ((s.at_ now).arriving p m 3 (fun s => s.serveAtom p m))

/-- ARRIVE (R414, R590): the counter moves and the answer leaves when the log holds the entry. -/
def execArrive (p : PortId) (m : Msg) (now : BitVec 64) (s : State) : Host.Outcome State Fault Refusal :=
  .next ((s.at_ now).arriving p m 4 (fun s =>
    let a := m.addr.toNat
    let t : TileId := BitVec.ofNat 8 (a / 64)
    let l := s.logInput Lt.arrive (t.toNat * 256 + a % 64) []
    match l.2 with
    | none => (l.1.bumpArrival t (a % 64) 1).answer p m St.ok []
    | some n =>
      let r := l.1.congested p m
      { r.1 with resil := { r.1.resil with held := r.1.resil.held ++
          [.arrive n t (BitVec.ofNat 6 a) { response m St.ok [] with cong := r.2 }] } }))

/-- LEDGER_SYNC (R454): the source's highest SEQ and its cached results are discarded. -/
def execLedgerSync (p : PortId) (m : Msg) (now : BitVec 64) (s : State) : Host.Outcome State Fault Refusal :=
  .next ((s.at_ now).arriving p m 5 (fun s =>
    { s with ledger := Tab.erase m.src.toNat s.ledger, replays := s.replays.filter (fun r => r.src != m.src) }.answer p m St.ok []))

/-- FABRIC_RESPONSE (R429): completes the request that it answers. -/
def execFabricResponse (p : PortId) (m : Msg) (now : BitVec 64) (s : State) : Host.Outcome State Fault Refusal :=
  let s := s.at_ now
  .next (match (s.reqOf m).bind (fun r => s.responseRecall r m) with
    | some s => s
    | none =>
      let a := s.intake p m
      if a.2 then a.1.takeResponse p m else a.1)

/-- Time since the first send of a request, in ns. -/
def State.waited (s : State) (r : Req) : Nat := s.clock.ns.toNat - r.sentAt

/-- ATOM_RETRANSMIT (R449, R452): the same message again at 2, 6 and 14 ms; at 16 ms OUTCOME_UNKNOWN. -/
def execAtomRetransmit (tag : BitVec 16) (now : BitVec 64) (s : State) : Host.Outcome State Fault Refusal :=
  let s := s.at_ now
  .next (match s.reqs.find? (fun r => r.msg.tag == tag && r.msg.opc == 3) with
    | none => s
    | some r =>
      if 16000000 ≤ s.waited r then { s with reqs := s.reqs.erase r }.reqFail r St.outcomeUnknown
      else if (r.sends = 1 ∧ 2000000 ≤ s.waited r) ∨ (r.sends = 2 ∧ 6000000 ≤ s.waited r) ∨ (r.sends = 3 ∧ 14000000 ≤ s.waited r) then
        { s with reqs := s.reqs.map (fun q => if q = r then { q with sends := q.sends + 1 } else q) }.sendTo (msgOut r.msg)
      else s)

/-- REQUEST_TIMEOUT (R455): no response within FAB_TIMEOUT.REQ. -/
def execRequestTimeout (tag : BitVec 16) (now : BitVec 64) (s : State) : Host.Outcome State Fault Refusal :=
  let s := s.at_ now
  .next (match s.reqs.find? (fun r => r.msg.tag == tag && (r.msg.opc == 1 || r.msg.opc == 2 || r.msg.opc == 4 || r.msg.opc == 5)) with
    | none => s
    | some r =>
      if s.fld F.FAB_TIMEOUT_REQ * 1000000 ≤ s.waited r then { s with reqs := s.reqs.erase r }.reqFail r St.timeout else s)

/-- REPLAY_CACHE_EXPIRY (R451). -/
def execReplayCacheExpiry (now : BitVec 64) (s : State) : Host.Outcome State Fault Refusal := .next (s.at_ now).expireReplays

/-- CONG_EXPIRY (R438): 100 µs after its last mark a destination leaves the table. -/
def execCongExpiry (dst : NodeId) (now : BitVec 64) (s : State) : Host.Outcome State Fault Refusal :=
  let s := s.at_ now
  let keep := fun (c : Nat × NodeId × Nat) => c.2.1 != dst || decide (s.clock.ns.toNat < c.2.2 + 100000)
  .next { s with cong := s.cong.filter keep, overflow := s.overflow.filter keep }

/-- GETS (R443 to R445). -/
def execGets (p : PortId) (m : Msg) (s : State) : Host.Outcome State Fault Refusal :=
  .next (s.arriving p m 0x10 (fun s => s.serveGets p m))

/-- GETM (R443 to R445). -/
def execGetm (p : PortId) (m : Msg) (s : State) : Host.Outcome State Fault Refusal :=
  .next (s.arriving p m 0x11 (fun s => s.serveGetm p m))

/-- PUTM (R443 to R446). -/
def execPutm (p : PortId) (m : Msg) (s : State) : Host.Outcome State Fault Refusal :=
  .next (s.arriving p m 0x12 (fun s => s.servePutm p m))

/-- FWD_GETS (R445, R446). -/
def execFwdGets (p : PortId) (m : Msg) (s : State) : Host.Outcome State Fault Refusal := .next (s.forwarded p m false)

/-- FWD_GETM (R445, R446). -/
def execFwdGetm (p : PortId) (m : Msg) (s : State) : Host.Outcome State Fault Refusal := .next (s.forwarded p m true)

/-- INV (R446): the line is dropped and acknowledged, held or not. -/
def execInv (p : PortId) (m : Msg) (s : State) : Host.Outcome State Fault Refusal :=
  .next (s.arriving p m 0x15 (fun s => (s.dropLine (farKey m.src (m.addr.toNat / 64 * 64))).answerAck p m))

/-- DATA for a line that the cores asked for: held from now on, and logged for every hart that waits (R445, R587). -/
def State.takeLine (s : State) (r : Req) (m : Msg) : State :=
  let key := farKey r.msg.dst (r.msg.addr.toNat / 64 * 64)
  let s := { s with reqs := s.reqs.erase r }
  if respStatus m ≠ St.ok then s.replyAll m.tag (some (key, 64, respStatus m))
  else
    let s := s.harts.foldl (fun s e =>
      match e.2.park with
      | some k => if k.waits.contains m.tag then s.logNote Lt.read (hartKey (BitVec.ofNat 10 e.1) e.2.remoteCount) (readPayload key m.data) else s
      | none => s) s
    { s with coh := Tab.set key ⟨r.msg.opc == 0x11, m.data⟩ s.coh }.replyAll m.tag none

/-- DATA (R445): to a requester the line; to the home the data that it writes back. -/
def execData (p : PortId) (m : Msg) (s : State) : Host.Outcome State Fault Refusal :=
  let a := s.intake p m
  .next (
    if a.2 = false then a.1
    else
      match a.1.reqs.find? (fun r => r.msg.tag == m.tag && (r.msg.opc == 0x10 || r.msg.opc == 0x11)) with
      | some r => a.1.takeLine r m
      | none =>
        match a.1.dirTrans.find? (fun t => t.acks.contains (m.src, m.tag)) with
        | some t =>
          let s := if m.data.length = 64 ∧ a.1.memStatus t.line 64 = St.ok then a.1.writeBytes t.line m.data else a.1
          s.dirAnswer m.src m.tag
        | none => a.1)

/-- ACK (R445): of a holder to the home, or of the home to a write-back. -/
def execAck (p : PortId) (m : Msg) (s : State) : Host.Outcome State Fault Refusal :=
  let a := s.intake p m
  .next (
    if a.2 = false then a.1
    else
      match a.1.reqs.find? (fun r => r.msg.tag == m.tag && r.msg.opc == 0x12) with
      | some r => { a.1 with reqs := a.1.reqs.erase r }
      | none => a.1.dirAnswer m.src m.tag)

end Sys2Proof.Machine
end

