-- ==== Sys2Proof/Machine/Snapshot.lean ====
section
/-! DEFINITION. Snapshots (R576 to R586, R593, R594, R609, R610): the guard's page copy, pick starts with their record
and mirror, marks that act, the background copy, chunks at their holders, and the commit. Readings of the manual are
assumption log 40. -/

namespace Sys2Proof.Machine

/-! ### Guard and shadow pool (R386 to R392) -/

/-- A byte as the writes that passed the guard check left it: the write-combining buffer before memory (R389). -/
def State.rawByte (s : State) (a : Nat) : Byte :=
  match wcbByte (s.wcbOf (ctrlOf a)) a with
  | some b => b
  | none => s.mem.read a

def State.rawBytes (s : State) (a n : Nat) : List Byte := (List.range n).map (fun i => s.rawByte (a + i))

/-- Does a poisoned sector lie in the n bytes from a? -/
def State.poisoned (s : State) (a n : Nat) : Bool := s.poison.any (fun u => decide (a ≤ u) && decide (u < a + n))

/-- Slots of the shadow pool: 16 GiB in pages of 64 KiB (R572). -/
def shadowSlots : Nat := 262144

/-- A free slot of the shadow pool: none lies beyond the number of slots in use. -/
def State.freeSlot (s : State) : Option Nat :=
  if s.shadow.length < shadowSlots then
    (List.range (s.shadow.length + 1)).find? (fun k => s.shadow.all (fun e => e.2 != k))
  else none

/-- The held writes whose pages are no longer guarded are released, in order of arrival (R390). -/
def State.releaseHeld (s : State) : State :=
  let go := s.heldWrites.filter (fun w => !s.guard.contains (w.addr / 65536))
  go.foldl (fun s w => s.guardedPut w.addr w.data)
    { s with heldWrites := s.heldWrites.filter (fun w => s.guard.contains (w.addr / 65536)) }

/-- Clears guard bits of pages. -/
def State.unguard (s : State) (pages : List Nat) : State :=
  { s with guard := s.guard.filter (fun p => !pages.contains p) }.releaseHeld

/-- Pages of the shard's regions in a stripe, by node-local page number. -/
def State.stripePages (s : State) (d : Draft) (t : Nat) : List Nat :=
  (List.range 13).filterMap (fun c =>
    if 13 * t + c < imagePages then none else (s.shardPage d (13 * t + c)).map (fun p => p.1 / 65536))

/-- The stripes that the open generation writes. -/
def State.covered (s : State) : List Nat :=
  match s.resil.newRec with
  | none => []
  | some r => (List.range r.stripes.length).filter (fun t => (r.stripes.getD t (0, 0, [])).1 == r.gen)

/-- The open generation is discarded at this member: its pages are dirty again, its guard bits and shadow slots are
released (R584, Table 14-7). -/
def State.dropGen (s : State) (d : Draft) : State :=
  let pages := s.covered.flatMap (s.stripePages d)
  let add := fun (l : List Nat) => l ++ pages.filter (fun p => !l.contains p)
  let s := { s with shadow := [], resil := { s.resil with
      dirtySkein := add s.resil.dirtySkein,
      dirtyFlash := if s.resil.newFlash.isSome then add s.resil.dirtyFlash else s.resil.dirtyFlash,
      phase := .idle, newRec := none, newFlash := none, stripesLeft := [], chunksDue := [] } }
  (((s.unguard pages).setFld F.CKPT_GEN_WRITING 0).count F.CKPT_EVENTS_ABANDONED 1).raise ckptSrc St.genAbandoned
    (leBytes 8 s.resil.gen)

/-- GUARD_COPY (R390, R392): with a free slot the page is copied, its bit is cleared and its writes are released; without
one they wait for the background copy. An uncorrectable page ends the generation (Table 14-7). -/
def execGuardCopy (page : Nat) (s : State) : Host.Outcome State Fault Refusal :=
  .next (match s.draft with
    | none => s
    | some d =>
      if !s.guard.contains page || !s.heldWrites.any (fun w => w.addr / 65536 == page) then s
      else
        match s.freeSlot with
        | none => if s.poolEvent then s else { s with poolEvent := true }.raise 0x0300 St.guardPoolEmpty (leBytes 6 (page * 65536))
        | some k =>
          if s.poisoned (page * 65536) 65536 then s.dropGen d
          else
            let s := s.writeUnguarded (s.areaAt d AreaMap.shadow + k * 65536) (s.rawBytes (page * 65536) 65536)
            { s with shadow := s.shadow ++ [(page, k)] }.unguard [page])

/-! ### Commit records at their places (R583) -/

/-- The node of the coordinator gets a message; the coordinator itself is told directly. -/
def Draft.places (d : Draft) : List NodeId := d.partner.toList ++ d.copyHolder.toList

/-- Writes a skein record at this member's own place and sends it to the other two. -/
def State.putRec (s : State) (d : Draft) (r : CommitRec) : State :=
  let b := recBytes d r
  let s := s.writeUnguarded (s.recPlace d d.member d.member r.tier r.gen) b
  (d.places.filter (fun n => !s.isLost n)).foldl (fun s n =>
    s.tellBulk n 0x34 [] (s.recPlace d ((d.memberOf n).getD 0) d.member r.tier r.gen) b) s

/-- First flash block of copy k of the flash record of a generation, after the two slots of every stripe. -/
def State.flashRecBlock (s : State) (d : Draft) (gen k : Nat) : Nat :=
  2 * 13 * 16 * s.ownStripes d + (2 * k + gen % 2) * ceilDiv (recRoom (s.ownStripes d) / 4) 4096

/-- Writes the three copies of a flash record (R583). -/
def State.putFlashRec (s : State) (d : Draft) (r : CommitRec) : State :=
  let b := recBytes d r
  [0, 1, 2].foldl (fun s k => s.flashPut (s.flashRecBlock d r.gen k) b) s

/-- Keeps a record, of each tier the two newest. -/
def keepRec (r : CommitRec) (l : List CommitRec) : List CommitRec :=
  let l := r :: l.filter (fun x => !(x.tier == r.tier && x.gen == r.gen))
  l.filter (fun x => decide ((l.filter (fun y => y.tier == x.tier && decide (x.gen < y.gen))).length < 2))

/-! ### Interval (R609, R610) -/

/-- T in ns. The costs and input rates of the other members, which no message carries, are free values. -/
def State.intervalNs (s : State) : State × Nat :=
  let a := s.drawFree
  let b := a.2.drawFree
  let costs := s.resil.costs
  let c := max (if costs.isEmpty then 0 else costs.sum / costs.length) (a.1.toNat % 2 ^ 32)
  let run := s.clock.ns.toNat - s.resil.runSince
  let m := (run + s.fld F.CKPT_CFG_MTBF_PRIOR * 1000000000) / (s.resil.losses + 1)
  let opt := max 1000000000 (isqrt 128 0 (2 * c * m))
  let bytes := max s.resil.inputBytes (b.1.toNat % 2 ^ 48)
  let log := if bytes = 0 then opt else 3 * s.ringBytes * (s.clock.ns.toNat - s.resil.inputSince) / (8 * bytes)
  (b.2, min (s.fld F.CKPT_CFG_CAP * 1000000000) (min log opt))

/-- The coordinator computes the interval that its next COMMIT carries. -/
def State.newInterval (s : State) : State :=
  let r := s.intervalNs
  { r.1 with resil := { r.1.resil with everyNext := min 65535 (max 1 (r.2 / max 1 s.periodNs)) } }

/-! ### Commit (R584) -/

/-- The next pick start at least 1 ms away. -/
def State.commitAt (s : State) : Pick :=
  let t := s.clock.ns.toNat + 1000000
  let k := ceilDiv (t - s.pickStartNs (s.pick.toNat + 1)) (max 1 s.periodNs)
  s.pick + 1 + BitVec.ofNat 48 k

/-- Members that the partition still has. -/
def State.liveMembers (s : State) (d : Draft) : List NodeId := d.map.filter (fun n => !s.isLost n)

/-- A COMMIT reaches this member. -/
def State.takeCommit (s : State) (c : CommitMsg) : State :=
  { s with resil := { s.resil with commits := s.resil.commits.filter (fun x => x.tier != c.tier) ++ [c] },
           clock := { s.clock with everyPending := if c.every = 0 then s.clock.everyPending else some (c.every.toNat, c.fromPick) } }

/-- COMMIT to every member once each has sent READY. -/
def State.tryCommit (s : State) (d : Draft) (gen : Nat) (tier : Tier) : State :=
  let mine := s.resil.readys.filter (fun e => e.1 == gen && e.2.1 == tier)
  let all := s.liveMembers d
  if (mine.map (fun e => e.2.2.2)).sum < all.length then s
  else
    let n := s.commitAt
    let c : CommitMsg := { gen := BitVec.ofNat 64 gen, tier := tier, commitPick := n, every := BitVec.ofNat 16 s.resil.everyNext, fromPick := n }
    let s := { s with resil := { s.resil with readys := s.resil.readys.filter (fun e => !(e.1 == gen && e.2.1 == tier)) } }
    (all.filter (· != s.nodeId)).foldl (fun s m =>
      s.tell m 5 0x36 [gen, if tier = .skein then 1 else 2, n.toNat, c.every.toNat, n.toNat] []) (s.takeCommit c)

/-- READY at the coordinator. -/
def State.takeReady (s : State) (d : Draft) (src : NodeId) (gen : Nat) (tier : Tier) (members : Nat) : State :=
  let same := fun (e : Nat × Tier × NodeId × Nat) => e.1 == gen && e.2.1 == tier && e.2.2.1 == src
  { s with resil := { s.resil with readys := s.resil.readys.filter (fun e => !same e) ++ [(gen, tier, src, members)] } }.tryCommit d gen tier

/-- READY toward the coordinator. -/
def State.sendReady (s : State) (d : Draft) (gen : Nat) (tier : Tier) : State :=
  match s.coordinator with
  | none => s
  | some n =>
    if n = s.nodeId then s.takeReady d n gen tier 1
    else s.tell n 5 0x35 [gen, if tier = .skein then 1 else 2, 1] []

/-- Every chunk is written at its holder and every flash page in NAND: the records are PREPARED (R578 step 6). -/
def State.tryPrepared (s : State) (d : Draft) : State :=
  match s.resil.newRec with
  | none => s
  | some r =>
    if s.resil.phase = .copying ∧ s.resil.stripesLeft = [] ∧ s.resil.chunksDue = [] then
      let s := { s with resil := { s.resil with phase := .prepared } }
      let s := (s.putRec d r).sendReady d r.gen .skein
      match s.resil.newFlash with
      | some f => (s.putFlashRec d f).sendReady d f.gen .flash
      | none => s
    else s

/-- ABANDON of the open generation, by the coordinator to every member. -/
def State.abandonAll (s : State) (d : Draft) : State :=
  let g := s.resil.gen
  let s := ((s.liveMembers d).filter (· != s.nodeId)).foldl (fun s m => s.tell m 5 0x37 [g, 1] []) s
  { s with resil := { s.resil with readys := [] } }.dropGen d

/-- Has the coordinator sent COMMIT for the open generation? -/
def State.committing (s : State) : Bool :=
  s.resil.commits.any (fun c => c.tier == .skein && c.gen.toNat == s.resil.gen)

/-! ### Marks (R578) -/

/-- The SNAPSHOT_MARK entry of the timetable. -/
def State.markEntry (s : State) : Option TtEntry := s.clock.timetable.find? (fun e => e.kind == 4)

/-- Is every running shuttle at TWAIT for the mark, and every engine of the tiles idle? -/
def State.markQuiet (s : State) : Bool :=
  let i := ((s.markEntry).map TtEntry.index).getD 0
  s.tileIds.all (fun t =>
    let x := s.tile t
    (!x.program || !s.shuttleRuns t || x.awaits i s.resil.markPick) &&
    (List.range 4).all (fun k => (x.queue k).isEmpty && (x.running k).isNone))

/-- The final snapshot of a drain whose last pick had no mark left to act (Table 14-1, R562): once every shuttle has halted. -/
def State.finalMark (s : State) : Bool :=
  match s.draft with
  | none => false
  | some d =>
    match d.drainLast with
    | some (last, true) =>
      !s.resil.markHeld && s.pick != noPick && decide (last ≤ s.pick) && s.resil.markPick != last && s.resil.phase == .idle &&
      s.fld F.CKPT_STAT_STATE == 1 && s.ready 3 && s.ready 14 &&
      (match s.markEntry with | none => true | some e => s.eventFired last e.index) &&
      s.tileIds.all (fun t => !s.shuttleRuns t && (List.range 4).all (fun k => ((s.tile t).queue k).isEmpty && ((s.tile t).running k).isNone))
    | _ => false

/-- Node-local pages that hold an occupied byte of a bobbin stack (R569). -/
def State.bobbinPages (s : State) : List Nat :=
  (s.tileIds.flatMap (fun t => (List.range 4).flatMap (fun k => ((s.tile t).bobStack k).flatMap (fun e =>
    let a := s.bobAddr t k e.off
    (List.range ((a + e.occ - 1) / 65536 - a / 65536 + 1)).map (fun i => a / 65536 + i))))).eraseDups

/-- The stripes with a covered page (R577): every image page, and the dirty pages. -/
def State.toCover (s : State) (d : Draft) (flash : Bool) : List Nat :=
  (List.range (s.ownStripes d)).filter (fun t =>
    decide (13 * t < imagePages) || (s.stripePages d t).any (fun p => s.resil.dirtySkein.contains p || (flash && s.resil.dirtyFlash.contains p)))

/-- The record of a new generation: covered stripes go to the slot that the newest committed one does not use (R575). -/
def State.openRec (s : State) (d : Draft) (tier : Tier) (gen index : Nat) (cover : List Nat) : CommitRec :=
  let old := match s.newest tier with | some r => r.stripes | none => []
  { committed := false, tier := tier, member := d.member, gen := gen, markPick := s.resil.markPick, markIndex := index, commitPick := noPick,
    cut := s.resil.lsn, refs := s.refsOf d,
    stripes := (List.range (s.ownStripes d)).map (fun t =>
      let o := old.getD t (0, 1, [])
      if cover.contains t then (gen, 1 - o.2.1, []) else o) }

/-- The image area: the control-state record of the mark and the SRAM of the tiles (R578 step 3). -/
def State.putImage (s : State) (d : Draft) (gen index : Nat) : State :=
  let a := s.areaAt d AreaMap.image
  let sram := s.mem.filter (fun c => decide (sramWindow ≤ c.1))
  let m := Memory.writeN (Memory.clear a (a + imagePages * 65536) s.mem) a (s.controlRecord gen index true)
  { s with mem := sram.foldl (fun (m : Memory) c => m.write (a + 64 * 65536 + (c.1 - sramWindow)) c.2) m }

/-- Steps 2 and 3 of R578, then the release of the shuttles. -/
def State.takeMark (s : State) (d : Draft) (final : Bool) : State :=
  let index := ((s.markEntry).map TtEntry.index).getD 0
  let gen := s.resil.gen + 1
  let every := s.fld F.CKPT_CFG_FLASH_EVERY
  let flash := every != 0 && (gen % every == 0 || final)
  let cover := s.toCover d flash
  let pages := cover.flatMap (s.stripePages d)
  let bob := s.bobbinPages
  let s := { s with guard := s.guard ++ pages.filter (fun p => !s.guard.contains p), poolEvent := false,
                    resil := { s.resil with
      dirtySkein := s.resil.dirtySkein.filter (fun p => !pages.contains p),
      dirtyFlash := if flash then s.resil.dirtyFlash.filter (fun p => !pages.contains p) else s.resil.dirtyFlash,
      gen := gen, phase := .copying, flashGen := flash, bobPages := bob, stripesLeft := cover, chunksDue := [], markHeld := false,
      lateCost := 0, stall := s.clock.ns.toNat - s.resil.markAt } }
  let s := { s with resil := { s.resil with newRec := some (s.openRec d .skein gen index cover),
                                            newFlash := if flash then some (s.openRec d .flash gen index cover) else none } }
  let s := (s.drainEvery.putImage d gen index).setFld F.CKPT_GEN_WRITING gen
  let s : State := { s with harts := s.harts.map (fun (e : Nat × Hart) => (e.1, { e.2 with remoteCount := 0 })) }
  let s := s.tileIds.foldl (fun s t => s.fireTile t index s.resil.markPick) s
  if s.poison.any (fun u => decide (sramWindow ≤ u)) then s.dropGen d else s

/-- SNAPSHOT_MARK (R576 to R581): the mark that acts, once shuttles and engines are still. A generation that is open by then
is abandoned by the coordinator (R584). -/
def execSnapshotMark (now : BitVec 64) (s : State) : Host.Outcome State Fault Refusal :=
  let s := s.at_ now
  .next (match s.draft with
    | none => s
    | some d =>
      if s.resil.markHeld then
        if !s.ready 3 || !s.ready 14 || s.fld F.CKPT_STAT_STATE != 1 then s
        else if s.resil.phase ≠ .idle then
          (if s.coordinator = some s.nodeId ∧ s.committing = false then s.abandonAll d else s)
        else if s.markQuiet then s.takeMark d (match d.drainLast with | some l => l == (s.resil.markPick, true) | none => false)
        else s
      else if s.finalMark then
        { s with resil := { s.resil with markPick := (match d.drainLast with | some l => l.1 | none => s.pick), markAt := s.clock.ns.toNat } }.takeMark d true
      else s)

/-! ### Background copy (R578 step 5) -/

/-- A covered page as it was at the mark: from its shadow slot when the guard has copied it; none when uncorrectable. -/
def State.markedPage (s : State) (d : Draft) (a : Nat) : Option (List Byte) :=
  let src := match s.shadow.find? (fun e => e.1 == a / 65536) with
    | some e => s.areaAt d AreaMap.shadow + e.2 * 65536
    | none => a
  if s.poisoned src 65536 then none else some (s.rawBytes src 65536)

/-- Chunk c of a stripe from its data: the page, P or Q. -/
def stripeChunk (ds : List (List Byte)) (c : Nat) : List Byte :=
  if c = 13 then parityP ds else if c = 14 then parityQ ds else ds.getD c []

/-- Writes the data chunks of a stripe into flash; false when NAND refuses one (R395 to R397). -/
def State.flashStripe (s : State) (t slot : Nat) (ds : List (Option (List Byte))) : State × Bool :=
  (List.range ds.length).foldl (fun (r : State × Bool) c =>
    match ds[c]? with
    | some (some b) =>
      let lba := ((2 * t + slot) * 13 + c) * 16
      if r.1.bit F.NAND_STAT_READY && !r.1.bit F.NAND_STAT_READ_ONLY && r.1.flashStatus .resilience lba 16 == St.ok then
        (r.1.flashPut lba b, r.2)
      else (r.1.setFld F.NAND_STAT_ERR 1, false)
    | _ => r) (s, true)

/-- Sets the digests of a stripe in a record. -/
def CommitRec.digest (r : CommitRec) (t : Nat) (dg : List (List Byte)) : CommitRec :=
  let o := r.stripes.getD t (0, 0, [])
  { r with stripes := r.stripes.set t (o.1, o.2.1, dg) }

/-- One stripe: its data chunks with none for a page of zeros that is not stored, the digests, CHUNK_WR to the holders. -/
def State.copyStripe (s : State) (d : Draft) (r : CommitRec) (t : Nat) (ds : List (Option (List Byte))) : State :=
  let full := ds.map (fun x => x.getD zeroChunk)
  let slot := (r.stripes.getD t (0, 0, [])).2.1
  let kept := fun (c : Nat) => decide (13 ≤ c) || (match ds[c]? with | some (some _) => true | _ => false)
  let dg := (List.range 15).map (fun c => if kept c then chunkDig (stripeChunk full c) else zeros 16)
  let s := (List.range 15).foldl (fun (s : State) c =>
    match d.holder d.member t c with
    | some q =>
      match d.node q with
      | some n =>
        if kept c && !s.isLost n then
          { s with resil := { s.resil with chunksDue := s.resil.chunksDue ++ [(t, c)] } }.tellBulk n 0x30 [r.gen, d.member, t, c]
            (s.slotAddr d q d.member t slot) (stripeChunk full c)
        else s
      | none => s
    | none => s) s
  let f := match s.resil.newFlash with
    | some f => let w := s.flashStripe t (f.stripes.getD t (0, 0, [])).2.1 ds; (w.1, if w.2 then some (f.digest t dg) else none)
    | none => (s, none)
  let s := { f.1 with resil := { f.1.resil with newRec := some (r.digest t dg), newFlash := f.2,
                                                stripesLeft := f.1.resil.stripesLeft.filter (· != t) } }
  let pages := s.stripePages d t
  { s with shadow := s.shadow.filter (fun e => !pages.contains e.1) }.unguard pages

/-- SNAPSHOT_BACKGROUND_COPY (R578): pauses without RCC (R615); an uncorrectable page ends the generation. -/
def execSnapshotBackgroundCopy (stripe : Nat) (s : State) : Host.Outcome State Fault Refusal :=
  .next (match s.draft, s.resil.newRec with
    | some d, some r =>
      if s.resil.phase ≠ .copying ∨ s.resil.stripesLeft.contains stripe = false ∨ s.ready 3 = false ∨ s.ready 14 = false then s
      else
        let pages : List (Option (Option (List Byte))) := (List.range 13).map (fun c =>
          if s.chunkKept d stripe c then
            match s.shardPage d (13 * stripe + c) with
            | some p => (s.markedPage d p.1).map some
            | none => some none
          else some none)
        if pages.any Option.isNone then s.dropGen d
        else (s.copyStripe d r stripe (pages.map (fun x => x.getD none))).tryPrepared d
    | _, _ => s)

/-- CHUNK_WR (R575): the bytes go into the slot; with the last one of the chunk the holder acknowledges. -/
def execChunkWr (src : NodeId) (a : BitVec 48) (d : List Byte) (id : ChunkId) (s : State) : Host.Outcome State Fault Refusal :=
  .next (
    if s.resil.fence.contains src || !s.ready 14 then s
    else if s.memStatus a.toNat d.length ≠ St.ok then s
    else
      let s := s.writeUnguarded a.toNat d
      let old := (s.resil.holds.find? (fun (h : Hold) => h.id == id)).map Hold.got
      let base := match s.resil.holds.find? (fun (h : Hold) => h.id == id) with | some h => min h.base a.toNat | none => a.toNat
      let n := old.getD 0 + d.length
      let s := { s with resil := { s.resil with holds := s.resil.holds.filter (fun (h : Hold) => h.id != id && !(h.base == base && decide (65536 ≤ n))) ++ [⟨id, base, n⟩] } }
      if 65536 ≤ n then s.tell src 5 0x31 [id.gen.toNat, id.member.toNat, id.stripe, id.chunk] [] else s)

/-- CHUNK_ACK (R578). -/
def execChunkAck (src : NodeId) (id : ChunkId) (s : State) : Host.Outcome State Fault Refusal :=
  .next (match s.draft with
    | none => s
    | some d =>
      if s.resil.fence.contains src ∨ id.gen.toNat ≠ s.resil.gen ∨ id.member.toNat ≠ d.member then s
      else { s with resil := { s.resil with chunksDue := s.resil.chunksDue.erase (id.stripe, id.chunk) } }.tryPrepared d)

/-- READY (R584): at the coordinator, with RCC running. -/
def execReady (src : NodeId) (gen : BitVec 64) (tier : Tier) (members : Nat) (now : BitVec 64) (s : State) :
    Host.Outcome State Fault Refusal :=
  let s := s.at_ now
  .next (match s.draft with
    | none => s
    | some d =>
      if s.coordinator ≠ some s.nodeId ∨ s.resil.fence.contains src = true ∨ s.ready 3 = false then s
      else s.takeReady d src gen.toNat tier members)

/-- COMMIT (R584): kept until the pick start that it names; while the node is halted that waits for RESUME (R615). -/
def execCommit (src : NodeId) (c : CommitMsg) (s : State) : Host.Outcome State Fault Refusal :=
  .next (if s.resil.fence.contains src ∨ s.coordinator ≠ some src then s else s.takeCommit c)

/-- ABANDON (R584). -/
def execAbandon (src : NodeId) (gen : BitVec 64) (tier : Tier) (s : State) : Host.Outcome State Fault Refusal :=
  .next (match s.draft with
    | none => s
    | some d =>
      if s.resil.fence.contains src ∨ s.coordinator ≠ some src ∨ gen.toNat ≠ s.resil.gen ∨ s.resil.phase = .idle then s
      else
        match tier with
        | .skein => s.dropGen d
        | .flash =>
          let pages := (s.covered.flatMap (s.stripePages d)).filter (fun p => !s.resil.dirtyFlash.contains p)
          { s with resil := { s.resil with newFlash := none, dirtyFlash := s.resil.dirtyFlash ++ pages } })

/-- Keeps a replica of another member's record: two generations of each tier. -/
def keepReplica (src : NodeId) (b : List Byte) (l : List (NodeId × List Byte)) : List (NodeId × List Byte) :=
  let r := recOf b
  let rest := l.filter (fun e => !(e.1 == src && (recOf e.2).tier == r.tier && (recOf e.2).gen == r.gen))
  let same := rest.filter (fun e => e.1 == src && (recOf e.2).tier == r.tier)
  let newer := fun (g : Nat) => (same.filter (fun e => decide (g < (recOf e.2).gen))).length + natOf (decide (g < r.gen))
  (rest.filter (fun e => !(e.1 == src && (recOf e.2).tier == r.tier) || decide (newer (recOf e.2).gen < 2))) ++ [(src, b)]

/-- Cut of the older of two retained skein generations of a member whose records are kept here. -/
def olderCut (src : NodeId) (l : List (NodeId × List Byte)) : Nat :=
  let rs := (l.filter (fun e => e.1 == src)).map (fun e => recOf e.2)
  let cuts := (rs.filter (fun r => r.tier == .skein && r.committed)).map CommitRec.cut
  if cuts.length < 2 then 0 else cuts.foldl min (cuts.headD 0)

/-! ### Pick start -/

/-- A COMMIT takes effect at a pick start (R584). -/
def State.applyCommit (s : State) (d : Draft) (c : CommitMsg) : State :=
  let finish := fun (r : CommitRec) => { r with committed := true, commitPick := c.commitPick }
  match c.tier with
  | .flash =>
    match s.resil.newFlash with
    | none => s
    | some r =>
      if r.gen ≠ c.gen.toNat then s
      else { s with resil := { s.resil with newFlash := none, recs := keepRec (finish r) s.resil.recs } }.putFlashRec d (finish r)
  | .skein =>
    match s.resil.newRec with
    | none => s
    | some r =>
      if r.gen ≠ c.gen.toNat then s
      else
        let us := fun (n : Nat) => min (n / 1000) 0xFFFFFFFF
        let cost := s.resil.stall + s.resil.lateCost
        let recs := keepRec (finish r) s.resil.recs
        let cuts := (recs.filter (fun x => x.tier == .skein)).map CommitRec.cut
        let cut := if cuts.length < 2 then 0 else cuts.foldl min (cuts.headD 0)
        let costs := s.resil.costs ++ [cost]
        let s : State := { s with resil := { s.resil with
            newRec := none, phase := .idle, recs := recs, log := s.resil.log.filter (fun (e : LogEntry) => decide (cut ≤ e.lsn)),
            costs := costs.drop (costs.length - 8) } }
        let s := ((s.setFld F.CKPT_GEN_COMMITTED r.gen).setFld F.CKPT_GEN_WRITING 0).setFld F.CKPT_STAT_DEGRADED 0
        let s := (s.setFld F.CKPT_COST_COST (us cost)).setFld F.CKPT_COST_STALL (us s.resil.stall)
        let s := s.putRec d (finish r)
        let s : State := if s.coordinator = some s.nodeId then s.newInterval else s
        { s with resil := { s.resil with inputBytes := 0, inputSince := s.clock.ns.toNat } }

/-- Shard page of a node-local page, if the shard holds it. -/
def shardIndex : List (Nat × Nat × Bool) → Nat → Nat → Option Nat
  | [], _, _ => none
  | (a, n, _) :: r, k, p => if a / 65536 ≤ p ∧ p < a / 65536 + n then some (k + (p - a / 65536)) else shardIndex r (k + n) p

/-- Twin mode at a pick start (R594): the pages dirtied since the last one, then MIRROR_END with their digest. -/
def State.mirrorOut (s : State) (partner : NodeId) (n : Pick) : State :=
  let l := (s.resil.dirtyTwin.filterMap (fun p => (shardIndex s.resil.regions imagePages p).map (fun k => (k, p)))).mergeSort
    (fun a b => decide (a.1 ≤ b.1))
  let pages := l.map (fun e => (e.1, s.rawBytes (e.2 * 65536) 65536))
  let s := pages.foldl (fun s e => s.tellBulk partner 0x3F [e.1] (e.1 * 65536) e.2) s
  let s := s.tell partner 5 0x3F [n.toNat] (shake256 (pages.flatMap Prod.snd) 32)
  { s with resil := { s.resil with dirtyTwin := [] } }

/-- The pick-start record (R593), at its place and mirrored to the partner in pages; with the mirror in twin mode. -/
def State.pickRecord (s : State) (d : Draft) (n : Pick) : State :=
  let b := s.controlRecord 0 0 false
  let s := { s.writeUnguarded (s.areaAt d AreaMap.ctl) b with resil := { s.resil with pickRec := some b } }
  match d.partner with
  | none => s
  | some p =>
    if s.isLost p then s
    else
      let s := s.tellBulk p 0x3F [0] 0 b
      if s.bit F.CKPT_STAT_TWIN then s.mirrorOut p n else s

/-- What resilience does at the start of pick n: commits that fall due, the interval, the pick-start record. -/
def State.pickResil (s : State) (d : Draft) (n : Pick) : State :=
  let due := s.resil.commits.filter (fun (c : CommitMsg) => decide (c.commitPick ≤ n))
  let s := { s with resil := { s.resil with commits := s.resil.commits.filter (fun (c : CommitMsg) => !decide (c.commitPick ≤ n)) } }
  let s := if s.ready 3 then due.foldl (fun s c => s.applyCommit d c) s else { s with resil := { s.resil with commits := due ++ s.resil.commits } }
  let s := match s.clock.everyPending with
    | some (e, f) =>
      if f ≤ n then
        { (s.setFld F.CKPT_INTERVAL_EVERY e).setFld F.CKPT_INTERVAL_FROM_PICK f.toNat with clock := { s.clock with everyPending := none } }
      else s
    | none => s
  s.pickRecord d n

/-- PICK_START (R511, R513, R593, R594): the next pick, when its time has come and every event of the pick before it has
fired (R53). -/
def execPickStart (now : BitVec 64) (s : State) : Host.Outcome State Fault Refusal :=
  let s := s.at_ now
  let n := s.nextPick
  let done := s.pick == noPick || s.clock.rebaseForced || s.clock.timetable.all (fun e => s.clock.fired.contains e.index)
  .next (match s.draft with
    | none => s
    | some d =>
      if s.picksRun && n != noPick && done && decide (s.pickStartNs n.toNat ≤ s.clock.ns.toNat) then (s.startPick n).pickResil d n
      else s)

end Sys2Proof.Machine
end

