-- ==== Sys2Proof/Machine/Recovery.lean ====
section
/-! DEFINITION. The input log at its keepers (R587 to R592), the mirror (R594, R595), detection and fencing (R599 to R602),
rebuild, replay and restart (R596 to R608). Readings of the manual are assumption log 40. -/

namespace Sys2Proof.Machine

/-! ### Log rings (R589 to R592) -/

/-- Does an address lie in a log ring that begins at base? -/
def State.inRing (s : State) (base a : Nat) : Bool := decide (base ≤ a) && decide (a < base + s.ringBytes)

/-- The member whose log this one copies (R589). -/
def Draft.copied (d : Draft) : Option NodeId :=
  d.node (d.member / 16 * 16 + (d.member % 16 / 2 + 7) % 8 * 2 + d.member % 2)

/-- The ring kept for a node. -/
def State.ringOf (s : State) (n : NodeId) : LogRing := (s.resil.logRings.find? (fun r => r.owner == n)).getD ⟨n, [], [], false⟩

def State.setRing (s : State) (r : LogRing) : State :=
  { s with resil := { s.resil with logRings := s.resil.logRings.filter (fun x => x.owner != r.owner) ++ [r] } }

/-- Puts an entry into a ring; what stood there with this number or a later one has been truncated (R598). -/
def LogRing.put (r : LogRing) (lsn a : Nat) (d : List Byte) : LogRing :=
  { r with entries := r.entries.filter (fun e => decide (e.1 < lsn)) ++ [(lsn, a, d)] }

/-- Has a ring room for n bytes more? -/
def LogRing.room (r : LogRing) (size n : Nat) : Bool := decide ((r.entries.map (fun e => e.2.2.length)).sum + n ≤ size)

/-- An entry of bytes. -/
def entryOf (b : List Byte) : LogEntry :=
  let g := bytesAt b
  { type := g 0 1, pos := g 1 1, pick := BitVec.ofNat 48 (g 8 6), lsn := g 16 8, key := g 24 8, payload := (b.drop 32).take (g 4 4) }

/-- The copy holder of a member of the span. -/
def Draft.copyHolderOf (d : Draft) (n : NodeId) : Option NodeId :=
  match d.memberOf n with
  | some m => Draft.copyHolder { d with member := m }
  | none => none

/-- A partner's entry: written, and forwarded to the copy holder; while the copy holder is lost the answer is immediate. A full
ring withholds it (R591). -/
def State.partnerEntry (s : State) (d : Draft) (owner : NodeId) (a : Nat) (b : List Byte) : State :=
  let r := s.ringOf owner
  let lsn := (entryOf b).lsn
  if !r.room s.ringBytes b.length then
    (if r.full then s else (s.setRing { r with full := true }).raise ckptSrc St.logFull (leBytes 2 owner.toNat))
  else
    let s := s.writeUnguarded a b
    match d.copyHolderOf owner with
    | some h =>
      if s.isLost h then (s.setRing { r.put lsn a b with full := false }).tell owner 5 0x33 [lsn] []
      else
        let far := s.areaOf d ((d.memberOf h).getD 0) AreaMap.copy + (a - s.areaAt d AreaMap.ring)
        (s.setRing { r.put lsn a b with due := r.due ++ [lsn], full := false }).tellBulk h 0x32 [lsn] far b
    | none => (s.setRing { r.put lsn a b with full := false }).tell owner 5 0x33 [lsn] []

/-- An entry of this member's own log that comes back to it (R592, R604). -/
def State.ownEntry (s : State) (b : List Byte) : State :=
  let e := entryOf b
  if s.resil.log.any (fun (x : LogEntry) => x.lsn == e.lsn) then s
  else
    let l := (s.resil.log ++ [e]).mergeSort (fun (a b : LogEntry) => decide (a.lsn ≤ b.lsn))
    let n := max s.resil.lsn (e.lsn + 1)
    { s with resil := { s.resil with log := l, lsn := n, ackedLsn := n, logPos := s.resil.logPos + b.length } }

/-- LOG_APPEND (R589, R591, R592): by its address, an entry of the partner, an entry to copy, or one of the own log. -/
def execLogAppend (src : NodeId) (a : BitVec 48) (d : List Byte) (s : State) : Host.Outcome State Fault Refusal :=
  .next (match s.draft with
    | none => s
    | some x =>
      let lsn := (entryOf d).lsn
      if s.resil.fence.contains src ∨ s.ready 14 = false then s
      else if s.inRing (s.areaAt x AreaMap.ring) a.toNat then
        match x.partner with
        | some p =>
          if src = p then s.partnerEntry x p a.toNat d
          else (s.writeUnguarded a.toNat d).setRing ((s.ringOf p).put lsn a.toNat d)
        | none => s
      else if s.inRing (s.areaAt x AreaMap.copy) a.toNat then
        match x.copied with
        | some p => ((s.writeUnguarded a.toNat d).setRing ((s.ringOf p).put lsn a.toNat d)).tell src 5 0x33 [lsn] []
        | none => s
      else if s.fld F.CKPT_STAT_STATE = 3 ∨ s.fld F.CKPT_STAT_STATE = 4 then s.ownEntry d
      else s)

/-- What waited for an entry takes place (R56, R590). -/
def State.release (s : State) : Held → State
  | .respond _ m => s.sendNow m
  | .output _ m => s.sendNow m
  | .arrive _ t c m => (s.bumpArrival t c.toNat 1).sendNow m
  | .colDone _ c => s.colEnd c

/-- The entry that something waits for. -/
def Held.lsn : Held → Nat
  | .respond n _ => n
  | .output n _ => n
  | .arrive n _ _ _ => n
  | .colDone n _ => n

/-- Every entry of this node's log up to a number is held outside it. -/
def State.acknowledged (s : State) (lsn : Nat) : State :=
  let n := max s.resil.ackedLsn (min (lsn + 1) s.resil.lsn)
  let go := s.resil.held.filter (fun h => decide (h.lsn < n))
  let used := ((s.resil.log.map (fun (e : LogEntry) => e.bytes.length)).sum * 100) / max 1 s.ringBytes
  let s := { s with resil := { s.resil with ackedLsn := n, held := s.resil.held.filter (fun h => !decide (h.lsn < n)) } }
  go.foldl State.release ((s.setFld F.CKPT_LOG_LSN (n - 1)).setFld F.CKPT_LOG_FILL (min 100 used))

/-- LOG_ACK (R590): of the own log, or of the copy that this partner has sent on. -/
def execLogAck (src : NodeId) (lsn : BitVec 64) (s : State) : Host.Outcome State Fault Refusal :=
  .next (match s.draft with
    | none => s
    | some d =>
      let n := lsn.toNat
      if s.resil.fence.contains src then s
      else if s.logTarget = some src then s.acknowledged n
      else
        match d.partner with
        | some p =>
          if d.copyHolderOf p = some src then
            let r := s.ringOf p
            let s := s.setRing { r with due := r.due.filter (fun k => decide (n < k)) }
            s.tell p 5 0x33 [n] []
          else s
        | none => s)

/-! ### Mirror (R593 to R595) -/

/-- Address of a page of the partner's mirror, and of a slot of the undo buffer. -/
def State.mirrorAddr (s : State) (d : Draft) (page : Nat) : Nat := s.areaAt d AreaMap.mirror + page * 65536
def State.undoAddr (s : State) (d : Draft) (slot : Nat) : Nat := s.areaAt d AreaMap.undo + slot * 65536

/-- A mirrored page: its old contents are saved first. -/
def State.mirrorPage (s : State) (d : Draft) (page : Nat) (b : List Byte) : State :=
  let s := if s.resil.undo.contains page then s
    else
      let slot := s.resil.undo.length
      { s.writeUnguarded (s.undoAddr d slot) (s.rawBytes (s.mirrorAddr d page) 65536) with resil := { s.resil with undo := s.resil.undo ++ [page] } }
  s.writeUnguarded (s.mirrorAddr d page) b

/-- The partner is lost before its MIRROR_END: the mirror returns to the pick before (R594). -/
def State.undoMirror (s : State) (d : Draft) : State :=
  let l := s.resil.undo
  let s := (List.range l.length).foldl (fun s i => s.writeUnguarded (s.mirrorAddr d (l.getD i 0)) (s.rawBytes (s.undoAddr d i) 65536)) s
  { s with resil := { s.resil with undo := [] } }

/-- Every running shuttle and engine of the node is still (R602). -/
def State.enginesIdle (s : State) : Bool :=
  s.tileIds.all (fun t => (List.range 4).all (fun k =>
    ((s.tile t).queue k).isEmpty && ((s.tile t).running k).isNone && ((s.tile t).copyQ k).isEmpty))

/-- Messages of the coordinator to every other live member. -/
def State.tellMembers (s : State) (d : Draft) (opc : Nat) (args : List Nat) : State :=
  ((s.liveMembers d).filter (· != s.nodeId)).foldl (fun s n => s.tell n 5 opc args []) s

/-- The coordinator knows R once every live member has halted (R597): one after the last barrier that any of them completed. -/
def State.tryRestartPick (s : State) (d : Draft) : State :=
  if (s.liveMembers d).all (fun n => s.resil.haltAcks.any (fun e => e.1 == n)) then
    let b := (s.resil.haltAcks.map (fun e => e.2.2)).filter (· != noPick)
    let r := b.foldl (fun (m : Nat) p => max m (p.toNat + 1)) d.firstPick.toNat
    { s with resil := { s.resil with restartPick := some (BitVec.ofNat 48 r) } }
  else s

/-- HALT_ACK at the coordinator. -/
def State.takeHaltAck (s : State) (d : Draft) (src : NodeId) (pick barrier : Pick) : State :=
  { s with resil := { s.resil with haltAcks := s.resil.haltAcks.filter (fun (e : NodeId × Pick × Pick) => e.1 != src) ++ [(src, pick, barrier)] } }.tryRestartPick d

/-- HALT at a member (R602): it stops issuing at once, and answers once its engines are idle. -/
def State.haltNode (s : State) (d : Draft) : State :=
  let s := if s.fld F.CKPT_STAT_STATE = 1 then
      { s.setFld F.CKPT_STAT_STATE 2 with resil := { s.resil with haltAcked := false, markHeld := false } }
    else s
  if s.fld F.CKPT_STAT_STATE ≠ 2 ∨ s.resil.haltAcked = true ∨ s.enginesIdle = false then s
  else
    let s := { s with resil := { s.resil with haltAcked := true } }
    let b := s.resil.lastBarrier.getD noPick
    match s.coordinator with
    | none => s
    | some n => if n = s.nodeId then s.takeHaltAck d n s.pick b else s.tell n 5 0x3B [s.pick.toNat, b.toNat] []

/-- MIRROR (R593 to R595): the partner's pick-start record, a page of its mirror, or the end of the pick's mirror. -/
def execMirror (src : NodeId) (x : MirrorMsg) (s : State) : Host.Outcome State Fault Refusal :=
  .next (match s.draft with
    | none => s
    | some d =>
      if s.resil.fence.contains src ∨ d.partner ≠ some src then s
      else
        match x with
        | .page k b =>
          if k < 64 then s.writeUnguarded (s.areaAt d AreaMap.ctl + 64 * 65536 + k * 65536) b
          else if s.bit F.CKPT_STAT_TWIN then s.mirrorPage d k b
          else s
        | .stop p dg =>
          if !s.bit F.CKPT_STAT_TWIN then s
          else
            let sum := shake256 (s.resil.undo.flatMap (fun k => s.rawBytes (s.mirrorAddr d k) 65536)) 32
            let s := { s with resil := { s.resil with undo := [], mirrorPick := some p } }
            if sum = dg then s
            else
              let s := s.raise ckptSrc St.mirrorDiverged (leBytes 6 p.toNat)
              if s.coordinator = some s.nodeId then (s.tellMembers d 0x3A [s.pick.toNat]).haltNode d else s)

/-! ### Detection (R599, R600) -/

/-- HEARTBEAT (R599): sent on a port in service with the current pick and state, or received. -/
def execHeartbeat (d : Dir) (p : PortId) (src : NodeId) (pick : BitVec 48) (st : BitVec 4) (now : BitVec 64) (s : State) :
    Host.Outcome State Fault Refusal :=
  let s := s.at_ now
  .next (
    if !s.portUp p then s
    else
      match d with
      | .send => s.send { plainMsg (some p) 0 0 0x58 [s.eventPick.toNat, s.fld F.CKPT_STAT_STATE] [] with loc := true }
      | .recv => if s.resil.fence.contains src then s else s.hear src)

/-- The member that decides about a node: the lowest that is neither lost nor that node. -/
def State.judge (s : State) (d : Draft) (n : NodeId) : Option NodeId := d.map.find? (fun m => !s.isLost m && m != n)

/-- SUSPECT at the coordinator: the second member's makes it probe the node on every path (R600). -/
def State.takeSuspect (s : State) (node src : NodeId) : State :=
  let l := if s.resil.suspects.contains (node, src) then s.resil.suspects else s.resil.suspects ++ [(node, src)]
  let s := { s with resil := { s.resil with suspects := l } }
  if (l.filter (fun e => e.1 == node)).length < 2 ∨ s.resil.probing.any (fun e => e.1 == node) = true then s
  else
    let s := { s with resil := { s.resil with probing := s.resil.probing ++ [(node, s.clock.ns.toNat)] } }
    (s.pathPorts node).foldl (fun s p => s.send (plainMsg (some p) node 0 0x59 [] [])) s

/-- HEARTBEAT_SILENCE (R600): 50 ms without anything from a span peer. -/
def execHeartbeatSilence (peer : NodeId) (now : BitVec 64) (s : State) : Host.Outcome State Fault Refusal :=
  let s := s.at_ now
  .next (match s.draft with
    | none => s
    | some d =>
      let last := match s.resil.heard.find? (fun e => e.1 == peer) with | some e => e.2 | none => s.resil.runSince
      let mates := (spanOf d.member d.nmembers).filterMap d.node
      if !d.loaded || !mates.contains peer || peer == s.nodeId || s.isLost peer || decide (s.clock.ns.toNat < last + 50000000) then s
      else
        match s.judge d peer with
        | none => s
        | some n => if n = s.nodeId then s.takeSuspect peer n else s.tell n 5 0x38 [peer.toNat] [])

/-- SUSPECT (R600). -/
def execSuspect (src : NodeId) (node : NodeId) (now : BitVec 64) (s : State) : Host.Outcome State Fault Refusal :=
  let s := s.at_ now
  .next (match s.draft with
    | none => s
    | some d =>
      if s.resil.fence.contains src || !d.map.contains node || s.isLost node || s.judge d node != some s.nodeId || !s.ready 3 then s
      else s.takeSuspect node src)

/-- PROBE (R600): answered at once. -/
def execProbe (src : NodeId) (s : State) : Host.Outcome State Fault Refusal :=
  .next (if s.resil.fence.contains src then s else (s.hear src).tell src 0 0x5A [s.eventPick.toNat] [])

/-- PROBE_REPLY (R600): the node lives. -/
def execProbeReply (src : NodeId) (pick : BitVec 48) (s : State) : Host.Outcome State Fault Refusal :=
  .next (
    if s.resil.fence.contains src then s
    else
      let s := s.hear src
      { s with resil := { s.resil with probing := s.resil.probing.filter (fun e => e.1 != src),
                                       suspects := s.resil.suspects.filter (fun e => e.1 != src) } })

/-! ### Declaration and fencing (R601) -/

/-- The ports that lead straight to a node. -/
def State.portsTo (s : State) (n : NodeId) : List PortId :=
  s.livePorts.filter (fun p => s.bit (pfld p F.FAB_PORT_STAT_PEER_VALID) && s.fld (pfld p F.FAB_PORT_STAT_PEER) == n.toNat)

/-- LOG_LOST: a lost node whose partner and copy holder are lost too (Table 14-7). -/
def State.logGone (s : State) (d : Draft) (n : NodeId) : Bool :=
  match d.memberOf n with
  | none => false
  | some m =>
    let x := { d with member := m }
    s.isLost n && x.places.all s.isLost

/-- One node is declared lost: fenced, its ports taken down; requests, coherence holders and collectives that await it end. -/
def State.loseNode (s : State) (d : Draft) (n : NodeId) : State :=
  if s.isLost n then s
  else
    let mirrored := d.partner == some n && s.bit F.CKPT_STAT_TWIN
    let keeper := s.logTarget == some n
    let s := (s.portsTo n).foldl (fun s p => ((s.portOff p).setFld (pfld p F.FAB_PORT_STAT_AUTH) 0).setFld (pfld p F.FAB_PORT_STAT_DISABLED) 1) s
    let s := { s with resil := { s.resil with
        lost := s.resil.lost ++ [n], fence := if s.resil.fence.contains n then s.resil.fence else s.resil.fence ++ [n],
        losses := s.resil.losses + 1, probing := s.resil.probing.filter (fun e => e.1 != n),
        suspects := s.resil.suspects.filter (fun e => e.1 != n && e.2 != n), haltAcks := s.resil.haltAcks.filter (fun e => e.1 != n) } }
    let s := (s.count F.CKPT_EVENTS_LOSSES 1).dropHolder n
    let s := (s.failReqs (fun r => r.msg.dst == n && r.msg.opc == 3) St.outcomeUnknown).failReqs (fun r => r.msg.dst == n) St.nodeLost
    let s := s.colLost n
    let s := if mirrored then s.undoMirror d else s
    let s := if keeper then s.resendLog else s
    match d.partner with
    | some p =>
      if d.copyHolderOf p = some n then
        let r := s.ringOf p
        let s := s.setRing { r with due := [] }
        match r.due.getLast? with
        | some k => s.tell p 5 0x33 [k] []
        | none => s
      else s
    | none => s

/-- DECLARE at a member. -/
def State.takeDeclare (s : State) (d : Draft) (l : List NodeId) : State :=
  let s := (l.foldl (fun s n => s.loseNode d n) s).showCoord.assignParent
  if s.coordinator ≠ some s.nodeId then s
  else
    let s := if l.any (s.logGone d) then s.raise ckptSrc St.logLost [] else s
    let s := if s.resil.phase ≠ .idle ∧ s.committing = false then s.abandonAll d else s
    s.newInterval.tryRestartPick d

/-- The coordinator declares nodes lost: DECLARE and HALT to every member (R600). -/
def State.declareLost (s : State) (d : Draft) (l : List NodeId) : State :=
  let s := ((s.liveMembers d).filter (fun n => n != s.nodeId && !l.contains n)).foldl (fun s n =>
    (s.tell n 5 0x39 (l.map BitVec.toNat) []).tell n 5 0x3A [s.pick.toNat] []) s
  (s.takeDeclare d l).haltNode d

/-- PROBE_TIMEOUT (R600): 20 ms without a reply. -/
def execProbeTimeout (node : NodeId) (now : BitVec 64) (s : State) : Host.Outcome State Fault Refusal :=
  let s := s.at_ now
  .next (match s.draft with
    | none => s
    | some d =>
      if s.resil.probing.any (fun e => e.1 == node && decide (e.2 + 20000000 ≤ s.clock.ns.toNat)) && s.ready 3 then s.declareLost d [node]
      else s)

/-- FATAL (R600): the coordinator declares the node lost at once. -/
def execFatal (src : NodeId) (status : BitVec 16) (now : BitVec 64) (s : State) : Host.Outcome State Fault Refusal :=
  let s := s.at_ now
  .next (match s.draft with
    | none => s
    | some d =>
      if s.resil.fence.contains src || !d.map.contains src || s.isLost src || s.judge d src != some s.nodeId || !s.ready 3 then s
      else s.declareLost d [src])

/-- DECLARE (R601). -/
def execDeclare (src : NodeId) (lost : List NodeId) (now : BitVec 64) (s : State) : Host.Outcome State Fault Refusal :=
  let s := s.at_ now
  .next (match s.draft with
    | none => s
    | some d => if s.resil.fence.contains src || !d.map.contains src || lost.contains s.nodeId then s else s.takeDeclare d lost)

/-- HALT (R602): from the coordinator. -/
def execHalt (src : NodeId) (pick : BitVec 48) (s : State) : Host.Outcome State Fault Refusal :=
  .next (match s.draft with
    | none => s
    | some d => if s.resil.fence.contains src ∨ s.coordinator ≠ some src then s else s.haltNode d)

/-- HALT_ACK (R602). -/
def execHaltAck (src : NodeId) (pick barrier : BitVec 48) (s : State) : Host.Outcome State Fault Refusal :=
  .next (match s.draft with
    | none => s
    | some d =>
      if s.resil.fence.contains src ∨ s.coordinator ≠ some s.nodeId ∨ d.map.contains src = false then s
      else s.takeHaltAck d src pick barrier)

/-! ### Rebuild (R604) -/

/-- CHUNK_RD for chunks of a record, to the holders that are not lost. -/
def State.askChunks (s : State) (d : Draft) (r : CommitRec) (cs : List (Nat × Nat)) : State :=
  cs.foldl (fun s e =>
    match (d.holder d.member e.1 e.2).bind d.node with
    | some n => if s.isLost n then s else s.tell n 5 0x3C [r.gen, d.member, e.1, e.2] []
    | none => s) s

/-- Is a chunk of a record stored: has it a digest? -/
def CommitRec.stored (r : CommitRec) (t c : Nat) : Bool := ((r.stripes.getD t (0, 0, [])).2.2.getD c []).any (· != 0)

/-- Has a chunk's holder been lost? -/
def State.holderGone (s : State) (d : Draft) (t c : Nat) : Bool :=
  match (d.holder d.member t c).bind d.node with
  | some n => s.isLost n
  | none => true

/-- Chunks of a stripe that cannot be had. -/
def State.gaps (s : State) (d : Draft) (r : CommitRec) (t : Nat) : List Nat :=
  (List.range 15).filter (fun c => r.stored t c && (s.resil.missing.contains (t, c) || s.holderGone d t c))

/-- Chunks of a stripe that a rebuild reads: the stored data chunks that can be had, and as many parity chunks as data chunks
are missing. -/
def State.wanted (s : State) (d : Draft) (r : CommitRec) (t : Nat) : List Nat :=
  let gone := s.gaps d r t
  let data := (List.range 13).filter (fun c => r.stored t c && !gone.contains c)
  let need := (gone.filter (· < 13)).length
  data ++ (([13, 14].filter (fun c => !gone.contains c)).take need)

def State.chunkHere (s : State) (t c : Nat) : Option (List Byte) :=
  (s.resil.rebuilt.find? (fun e => e.1 == t && e.2.1 == c)).map (fun e => e.2.2)

/-- The 13 data chunks of a stripe. -/
def State.stripeData (s : State) (d : Draft) (r : CommitRec) (t : Nat) : Option (List (List Byte)) :=
  decodeStripe (fun c => if r.stored t c then s.chunkHere t c else some zeroChunk)

/-- The tile SRAM from its image. -/
def State.loadImage (s : State) (d : Draft) : State :=
  let a := s.areaAt d AreaMap.image + 64 * 65536
  let cells := (s.mem.filter (fun c => decide (a ≤ c.1) && decide (c.1 < a + 0x80000000)))
  { s with mem := cells.foldl (fun (m : Memory) c => m.write (sramWindow + (c.1 - a)) c.2) (Memory.clear sramWindow (sramWindow + 0x80000000) s.mem),
           poison := s.poison.filter (fun u => decide (u < sramWindow)) }

/-- The shard is there: its pages go to their addresses, the mark record is restored, and replay begins (R604). -/
def State.rebuildDone (s : State) (d : Draft) (r : CommitRec) : State :=
  let s := (List.range r.stripes.length).foldl (fun s t =>
    match s.stripeData d r t with
    | none => s
    | some ds => (List.range 13).foldl (fun s c =>
        match s.shardPage d (13 * t + c) with
        | some p => s.writeUnguarded p.1 (ds.getD c [])
        | none => s) s) s
  let s := s.drainEvery.loadImage d
  let s := s.restoreRecord (s.rawBytes (s.areaAt d AreaMap.image) 2359296)
  let s := s.tileIds.foldl (fun s t => s.setFld (tfld t F.SOLVER_STAT_REPLAY) 1) s
  let s := ((s.setFld F.COL_STAT_REPLAY 1).setFld F.CKPT_STAT_STATE 4).setFld F.CKPT_GEN_COMMITTED r.gen
  { s with resil := { s.resil with rebuildRec := none, rebuilt := [], missing := [],
                                   log := s.resil.log.filter (fun (e : LogEntry) => decide (r.cut ≤ e.lsn)) } }

/-- Goes on with the rebuild: lost stripes end it, the last chunk completes it. -/
def State.tryRebuilt (s : State) (d : Draft) (r : CommitRec) : State :=
  let ts := List.range r.stripes.length
  if ts.any (fun t => decide (2 < (s.gaps d r t).length)) then
    { s with resil := { s.resil with rebuildRec := none, rebuilt := [], missing := [] } }.raise ckptSrc St.skeinLost (leBytes 8 r.gen)
  else if ts.all (fun t => (s.wanted d r t).all (fun c => (s.chunkHere t c).isSome)) then s.rebuildDone d r
  else s

/-- A copy of this spare's own record (R585): of the newest committed generation with two equal RECDIGs the chunks are read. -/
def State.ownRec (s : State) (d : Draft) (src : NodeId) (b : List Byte) : State :=
  let r := recOf b
  let s := { s with resil := { s.resil with recSeen := keepReplica src b s.resil.recSeen } }
  match s.resil.recSeen.find? (fun e => e.1 != src && (recOf e.2).gen == r.gen && (recOf e.2).tier == r.tier) with
  | none => s
  | some e =>
    if storedDig e.2 ≠ storedDig b then s.raise ckptSrc St.genInconsistent (leBytes 8 r.gen)
    else
      let r := { r with committed := r.committed || (recOf e.2).committed }
      let old := match s.resil.rebuildRec with | some x => x.gen | none => 0
      if r.committed = false ∨ r.gen ≤ old then s
      else
        let s := { s with resil := { s.resil with recs := keepRec r s.resil.recs } }
        if r.tier = .skein then
          let s : State := { s with resil := { s.resil with rebuildRec := some r, rebuilt := [], missing := [], gen := r.gen } }
          let cs := (List.range r.stripes.length).flatMap (fun t => (s.wanted d r t).map (fun c => (t, c)))
          (s.askChunks d r cs).tryRebuilt d r
        else s

/-- COMMIT_REC (R583, R585, R591): a replica at its place, which shortens the log ring of its member; or a spare's own record. -/
def execCommitRec (src : NodeId) (a : BitVec 48) (d : List Byte) (s : State) : Host.Outcome State Fault Refusal :=
  .next (match s.draft with
    | none => s
    | some x =>
      if s.resil.fence.contains src ∨ s.memStatus a.toNat d.length ≠ St.ok then s
      else
        let s := s.writeUnguarded a.toNat d
        if s.fld F.CKPT_STAT_STATE = 3 ∧ (recOf d).member = x.member then s.ownRec x src d
        else
          let l := keepReplica src d s.resil.replicas
          let cut := olderCut src l
          { s with resil := { s.resil with replicas := l, logRings := s.resil.logRings.map (fun (r : LogRing) =>
              if r.owner = src then { r with entries := r.entries.filter (fun e => decide (cut ≤ e.1)) } else r) } })

/-- CHUNK_RD (R604): the newest version that this holder has and the generation may reference; a LEN of 0 says that there is
none that can be read. -/
def execChunkRd (src : NodeId) (id : ChunkId) (s : State) : Host.Outcome State Fault Refusal :=
  let args := [id.gen.toNat, id.member.toNat, id.stripe, id.chunk]
  let best := (s.resil.holds.filter (fun (h : Hold) => h.id.member == id.member && h.id.stripe == id.stripe && h.id.chunk == id.chunk &&
      decide (h.id.gen ≤ id.gen) && decide (65536 ≤ h.got))).foldl (fun (b : Option Hold) h => match b with
    | none => some h
    | some k => if k.id.gen < h.id.gen then some h else some k) none
  .next (
    if s.resil.fence.contains src || !s.ready 14 then s
    else
      match best with
      | some h =>
        if s.poisoned h.base 65536 then s.tell src 5 0x3D args []
        else s.tellBulk src 0x3D args 0 (s.rawBytes h.base 65536)
      | none => s.tell src 5 0x3D args [])

/-- CHUNK_DATA (R586, R604): verified; a chunk that fails is missing, and parity is read in its place. -/
def execChunkData (src : NodeId) (id : ChunkId) (d : List Byte) (s : State) : Host.Outcome State Fault Refusal :=
  .next (match s.draft, s.resil.rebuildRec with
    | some x, some r =>
      let t := id.stripe
      let c := id.chunk
      if s.resil.fence.contains src ∨ id.gen.toNat ≠ r.gen ∨ id.member.toNat ≠ x.member ∨ s.fld F.CKPT_STAT_STATE ≠ 3 ∨
          (s.chunkHere t c).isSome = true then s
      else if (r.stripes.getD t (0, 0, [])).2.2.getD c [] = chunkDig d then
        { s with resil := { s.resil with rebuilt := s.resil.rebuilt ++ [(t, c, d)] } }.tryRebuilt x r
      else
        let s := (s.count F.CKPT_EVENTS_CHUNK_BAD 1).raise ckptSrc St.chunkDigest (leBytes 4 t ++ leBytes 1 c)
        let old := s.wanted x r t
        let s : State := { s with resil := { s.resil with missing := s.resil.missing ++ [(t, c)] } }
        let new := (s.wanted x r t).filter (fun k => !old.contains k)
        (s.askChunks x r (new.map (fun k => (t, k)))).tryRebuilt x r
    | _, _ => s)

/-! ### Replay (R605, R606) -/

/-- R at a spare: what the coordinator has found, else one after the last barrier in its log. -/
def State.replayEnd (s : State) (d : Draft) : Pick :=
  match s.resil.restartPick with
  | some r => r
  | none =>
    let all := (s.ctxs.filter (fun e => e.2.members.length == d.nmembers)).map (fun e => e.2.gid.toNat)
    let ps := (s.resil.log.filter (fun (e : LogEntry) => e.type == Lt.coll && e.payload.length == 2 && all.contains (e.key / 2 ^ 32))).map LogEntry.pick
    ps.foldl (fun (m : Pick) p => if m < p + 1 then p + 1 else m) (s.pick + 1)

/-- Does event j of pick q (none: of the next pick) come at or after event i of pick p? -/
def State.atOrAfter (s : State) (i : Nat) (p : Pick) (j : Nat) : Option Pick → Bool
  | none => true
  | some q =>
    decide (p < q) || (q == p && (i == 0 || j == i || (match s.ttEntry i, s.ttEntry j with
      | some e, some f => ttBefore e f
      | _, _ => false)))

/-- Does a wait stand at event i of pick p, or at a later one? -/
def State.waitsFor (s : State) (i : Nat) (p : Pick) : Wait → Bool
  | .event j q => s.atOrAfter i p j.toNat q
  | .counter _ _ (some (j, q)) => s.atOrAfter i p j.toNat q
  | _ => false

/-- Applies the inputs of a position in LSN order. -/
def State.replayInputs (s : State) (p : Pick) (i : Nat) : State :=
  let now := fun (e : LogEntry) => e.pick == p && e.pos == i && (e.type == Lt.write || e.type == Lt.arrive || e.type == Lt.external)
  (s.resil.log.filter now).foldl (fun s e =>
      if e.type = Lt.arrive then s.bumpArrival (BitVec.ofNat 8 (e.key / 256)) (e.key % 64) 1 else s.applyWrite e)
    { s with resil := { s.resil with log := s.resil.log.filter (fun e => !now e) } }

/-- Replay has reached TWAIT 0 into pick R: the node waits for RESUME. Entries of pick R but EXTERNAL and FREEZE are discarded. -/
def State.endReplay (s : State) (r : Pick) : State :=
  let s := s.tileIds.foldl (fun s t => s.setFld (tfld t F.SOLVER_STAT_REPLAY) 0) s
  let s := (s.setFld F.COL_STAT_REPLAY 0).setFld F.CKPT_STAT_STATE 2
  let keep := s.resil.log.filter (fun (e : LogEntry) => e.pick == r && (e.type == Lt.external || e.type == Lt.freeze))
  { s with resil := { s.resil with log := s.resil.log.filter (fun (e : LogEntry) => decide (e.pick < r)) ++ keep, reapply := keep, haltAcked := true } }

/-- REPLAY_EVENT_FIRE (R605, R606): event i of the pick under replay fires when every shuttle waits for it or for a later
one, after the inputs logged at that position. -/
def execReplayEventFire (i : BitVec 7) (s : State) : Host.Outcome State Fault Refusal :=
  let k := i.toNat
  let p := if k = 0 then s.pick + 1 else s.pick
  let still := s.tileIds.all (fun t => !(s.tile t).program || !s.shuttleRuns t ||
    (match (s.tile t).waiting with | some w => s.waitsFor k p w | none => false))
  let turn := if k = 0 then s.clock.timetable.all (fun e => s.clock.fired.contains e.index) else s.eventDue k
  .next (match s.draft with
    | none => s
    | some d =>
      if !s.replaying || !still || !turn then s
      else if k = 0 ∧ p = s.replayEnd d then s.endReplay p
      else
        let s := s.replayInputs p k
        if k = 0 then s.startPick p else s.fireEvent k)

/-! ### Restart and resume (R598, R607) -/

/-- PICK_RESTART (R598): a halted survivor returns to its pick-start record. Its log ends there but for EXTERNAL and FREEZE
entries, which follow with new numbers and are applied again. -/
def execPickRestart (s : State) : Host.Outcome State Fault Refusal :=
  .next (match s.resil.pickRec with
    | none => s
    | some b =>
      if s.fld F.CKPT_STAT_STATE ≠ 2 then s
      else
        let lsn := bytesAt b 24 8
        let old := s.resil.log.filter (fun (e : LogEntry) => decide (e.lsn < lsn))
        let tail := s.resil.log.filter (fun (e : LogEntry) => decide (lsn ≤ e.lsn))
        let keep := tail.filter (fun (e : LogEntry) => e.type == Lt.external || e.type == Lt.freeze)
        let kept := (List.range keep.length).filterMap (fun i => (keep[i]?).map (fun (e : LogEntry) => { e with lsn := lsn + i }))
        let dropped := ((tail.map (fun (e : LogEntry) => e.bytes.length)).sum) - ((keep.map (fun (e : LogEntry) => e.bytes.length)).sum)
        let s := (s.restoreRecord b).count F.CKPT_EVENTS_RESTARTS 1
        let s := { s with resil := { s.resil with
            log := old ++ kept, lsn := lsn + kept.length, ackedLsn := lsn, logPos := s.resil.logPos - dropped, held := [], reapply := kept } }
        s.resendLog)

/-- RESUME at a member (R607, R513, R615). -/
def State.takeResume (s : State) (r : Pick) (base : Nat) : State :=
  let s := s.setFld F.TIME_REBASE_BASE_BASE (wrapN 64 ((base : Int) - (r.toNat * s.periodNs : Nat)))
  let s := (s.rebaseAt (BitVec.ofNat 64 r.toNat)).setFld F.CKPT_STAT_STATE 1
  let s := if s.fld F.CKPT_INTERVAL_EVERY = 0 then s else s.setFld F.CKPT_INTERVAL_FROM_PICK r.toNat
  { s with resil := { s.resil with haltAcked := false, haltAcks := [], restartPick := none, noSpare := false } }

/-- RESUME (R607): from the coordinator; its own decision, at least 20 ms ahead, goes to every member first. -/
def execResume (src : NodeId) (r : BitVec 48) (base : BitVec 64) (now : BitVec 64) (s : State) : Host.Outcome State Fault Refusal :=
  let s := s.at_ now
  .next (match s.draft with
    | none => s
    | some d =>
      if s.resil.fence.contains src || s.coordinator != some src || s.fld F.CKPT_STAT_STATE != 2 then s
      else if src = s.nodeId then
        if s.resil.restartPick = some r ∧ s.clock.ns.toNat + 20000000 ≤ base.toNat ∧ s.ready 3 = true then
          ((s.tellMembers d 0x3E [r.toNat, base.toNat]).takeResume r base.toNat).newInterval
        else s
      else s.takeResume r base.toNat)

/-- NO_SPARE (R614): recovery halts because the host has named no spare in time. -/
def execNoSpare (s : State) : Host.Outcome State Fault Refusal :=
  .next (
    if s.coordinator = some s.nodeId ∧ s.fld F.CKPT_STAT_STATE = 2 ∧ s.resil.noSpare = false then
      { s with resil := { s.resil with noSpare := true } }.raise ckptSrc St.noSpare []
    else s)

end Sys2Proof.Machine
end

