-- ==== Sys2Proof/Machine/Dripol.lean ====
section
/-! DEFINITION. The Dripol host protocol (R640 to R651, R653 to R656): segments and messages, sessions, the gate that every
request passes before its service runs, and the requests that the mailbox itself serves. Readings of the manual are
assumption log 41. -/

namespace Sys2Proof.Machine

def St.authFailed : Status := 0x0902
def St.sessionLimit : Status := 0x0903
def St.role : Status := 0x0904
def St.unknownType : Status := 0x0905
def St.jobPresent : Status := 0x0909

/-! ### Answers -/

/-- A response to a request. -/
def State.replyTo (s : State) (r : Dripol) (type : Nat) (st : Status) (d : List Byte) : State :=
  s.respond (hostReply r.session r.seq type st [] d)

/-- The answer to a message of another MAJOR: the node's own MAJOR and MINOR, and no other effect (R643). -/
def State.answerVersion (s : State) (r : Dripol) (type : Nat) : State :=
  { s with hostOut := s.hostOut ++ [hostReply r.session r.seq type St.sessionVersion [1, 2] []] }

/-- A cached response leaves again (R648). -/
def State.answerAgain (s : State) (m : HostMsg) : State := { s with hostOut := s.hostOut ++ [m] }

/-! ### Sessions (R644 to R650) -/

/-- Is an owner enrolled? -/
def State.enrolled (s : State) : Bool := !s.fw.ownerKey.isEmpty

/-- The session of a number, open or being opened. -/
def State.sessionOf (s : State) (n : BitVec 32) : Option Session := s.fw.sessions.find? (fun x => x.id == n)

/-- The open session of a number. -/
def State.openSession (s : State) (n : BitVec 32) : Option Session := s.fw.sessions.find? (fun x => x.id == n && x.opened)

def State.modSession (s : State) (n : BitVec 32) (f : Session → Session) : State :=
  { s with fw := { s.fw with sessions := s.fw.sessions.map (fun x => if x.id = n then f x else x) } }

/-- A session ends: its waiting requests and segments go with it (R649, Table 15-9). -/
def State.endSession (s : State) (n : BitVec 32) : State :=
  { s with fw := { s.fw with
      sessions := s.fw.sessions.filter (fun x => x.id != n), taken := s.fw.taken.filter (fun q => q.session != n),
      reasm := s.fw.reasm.filter (fun (m : Reasm) => bytesAt (Tab.get (fun _ => []) m.segs 0) 20 4 != n.toNat) } }

/-- Cached response with a sequence number. -/
def Session.cached (x : Session) (seq : BitVec 32) : Option HostMsg := (x.cache.find? (fun e => e.1 == seq)).map Prod.snd

/-- Is a sequence number above the highest seen (R648)? -/
def Session.fresh (x : Session) (seq : BitVec 32) : Bool :=
  match x.high with
  | some h => decide (h < seq)
  | none => true

/-! ### The gate -/

/-- TYPEs that the ROM serves in recovery mode (R626). -/
def romTypes : List Nat := [1, 3, 5, 6, 0x10, 0x50, 0x51, 0x62]

/-- Why the serving processor cannot take a request (R623, R626, R677, R683); none when it can. `srv` is its index, none the
mailbox. -/
def State.serviceStop (s : State) (type : Nat) (srv : Option Nat) : Option Status :=
  if s.bit F.SEC_STAT_RECOVERY then (if romTypes.contains type then none else some St.serviceHeld)
  else
    match srv with
    | none => none
    | some p =>
      if s.bit (fwpFld p F.FWP_STAT_HELD) then some St.serviceHeld
      else if s.fld F.PWR_STATE_CUR = 3 ∧ 2 ≤ p then some St.aborted
      else if s.ready p then none
      else some St.serviceRestarting

/-- The requests that the node has received and not yet served, without one of them. -/
def State.untake (s : State) (r : Dripol) (type : Nat) : State :=
  { s with fw := { s.fw with taken := s.fw.taken.filter (fun q => !(q.session == r.session && q.seq == r.seq && q.type == type)) } }

/-- Was the request received through DRIPOL_SEGMENT, which has checked its number? -/
def State.isTaken (s : State) (r : Dripol) (type : Nat) : Bool :=
  s.fw.taken.any (fun q => q.session == r.session && q.seq == r.seq && q.type == type)

/-- A request whose number has been accepted: the role and the processor, then the service. -/
def State.runService (s : State) (x : Session) (r : Dripol) (type : Nat) (least : Role) (srv : Option Nat) (f : State → State) : State :=
  if x.role.level < least.level then s.replyTo r type St.role []
  else
    match s.serviceStop type srv with
    | some st => s.replyTo r type st []
    | none => f s

/-- The gate of every request of a session: version, enrollment, session, number, role, processor. -/
def State.gate (s : State) (r : Dripol) (type : Nat) (least : Role) (srv : Option Nat) (f : State → State) : State :=
  if !s.power.on || s.power.stopped then s
  else if r.major ≠ 1 then s.answerVersion r type
  else if !s.enrolled then s.replyTo r type St.authFailed []
  else
    match s.openSession r.session with
    | none => s
    | some x =>
      if s.isTaken r type then (s.untake r type).runService x r type least srv f
      else
        match x.cached r.seq with
        | some m => s.answerAgain m
        | none =>
          if x.fresh r.seq then
            (s.modSession r.session (fun y => { y with high := some r.seq, lastValid := s.clock.ns.toNat })).runService x r type least srv f
          else s

/-- The gate of a request that the node also takes outside a session while no owner is enrolled (R650). -/
def State.serveOpen (s : State) (r : Dripol) (type : Nat) (f : State → State) : State :=
  if s.power.on && !s.power.stopped && r.major == 1 && !s.enrolled && r.session == 0 then
    match s.serviceStop type (some 0) with
    | some st => (s.untake r type).replyTo r type st []
    | none => f (s.untake r type)
  else s.gate r type .observer (some 0) f

/-- The gate of the messages that open a session or enroll an owner. -/
def State.serveBsc (s : State) (r : Dripol) (type : Nat) (f : State → State) : State :=
  if !s.power.on || s.power.stopped then s
  else if r.major ≠ 1 then s.answerVersion r type
  else
    match s.serviceStop type (some 0) with
    | some st => (s.untake r type).replyTo r type st []
    | none => f (s.untake r type)

/-! ### Opening and closing -/

/-- Payload of HELLO. -/
def helloBytes (nonce key : List Byte) (role : Role) : List Byte := nonce ++ key ++ leBytes 1 role.level

/-- Takes one random draw. -/
def State.drawn (s : State) : State := { s with fw := { s.fw with draws := s.fw.draws + 1 } }

/-- A nonzero SESSION that no session has. -/
def State.newSession (s : State) : BitVec 32 :=
  let n := Config.randomSession s.fw.draws
  if n ≠ 0 ∧ s.sessionOf n = none then n
  else (((List.range 9).map (fun i => BitVec.ofNat 32 (i + 1))).find? (fun k => (s.sessionOf k).isNone)).getD 1

/-- HELLO: CHALLENGE carries a nonce and the number of the session that it begins (R644, R649). -/
def State.helloStep (s : State) (r : Dripol) (nonce key : List Byte) (role : Role) : State :=
  if !s.enrolled then s.replyTo r 1 St.authFailed []
  else if 8 ≤ s.fw.sessions.length then s.replyTo r 1 St.sessionLimit []
  else
    let mine := (Config.random s.fw.draws ++ zeros 32).take 32
    let id := s.newSession
    let pay := mine ++ leBytes 4 id.toNat
    let x : Session := { id := id, opened := false, role := role, hostKey := key, transcript := shake256 (helloBytes nonce key role ++ pay) 64,
                         key := [], high := none, cache := [], subscribed := false, notified := 0, noteSeq := 0, lastValid := s.clock.ns.toNat }
    { s.drawn with fw := { s.drawn.fw with sessions := s.fw.sessions ++ [x] } }.replyTo r 2 St.ok pay

/-- HELLO (R644, R649, R650). -/
def execHello (r : Dripol) (nonce key : List Byte) (role : Role) (s : State) : Host.Outcome State Fault Refusal :=
  .next (s.serveBsc r 1 (fun s => s.helloStep r nonce key role))

/-- Does a host key have a role: the owner key always, another when the list gives it that role or a higher one (R645)? -/
def State.keyHas (s : State) (key : List Byte) (role : Role) : Bool :=
  decide (key = s.fw.ownerKey) ||
    s.fw.hostKeys.any (fun e => decide (e.1 = shake256 key e.1.length) && decide (role.level ≤ e.2.level))

/-- HOST_PROOF on a session being opened: NODE_PROOF and the session key, or AUTH_FAILED (R644 to R646). -/
def State.proofStep (s : State) (r : Dripol) (x : Session) (sig : List Byte) : State :=
  if Config.slhVerify slh256s x.hostKey (ascii "DRIPOL-HOST") x.transcript sig && s.keyHas x.hostKey x.role then
    (s.modSession r.session (fun y => { y with
      opened := true, key := kmac256 s.fw.ownerSecret x.transcript 32 (ascii "DRIPOL-SESSION"), high := some r.seq,
      lastValid := s.clock.ns.toNat })).replyTo r 4 St.ok (Config.slhSign (ascii "DRIPOL-NODE") x.transcript)
  else (s.endSession r.session).replyTo r 3 St.authFailed []

/-- HOST_PROOF (R644 to R646). -/
def execHostProof (r : Dripol) (sig : List Byte) (s : State) : Host.Outcome State Fault Refusal :=
  .next (s.serveBsc r 3 (fun s =>
    if !s.enrolled then s.replyTo r 3 St.authFailed []
    else
      match s.sessionOf r.session with
      | none => s
      | some x =>
        if x.opened then (match x.cached r.seq with | some m => s.answerAgain m | none => s)
        else s.proofStep r x sig))

/-- CLOSE (R649). -/
def execClose (r : Dripol) (s : State) : Host.Outcome State Fault Refusal :=
  .next (s.gate r 5 .observer none (fun s => (s.replyTo r 5 St.ok []).endSession r.session))

/-- ENROLL (R650): only while no owner is enrolled; the answer signs the SHAKE256 of the payload. -/
def execEnroll (r : Dripol) (key secret : List Byte) (s : State) : Host.Outcome State Fault Refusal :=
  .next (s.serveBsc r 6 (fun s =>
    if s.enrolled then s.replyTo r 6 St.authFailed []
    else if key.length ≠ 64 ∨ secret.length ≠ 32 then s.replyTo r 6 St.badDescriptor []
    else
      ({ s with fw := { s.fw with ownerKey := key, ownerSecret := secret } }.setFld F.SEC_STAT_ENROLLED 1).replyTo r 6 St.ok
        (Config.slhSign (ascii "FVN-ENROLL") (shake256 (key ++ secret) 64))))

/-- RELEASE (R650). -/
def execRelease (r : Dripol) (sig : List Byte) (s : State) : Host.Outcome State Fault Refusal :=
  .next (s.gate r 7 .administrator (some 0) (fun s =>
    if Config.releaseSigned s.fw.ownerKey sig then
      ({ s with fw := { s.fw with ownerKey := [], ownerSecret := [] } }.setFld F.SEC_STAT_ENROLLED 0).replyTo r 7 St.ok []
    else s.replyTo r 7 St.authFailed []))

/-- SESSION_IDLE_TIMEOUT (R649): 60 s without a valid message. -/
def execSessionIdleTimeout (session : BitVec 32) (now : BitVec 64) (s : State) : Host.Outcome State Fault Refusal :=
  let s := s.at_ now
  .next (match s.sessionOf session with
    | some x => if x.lastValid + 60000000000 ≤ s.clock.ns.toNat then s.endSession session else s
    | none => s)

/-! ### Segments and messages (R640 to R643, R646 to R648) -/

/-- TYPEs of Table 15-7 that a host may send, beside those of session opening. -/
def knownTypes : List Nat :=
  [0x05, 0x06, 0x07, 0x10, 0x11, 0x12, 0x13, 0x14, 0x15, 0x20, 0x21, 0x22, 0x23, 0x24, 0x25, 0x26, 0x27, 0x28, 0x29, 0x30, 0x31, 0x32,
   0x33, 0x34, 0x35, 0x36, 0x37, 0x40, 0x41, 0x50, 0x51, 0x52, 0x53, 0x54, 0x55, 0x60, 0x61, 0x62, 0x70, 0x71]

/-- The request waits for its service, or is answered at once when its processor cannot take it (R623). -/
def State.takeReq (s : State) (r : Dripol) (type : Nat) (d : List Byte) : State :=
  let q : Taken := ⟨r.session, r.seq, type, d⟩
  match s.serviceStop type q.server with
  | some st => s.replyTo r type st []
  | none => { s with fw := { s.fw with taken := s.fw.taken ++ [q] } }

/-- A message of an open session whose tag is right. -/
def State.sessionMsg (s : State) (x : Session) (r : Dripol) (type : Nat) (d : List Byte) : State :=
  let s := s.modSession r.session (fun y => { y with lastValid := s.clock.ns.toNat })
  match x.cached r.seq with
  | some m => s.answerAgain m
  | none =>
    if !x.fresh r.seq then s
    else
      let s := s.modSession r.session (fun y => { y with high := some r.seq })
      if knownTypes.contains type then s.takeReq r type d else s.replyTo r type St.unknownType []

/-- A message with a wrong tag is discarded and counted (R647). -/
def State.tagFailed (s : State) : State := s.countWrap F.MBX_STAT_TAG_FAILED 1

/-- One whole message: header and payload, then tag. -/
def State.dripolMsg (s : State) (b : List Byte) (seq : Nat) : State :=
  let n := b.length - 16
  let hp := b.take n
  let tag := b.drop n
  let r : Dripol := ⟨BitVec.ofNat 32 (bytesAt b 20 4), BitVec.ofNat 32 (bytesAt b 12 4), BitVec.ofNat 8 (bytesAt b 4 1)⟩
  let type := bytesAt b 6 2
  let d := hp.drop 32
  if b.length < 48 ∨ bytesAt b 0 4 ≠ 0x4C4F5044 ∨ bytesAt b 16 4 ≠ d.length ∨ 65536 < d.length ∨ bytesAt b 12 4 ≠ seq ∨
      bytesAt b 8 2 ≠ 0 then s
  else if r.major ≠ 1 then s.answerVersion r type
  else if r.session = 0 then
    if tag ≠ zeros 16 then s.tagFailed
    else if type = 1 ∨ type = 6 then s.takeReq r type d
    else if s.enrolled then s
    else if type = 0x60 ∨ type = 0x62 then s.takeReq r type d
    else s.replyTo r type St.authFailed []
  else if !s.enrolled then s.replyTo r type St.authFailed []
  else
    match s.sessionOf r.session with
    | none => s
    | some x =>
      if type = 3 then
        if tag ≠ zeros 16 then s.tagFailed
        else if x.opened then (match x.cached r.seq with | some m => s.answerAgain m | none => s)
        else s.takeReq r type d
      else if x.opened = false then s
      else if tag ≠ kmac256 x.key hp 16 (ascii "DRIPOL-MSG") then s.tagFailed
      else s.sessionMsg x r type d

/-- Session that a message under reassembly belongs to, as its first segment says; 0 before that has arrived. -/
def Reasm.session (m : Reasm) : Nat := bytesAt (Tab.get (fun _ => []) m.segs 0) 20 4

/-- Are all segments there? -/
def Reasm.whole (m : Reasm) : Bool := (List.range m.count).all (fun i => (Tab.find m.segs i).isSome)

/-- One segment joins its message; the sixteen messages of a session bound what is kept (R641). -/
def State.segment (s : State) (src : Nat) (seg : List Byte) : State :=
  let seq := bytesAt seg 0 4
  let i := bytesAt seg 4 1
  let n := bytesAt seg 5 1
  let d := seg.drop 8
  if seg.length < 9 ∨ 8200 < seg.length ∨ bytesAt seg 6 2 ≠ 0 ∨ n ≤ i then s
  else
    let mine := fun (m : Reasm) => m.src == src && m.seq.toNat == seq
    let old := s.fw.reasm.find? mine
    let m : Reasm := match old with
      | some m => { m with segs := Tab.set i d m.segs }
      | none => { src := src, seq := BitVec.ofNat 32 seq, count := n, segs := [(i, d)], first := s.clock.ns.toNat }
    let rest := s.fw.reasm.filter (fun m => !mine m)
    if m.count ≠ n then s
    else if old = none ∧ 16 ≤ (rest.filter (fun k => k.session == m.session)).length then s
    else if m.whole then
      { s with fw := { s.fw with reasm := rest } }.dripolMsg ((List.range n).flatMap (fun k => Tab.get (fun _ => []) m.segs k)) seq
    else { s with fw := { s.fw with reasm := rest ++ [m] } }

/-- DRIPOL_SEGMENT (R640, R641): on an Ethernet port in service. -/
def execDripolSegment (e : EthId) (src : Nat) (seg : List Byte) (now : BitVec 64) (s : State) : Host.Outcome State Fault Refusal :=
  let s := s.at_ now
  .next (if s.power.on && !s.power.stopped && s.bit (F.ETH_PORT_STAT_UP.plus (8 * e.val)) then s.segment src seg else s)

/-- REASSEMBLY_TIMEOUT (R641): a message still incomplete 100 ms after its first segment is discarded. -/
def execReassemblyTimeout (now : BitVec 64) (s : State) : Host.Outcome State Fault Refusal :=
  let s := s.at_ now
  .next { s with fw := { s.fw with reasm := s.fw.reasm.filter (fun m => decide (s.clock.ns.toNat < m.first + 100000000)) } }

/-! ### What the mailbox serves -/

/-- STATUS_GET: GLB_FUNC_READY, GLB_JOB and the FWP_STAT values. -/
def execStatusGet (r : Dripol) (s : State) : Host.Outcome State Fault Refusal :=
  .next (s.gate r 0x10 .observer none (fun s =>
    let l := [R.GLB_FUNC_READY, R.GLB_FUNC_READY + 8, R.GLB_JOB] ++ (List.range 6).map (fun p => F.FWP_STAT_RUNNING.off + 8 * p)
    s.replyTo r 0x10 St.ok (l.flatMap (fun o => leBytes 8 (s.liveReg o).toNat))))

/-- Reads registers in order; RC fields clear. -/
def State.readRegs (s : State) : List Nat → List Byte × State
  | [] => ([], s)
  | o :: l =>
    let v := s.busRead .host o
    let r := State.readRegs v.2 l
    (leBytes 8 v.1.toNat ++ r.1, r.2)

/-- REG_READ: up to 8,192 registers. -/
def execRegRead (r : Dripol) (offs : List (BitVec 48)) (s : State) : Host.Outcome State Fault Refusal :=
  .next (s.gate r 0x11 .observer none (fun s =>
    if 8192 < offs.length ∨ offs.any (fun o => o.toNat % 8 != 0) = true then s.replyTo r 0x11 St.badDescriptor []
    else
      let v := s.readRegs (offs.map BitVec.toNat)
      v.2.replyTo r 0x11 St.ok v.1))

/-- REG_WRITE: as a firmware processor, BSC. -/
def execRegWrite (r : Dripol) (ws : List (BitVec 48 × BitVec 64)) (s : State) : Host.Outcome State Fault Refusal :=
  .next (s.gate r 0x12 .administrator (some 0) (fun s =>
    if ws.any (fun w => w.1.toNat % 8 != 0) then s.replyTo r 0x12 St.badDescriptor []
    else (ws.foldl (fun s w => s.busWrite (.fw 0) w.1.toNat w.2) (s.replyTo r 0x12 St.ok []))))

/-- Bytes of an event record (Table 0-8). -/
def EventRec.bytes (e : EventRec) : List Byte :=
  leBytes 8 e.ts.toNat ++ leBytes 2 e.source.toNat ++ leBytes 2 e.code.toNat ++ leBytes 6 e.pick.toNat ++ (e.detail ++ zeros 14).take 14

/-- Up to 2,048 host-ring records from an index on. -/
def State.eventsFrom (s : State) (start n : Nat) : List EventRec := (s.rings.host.drop (start - s.rings.first)).take (min n 2048)

/-- EVENT_READ: the index of the first record that follows, then the records. -/
def execEventRead (r : Dripol) (start n : Nat) (s : State) : Host.Outcome State Fault Refusal :=
  .next (s.gate r 0x13 .observer none (fun s =>
    s.replyTo r 0x13 St.ok (leBytes 8 (max start s.rings.first) ++ (s.eventsFrom start n).flatMap EventRec.bytes)))

/-- Frees the host-ring records up to an index. -/
def State.freeEvents (s : State) (upto : Nat) : State :=
  let k := min s.rings.host.length (upto + 1 - s.rings.first)
  { s with rings := { s.rings with host := s.rings.host.drop k, first := s.rings.first + k } }

/-- EVENT_ACK (R655). -/
def execEventAck (r : Dripol) (upto : Nat) (s : State) : Host.Outcome State Fault Refusal :=
  .next (s.gate r 0x14 .operator none (fun s => (s.freeEvents upto).replyTo r 0x14 St.ok []))

/-- EVENT_SUBSCRIBE (R651): from the next record on. -/
def execEventSubscribe (r : Dripol) (on : Bool) (s : State) : Host.Outcome State Fault Refusal :=
  .next (s.gate r 0x15 .observer none (fun s =>
    (s.modSession r.session (fun x => { x with subscribed := on, notified := s.rings.first + s.rings.host.length })).replyTo r 0x15 St.ok []))

/-- EVENT_NOTIFY (R648, R656): the records that a subscribed session has not been sent, under the node's own numbers. -/
def execEventNotify (session : BitVec 32) (s : State) : Host.Outcome State Fault Refusal :=
  .next (match s.openSession session with
    | none => s
    | some x =>
      let l := s.eventsFrom x.notified 2048
      if !x.subscribed || l.isEmpty then s
      else
        let m : HostMsg := { session := session, type := 0x16, seq := x.noteSeq, status := St.ok, notify := true, args := [], data := l.flatMap EventRec.bytes }
        { s.modSession session (fun y => { y with notified := max y.notified s.rings.first + l.length, noteSeq := y.noteSeq + 1 }) with
            hostOut := s.hostOut ++ [m] })

end Sys2Proof.Machine
end

