-- ==== Sys2Proof/Machine/Services.lean ====
section
/-! DEFINITION. Dripol services of BSC's host policy, PTC's plan, FBC0's fabric and job management, and RCC's restore
(Table 15-7, types 0x20 to 0x41). Readings of the manual are assumption log 41 and 42. -/

namespace Sys2Proof.Machine

/-- Answers with OK or, when a condition fails, with a status and no effect. -/
def State.judged (s : State) (r : Dripol) (type : Nat) (bad : Status) (ok : Bool) (f : State → State) : State :=
  if ok then (f s).replyTo r type St.ok [] else s.replyTo r type bad []

/-! ### Host keys and policy (BSC) -/

/-- The host key list with an entry added, replaced or removed; none when it is full (R645). -/
def keyList (l : List (List Byte × Role)) (hash : List Byte) (role : Role) (remove : Bool) : Option (List (List Byte × Role)) :=
  let rest := l.filter (fun e => e.1 != hash)
  if remove then some rest
  else if rest.length < 32 then some (rest ++ [(hash, role)])
  else none

/-- HOSTKEY_SET (R645). -/
def execHostkeySet (r : Dripol) (hash : List Byte) (role : Role) (remove : Bool) (s : State) : Host.Outcome State Fault Refusal :=
  .next (s.gate r 0x20 .administrator (some 0) (fun s =>
    match keyList s.fw.hostKeys hash role remove with
    | some l => { s with fw := { s.fw with hostKeys := l } }.replyTo r 0x20 St.ok []
    | none => s.replyTo r 0x20 St.badDescriptor []))

/-- The policy with the items that a POLICY_SET carries. -/
def State.setPolicy (s : State) (p : HostPolicy) : State :=
  let s := match p.sigRequired with
    | some b => { s with fw := { s.fw with sigRequired := b } }.setFld F.SEC_STAT_SIG_REQUIRED (natOf b)
    | none => s
  let s := match p.jobKeys with | some l => { s with fw := { s.fw with jobKeys := l } } | none => s
  let s := match p.vcMin with | some l => { s with fw := { s.fw with vcMin := l } } | none => s
  match p.ckptCfg with | some v => s.busWrite (.fw 0) R.CKPT_CFG v | none => s

/-- POLICY_SET (Table 15-7). -/
def execPolicySet (r : Dripol) (p : HostPolicy) (s : State) : Host.Outcome State Fault Refusal :=
  .next (s.gate r 0x21 .administrator (some 0) (fun s => (s.setPolicy p).replyTo r 0x21 St.ok []))

/-! ### Windows, time and plan -/

/-- WINDOW_SET_INSTALL (R540): a set of the same name is replaced. -/
def execWindowSetInstall (r : Dripol) (w : WindowSet) (s : State) : Host.Outcome State Fault Refusal :=
  .next (s.gate r 0x22 .administrator (some 4) (fun s =>
    s.judged r 0x22 St.badDescriptor (decide (w.name.length ≤ 24) && decide (w.entries.length ≤ 64)) (fun s =>
      { s with fw := { s.fw with windowSets := s.fw.windowSets.filter (fun x => x.name != w.name) ++ [w] } })))

/-- WINDOW_SET_REMOVE (R542): entries that are loaded stay until teardown. -/
def execWindowSetRemove (r : Dripol) (name : List Byte) (s : State) : Host.Outcome State Fault Refusal :=
  .next (s.gate r 0x23 .administrator (some 4) (fun s =>
    s.judged r 0x23 St.badDescriptor (s.fw.windowSets.any (fun x => x.name == name)) (fun s =>
      { s with fw := { s.fw with windowSets := s.fw.windowSets.filter (fun x => x.name != name) } })))

/-- TIME_ROOT_SET (R504): a write of TIME_PTP_CFG. -/
def execTimeRootSet (r : Dripol) (v : BitVec 64) (s : State) : Host.Outcome State Fault Refusal :=
  .next (s.gate r 0x24 .administrator (some 4) (fun s => (s.busWrite (.fw 4) R.TIME_PTP_CFG v).replyTo r 0x24 St.ok []))

/-- PLAN_SET (R690). -/
def execPlanSet (r : Dripol) (clock cap : BitVec 8) (s : State) : Host.Outcome State Fault Refusal :=
  .next (s.gate r 0x25 .operator (some 1) (fun s =>
    s.judged r 0x25 St.planRefused (s.planOk clock.toNat cap.toNat) (fun s =>
      (s.setFld F.PWR_PLAN_CLOCK clock.toNat).setFld F.PWR_PLAN_CAP cap.toNat)))

/-! ### Fabric -/

/-- NODE_ASSIGN (R420): only while no uplink of the node is in service. -/
def execNodeAssign (r : Dripol) (chain : BitVec 6) (span : BitVec 4) (s : State) : Host.Outcome State Fault Refusal :=
  .next (s.gate r 0x26 .administrator (some 4) (fun s =>
    s.judged r 0x26 St.aborted (s.livePorts.all (fun p => !optical p)) (fun s => s.assignNumber (chain.toNat * 16 + span.toNat))))

/-- PORT_ENABLE (R408): a disabled port trains again. -/
def execPortEnable (r : Dripol) (p : PortId) (s : State) : Host.Outcome State Fault Refusal :=
  .next (s.gate r 0x27 .administrator (some (4 + p.val / 10)) (fun s =>
    let s := s.replyTo r 0x27 St.ok []
    if s.bit (pfld p F.FAB_PORT_STAT_DISABLED) then
      ((s.setFld (pfld p F.FAB_PORT_STAT_DISABLED) 0).setFld (pfld p F.FAB_PORT_STAT_TRAINING) 1).modPort p (fun x => { x with retrains := [] })
    else s))

/-- Node numbers of a GROUP_CREATE: those of the draft's members, or the numbers themselves when no draft is held; none when
one does not exist. -/
def State.groupNodes (s : State) (l : List (BitVec 16)) : Option (List NodeId) :=
  l.foldr (fun n a =>
    match a with
    | none => none
    | some k =>
      match s.draft with
      | some d => (d.map[n.toNat]?).map (fun m => m :: k)
      | none => if n.toNat < 16384 then some (BitVec.ofNat 14 n.toNat :: k) else none) (some [])

/-- GROUP_CREATE (R458, R459). -/
def State.groupCreate (s : State) (r : Dripol) (g : GroupRec) : State :=
  match s.groupNodes g.members with
  | none => s.replyTo r 0x28 St.badDescriptor []
  | some ms =>
    if ms = [] ∨ ¬ ms.Nodup ∨ ms.contains s.nodeId = false ∨ 32768 ≤ g.thresh.toNat ∨ s.ctxs.any (fun e => e.2.gid == g.groupId) = true then
      s.replyTo r 0x28 St.badDescriptor []
    else
      match s.createCtx g.ctx g.groupId ms g.forceRing true false g.thresh.toNat with
      | some t => t.replyTo r 0x28 St.ok []
      | none => s.replyTo r 0x28 St.colNoContext []

def execGroupCreate (r : Dripol) (g : GroupRec) (s : State) : Host.Outcome State Fault Refusal :=
  .next (s.gate r 0x28 .administrator (some 4) (fun s => s.groupCreate r g))

/-- GROUP_DESTROY (R458): only a context that GROUP_CREATE has made. -/
def execGroupDestroy (r : Dripol) (c : CtxId) (s : State) : Host.Outcome State Fault Refusal :=
  .next (s.gate r 0x29 .administrator (some 4) (fun s =>
    s.judged r 0x29 St.badDescriptor (match s.ctx c with | some x => x.byHost | none => false) (fun s => s.colDestroy c)))

/-! ### Job management (FBC0) -/

/-- Chunks of at most 256 bytes over n bytes from a (Table 13-6). -/
def imageChunks (a n : Nat) : List (Nat × Nat) := (List.range (ceilDiv n 256)).map (fun i => (a + 256 * i, min 256 (n - 256 * i)))

/-- The draft of a JOB_START: image and map lie in the staging region, the map goes out first. -/
def startDraft (j : JobStart) (session : BitVec 32) : Draft :=
  let d := newDraft j.jobTag j.totalSize.toNat j.digest j.mapDigest j.nmembers.toNat j.ackTimeout.toNat none true (j.chains.map BitVec.toNat) session
  { d with got := d.total + 2 * d.nmembers, mapGot := 2 * d.nmembers, arrived := imageChunks d.total (2 * d.nmembers) ++ imageChunks 0 d.total }

/-- JOB_START (R550, R551): this root begins the broadcast. -/
def execJobStart (r : Dripol) (j : JobStart) (now : BitVec 64) (s : State) : Host.Outcome State Fault Refusal :=
  .next ((s.at_ now).gate r 0x30 .operator (some 4) (fun s =>
    if s.draft.isSome then s.replyTo r 0x30 St.jobPresent []
    else s.judged r 0x30 St.aborted (s.jobState == 0 && !s.busyNode) (fun s => (s.openIntake (startDraft j r.session)).forwardDraft)))

/-- Is k in the subtree of index j of a binary heap? -/
def under (j : Nat) : Nat → Nat → Bool
  | 0, k => k == j
  | n + 1, k => k == j || (decide (0 < k) && under j n ((k - 1) / 2))

/-- Members that lose their parent with a node, in the tree of a map: those of its span, and the spans of the leaders below it
(R550, R556). -/
def State.orphans (s : State) (d : Draft) (o : NodeId) : List NodeId :=
  if spanLeader d.map s.resil.lost (spanKey o) = some o then
    let l := rotated (chainLeaders d.map s.resil.lost (chainKey o)) s.nodeId
    let below := (List.range l.length).filter (fun k => under (l.idxOf o) l.length k)
    (below.flatMap (fun k => match l[k]? with
      | some n => n :: spanKids d.map s.resil.lost n
      | none => [])).filter (· != o)
  else []

/-- JOB_SUBSTITUTE (R556): TREE_UPDATE to every member, then DRAFT_BEGIN and the image again to the spares and to every member
that lost its parent. -/
def State.jobSubstitute (s : State) (d : Draft) (subs : List (Nat × NodeId)) : State :=
  let lost := subs.flatMap (fun e => match d.map[e.1]? with | some o => s.orphans d o | none => [])
  let gone := subs.filterMap (fun e => d.map[e.1]?)
  let targets := ((subs.map Prod.snd ++ lost).filter (fun n => n != s.nodeId && !gone.contains n)).eraseDups
  let s := s.applyUpdate d subs
  match s.draft with
  | none => s
  | some d =>
    let s := s.sendJobs targets 0x40 0 (beginBytes d)
    (imageChunks d.total (2 * d.nmembers) ++ imageChunks 0 d.total).foldl (fun s c => s.relay d targets c.1 c.2) s

/-- Is this node a root that holds the draft of a JOB_TAG? -/
def State.rootDraft (s : State) (tag : BitVec 64) : Option Draft :=
  match s.draft with
  | some d => if d.root ∧ d.jobTag = tag then some d else none
  | none => none

/-- JOB_SUBSTITUTE (R556, R603): on a root, for the draft it holds. -/
def execJobSubstitute (r : Dripol) (subs : List (BitVec 16 × NodeId)) (s : State) : Host.Outcome State Fault Refusal :=
  .next (s.gate r 0x31 .operator (some 4) (fun s =>
    match s.draft with
    | some d =>
      s.judged r 0x31 St.badDescriptor (d.root && subs.all (fun e => decide (e.1.toNat < d.map.length)))
        (fun s => s.jobSubstitute d (subs.map (fun e => (e.1.toNat, e.2))))
    | none => s.replyTo r 0x31 St.aborted []))

/-- A job message of this root: sent down and applied, or ABORTED when the root does not hold the draft. -/
def State.rootJob (s : State) (r : Dripol) (type : Nat) (tag : BitVec 64) (f : State → Draft → State × Status) : State :=
  match s.rootDraft tag with
  | some d => let x := f s d; x.1.replyTo r type x.2 []
  | none => s.replyTo r type St.aborted []

/-- DRIPOL_JOB_GO (R560): TIMEOUT when this root gets it less than 1 ms before BASE. -/
def execDripolJobGo (r : Dripol) (tag : BitVec 64) (base : BitVec 64) (first : BitVec 48) (now : BitVec 64) (s : State) :
    Host.Outcome State Fault Refusal :=
  .next ((s.at_ now).gate r 0x32 .operator (some 4) (fun s => s.rootJob r 0x32 tag (fun s d =>
    let late := decide (base.toNat < s.clock.ns.toNat + 1000000)
    (s.jobGo d base.toNat first, if s.jobState ≠ 2 then St.aborted else if late then St.timeout else St.ok))))

/-- DRIPOL_JOB_ABANDON (R558). -/
def execDripolJobAbandon (r : Dripol) (tag : BitVec 64) (status : BitVec 16) (now : BitVec 64) (s : State) : Host.Outcome State Fault Refusal :=
  .next ((s.at_ now).gate r 0x33 .operator (some 4) (fun s => s.rootJob r 0x33 tag (fun s d => (s.abandon d status, St.ok))))

/-- DRIPOL_JOB_DRAIN (R561). -/
def execDripolJobDrain (r : Dripol) (tag : BitVec 64) (last : BitVec 48) (snap : Bool) (now : BitVec 64) (s : State) :
    Host.Outcome State Fault Refusal :=
  .next ((s.at_ now).gate r 0x34 .operator (some 4) (fun s => s.rootJob r 0x34 tag (fun s d => (s.jobDrain d last snap, St.ok))))

/-- JOB_TEARDOWN (R563). -/
def execJobTeardown (r : Dripol) (tag : BitVec 64) (scrub : Bool) (now : BitVec 64) (s : State) : Host.Outcome State Fault Refusal :=
  .next ((s.at_ now).gate r 0x35 .operator (some 4) (fun s => s.rootJob r 0x35 tag (fun s d => (s.tearDown d scrub, St.ok))))

/-- SPARE_HOLD (R603): the draft of a partition stays staged here. -/
def execSpareHold (r : Dripol) (tag : BitVec 64) (s : State) : Host.Outcome State Fault Refusal :=
  .next (s.gate r 0x36 .operator (some 4) (fun s =>
    { s with resil := { s.resil with spareHold := some tag } }.replyTo r 0x36 St.ok []))

/-- FENCE_CLEAR (R601). -/
def execFenceClear (r : Dripol) (node : NodeId) (s : State) : Host.Outcome State Fault Refusal :=
  .next (s.gate r 0x37 .administrator (some 4) (fun s =>
    { s with resil := { s.resil with fence := s.resil.fence.filter (· != node), lost := s.resil.lost.filter (· != node) } }.replyTo r 0x37 St.ok []))

/-! ### Restore and export (RCC, R612) -/

/-- Flash bytes from a block. -/
def State.flashBytesAt (s : State) (lba n : Nat) : List Byte := s.flash.readN (lba * 4096) n

/-- A stored record of a place in bytes `f`, which gives n bytes from an offset: its own length, then the record. -/
def storedRec (f : Nat → Nat → List Byte) : List Byte :=
  let h := f 0 128
  f 0 (128 + 256 * bytesAt h 40 4 + 16 * bytesAt h 44 4)

/-- Does a record's digest hold: RECDIG with STATE and itself taken as 0? -/
def recHolds (b : List Byte) : Bool :=
  decide (shake256 (b.take 4 ++ zeros 1 ++ ((b.drop 5).take 91) ++ zeros 32 ++ b.drop 128) 32 = storedDig b)

/-- The record that two of the copies whose digest holds agree on, if one says COMMITTED (R583, R585). -/
def agreedRec (d : Draft) (par : Nat) (good : List (List Byte)) : Option (List Byte) :=
  match good.find? (fun b => decide (2 ≤ (good.filter (fun c => decide (storedDig c = storedDig b))).length)) with
  | none => none
  | some b =>
    if (recOf b).tier = .flash ∧ (good.any (fun c => decide (storedDig c = storedDig b) && (recOf c).committed)) = true ∧ (recOf b).gen % 2 = par % 2 ∧
        (b.drop 48).take 32 = d.digest.take 32
    then some b else none

/-- Copy k of the flash record of a parity. -/
def State.flashCopy (s : State) (d : Draft) (par k : Nat) : List Byte :=
  let room := recRoom (s.ownStripes d) / 4
  storedRec (fun o n => s.flashBytesAt (s.flashRecBlock d par k) (min (o + n) room) |>.drop o)

/-- The flash record of the generation of a parity; a NAND without contents holds none. -/
def State.flashRec (s : State) (d : Draft) (par : Nat) : Option (List Byte) :=
  if s.flash.isEmpty then none else agreedRec d par (((List.range 3).map (s.flashCopy d par)).filter recHolds)

/-- The newer of two generations. -/
def newerRec (a b : Option (List Byte)) : Option CommitRec :=
  match a, b with
  | some a, some b => some (if (recOf a).gen < (recOf b).gen then recOf b else recOf a)
  | some a, none => some (recOf a)
  | none, some b => some (recOf b)
  | none, none => none

/-- The newest of the two flash generations. -/
def State.newestFlash (s : State) (d : Draft) : Option CommitRec := newerRec (s.flashRec d 0) (s.flashRec d 1)

/-- Page k of the shard as a flash generation holds it; a page that it does not store is 0. -/
def State.flashPage (s : State) (r : CommitRec) (k : Nat) : List Byte :=
  let t := k / 13
  if r.stored t (k % 13) then s.flashBytesAt (((2 * t + (r.stripes.getD t (0, 0, [])).2.1) * 13 + k % 13) * 16) 65536 else zeroChunk

/-- Does every page of a flash generation agree with its digest? -/
def State.flashGood (s : State) (r : CommitRec) : Bool :=
  (List.range (13 * r.stripes.length)).all (fun k =>
    !r.stored (k / 13) (k % 13) || decide (chunkDig (s.flashPage r k) = (r.stripes.getD (k / 13) (0, 0, [])).2.2.getD (k % 13) []))

/-- Loads a flash generation (R612): the pages go to their addresses, the tiles to the mark, and no input is replayed. -/
def State.loadFlash (s : State) (d : Draft) (r : CommitRec) : State :=
  let s := (List.range (13 * r.stripes.length)).foldl (fun s k =>
    match s.shardPage d k with
    | some p => s.writeUnguarded p.1 (s.flashPage r k)
    | none => s) s
  let s := s.drainEvery.loadImage d
  let s := (s.restoreRecord (s.rawBytes (s.areaAt d AreaMap.image) 2359296)).setFld F.CKPT_GEN_COMMITTED r.gen
  { s with resil := { s.resil with gen := r.gen, recs := keepRec { r with committed := true } s.resil.recs, restored := s.jobState == 2 } }

/-- Writes a store image that lies in the staging region, record first and pages after it, into flash (R612). -/
def State.storeToFlash (s : State) (d : Draft) : State :=
  let b := storedRec (fun o n => s.bytes (d.base + o) n)
  let r := recOf b
  let n := alignUp b.length 65536
  let s := (List.range (13 * r.stripes.length)).foldl (fun s k =>
    let t := k / 13
    if r.stored t (k % 13) then
      s.flashPut (((2 * t + (r.stripes.getD t (0, 0, [])).2.1) * 13 + k % 13) * 16) (s.bytes (d.base + n + k * 65536) 65536)
    else s) s
  [0, 1, 2].foldl (fun s k => s.flashPut (s.flashRecBlock d r.gen k) b) s

/-- Members per span and spans per chain: the shape of R568. -/
def shapeOf (ms : List NodeId) : Nat :=
  let spans := (ms.map spanKey).eraseDups
  let chains := (ms.map chainKey).eraseDups
  (ms.length / max 1 spans.length) * 65536 + spans.length / max 1 chains.length

/-- RESTORE (R568, R612): with the same shape and DIGEST, before JOB_GO or while halted for recovery. -/
def State.restoreStep (s : State) (r : Dripol) (x : RestoreReq) : State :=
  match s.draft with
  | none => s.replyTo r 0x40 St.shapeMismatch []
  | some d =>
    if x.nmembers.toNat ≠ d.nmembers ∨ x.draft ≠ d.digest ∨ x.shape ≠ shapeOf d.map then s.replyTo r 0x40 St.shapeMismatch []
    else if !d.loaded || !(s.jobState == 2 || (s.jobState == 3 && s.fld F.CKPT_STAT_STATE == 2)) then s.replyTo r 0x40 St.aborted []
    else
      let s := if x.fromStore then s.storeToFlash d else s
      match s.newestFlash d with
      | none => s.replyTo r 0x40 St.genInconsistent []
      | some g => if s.flashGood g then (s.loadFlash d g).replyTo r 0x40 St.ok [] else s.replyTo r 0x40 St.chunkDigest []

def execRestore (r : Dripol) (x : RestoreReq) (s : State) : Host.Outcome State Fault Refusal :=
  .next (s.gate r 0x40 .operator (some 3) (fun s => s.restoreStep r x))

/-- Page of an export: the record's pages first, then those of the shard. -/
def State.exportPage (s : State) (g : CommitRec) (b : List Byte) (page : Nat) : Option (List Byte) :=
  let n := ceilDiv b.length 65536
  if page < n then some (((b.drop (page * 65536)).take 65536 ++ zeros 65536).take 65536)
  else if page - n < 13 * g.stripes.length then some (s.flashPage g (page - n))
  else none

/-- STORE_EXPORT (Table 15-7): one 64 KiB response of a committed flash generation. -/
def execStoreExport (r : Dripol) (gen : BitVec 64) (page : Nat) (s : State) : Host.Outcome State Fault Refusal :=
  .next (s.gate r 0x41 .operator (some 3) (fun s =>
    match s.draft with
    | none => s.replyTo r 0x41 St.badDescriptor []
    | some d =>
      match s.flashRec d gen.toNat with
      | none => s.replyTo r 0x41 St.badDescriptor []
      | some b =>
        let g := recOf b
        if g.gen ≠ gen.toNat then s.replyTo r 0x41 St.badDescriptor []
        else
          match s.exportPage g b page with
          | some p => s.replyTo r 0x41 St.ok p
          | none => s.replyTo r 0x41 St.badDescriptor []))

end Sys2Proof.Machine
end

