-- ==== Sys2Proof/Machine/Firmware.lean ====
section
/-! DEFINITION. Bundles, boot chain, trial and maintenance (R624 to R633), attestation and identity (R634 to R638), reset and
removal requests of the host (R652, R678), and the watchdogs (R619). Readings of the manual are assumption log 42. -/

namespace Sys2Proof.Machine

def St.deferred : Status := 0x0908
def St.notMaintenance : Status := 0x090A
def St.bundleInvalid : Status := 0x090B
def St.rollback : Status := 0x090C
def St.notStaged : Status := 0x090D

/-! ### Bundles (R625, R627, R628) -/

/-- "FVNFWBDL". -/
def bundleMagic : Nat := 0x4C444257464E5646

/-- Does the bundle hold each component once, inside itself? -/
def bundleDir (b : List Byte) : Bool :=
  let e := fun (i o n : Nat) => bytesAt b (64 + 32 * i + o) n
  (List.range 7).all (fun c => ((List.range 7).filter (fun i => e i 0 2 == c + 1)).length == 1) &&
    (List.range 7).all (fun i => decide (e i 8 8 + e i 16 8 + 32768 ≤ b.length))

/-- Is the header in its form (Table 15-4)? -/
def bundleForm (b : List Byte) : Bool :=
  bytesAt b 0 8 == bundleMagic && decide (bytesAt b 12 1 ≤ 64) && decide (bytesAt b 13 1 ≤ 64) && bytesAt b 14 2 == 7 &&
    bytesAt b 16 8 == b.length && b.length % 4096 == 0 && decide (b.length ≤ 268435456) && decide (36864 ≤ b.length) &&
    ((b.drop 24).take 40).all (· == 0) && bundleDir b

/-- Is the signature block right: the vendor key hashes to the fuse, and its signature covers the rest (R625, R628)? -/
def bundleSigned (b : List Byte) : Bool :=
  let n := b.length - 32768
  let key := (b.drop n).take 64
  decide (shake256 key 32 = Config.vendorKeyHash) && Config.slhVerify slh256s key (ascii "FVN-BUNDLE") (b.take n) ((b.drop (n + 64)).take 29792)

/-- Are both counters at or above the fuses? -/
def State.countersOk (s : State) (b : List Byte) : Bool :=
  decide (s.fld F.SEC_FUSE_BOOT_CTR ≤ bytesAt b 12 1) && decide (s.fld F.SEC_FUSE_FW_CTR ≤ bytesAt b 13 1)

/-- Verification of R625 step 1: none when the bundle passes. -/
def State.bundleErr (s : State) (b : List Byte) : Option Status :=
  if !bundleForm b || !bundleSigned b then some St.bundleInvalid
  else if s.countersOk b then none
  else some St.rollback

def State.slotBytes (s : State) (k : Nat) : List Byte := Tab.get (fun _ => []) s.fw.slots k
def State.putSlot (s : State) (k : Nat) (b : List Byte) : State := { s with fw := { s.fw with slots := Tab.set k b s.fw.slots } }

/-! ### Staging and activation (R629 to R633) -/

/-- The slot that FW_STAGE writes: the inactive one, in recovery mode the active one (R626). -/
def State.stageSlot (s : State) : Nat := if s.bit F.SEC_STAT_RECOVERY then s.fld F.SEC_BUNDLE_SLOT else s.idleSlot

/-- The staged bytes are dropped and the slot is empty. -/
def State.emptyStage (s : State) : State :=
  { s.putSlot s.stageSlot [] with fw := { (s.putSlot s.stageSlot []).fw with staging := [], stagingLen := 0 } }.setFld F.SEC_BUNDLE_STAGED 0

/-- The whole bundle b is staged, or refused for a reason. -/
def State.stageAs (s : State) (r : Dripol) (b : List Byte) (err : Option Status) : State :=
  match err with
  | some st => s.emptyStage.replyTo r 0x50 st []
  | none => ((s.emptyStage.putSlot s.stageSlot b).setFld F.SEC_BUNDLE_STAGED 1).replyTo r 0x50 St.ok []

/-- The last chunk has arrived: verified and staged, or refused. -/
def State.endStage (s : State) (r : Dripol) : State :=
  s.stageAs r (s.fw.staging.readN 0 s.fw.stagingLen) (s.bundleErr (s.fw.staging.readN 0 s.fw.stagingLen))

/-- FW_STAGE (R629): a chunk of the bundle at an offset. -/
def State.stageStep (s : State) (r : Dripol) (off : Nat) (d : List Byte) (last : Bool) : State :=
  if 268435456 < off + d.length then s.emptyStage.replyTo r 0x50 St.bundleInvalid []
  else
    let s := if s.fw.stagingLen = 0 then s.emptyStage else s
    let s := { s with fw := { s.fw with staging := s.fw.staging.writeN off d, stagingLen := max s.fw.stagingLen (off + d.length) } }
    if last then s.endStage r else s.replyTo r 0x50 St.ok []

def execFwStage (r : Dripol) (off : Nat) (d : List Byte) (last : Bool) (s : State) : Host.Outcome State Fault Refusal :=
  .next (s.gate r 0x50 .administrator (some 0) (fun s => s.stageStep r off d last))

/-- PTC reports a power or thermal emergency (R631). -/
def State.emergency (s : State) : Bool := s.power.emergencyInput || s.power.emergencyThermal

/-- Activation (R632): the slots swap and a PKG reset boots the new bundle on trial. In recovery mode the bundle lies in the
active slot. -/
def State.activate (s : State) : State :=
  let s := if s.bit F.SEC_STAT_RECOVERY then s else s.setFld F.SEC_BUNDLE_SLOT s.idleSlot
  let s := (s.setFld F.SEC_BUNDLE_STAGED 0).setFld F.SEC_BUNDLE_TRIAL 1
  { s with fw := { s.fw with deferred := false, trialSince := none } }.requestReset 2 0 4

/-- FW_ACTIVATE (R626, R630, R631). -/
def execFwActivate (r : Dripol) (s : State) : Host.Outcome State Fault Refusal :=
  .next (s.gate r 0x51 .administrator (some 0) (fun s =>
    let rom := s.bit F.SEC_STAT_RECOVERY
    if !rom && !s.maint then s.replyTo r 0x51 St.notMaintenance []
    else if !s.bit F.SEC_BUNDLE_STAGED then s.replyTo r 0x51 St.notStaged []
    else if s.emergency && !rom then { s with fw := { s.fw with deferred := true } }.replyTo r 0x51 St.deferred []
    else (s.replyTo r 0x51 St.ok []).activate))

/-- DEFERRED_ACTIVATION (R631): the emergency has cleared. -/
def execDeferredActivation (s : State) : Host.Outcome State Fault Refusal :=
  .next (if s.fw.deferred && !s.emergency && s.maint && s.bit F.SEC_BUNDLE_STAGED && s.ready 0 then s.activate else s)

/-- FW_COMMIT (R633): the fuse counters rise to those of the running bundle. -/
def execFwCommit (r : Dripol) (s : State) : Host.Outcome State Fault Refusal :=
  .next (s.gate r 0x52 .administrator (some 0) (fun s =>
    s.judged r 0x52 St.aborted (s.bit F.SEC_BUNDLE_TRIAL) (fun s =>
      let s := s.setFld F.SEC_FUSE_BOOT_CTR (max (s.fld F.SEC_FUSE_BOOT_CTR) (bytesAt s.bundle 12 1))
      let s := s.setFld F.SEC_FUSE_FW_CTR (max (s.fld F.SEC_FUSE_FW_CTR) (bytesAt s.bundle 13 1))
      { s.setFld F.SEC_BUNDLE_TRIAL 0 with fw := { s.fw with trialSince := none } })))

/-- The previous slot becomes active and the trial is over. -/
def State.swapBack (s : State) : State :=
  let s := (s.setFld F.SEC_BUNDLE_SLOT s.idleSlot).setFld F.SEC_BUNDLE_TRIAL 0
  { s with fw := { s.fw with trialSince := none } }

/-- FW_REVERT (R633): during the trial it boots the previous slot. -/
def execFwRevert (r : Dripol) (s : State) : Host.Outcome State Fault Refusal :=
  .next (s.gate r 0x53 .administrator (some 0) (fun s =>
    if s.bit F.SEC_BUNDLE_TRIAL then ((s.replyTo r 0x53 St.ok []).swapBack).requestReset 2 0 4 else s.replyTo r 0x53 St.aborted []))

/-- Has a processor restarted within 60 s of the start of the trial (R632)? -/
def State.trialFailed (s : State) : Bool :=
  match s.fw.trialSince with
  | none => false
  | some t => s.fw.restarts.any (fun e => e.2.any (fun u => decide (t ≤ u) && decide (u ≤ t + 60000000000)))

/-- TRIAL_REVERT (R632): the ROM reverts to the previous slot; the boot raises the event. -/
def execTrialRevert (s : State) : Host.Outcome State Fault Refusal :=
  .next (
    if s.bit F.SEC_BUNDLE_TRIAL && s.trialFailed then
      { s.swapBack with fw := { s.swapBack.fw with reverted := true } }.requestReset 2 0 4
    else s)

/-- MAINT_ENTER (R630). -/
def execMaintEnter (r : Dripol) (s : State) : Host.Outcome State Fault Refusal :=
  .next (s.gate r 0x54 .administrator (some 0) (fun s =>
    if s.jobState = 0 then (s.setFld F.MBX_STAT_MAINT 1).replyTo r 0x54 St.ok [] else s.replyTo r 0x54 St.jobPresent []))

/-- MAINT_EXIT (R630, R631): a deferred activation is cancelled. -/
def execMaintExit (r : Dripol) (s : State) : Host.Outcome State Fault Refusal :=
  .next (s.gate r 0x55 .administrator (some 0) (fun s =>
    { s.setFld F.MBX_STAT_MAINT 0 with fw := { s.fw with deferred := false } }.replyTo r 0x55 St.ok []))

/-! ### Boot (R625, R626) -/

/-- The slot that boots: the active one, else the other one; none when both fail. -/
def State.bootSlot (s : State) : Option Nat :=
  let a := s.fld F.SEC_BUNDLE_SLOT
  if s.bundleErr (s.slotBytes a) = none then some a
  else if s.bundleErr (s.slotBytes (1 - a)) = none then some (1 - a)
  else none

/-- Measures and starts the processors in the order of Table 15-1; the first start of a trial is an activation (R637). -/
def State.startFwps (s : State) : State :=
  let e := if s.bit F.SEC_BUNDLE_TRIAL && s.fw.trialSince.isNone then 3 else 1
  (List.range 6).foldl (fun s p => (s.measureFwp p e).fwpStart p) s

/-- The reset event of a POR or PKG reset is BSC's first record (R680). -/
def State.bootEvent (s : State) : State :=
  let s := s.resetEvent (s.fld F.PWR_RESET_LAST_CLASS) 0 (s.fld F.PWR_RESET_LAST_TRIGGER)
  { s with power := { s.power with pwrGood := true, resets := s.power.resets.filter (fun r => decide (3 ≤ r.1)) } }

/-- The chosen slot runs. A boot of the other slot ends a trial and raises BOOT_REVERTED (R626, R632). -/
def State.bootFrom (s : State) (k : Nat) : State :=
  let back := k != s.fld F.SEC_BUNDLE_SLOT || s.fw.reverted
  let s := if k = s.fld F.SEC_BUNDLE_SLOT then s else s.swapBack
  let s := ((s.setFld F.SEC_BUNDLE_VERSION (bytesAt (s.slotBytes k) 8 4)).setFld F.SEC_STAT_RECOVERY 0).setFld F.SEC_STAT_IDENTITY 1
  let s := s.bootEvent.startFwps
  let s := if back then s.raise mbxSrc St.bootReverted [] else s
  let s := { s with fw := { s.fw with reverted := false, trialSince := if s.bit F.SEC_BUNDLE_TRIAL then some s.clock.ns.toNat else none } }
  ((List.finRange 20).foldl (fun s p => s.setFld (pfld p F.FAB_PORT_STAT_TRAINING) 1) s).mainOn

/-- BOOT (R625, R626): after POR or a PKG reset. When both slots fail, the ROM stays in recovery mode. -/
def execBoot (now : BitVec 64) (s : State) : Host.Outcome State Fault Refusal :=
  let s := s.at_ now
  .next (
    if !s.power.on || s.power.off.isSome || !s.power.resets.any (fun r => decide (r.1 ≤ 2)) then s
    else
      match s.bootSlot with
      | some k => s.bootFrom k
      | none => ((s.setFld F.SEC_STAT_RECOVERY 1).setFld F.SEC_STAT_IDENTITY 1).bootEvent)

/-- WATCHDOG_RESTART (R619): processor p has not written KICK within its period. -/
def execWatchdogRestart (p : FwpId) (now : BitVec 64) (s : State) : Host.Outcome State Fault Refusal :=
  let s := s.at_ now
  let k := Tab.get (fun _ => 0) s.fw.kicked p.val
  .next (
    if s.bit (fwpFld p.val F.FWP_STAT_RUNNING) && decide (k + s.fld (fwpFld p.val F.FWP_WDT_PERIOD) * 1000000 ≤ s.clock.ns.toNat) then
      s.restartFwp p.val 2
    else s)

/-! ### Identity and attestation (R634 to R638) -/

/-- The identity public key: from the three seeds of R635. -/
def identityKey : List Byte :=
  Config.identityPk (kmac256 Config.identitySeed [] 32 (ascii "SKSEED") ++ kmac256 Config.identitySeed [] 32 (ascii "SKPRF") ++
    kmac256 Config.identitySeed [] 32 (ascii "PKSEED"))

/-- Bytes 0 to 255 of the attestation report (Table 15-5). -/
def State.report (s : State) (nonce : List Byte) : List Byte :=
  let log := s.fw.measure
  let dig := match s.draft with | some d => if d.loaded then d.digest else zeros 64 | none => zeros 64
  let flags := natOf (s.bit F.SEC_BUNDLE_STAGED) + 2 * natOf (s.bit F.SEC_BUNDLE_TRIAL) + 4 * s.fld F.SEC_BUNDLE_SLOT + 8 * natOf (!s.nodeValid)
  leBytes 4 0x54544146 ++ leBytes 2 1 ++ leBytes 2 (if s.nodeValid then s.nodeId.toNat else 0) ++ leBytes 8 Config.serial.toNat ++
    leBytes 4 (s.fld F.SEC_BUNDLE_VERSION) ++ leBytes 1 (s.fld F.SEC_FUSE_BOOT_CTR) ++ leBytes 1 (s.fld F.SEC_FUSE_FW_CTR) ++
    leBytes 1 flags ++ zeros 1 ++ leBytes 4 log.length ++ zeros 4 ++ (nonce ++ zeros 32).take 32 ++ shake256 (log.flatMap id) 64 ++ dig ++
    (identityKey ++ zeros 64).take 64

/-- ATTEST (R638). -/
def execAttest (r : Dripol) (nonce : List Byte) (s : State) : Host.Outcome State Fault Refusal :=
  .next (s.serveOpen r 0x60 (fun s => s.replyTo r 0x60 St.ok (s.report nonce ++ Config.slhSign (ascii "FVN-ATTEST") (s.report nonce))))

/-- MEASURE_LOG_GET (R637). -/
def execMeasureLogGet (r : Dripol) (s : State) : Host.Outcome State Fault Refusal :=
  .next (s.gate r 0x61 .observer (some 0) (fun s => s.replyTo r 0x61 St.ok (s.fw.measure.flatMap id)))

/-- IDENTITY_GET (R634). -/
def execIdentityGet (r : Dripol) (s : State) : Host.Outcome State Fault Refusal :=
  .next (s.serveOpen r 0x62 (fun s => s.replyTo r 0x62 St.ok Config.certificate))

/-! ### Reset and removal -/

/-- The reset that a RESET names, by the host's request. -/
def State.hostReset (s : State) : ResetReq → State
  | .pkg => s.requestReset 2 0 1
  | .cmp => s.requestReset 3 0 1
  | .fab => s.requestReset 4 0 1
  | .fwp p => s.restartFwp p.val 1

/-- RESET (R621, R678): the response goes first. -/
def execReset (r : Dripol) (c : ResetReq) (s : State) : Host.Outcome State Fault Refusal :=
  .next (s.gate r 0x70 .administrator (some 0) (fun s => (s.replyTo r 0x70 St.ok []).hostReset c))

/-- REMOVE (R652): its response comes before power-down; with FORCE the coordinator is told first. -/
def execRemove (r : Dripol) (force : Bool) (s : State) : Host.Outcome State Fault Refusal :=
  .next (s.gate r 0x71 .operator (some 1) (fun s =>
    if s.jobState = 0 then (s.replyTo r 0x71 St.ok []).startRemoval
    else if force then ((s.replyTo r 0x71 St.ok []).sendFatal St.removalRequested).startRemoval
    else s.replyTo r 0x71 St.jobPresent []))

end Sys2Proof.Machine
end

