-- ==== Sys2Proof/Machine/Fvx.lean ====
section
/-! DEFINITION. The Flimaval vector extension (R328 to R349): the encoding's checks, registers, groups and predicates,
loads and stores by element, arithmetic with its numeric events, and the commands of Table 8-4; and THREAD_RESUME, which
completes the instruction of a parked thread. Readings: assumption log 37. -/

namespace Sys2Proof.Machine

/-! ### Fields -/

/-- OPC (Table 8-4). -/
def FvxOp.code : FvxOp → Nat
  | .vld => 0x00
  | .vst => 0x01
  | .vlds => 0x02
  | .vsts => 0x03
  | .vldx => 0x04
  | .vstx => 0x05
  | .vldseg => 0x06
  | .vstseg => 0x07
  | .vldbc => 0x08
  | .vldp => 0x09
  | .vstp => 0x0A
  | .vcas => 0x0B
  | .vadd => 0x10
  | .vsub => 0x11
  | .vmul => 0x12
  | .vmulh => 0x13
  | .vfma => 0x14
  | .vmax => 0x15
  | .vmin => 0x16
  | .vneg => 0x17
  | .vabs => 0x18
  | .vand => 0x20
  | .vor => 0x21
  | .vxor => 0x22
  | .vnot => 0x23
  | .vshl => 0x24
  | .vshr => 0x25
  | .vsra => 0x26
  | .vcls => 0x27
  | .vcmp => 0x28
  | .vsel => 0x29
  | .vwmul => 0x30
  | .vwmac => 0x31
  | .vdot => 0x32
  | .vfxmac => 0x33
  | .vcvt => 0x38
  | .vaccout => 0x3A
  | .vexp2 => 0x40
  | .vlog2 => 0x41
  | .vrcp => 0x42
  | .vrsqrt => 0x43
  | .vredsum => 0x48
  | .vredmax => 0x49
  | .vredmin => 0x4A
  | .vperm => 0x50
  | .vslide => 0x51
  | .vcompress => 0x52
  | .vexpand => 0x53
  | .vmvxs => 0x58
  | .vmvsx => 0x59
  | .vbcast => 0x5A
  | .vpand => 0x60
  | .vpor => 0x61
  | .vpxor => 0x62
  | .vpnot => 0x63
  | .vpwhile => 0x64
  | .vpcnt => 0x65

/-- The 64 bits of an FVX instruction (Table 8-3). -/
def fvxBits (op : FvxOp) (f : FvxWord) : Nat :=
  op.code * 2 ^ 56 + f.imm.toNat * 2 ^ 46 + f.resv.toNat * 2 ^ 45 + f.nm.toNat * 2 ^ 42 + f.sat.toNat * 2 ^ 41 + f.fmt2.toNat * 2 ^ 37 +
    f.fmt.toNat * 2 ^ 33 + f.g.toNat * 2 ^ 31 + f.z.toNat * 2 ^ 30 + f.pg.toNat * 2 ^ 27 + f.vc.toNat * 2 ^ 22 + f.vb.toNat * 2 ^ 17 +
    f.va.toNat * 2 ^ 12 + f.vd.toNat * 2 ^ 7 + 0x3F

/-- Registers in a group. -/
def grp (f : FvxWord) : Nat := 2 ^ f.g.toNat

/-- What a register field names. -/
inductive FvxArg where
  | unused | xreg | pred | predDst
  | group (n : Nat)
  | nf
deriving DecidableEq, Repr

/-- Is a register field valid (R328, R329, R333, R338)? A group smaller than one register takes one. -/
def FvxArg.ok (a : FvxArg) (r : BitVec 5) : Bool :=
  match a with
  | .unused => r == 0
  | .xreg => true
  | .pred => decide (r.toNat < 8)
  | .predDst => decide (1 ≤ r.toNat) && decide (r.toNat < 8)
  | .group n => r.toNat % max n 1 == 0 && decide (r.toNat + max n 1 ≤ 32)
  | .nf => decide (2 ≤ r.toNat) && decide (r.toNat ≤ 4)

/-- What an operation accepts in the other fields, and what its register fields name. -/
structure FvxShape where
  fmt : Bool
  fmt2 : Bool
  sat : Bool
  imm : Bool
  nm : Bool
  g : Bool
  z : Bool
  pg : Bool
  vd : FvxArg
  va : FvxArg
  vb : FvxArg
  vc : FvxArg
deriving DecidableEq, Repr

/-- The FX, integer and floating-point formats by code. -/
def fmtOf (f : FvxWord) : Option Fmt := Fmt.ofCode f.fmt.toNat
def fmt2Of (f : FvxWord) : Option Fmt := Fmt.ofCode f.fmt2.toNat
def isF (o : Option Fmt) : Bool := match o with | some x => x.isFloat | none => false
def isIX (o : Option Fmt) : Bool := match o with | some x => !x.isFloat | none => false

/-- Width of the elements in bytes; 16 for an accumulator image (R340). -/
def fvxW (f : FvxWord) : Nat := if f.fmt.toNat = 15 then 16 else match fmtOf f with | some x => x.bytes | none => 1

/-- The double-width format of a product (Table 8-5). -/
def wideFmt : Fmt → Option Fmt
  | .i8 => some .i16
  | .i16 => some .i32
  | .i32 => some .i64
  | .f16 => some .f32
  | .fx32 => some .fx64
  | _ => none

/-- The lane format of VDOT (Table 8-5). -/
def dotFmt : Fmt → Option Fmt
  | .i8 => some .i32
  | .i16 => some .i64
  | .f16 => some .f32
  | _ => none

/-- Fields of each operation (R333, Table 8-4). -/
def fvxShape (op : FvxOp) (f : FvxWord) : FvxShape :=
  let g := grp f
  let fm := fmtOf f
  let f2 := fmt2Of f
  let any := fm.isSome
  let arith := any
  let fl := isF fm
  let ix := isIX fm
  let no := fun (n : Nat) => n == 0
  let w2 := match f2 with | some x => x.bytes | none => 1
  let idx := g * w2 / fvxW f
  -- an operation over elements: format, unused second format, immediate, mode and SAT; predicated, with zeroing
  let base : FvxShape :=
    { fmt := any, fmt2 := no f.fmt2.toNat, sat := no f.sat.toNat, imm := no f.imm.toNat, nm := no f.nm.toNat, g := true, z := true, pg := true,
      vd := .group g, va := .group g, vb := .unused, vc := .unused }
  let ab := { base with vb := .group g }
  let satIX := ix || no f.sat.toNat
  let noZ := no f.z.toNat
  let plain := { base with fmt := no f.fmt.toNat, g := no f.g.toNat, z := noZ, pg := no f.pg.toNat, va := .unused, vd := .unused }
  let f32acc := f.fmt.toNat == 15
  match op with
  | .vld => { base with fmt := any || (f32acc && f.g != 0), imm := true, va := .xreg }
  | .vst => { base with fmt := any || (f32acc && f.g != 0), imm := true, va := .xreg, z := noZ }
  | .vlds => { base with va := .xreg, vb := .xreg }
  | .vsts => { base with va := .xreg, vb := .xreg, z := noZ }
  | .vldx => { base with va := .xreg, vb := .group idx, fmt2 := f2 == some .i32 || f2 == some .i64 }
  | .vstx => { base with va := .xreg, vb := .group idx, fmt2 := f2 == some .i32 || f2 == some .i64, z := noZ }
  | .vldseg => { base with imm := true, va := .xreg, vc := .nf, g := decide (f.vd.toNat + f.vc.toNat * g ≤ 32) }
  | .vstseg => { base with imm := true, va := .xreg, vc := .nf, g := decide (f.vd.toNat + f.vc.toNat * g ≤ 32), z := noZ }
  | .vldbc => { base with imm := true, va := .xreg }
  | .vldp => { plain with imm := true, va := .xreg, vd := .predDst }
  | .vstp => { plain with imm := true, va := .xreg, vd := .pred }
  | .vcas => { plain with fmt := fm == some .i64, imm := decide (f.imm.toNat ≤ 1), va := .xreg, vb := .group 1, vc := .group 1, vd := .group 1 }
  | .vadd => { ab with fmt := arith, sat := satIX, nm := fl || no f.nm.toNat }
  | .vsub => { ab with fmt := arith, sat := satIX, nm := fl || no f.nm.toNat }
  | .vmul => { ab with fmt := arith, sat := satIX, nm := fl || no f.nm.toNat }
  | .vmulh => { ab with fmt := ix }
  | .vfma => { ab with fmt := arith, sat := satIX, nm := fl || no f.nm.toNat, vc := .group g }
  | .vmax => { ab with fmt := arith }
  | .vmin => { ab with fmt := arith }
  | .vneg => { base with fmt := arith, sat := satIX }
  | .vabs => { base with fmt := arith, sat := satIX }
  | .vand => ab
  | .vor => ab
  | .vxor => ab
  | .vnot => base
  | .vshl => { ab with fmt := ix, sat := satIX }
  | .vshr => { ab with fmt := ix }
  | .vsra => { ab with fmt := ix }
  | .vcls => { base with fmt := ix }
  | .vcmp => { ab with fmt := arith, imm := decide (f.imm.toNat < 4), vd := .predDst }
  | .vsel => { ab with z := noZ }
  | .vwmul => { ab with fmt := (fm.bind wideFmt).isSome, vd := .group (2 * g) }
  | .vwmac => { ab with fmt := (fm.bind wideFmt).isSome, sat := satIX, nm := fl || no f.nm.toNat, vd := .group (2 * g) }
  | .vdot =>
    let a := if fm = some .i8 then 2 * g else g
    { ab with fmt := (fm.bind dotFmt).isSome, sat := satIX, nm := fl || no f.nm.toNat, va := .group a, vb := .group a }
  | .vfxmac => { ab with fmt := fm == some .fx64, vd := .group (2 * g) }
  | .vcvt =>
    let x := (match fm with | some a => a.isFx | none => false) || (match f2 with | some a => a.isFx | none => false)
    { base with fmt2 := f2.isSome, nm := fl || isF f2 || no f.nm.toNat, vb := if x then .xreg else .unused, vd := .group idx }
  | .vaccout =>
    { base with fmt := no f.fmt.toNat, fmt2 := f2 == some .fx64 || f2 == some .i64 || f2 == some .f16 || f2 == some .f32,
                nm := isF f2 || no f.nm.toNat, va := .group (2 * g), vb := .xreg, vd := .group (2 * g * w2 / 16) }
  | .vexp2 => { base with fmt := fl, nm := true }
  | .vlog2 => { base with fmt := fl, nm := true }
  | .vrcp => { base with fmt := fl, nm := true }
  | .vrsqrt => { base with fmt := fl, nm := true }
  | .vredsum => { base with fmt := arith, sat := satIX, nm := fl || no f.nm.toNat, z := noZ, vd := .xreg }
  | .vredmax => { base with fmt := arith, z := noZ, vd := .xreg }
  | .vredmin => { base with fmt := arith, z := noZ, vd := .xreg }
  | .vperm => { ab with fmt := no f.fmt.toNat }
  | .vslide => { base with imm := true }
  | .vcompress => { base with z := noZ }
  | .vexpand => { ab with z := noZ }
  | .vmvxs => { base with imm := true, z := noZ, pg := no f.pg.toNat, vd := .xreg }
  | .vmvsx => { base with imm := true, z := noZ, pg := no f.pg.toNat, va := .xreg }
  | .vbcast => { base with va := .xreg }
  | .vpand => { plain with vd := .predDst, va := .pred, vb := .pred }
  | .vpor => { plain with vd := .predDst, va := .pred, vb := .pred }
  | .vpxor => { plain with vd := .predDst, va := .pred, vb := .pred }
  | .vpnot => { plain with vd := .predDst, va := .pred }
  | .vpwhile => { plain with fmt := any, vd := .predDst, va := .xreg }
  | .vpcnt => { plain with fmt := any, vd := .xreg, va := .pred }

/-- Is the instruction valid (R333)? -/
def fvxOk (op : FvxOp) (f : FvxWord) : Bool :=
  let h := fvxShape op f
  f.resv == 0 && h.fmt && h.fmt2 && h.sat && h.imm && h.nm && h.g && h.z && h.pg && h.vd.ok f.vd && h.va.ok f.va && h.vb.ok f.vb && h.vc.ok f.vc

/-! ### Registers -/

/-- The bytes of n vector registers from register r. -/
def Hart.vbytes (x : Hart) (r : Nat) : Nat → List Byte
  | 0 => []
  | n + 1 => leBytes 64 (Tab.get (fun _ => 0) x.v r).toNat ++ Hart.vbytes x (r + 1) n

/-- Writes the bytes of n vector registers from register r; bytes beyond the list are 0. -/
def Hart.setVbytes (x : Hart) (r : Nat) (d : List Byte) : Nat → Hart
  | 0 => x
  | n + 1 => Hart.setVbytes { x with v := Tab.set r (BitVec.ofNat 512 (leNat (d.take 64))) x.v } (r + 1) (d.drop 64) n

/-- Elements 0 to n − 1 of w bytes from register r. -/
def Hart.elems (x : Hart) (r w n : Nat) : List Nat := elemsOf w n (x.vbytes r (ceilDiv (n * w) 64))

/-- Predicate n; P0 reads as all ones. -/
def Hart.pred (x : Hart) (n : Nat) : BitVec 64 := if n = 0 then BitVec.allOnes 64 else Tab.get (fun _ => 0) x.p n
def Hart.setPred (x : Hart) (n : Nat) (v : BitVec 64) : Hart := { x with p := Tab.set n v x.p }

/-- Is element i of w bytes active under predicate n (R330)? -/
def Hart.active (x : Hart) (n w i : Nat) : Bool := (x.pred n).getLsbD (i * w % 64)

/-- Writes elements of w bytes from register r under a list of active flags (R331); the rest of the last register is 0. -/
def Hart.putElems (x : Hart) (r w : Nat) (z : Bool) (act : List Bool) (vals : List Nat) : Hart :=
  let n := vals.length
  let old := x.elems r w n
  let new := (List.range n).map (fun i => if act.getD i false then vals.getD i 0 else if z then 0 else old.getD i 0)
  x.setVbytes r (elemBytes w new) (ceilDiv (n * w) 64)

/-- Adds the events of the active elements to fvnsat and fvnflush (R348). -/
def Hart.countEvs (x : Hart) (evs : List Ev) : Hart :=
  let add := fun (v : BitVec 64) (n : Nat) => BitVec.ofNat 64 (min (v.toNat + n) (2 ^ 64 - 1))
  { x with fvnsat := add x.fvnsat (countSat evs), fvnflush := add x.fvnflush (countFlush evs) }

/-- Writes results with their events. -/
def Hart.putResults (x : Hart) (r w : Nat) (z : Bool) (act : List Bool) (vals : List (Nat × Ev)) : Hart :=
  (x.putElems r w z act (vals.map Prod.fst)).countEvs ((List.zip act vals).filterMap (fun p => if p.1 then some p.2.2 else none))

/-! ### Operations over registers -/

/-- The element-engine operation that computes an FVX operation on one element. -/
def FvxOp.elem (op : FvxOp) (fl : Bool) : Option ElemOp :=
  match op with
  | .vadd => some (if fl then .fadd else .iadd)
  | .vsub => some (if fl then .fsub else .isub)
  | .vmul => some (if fl then .fmul else .imul)
  | .vmulh => some .imulh
  | .vfma => some (if fl then .fma else .imad)
  | .vmax => some (if fl then .fmax else .imax)
  | .vmin => some (if fl then .fmin else .imin)
  | .vneg => some .neg
  | .vabs => some .abs
  | .vand => some .band
  | .vor => some .bor
  | .vxor => some .bxor
  | .vnot => some .bnot
  | .vshl => some .shl
  | .vshr => some .shr
  | .vsra => some .sra
  | .vexp2 => some (.apx .exp2)
  | .vlog2 => some (.apx .log2)
  | .vrcp => some (.apx .rcp)
  | .vrsqrt => some (.apx .rsqrt)
  | _ => none

/-- Count of the bits below the top bit that equal it, from the top (VCLS). -/
def clsBits (w a : Nat) : Nat := (((List.range (w - 1)).map (fun i => bitN a (w - 2 - i) == bitN a (w - 1))).takeWhile id).length

/-- Does a comparison hold (VCMP)? -/
def cmpHolds (f : Fmt) (k a b : Nat) : Bool :=
  let x := decodeFloat f a
  let y := decodeFloat f b
  let lt := if f.isFloat then x.lt y else decide (signed f.bits a < signed f.bits b)
  let eq := if f.isFloat then x.eq y else a == b
  if k = 0 then eq else if k = 1 then !eq else if k = 2 then lt else lt || eq

/-- All the bits of the elements for which a flag holds, one register of elements of w bytes (R331). -/
def predOf (w : Nat) (b : Nat → Bool) : BitVec 64 :=
  BitVec.ofNat 64 (((List.range (64 / w)).map (fun i => if b i then (2 ^ w - 1) * 2 ^ (w * i) else 0)).sum)

/-- The accumulator of a pair (R75). -/
def accVal (n : Nat) : Int := signed 128 n

/-- One lane of VDOT (Table 8-5). -/
def dotLane (f t : Fmt) (sat : Bool) (md : NMode) (d : Nat) (a b : List Nat) : Nat × Ev :=
  if f.isFloat then
    (List.zip a b).foldl (fun r p =>
      let q := roundFloat t md ((decodeFloat t r.1).add ((decodeFloat f p.1).mul (decodeFloat f p.2)))
      (q.1, r.2.both q.2)) (d, Ev.none)
  else intResult t.bits sat ((List.zip a b).foldl (fun v p => v + signed f.bits p.1 * signed f.bits p.2) (signed t.bits d))

/-- Product of two elements in the double width, added to d (VWMUL with d absent, VWMAC). -/
def wideLane (f t : Fmt) (sat : Bool) (md : NMode) (d : Option Nat) (a b : Nat) : Nat × Ev :=
  if f.isFloat then
    let p := (decodeFloat f a).mul (decodeFloat f b)
    match d with
    | none => roundFloat t NMode.ieee p
    | some d => roundFloat t md (p.add (decodeFloat t d))
  else
    intResult t.bits sat (signed f.bits a * signed f.bits b + (match d with | none => 0 | some d => signed t.bits d))

/-- VEXPAND: the active positions take the elements of a in order, the others keep those of b. -/
def vexpandL : List Bool → List Nat → List Nat → List Nat
  | [], _, _ => []
  | m :: ms, a, b => if m then a.headD 0 :: vexpandL ms (a.drop 1) (b.drop 1) else b.headD 0 :: vexpandL ms a (b.drop 1)

/-- Sign or zero extension of an element into an x register (R347). -/
def elemToX (f : Fmt) (v : Nat) : BitVec 64 := if f.isFloat then BitVec.ofNat 64 v else signExt f.bits v

/-- The operations that write vector registers of the elements' own width, or wider ones, or accumulators; none for
the others. -/
def Hart.fvxVector (x : Hart) (op : FvxOp) (f : FvxWord) : Option Hart :=
  let g := grp f
  let fm := (fmtOf f).getD .i8
  let w := fm.bytes
  let n := 64 * g / w
  let md := NMode.of f.nm.toNat
  let sat := f.sat == 1
  let z := f.z == 1
  let pg := f.pg.toNat
  let rd := f.vd.toNat
  let a := x.elems f.va.toNat w n
  let b := x.elems f.vb.toNat w n
  let c := x.elems f.vc.toNat w n
  let act := (List.range n).map (x.active pg w)
  let each := fun (k : Nat → Nat) => some (x.putElems rd w z act ((List.range n).map k))
  match op.elem fm.isFloat with
  | some o =>
    some (x.putResults rd w z act ((List.range n).map (fun i => elem1 o fm sat md 0 (a.getD i 0) (b.getD i 0) (c.getD i 0))))
  | none =>
    match op with
    | .vcls => each (fun i => clsBits fm.bits (a.getD i 0))
    | .vsel => some (x.putElems rd w false (act.map (fun _ => true)) ((List.range n).map (fun i => if act.getD i false then a.getD i 0 else b.getD i 0)))
    | .vslide => each (fun i => a.getD (i + f.imm.toNat) 0)
    | .vbcast => each (fun _ => (x.xreg f.va).toNat % 2 ^ fm.bits)
    | .vmvsx =>
      let new := (List.range n).map (fun i => if i = f.imm.toNat then (x.xreg f.va).toNat % 2 ^ fm.bits else (x.elems rd w n).getD i 0)
      some (x.setVbytes rd (elemBytes w new) g)
    | .vcompress =>
      let l := (List.zip act a).filterMap (fun p => if p.1 then some p.2 else none)
      some (x.setVbytes rd (elemBytes w l) g)
    | .vexpand => some (x.setVbytes rd (elemBytes w (vexpandL act a b)) g)
    | .vperm =>
      let src := x.vbytes f.va.toNat g
      let ix := x.vbytes f.vb.toNat g
      let old := x.vbytes rd g
      let new := (List.range (64 * g)).map (fun k =>
        if x.active pg 1 k then (src[(ix.getD k 0).toNat]?).getD 0 else if z then 0 else old.getD k 0)
      some (x.setVbytes rd new g)
    | .vwmul | .vwmac =>
      let t := (wideFmt fm).getD .i16
      let d := x.elems rd t.bytes n
      some (x.putResults rd t.bytes z ((List.range n).map (x.active pg t.bytes)) ((List.range n).map (fun i =>
        wideLane fm t sat md (if op = .vwmac then some (d.getD i 0) else none) (a.getD i 0) (b.getD i 0))))
    | .vdot =>
      let t := (dotFmt fm).getD .i32
      let k := if fm = .i8 then 8 else if fm = .i16 then 4 else 2
      let m := 64 * g / t.bytes
      let a := x.elems f.va.toNat w (m * k)
      let b := x.elems f.vb.toNat w (m * k)
      let d := x.elems rd t.bytes m
      some (x.putResults rd t.bytes z ((List.range m).map (x.active pg t.bytes)) ((List.range m).map (fun i =>
        dotLane fm t sat md (d.getD i 0) ((a.drop (k * i)).take k) ((b.drop (k * i)).take k))))
    | .vfxmac =>
      let d := x.elems rd 16 n
      some (x.putResults rd 16 z ((List.range n).map (x.active pg 16)) ((List.range n).map (fun i =>
        let r := accAdd (accVal (d.getD i 0)) (signed 64 (a.getD i 0) * signed 64 (b.getD i 0))
        (wrapN 128 r.1, ⟨r.2, false⟩))))
    | .vcvt =>
      let t := (fmt2Of f).getD .i8
      let e := signed 18 (x.xreg f.vb).toNat
      let es := if fm.isFx && !t.isFx then e else 0
      let et := if t.isFx then e else 0
      some (x.putResults rd t.bytes z ((List.range n).map (x.active pg (max w t.bytes))) (a.map (fun v => convertNum (some fm) t et md (decodeNum fm es v))))
    | .vaccout =>
      let t := (fmt2Of f).getD .fx64
      let m := 8 * g
      let e := signed 18 (x.xreg f.vb).toNat
      let acc := x.elems f.va.toNat 16 m
      some (x.putResults rd t.bytes z ((List.range m).map (x.active pg 16)) (acc.map (fun v =>
        if t.isFx then convertNum none t e md (Num.ofInt (accVal v) 0) else convertNum none t 0 md (Num.ofInt (accVal v) e))))
    | _ => none

/-- An operation over registers of hart h; predicates, x registers and undefined results here, the rest in
fvxVector. -/
def State.fvxRegs (s : State) (h : HartId) (op : FvxOp) (f : FvxWord) : State :=
  let x := s.hart h
  let g := grp f
  let fm := (fmtOf f).getD .i8
  let w := fm.bytes
  let n := 64 * g / w
  let md := NMode.of f.nm.toNat
  let a := x.elems f.va.toNat w n
  let b := x.elems f.vb.toNat w n
  let on := (List.zip ((List.range n).map (x.active f.pg.toNat w)) a).filterMap (fun p => if p.1 then some p.2 else none)
  let pa := x.pred f.va.toNat
  let pb := x.pred f.vb.toNat
  let putP := fun (v : BitVec 64) => s.setHart h (x.setPred f.vd.toNat v)
  let putX := fun (v : BitVec 64) => s.setHart h (x.setX f.vd v)
  let freeX := let r := s.drawFree; r.2.modHart h (fun x => x.setX f.vd r.1)
  let s' := match op with
    | .vcmp =>
      if g = 1 then
        putP (predOf w (fun i =>
          if x.active f.pg.toNat w i then cmpHolds fm f.imm.toNat (a.getD i 0) (b.getD i 0)
          else f.z == 0 && (x.pred f.vd.toNat).getLsbD (i * w)))
      else let r := s.drawFree; r.2.modHart h (fun x => x.setPred f.vd.toNat r.1)
    | .vredsum =>
      let r := rowSum fm (f.sat == 1) md on
      s.setHart h ((x.setX f.vd (elemToX fm r.1)).countEvs [r.2])
    | .vredmax => if on.isEmpty then freeX else putX (elemToX fm (rowMax fm false on))
    | .vredmin => if on.isEmpty then freeX else putX (elemToX fm (rowMax fm true on))
    | .vmvxs => match a[f.imm.toNat]? with | some v => putX (elemToX fm v) | none => freeX
    | .vpand => putP (pa &&& pb)
    | .vpor => putP (pa ||| pb)
    | .vpxor => putP (pa ^^^ pb)
    | .vpnot => putP (~~~pa)
    | .vpwhile => putP (predOf w (fun i => decide (i < (x.xreg f.va).toNat)))
    | .vpcnt => putX (BitVec.ofNat 64 ((List.range (64 / w)).filter (x.active f.va.toNat w)).length)
    | _ => match x.fvxVector op f with | some y => s.setHart h y | none => s
  s'.pass h 8

/-! ### Loads and stores -/

/-- Does the operation load vector elements, and does it store them? -/
def FvxOp.loads : FvxOp → Bool
  | .vld => true
  | .vlds => true
  | .vldx => true
  | .vldseg => true
  | .vldbc => true
  | _ => false

def FvxOp.stores : FvxOp → Bool
  | .vst => true
  | .vsts => true
  | .vstx => true
  | .vstseg => true
  | _ => false

/-- Fields per record: NF of a structure access, else 1. -/
def fvxNf (op : FvxOp) (f : FvxWord) : Nat := if op = .vldseg ∨ op = .vstseg then f.vc.toNat else 1

/-- Address of element i of field k of a vector access. -/
def Hart.fvxAddr (x : Hart) (op : FvxOp) (f : FvxWord) (k i : Nat) : BitVec 64 :=
  let w := fvxW f
  let base := x.xreg f.va
  let imm := f.imm.toInt
  match op with
  | .vlds => base + BitVec.ofNat 64 i * x.xreg f.vb
  | .vsts => base + BitVec.ofNat 64 i * x.xreg f.vb
  | .vldx | .vstx =>
    let w2 := match fmt2Of f with | some t => t.bytes | none => 4
    base + signExt (8 * w2) ((x.elems f.vb.toNat w2 (i + 1)).getD i 0)
  | .vldbc => base + BitVec.ofInt 64 (w * imm)
  | _ => base + BitVec.ofInt 64 (64 * imm) + BitVec.ofNat 64 ((i * fvxNf op f + k) * w)

/-- Lane width at which the predicate of a vector access is read (R330). -/
def predW (op : FvxOp) (f : FvxWord) : Nat :=
  if op = .vldx ∨ op = .vstx then max (fvxW f) (match fmt2Of f with | some t => t.bytes | none => 1) else fvxW f

/-- Active slots of a vector access in ascending order: slot k n + i is element i of field k. -/
def Hart.fvxSlots (x : Hart) (op : FvxOp) (f : FvxWord) : List Nat :=
  let n := 64 * grp f / fvxW f
  (List.range (fvxNf op f * n)).filter (fun j => x.active f.pg.toNat (predW op f) (j % n))

/-- The accesses of one element: an accumulator image is two 8-byte words. -/
def elParts (a : BitVec 64) (w : Nat) : List El := if w = 16 then [⟨a, 8⟩, ⟨a + 8, 8⟩] else [⟨a, w⟩]

/-- First misaligned address of a list, for elements of w bytes (R336). -/
def misaligned (w : Nat) (l : List (BitVec 64)) : Option (BitVec 64) := l.find? (fun a => a.toNat % w != 0)

/-- A vector load (R334, R336, R338, R340). -/
def State.fvxLoad (s : State) (h : HartId) (op : FvxOp) (f : FvxWord) : State :=
  let x := s.hart h
  let w := fvxW f
  let n := 64 * grp f / w
  let slots := x.fvxSlots op f
  let addrs := if op = .vldbc then (if slots.isEmpty then [] else [x.fvxAddr op f 0 0]) else slots.map (fun j => x.fvxAddr op f (j / n) (j % n))
  let els := addrs.flatMap (fun a => elParts a w)
  match misaligned w addrs with
  | some a => s.exception h 4 a
  | none =>
    s.coreAccess h (.fvx op f) true .load els (fun s got =>
      match s.readEls h got els with
      | (s, _, some e) => s.accessException h 24 St.uncorrectable e.addr
      | (s, ds, none) =>
        let vals := elemsOf w addrs.length ds.flatten
        let total := fvxNf op f * n
        let all := (List.range total).map (fun j => if op = .vldbc then vals.headD 0 else vals.getD (slots.idxOf j) 0)
        let act := (List.range total).map (fun j => slots.contains j)
        (s.modHart h (fun x => x.putElems f.vd.toNat w (f.z == 1) act all)).pass h 8)

/-- A vector store (R334, R336, R337, R338, R340). -/
def State.fvxStore (s : State) (h : HartId) (op : FvxOp) (f : FvxWord) : State :=
  let x := s.hart h
  let w := fvxW f
  let n := 64 * grp f / w
  let slots := x.fvxSlots op f
  let addrs := slots.map (fun j => x.fvxAddr op f (j / n) (j % n))
  let els := addrs.flatMap (fun a => elParts a w)
  let src := x.elems f.vd.toNat w (fvxNf op f * n)
  let ds := slots.flatMap (fun j =>
    let d := leBytes w (src.getD j 0)
    if w = 16 then [d.take 8, d.drop 8] else [d])
  match misaligned w addrs with
  | some a => s.exception h 6 a
  | none => s.coreAccess h (.fvx op f) false (.store (s.storeMap h els ds)) els (fun s _ => (s.writeEls h els ds).pass h 8)

/-- VLDP and VSTP. -/
def State.fvxPred (s : State) (h : HartId) (op : FvxOp) (f : FvxWord) : State :=
  let x := s.hart h
  let a := x.xreg f.va + BitVec.ofInt 64 (8 * f.imm.toInt)
  let e : El := ⟨a, 8⟩
  let d := leBytes 8 (x.pred f.vd.toNat).toNat
  if a.toNat % 8 ≠ 0 then s.exception h (if op = .vldp then 4 else 6) a
  else if op = .vldp then
    s.coreAccess h (.fvx op f) true .load [e] (fun s got =>
      match s.elRead h got e with
      | (s, none) => s.accessException h 24 St.uncorrectable a
      | (s, some d) => (s.modHart h (fun x => x.setPred f.vd.toNat (BitVec.ofNat 64 (leNat d)))).pass h 8)
  else s.coreAccess h (.fvx op f) false (.store (s.storeMap h [e] [d])) [e] (fun s _ => (s.elWrite h e d).pass h 8)

/-- VCAS (R339). -/
def State.fvxCas (s : State) (h : HartId) (f : FvxWord) : State :=
  let x := s.hart h
  let a := x.xreg f.va
  let n := if f.imm = 1 then 16 else 8
  let cmp := leNat ((x.vbytes f.vb.toNat 1).take n)
  let new := (x.vbytes f.vc.toNat 1).take n
  let e : El := ⟨a, n⟩
  let ret := fun (s : State) (d : List Byte) => (s.modHart h (fun x => x.setVbytes f.vd.toNat (d.take n) 1)).pass h 8
  if a.toNat % n ≠ 0 then s.exception h 6 a
  else
    match s.corePlace h a n with
    | .reg _ => s.accessException h 7 St.badDescriptor a
    | .far _ _ =>
      s.coreAccess h (.fvx .vcas f) false (.atom (if n = 16 then 5 else 4) (leNat new) cmp) [e] (fun s got =>
        ret s ((List.range n).map (fun j => (Tab.find got (s.elKey h e + j)).getD 0)))
    | _ =>
      s.coreAccess h (.fvx .vcas f) false (.store []) [e] (fun s got =>
        match s.elRead h got e with
        | (s, none) => s.accessException h 24 St.uncorrectable a
        | (s, some d) => ret (if leNat d = cmp then s.elWrite h e new else s) d)

/-! ### One instruction -/

/-- An FVX instruction (R333, R334). -/
def State.fvx (s : State) (h : HartId) (op : FvxOp) (f : FvxWord) : State :=
  if !(s.hart h).fvxOn || !fvxOk op f then s.illegal h (fvxBits op f)
  else if op.loads then s.fvxLoad h op f
  else if op.stores then s.fvxStore h op f
  else if op = .vldp ∨ op = .vstp then s.fvxPred h op f
  else if op = .vcas then s.fvxCas h f
  else s.fvxRegs h op f

/-- Runs the instruction of a parked thread again, with what has arrived for it. -/
def State.runParked (s : State) (h : HartId) : CoreCmd → State
  | .load i => s.coreLoad h i
  | .store i => s.coreStore h i
  | .amo i => s.coreAmo h i
  | .lrsc sc i => s.coreLrSc h sc i
  | .fvx op f => s.fvx h op f

/-! ### Meanings -/

/-- THREAD_RESUME (R319, R320, R324): once every reply of a parked instruction has arrived, it completes or raises its
exception, and the thread becomes ready; an instruction that needs more asks for it and stays parked. A thread in WFI
becomes ready (assumption log 36). -/
def execThreadResume (h : HartId) (s : State) : Host.Outcome State Fault Refusal :=
  let x := s.hart h
  .next (
    match x.st, x.park with
    | .parked, some k =>
      if k.waits ≠ [] ∨ s.ready 12 = false then s
      else
        let s := s.runParked h k.cmd
        if (s.hart h).park.isSome then s else s.makeReady h
    | .wfi, _ => if s.ready 12 then s.makeReady h else s
    | _, _ => s)

/-- VLD (R334, R340). -/
def execVld (h : HartId) (f : FvxWord) (s : State) : Host.Outcome State Fault Refusal := .next (s.coreDo h (fun s => s.fvx h .vld f))

/-- VST (R334, R340). -/
def execVst (h : HartId) (f : FvxWord) (s : State) : Host.Outcome State Fault Refusal := .next (s.coreDo h (fun s => s.fvx h .vst f))

/-- VLDS (R334). -/
def execVlds (h : HartId) (f : FvxWord) (s : State) : Host.Outcome State Fault Refusal := .next (s.coreDo h (fun s => s.fvx h .vlds f))

/-- VSTS (R337). -/
def execVsts (h : HartId) (f : FvxWord) (s : State) : Host.Outcome State Fault Refusal := .next (s.coreDo h (fun s => s.fvx h .vsts f))

/-- VLDX (R334). -/
def execVldx (h : HartId) (f : FvxWord) (s : State) : Host.Outcome State Fault Refusal := .next (s.coreDo h (fun s => s.fvx h .vldx f))

/-- VSTX (R337). -/
def execVstx (h : HartId) (f : FvxWord) (s : State) : Host.Outcome State Fault Refusal := .next (s.coreDo h (fun s => s.fvx h .vstx f))

/-- VLDSEG (R338). -/
def execVldseg (h : HartId) (f : FvxWord) (s : State) : Host.Outcome State Fault Refusal := .next (s.coreDo h (fun s => s.fvx h .vldseg f))

/-- VSTSEG (R338). -/
def execVstseg (h : HartId) (f : FvxWord) (s : State) : Host.Outcome State Fault Refusal := .next (s.coreDo h (fun s => s.fvx h .vstseg f))

/-- VLDBC (R334). -/
def execVldbc (h : HartId) (f : FvxWord) (s : State) : Host.Outcome State Fault Refusal := .next (s.coreDo h (fun s => s.fvx h .vldbc f))

/-- VLDP (R334). -/
def execVldp (h : HartId) (f : FvxWord) (s : State) : Host.Outcome State Fault Refusal := .next (s.coreDo h (fun s => s.fvx h .vldp f))

/-- VSTP (R334). -/
def execVstp (h : HartId) (f : FvxWord) (s : State) : Host.Outcome State Fault Refusal := .next (s.coreDo h (fun s => s.fvx h .vstp f))

/-- VCAS (R339). -/
def execVcas (h : HartId) (f : FvxWord) (s : State) : Host.Outcome State Fault Refusal := .next (s.coreDo h (fun s => s.fvx h .vcas f))

/-- VADD (R334). -/
def execVadd (h : HartId) (f : FvxWord) (s : State) : Host.Outcome State Fault Refusal := .next (s.coreDo h (fun s => s.fvx h .vadd f))

/-- VSUB (R334). -/
def execVsub (h : HartId) (f : FvxWord) (s : State) : Host.Outcome State Fault Refusal := .next (s.coreDo h (fun s => s.fvx h .vsub f))

/-- VMUL (R334). -/
def execVmul (h : HartId) (f : FvxWord) (s : State) : Host.Outcome State Fault Refusal := .next (s.coreDo h (fun s => s.fvx h .vmul f))

/-- VMULH (R334). -/
def execVmulh (h : HartId) (f : FvxWord) (s : State) : Host.Outcome State Fault Refusal := .next (s.coreDo h (fun s => s.fvx h .vmulh f))

/-- VFMA (R334). -/
def execVfma (h : HartId) (f : FvxWord) (s : State) : Host.Outcome State Fault Refusal := .next (s.coreDo h (fun s => s.fvx h .vfma f))

/-- VMAX (R334). -/
def execVmax (h : HartId) (f : FvxWord) (s : State) : Host.Outcome State Fault Refusal := .next (s.coreDo h (fun s => s.fvx h .vmax f))

/-- VMIN (R334). -/
def execVmin (h : HartId) (f : FvxWord) (s : State) : Host.Outcome State Fault Refusal := .next (s.coreDo h (fun s => s.fvx h .vmin f))

/-- VNEG (R334). -/
def execVneg (h : HartId) (f : FvxWord) (s : State) : Host.Outcome State Fault Refusal := .next (s.coreDo h (fun s => s.fvx h .vneg f))

/-- VABS (R334). -/
def execVabs (h : HartId) (f : FvxWord) (s : State) : Host.Outcome State Fault Refusal := .next (s.coreDo h (fun s => s.fvx h .vabs f))

/-- VAND (R334). -/
def execVand (h : HartId) (f : FvxWord) (s : State) : Host.Outcome State Fault Refusal := .next (s.coreDo h (fun s => s.fvx h .vand f))

/-- VOR (R334). -/
def execVor (h : HartId) (f : FvxWord) (s : State) : Host.Outcome State Fault Refusal := .next (s.coreDo h (fun s => s.fvx h .vor f))

/-- VXOR (R334). -/
def execVxor (h : HartId) (f : FvxWord) (s : State) : Host.Outcome State Fault Refusal := .next (s.coreDo h (fun s => s.fvx h .vxor f))

/-- VNOT (R334). -/
def execVnot (h : HartId) (f : FvxWord) (s : State) : Host.Outcome State Fault Refusal := .next (s.coreDo h (fun s => s.fvx h .vnot f))

/-- VSHL (R334). -/
def execVshl (h : HartId) (f : FvxWord) (s : State) : Host.Outcome State Fault Refusal := .next (s.coreDo h (fun s => s.fvx h .vshl f))

/-- VSHR (R334). -/
def execVshr (h : HartId) (f : FvxWord) (s : State) : Host.Outcome State Fault Refusal := .next (s.coreDo h (fun s => s.fvx h .vshr f))

/-- VSRA (R334). -/
def execVsra (h : HartId) (f : FvxWord) (s : State) : Host.Outcome State Fault Refusal := .next (s.coreDo h (fun s => s.fvx h .vsra f))

/-- VCLS (R334). -/
def execVcls (h : HartId) (f : FvxWord) (s : State) : Host.Outcome State Fault Refusal := .next (s.coreDo h (fun s => s.fvx h .vcls f))

/-- VCMP (R334). -/
def execVcmp (h : HartId) (f : FvxWord) (s : State) : Host.Outcome State Fault Refusal := .next (s.coreDo h (fun s => s.fvx h .vcmp f))

/-- VSEL (R334). -/
def execVsel (h : HartId) (f : FvxWord) (s : State) : Host.Outcome State Fault Refusal := .next (s.coreDo h (fun s => s.fvx h .vsel f))

/-- VWMUL (R334). -/
def execVwmul (h : HartId) (f : FvxWord) (s : State) : Host.Outcome State Fault Refusal := .next (s.coreDo h (fun s => s.fvx h .vwmul f))

/-- VWMAC (R345). -/
def execVwmac (h : HartId) (f : FvxWord) (s : State) : Host.Outcome State Fault Refusal := .next (s.coreDo h (fun s => s.fvx h .vwmac f))

/-- VDOT (R345). -/
def execVdot (h : HartId) (f : FvxWord) (s : State) : Host.Outcome State Fault Refusal := .next (s.coreDo h (fun s => s.fvx h .vdot f))

/-- VFXMAC (R345). -/
def execVfxmac (h : HartId) (f : FvxWord) (s : State) : Host.Outcome State Fault Refusal := .next (s.coreDo h (fun s => s.fvx h .vfxmac f))

/-- VCVT (R343, R344). -/
def execVcvt (h : HartId) (f : FvxWord) (s : State) : Host.Outcome State Fault Refusal := .next (s.coreDo h (fun s => s.fvx h .vcvt f))

/-- VACCOUT (R346). -/
def execVaccout (h : HartId) (f : FvxWord) (s : State) : Host.Outcome State Fault Refusal := .next (s.coreDo h (fun s => s.fvx h .vaccout f))

/-- VEXP2 (R334). -/
def execVexp2 (h : HartId) (f : FvxWord) (s : State) : Host.Outcome State Fault Refusal := .next (s.coreDo h (fun s => s.fvx h .vexp2 f))

/-- VLOG2 (R334). -/
def execVlog2 (h : HartId) (f : FvxWord) (s : State) : Host.Outcome State Fault Refusal := .next (s.coreDo h (fun s => s.fvx h .vlog2 f))

/-- VRCP (R334). -/
def execVrcp (h : HartId) (f : FvxWord) (s : State) : Host.Outcome State Fault Refusal := .next (s.coreDo h (fun s => s.fvx h .vrcp f))

/-- VRSQRT (R334). -/
def execVrsqrt (h : HartId) (f : FvxWord) (s : State) : Host.Outcome State Fault Refusal := .next (s.coreDo h (fun s => s.fvx h .vrsqrt f))

/-- VREDSUM (R347). -/
def execVredsum (h : HartId) (f : FvxWord) (s : State) : Host.Outcome State Fault Refusal := .next (s.coreDo h (fun s => s.fvx h .vredsum f))

/-- VREDMAX (R334). -/
def execVredmax (h : HartId) (f : FvxWord) (s : State) : Host.Outcome State Fault Refusal := .next (s.coreDo h (fun s => s.fvx h .vredmax f))

/-- VREDMIN (R334). -/
def execVredmin (h : HartId) (f : FvxWord) (s : State) : Host.Outcome State Fault Refusal := .next (s.coreDo h (fun s => s.fvx h .vredmin f))

/-- VPERM (R334). -/
def execVperm (h : HartId) (f : FvxWord) (s : State) : Host.Outcome State Fault Refusal := .next (s.coreDo h (fun s => s.fvx h .vperm f))

/-- VSLIDE (R334). -/
def execVslide (h : HartId) (f : FvxWord) (s : State) : Host.Outcome State Fault Refusal := .next (s.coreDo h (fun s => s.fvx h .vslide f))

/-- VCOMPRESS (R334). -/
def execVcompress (h : HartId) (f : FvxWord) (s : State) : Host.Outcome State Fault Refusal := .next (s.coreDo h (fun s => s.fvx h .vcompress f))

/-- VEXPAND (R334). -/
def execVexpand (h : HartId) (f : FvxWord) (s : State) : Host.Outcome State Fault Refusal := .next (s.coreDo h (fun s => s.fvx h .vexpand f))

/-- VMVXS (R334). -/
def execVmvxs (h : HartId) (f : FvxWord) (s : State) : Host.Outcome State Fault Refusal := .next (s.coreDo h (fun s => s.fvx h .vmvxs f))

/-- VMVSX (R334). -/
def execVmvsx (h : HartId) (f : FvxWord) (s : State) : Host.Outcome State Fault Refusal := .next (s.coreDo h (fun s => s.fvx h .vmvsx f))

/-- VBCAST (R334). -/
def execVbcast (h : HartId) (f : FvxWord) (s : State) : Host.Outcome State Fault Refusal := .next (s.coreDo h (fun s => s.fvx h .vbcast f))

/-- VPAND (R334). -/
def execVpand (h : HartId) (f : FvxWord) (s : State) : Host.Outcome State Fault Refusal := .next (s.coreDo h (fun s => s.fvx h .vpand f))

/-- VPOR (R334). -/
def execVpor (h : HartId) (f : FvxWord) (s : State) : Host.Outcome State Fault Refusal := .next (s.coreDo h (fun s => s.fvx h .vpor f))

/-- VPXOR (R334). -/
def execVpxor (h : HartId) (f : FvxWord) (s : State) : Host.Outcome State Fault Refusal := .next (s.coreDo h (fun s => s.fvx h .vpxor f))

/-- VPNOT (R334). -/
def execVpnot (h : HartId) (f : FvxWord) (s : State) : Host.Outcome State Fault Refusal := .next (s.coreDo h (fun s => s.fvx h .vpnot f))

/-- VPWHILE (R334). -/
def execVpwhile (h : HartId) (f : FvxWord) (s : State) : Host.Outcome State Fault Refusal := .next (s.coreDo h (fun s => s.fvx h .vpwhile f))

/-- VPCNT (R334). -/
def execVpcnt (h : HartId) (f : FvxWord) (s : State) : Host.Outcome State Fault Refusal := .next (s.coreDo h (fun s => s.fvx h .vpcnt f))

end Sys2Proof.Machine
end

