-- ==== Sys2Proof/Machine/Shuttle.lean ====
section
/-! DEFINITION. The instructions of the shuttle that the opcode table lists (R117 to R129, R701): the engine-issue
instructions, loads and stores over the address map of Table 3-4, WFI, ECALL and EBREAK. An instruction that waits stays at
the program counter; its command, given again, retires it once its condition holds. Readings: assumption log 35. -/

namespace Sys2Proof.Machine

/-! ### Executing one instruction -/

/-- Runs an instruction of n bytes at the program counter: the shuttle must execute, the fetch must lie in instruction
memory (R117), and a waiting shuttle goes on with the instruction it waits in alone. -/
def State.shuttleDo (s : State) (t : TileId) (n : Nat) (mine : Wait → Bool) (f : State → State) : State :=
  let x := s.tile t
  if !s.shuttleRuns t then s
  else if 0x10000 < x.pc.toNat + n then s.trapShuttle t 1 x.pc.toNat
  else
    match x.waiting with
    | none => f s
    | some w => if mine w then f s else s

/-- The bits of an engine-issue instruction (R-type, custom-0). -/
def rinstBits (i : RInst) (f3 : Nat) : Nat :=
  i.funct7.toNat * 2 ^ 25 + i.rs2.toNat * 2 ^ 20 + i.rs1.toNat * 2 ^ 15 + f3 * 2 ^ 12 + i.rd.toNat * 2 ^ 7 + 0x0B

/-! ### EISSUE, EWAIT, EFENCE -/

/-- EISSUE (R120, R121, R127, R155, R526). -/
def State.eissue (s : State) (t : TileId) (i : RInst) : State :=
  let x := s.tile t
  let a := (x.xreg i.rs1).toNat
  let code := i.funct7.toNat
  if 8 ≤ code then s.trapShuttle t 2 (rinstBits i 0)
  else if a % 64 ≠ 0 then s.trapShuttle t 4 a
  else if 0x800000 ≤ a then s.trapShuttle t 5 a
  else if !x.room code || s.haltedNode then s.await t (.queue i.funct7)
  else
    let d := s.sram t a 64
    if descDg code d && x.bankStall then s.await t .bank
    else
      let r := s.enqueue t code d (s.sramBad t a 64)
      r.1.retireRd t i.rd r.2

/-- The trap of EWAIT on a ticket, if it has one (R122). -/
def Tile.ticketTrap (x : Tile) (code : Nat) (n : Word) : Option Nat :=
  let issued := x.tickets code
  if issued = 0 then some 25
  else
    let d := signed 32 (issued - 1 + 2 ^ 32 - n.toNat)
    if d < 0 then some 25
    else if issued < 2 ^ 32 ∧ (issued : Int) ≤ d then some 25
    else if 63 < d then some 24
    else none

/-- EWAIT (R120, R122, R127). -/
def State.ewait (s : State) (t : TileId) (i : RInst) : State :=
  let x := s.tile t
  let n := x.xreg i.rs1
  let code := i.funct7.toNat
  if 8 ≤ code then s.trapShuttle t 2 (rinstBits i 1)
  else
    match (if x.waiting.isSome then none else x.ticketTrap code n) with
    | some c => s.trapShuttle t c n.toNat
    | none =>
      match x.statusOf code n with
      | some st => s.retireRd t i.rd (BitVec.setWidth 32 st)
      | none => s.await t (.ticket i.funct7 n)

/-- Has every operation issued to an engine code completed? -/
def Tile.engineIdle (x : Tile) (code : Nat) : Bool :=
  if code < 4 then (x.queue code).isEmpty && (x.running code).isNone else (x.copyQ (code - 4)).isEmpty

/-- EFENCE (R120, R126). -/
def State.efence (s : State) (t : TileId) (i : RInst) : State :=
  let x := s.tile t
  let m := BitVec.ofNat 8 (x.xreg i.rs1).toNat
  if i.funct7 ≠ 0 then s.trapShuttle t 2 (rinstBits i 6)
  else if (List.range 8).all (fun c => !m.getLsbD c || x.engineIdle c) then s.retire t 4
  else s.await t (.fence m)

/-! ### Counters -/

/-- The pick of the event that TWAIT i would wait for; none for the next pick to start (R124, R125). -/
def Tile.eventPick (x : Tile) (i : Nat) : Option Pick := if i = 0 then x.cur.map (· + 1) else x.cur

/-- Has event i of that pick fired? -/
def State.targetFired (s : State) (p : Option Pick) (i : Nat) : Bool :=
  match p with
  | some p => s.eventFired p i
  | none => false

/-- Is event i undefined (R128)? -/
def State.eventUndefined (s : State) (i : Nat) : Bool := decide (126 < i) || (i != 0 && (s.ttEntry i).isNone)

/-- CWAIT (R120, R123 to R125, R128). -/
def State.cwait (s : State) (t : TileId) (i : RInst) : State :=
  let x := s.tile t
  let n := (x.xreg i.rs1).toNat % 64
  let v := s.arrival t n
  let want := x.xreg i.rs2
  let met := decide (0 ≤ signed 32 (v - want).toNat)
  let lim := i.funct7.toNat
  match x.waiting with
  | some (.released _ _) => s.retireRd t i.rd v
  | some _ => if met then s.retireRd t i.rd v else s
  | none =>
    if lim ≠ 0 ∧ s.eventUndefined (lim - 1) = true then s.trapShuttle t 26 (lim - 1)
    else if met || (lim != 0 && s.targetFired (x.eventPick (lim - 1)) (lim - 1)) then s.retireRd t i.rd v
    else
      s.await t (.counter (BitVec.ofNat 6 n) want (if lim = 0 then none else some (BitVec.ofNat 7 (lim - 1), x.eventPick (lim - 1))))

/-- Is a wait that of a CWAIT on these operands? -/
def Tile.cwaits (x : Tile) (i : RInst) : Wait → Bool
  | .counter n v lim => n == BitVec.ofNat 6 (x.xreg i.rs1).toNat && v == x.xreg i.rs2 &&
      decide ((match lim with | none => 0 | some l => l.1.toNat + 1) = i.funct7.toNat)
  | .released j _ => decide (i.funct7.toNat = j.toNat + 1)
  | _ => false

/-- CSET (R120, R126). -/
def State.cset (s : State) (t : TileId) (i : RInst) : State :=
  let x := s.tile t
  if i.funct7 ≠ 0 then s.trapShuttle t 2 (rinstBits i 3)
  else (s.setArrival t ((x.xreg i.rs1).toNat % 64) (x.xreg i.rs2)).retire t 4

/-- CADD (R120, R126, R138). -/
def State.cadd (s : State) (t : TileId) (i : RInst) : State :=
  let x := s.tile t
  if i.funct7 ≠ 0 then s.trapShuttle t 2 (rinstBits i 4)
  else (s.bumpArrival t ((x.xreg i.rs1).toNat % 64) (x.xreg i.rs2).toNat).retire t 4

/-! ### TWAIT -/

/-- TWAIT i returns with pick p (R124 to R126): after TWAIT 0 the runtime checks the freeze map and turns to the pick's
schedule (R198, R184). -/
def State.twaitReturn (s : State) (t : TileId) (i : RInst) (n : Nat) (p : Pick) (onTime : Bool) : State :=
  let s := s.makeCurrent t p n onTime
  let s := if n = 0 then s.schedPick t else s
  s.retireRd t i.rd (BitVec.setWidth 32 p)

/-- Does the shuttle halt in this TWAIT 0, which would leave the last pick of a drain (R562)? -/
def State.drainHalts (s : State) (t : TileId) (n : Nat) : Bool :=
  n == 0 && (match s.draft with
    | some d => (match d.drainLast with | some l => (s.tile t).cur == some l.1 | none => false)
    | none => false)

/-- TWAIT (R120, R124 to R126, R128, R518). -/
def State.twait (s : State) (t : TileId) (i : RInst) : State :=
  let x := s.tile t
  let n := (x.xreg i.rs1).toNat
  if i.funct7 ≠ 0 then s.trapShuttle t 2 (rinstBits i 5)
  else if s.eventUndefined n then s.trapShuttle t 26 n
  else if s.drainHalts t n then s.haltShuttle t
  else
    match x.waiting with
    | some (.released _ p) => s.twaitReturn t i n p true
    | some _ => s
    | none =>
      match x.eventPick n with
      | none => s.await t (.event (BitVec.ofNat 7 n) none)
      | some p =>
        if s.eventFired p n then (s.lateEvent t p n).twaitReturn t i n p false
        else s.await t (.event (BitVec.ofNat 7 n) (some p))

/-- Is a wait that of a TWAIT on this event? -/
def Wait.isTwait (n : Nat) : Wait → Bool
  | .event j _ => j.toNat == n
  | .released j _ => j.toNat == n
  | _ => false

/-! ### Loads and stores -/

def memBytes : MemSize → Nat
  | .b => 1
  | .h => 2
  | .w => 4
  | .d => 8

/-- funct3 of a load or store. -/
def memFunct3 (size : MemSize) (sgn store : Bool) : Nat :=
  (match size with | .b => 0 | .h => 1 | .w => 2 | .d => 3) + (if sgn || store then 0 else 4)

/-- The bits of a shuttle load or store in its 32-bit encoding. -/
def shBits (i : ShMem) : Nat :=
  let m := i.imm.toNat
  let f := memFunct3 i.size i.signed i.store * 2 ^ 12 + i.base.toNat * 2 ^ 15
  if i.store then m / 32 * 2 ^ 25 + i.reg.toNat * 2 ^ 20 + f + m % 32 * 2 ^ 7 + 0x23
  else m * 2 ^ 20 + f + i.reg.toNat * 2 ^ 7 + 0x03

/-- n bytes as a register value. -/
def extend (w : Nat) (sgn : Bool) (d : List Byte) : BitVec w :=
  if sgn then BitVec.ofInt w (signed (8 * d.length) (leNat d)) else BitVec.ofNat w (leNat d)

/-- A store into the tile's register block (R118). -/
def State.shRegStore (s : State) (t : TileId) (i : ShMem) (a : Nat) (v : Word) (len : Word) : State :=
  let off := a % 0x10000 / 8 * 8
  if i.size ≠ .w ∨ a % 4 ≠ 0 then s.trapShuttle t 7 a
  else if a % 8 = 0 then (s.modTile t (fun x => { x with wlatch := some (off, v) })).retire t len
  else
    match (s.tile t).wlatch with
    | some (o, lo) =>
      if o = off then
        let s := (s.modTile t (fun x => { x with wlatch := none })).retire t len
        s.busWrite (.shuttle t) (tileBase t + off) (v ++ lo)
      else s.trapShuttle t 7 a
    | none => s.trapShuttle t 7 a

/-- A load from the tile's register block (R118). -/
def State.shRegLoad (s : State) (t : TileId) (i : ShMem) (a : Nat) (len : Word) : State :=
  let off := a % 0x10000 / 8 * 8
  let ret := fun (s : State) (v : Word) => (s.modTile t (fun x => x.setX i.reg v)).retire t len
  if i.size ≠ .w ∨ i.signed = false ∨ a % 4 ≠ 0 then s.trapShuttle t 5 a
  else if a % 8 = 0 then
    let r := s.busRead (.shuttle t) (tileBase t + off)
    ret (r.2.modTile t (fun x => { x with rlatch := some (off, BitVec.ofNat 32 (r.1.toNat / 2 ^ 32)) })) (BitVec.ofNat 32 r.1.toNat)
  else
    match (s.tile t).rlatch with
    | some (o, hi) =>
      if o = off then ret s hi
      else
        let r := s.busRead (.shuttle t) (tileBase t + off)
        ret r.2 (BitVec.ofNat 32 (r.1.toNat / 2 ^ 32))
    | none =>
      let r := s.busRead (.shuttle t) (tileBase t + off)
      ret r.2 (BitVec.ofNat 32 (r.1.toNat / 2 ^ 32))

/-- A load or store of the shuttle (R117, R118, R144, R701). -/
def State.shMem (s : State) (t : TileId) (i : ShMem) : State :=
  let x := s.tile t
  let a := (x.xreg i.base + BitVec.signExtend 32 i.imm).toNat
  let v := x.xreg i.reg
  let n := memBytes i.size
  let len : Word := if i.short then 2 else 4
  let bad := i.size == .d || (!i.store && i.size == .w && !i.signed)
  let st := leBytes n v.toNat
  let ret := fun (s : State) (d : List Byte) => (s.modTile t (fun x => x.setX i.reg (extend 32 i.signed d))).retire t len
  if bad then s.trapShuttle t 2 (shBits i)
  else if 0x40000000 ≤ a ∧ a < 0x40010000 then (if i.store then s.shRegStore t i a v len else s.shRegLoad t i a len)
  else if a % n ≠ 0 then s.trapShuttle t (if i.store then 6 else 4) a
  else if a < 0x10000 then (if i.store then s.trapShuttle t 7 a else ret s (x.smem.readN a n))
  else if a < 0x20000 then
    (if i.store then (s.modTile t (fun x => { x with smem := x.smem.writeN a st })).retire t len else ret s (x.smem.readN a n))
  else if 0x80000000 ≤ a ∧ a < 0x80800000 then
    let o := a - 0x80000000
    if i.store then (s.sramWrite t o st).retire t len
    else if s.sramBad t o n then s.trapShuttle t 5 a
    else ret s (s.sram t o n)
  else s.trapShuttle t (if i.store then 7 else 5) a

/-! ### Meanings -/

/-- EISSUE (R120). -/
def execEissue (t : TileId) (i : RInst) (s : State) : Host.Outcome State Fault Refusal :=
  .next (s.shuttleDo t 4 (fun w => w == .queue i.funct7 || w == .bank) (fun s => s.eissue t i))

/-- EWAIT (R122). -/
def execEwait (t : TileId) (i : RInst) (s : State) : Host.Outcome State Fault Refusal :=
  .next (s.shuttleDo t 4 (fun w => w == .ticket i.funct7 ((s.tile t).xreg i.rs1)) (fun s => s.ewait t i))

/-- CWAIT (R123). -/
def execCwait (t : TileId) (i : RInst) (s : State) : Host.Outcome State Fault Refusal :=
  .next (s.shuttleDo t 4 ((s.tile t).cwaits i) (fun s => s.cwait t i))

/-- CSET (R120, R139). -/
def execCset (t : TileId) (i : RInst) (s : State) : Host.Outcome State Fault Refusal :=
  .next (s.shuttleDo t 4 (fun _ => false) (fun s => s.cset t i))

/-- CADD (R120, R138). -/
def execCadd (t : TileId) (i : RInst) (s : State) : Host.Outcome State Fault Refusal :=
  .next (s.shuttleDo t 4 (fun _ => false) (fun s => s.cadd t i))

/-- TWAIT (R124, R125). -/
def execTwait (t : TileId) (i : RInst) (s : State) : Host.Outcome State Fault Refusal :=
  .next (s.shuttleDo t 4 (Wait.isTwait ((s.tile t).xreg i.rs1).toNat) (fun s => s.twait t i))

/-- EFENCE (R120). -/
def execEfence (t : TileId) (i : RInst) (s : State) : Host.Outcome State Fault Refusal :=
  .next (s.shuttleDo t 4 (fun w => w == .fence (BitVec.ofNat 8 ((s.tile t).xreg i.rs1).toNat)) (fun s => s.efence t i))

/-- SHUTTLE_WFI (R701): retires at once and has no other effect. -/
def execShuttleWfi (t : TileId) (s : State) : Host.Outcome State Fault Refusal :=
  .next (s.shuttleDo t 4 (fun _ => false) (fun s => s.retire t 4))

/-- SHUTTLE_ECALL_EBREAK (R701). -/
def execShuttleEcallEbreak (t : TileId) (brk : Bool) (s : State) : Host.Outcome State Fault Refusal :=
  .next (s.shuttleDo t 4 (fun _ => false) (fun s => s.trapShuttle t (if brk then 3 else 11) 0))

/-- The length of a load or store. -/
def shLen (i : ShMem) : Nat := if i.short then 2 else 4

/-- SHUTTLE_REG_STORE (R118). -/
def execShuttleRegStore (t : TileId) (i : ShMem) (s : State) : Host.Outcome State Fault Refusal :=
  .next (s.shuttleDo t (shLen i) (fun _ => false) (fun s => s.shMem t { i with store := true }))

/-- SHUTTLE_REG_LOAD (R118). -/
def execShuttleRegLoad (t : TileId) (i : ShMem) (s : State) : Host.Outcome State Fault Refusal :=
  .next (s.shuttleDo t (shLen i) (fun _ => false) (fun s => s.shMem t { i with store := false }))

/-- SHUTTLE_LOAD_STORE (R117, R701). -/
def execShuttleLoadStore (t : TileId) (i : ShMem) (s : State) : Host.Outcome State Fault Refusal :=
  .next (s.shuttleDo t (shLen i) (fun _ => false) (fun s => s.shMem t i))

end Sys2Proof.Machine
end

