-- ==== Sys2Proof/Machine/Dispatch.lean ====
section
/-! DEFINITION. The dispatch: one arm per command, each a call of its meaning. -/

namespace Sys2Proof.Machine

/-- The effect of a command on everything but the queue. -/
def exec (i : Instr) (s : State) : Host.Outcome State Fault Refusal :=
  match i with
  | .eissue t j => Sys2Proof.Machine.execEissue t j s
  | .ewait t j => Sys2Proof.Machine.execEwait t j s
  | .cwait t j => Sys2Proof.Machine.execCwait t j s
  | .cset t j => Sys2Proof.Machine.execCset t j s
  | .cadd t j => Sys2Proof.Machine.execCadd t j s
  | .twait t j => Sys2Proof.Machine.execTwait t j s
  | .efence t j => Sys2Proof.Machine.execEfence t j s
  | .shuttleWfi t => Sys2Proof.Machine.execShuttleWfi t s
  | .shuttleEcallEbreak t brk => Sys2Proof.Machine.execShuttleEcallEbreak t brk s
  | .shuttleRegStore t j => Sys2Proof.Machine.execShuttleRegStore t j s
  | .shuttleRegLoad t j => Sys2Proof.Machine.execShuttleRegLoad t j s
  | .seqCtrlRun q t v => Sys2Proof.Machine.execSeqCtrlRun q t v s
  | .shuttleDeferredStart t => Sys2Proof.Machine.execShuttleDeferredStart t s
  | .copyArriveWrite q t n v same => Sys2Proof.Machine.execCopyArriveWrite q t n v same s
  | .linear t k => Sys2Proof.Machine.execLinear t k s
  | .gather t k => Sys2Proof.Machine.execGather t k s
  | .scatter t k => Sys2Proof.Machine.execScatter t k s
  | .fill t k => Sys2Proof.Machine.execFill t k s
  | .route t k => Sys2Proof.Machine.execRoute t k s
  | .copyComplete t k => Sys2Proof.Machine.execCopyComplete t k s
  | .matmul t => Sys2Proof.Machine.execMatmul t s
  | .tensorComplete t bank withheld => Sys2Proof.Machine.execTensorComplete t bank withheld s
  | .chain t => Sys2Proof.Machine.execChain t s
  | .elemComplete t bank withheld => Sys2Proof.Machine.execElemComplete t bank withheld s
  | .chol t => Sys2Proof.Machine.execChol t s
  | .ldlt t => Sys2Proof.Machine.execLdlt t s
  | .lu t => Sys2Proof.Machine.execLu t s
  | .qr t => Sys2Proof.Machine.execQr t s
  | .trsv t => Sys2Proof.Machine.execTrsv t s
  | .mv t => Sys2Proof.Machine.execMv t s
  | .assemble t => Sys2Proof.Machine.execAssemble t s
  | .solve t dl => Sys2Proof.Machine.execSolve t dl s
  | .solverComplete t bank withheld => Sys2Proof.Machine.execSolverComplete t bank withheld s
  | .push t => Sys2Proof.Machine.execPush t s
  | .pop t => Sys2Proof.Machine.execPop t s
  | .bobbinReset t => Sys2Proof.Machine.execBobbinReset t s
  | .bobbinComplete t => Sys2Proof.Machine.execBobbinComplete t s
  | .scheduleEntryIssue t => Sys2Proof.Machine.execScheduleEntryIssue t s
  | .pickStart now => Sys2Proof.Machine.execPickStart now s
  | .timetableEventFire j now => Sys2Proof.Machine.execTimetableEventFire j now s
  | .snapshotMark now => Sys2Proof.Machine.execSnapshotMark now s
  | .digestBankHandoff t => Sys2Proof.Machine.execDigestBankHandoff t s
  | .digestRecordWrite => Sys2Proof.Machine.execDigestRecordWrite s
  | .timeNowRead q => Sys2Proof.Machine.execTimeNowRead q s
  | .timeRebaseAtWrite q v => Sys2Proof.Machine.execTimeRebaseAtWrite q v s
  | .timeDiglogTailWrite q v => Sys2Proof.Machine.execTimeDiglogTailWrite q v s
  | .timeReq d p src tag stamp1 stamp2 => Sys2Proof.Machine.execTimeReq d p src tag stamp1 stamp2 s
  | .timeRsp p src t1 t2 t3 t4 => Sys2Proof.Machine.execTimeRsp p src t1 t2 t3 t4 s
  | .ptpMessage e k now => Sys2Proof.Machine.execPtpMessage e k now s
  | .announceTimeout now => Sys2Proof.Machine.execAnnounceTimeout now s
  | .timeHoldover => Sys2Proof.Machine.execTimeHoldover s
  | .replayEventFire j => Sys2Proof.Machine.execReplayEventFire j s
  | .vld h f => Sys2Proof.Machine.execVld h f s
  | .vst h f => Sys2Proof.Machine.execVst h f s
  | .vlds h f => Sys2Proof.Machine.execVlds h f s
  | .vsts h f => Sys2Proof.Machine.execVsts h f s
  | .vldx h f => Sys2Proof.Machine.execVldx h f s
  | .vstx h f => Sys2Proof.Machine.execVstx h f s
  | .vldseg h f => Sys2Proof.Machine.execVldseg h f s
  | .vstseg h f => Sys2Proof.Machine.execVstseg h f s
  | .vldbc h f => Sys2Proof.Machine.execVldbc h f s
  | .vldp h f => Sys2Proof.Machine.execVldp h f s
  | .vstp h f => Sys2Proof.Machine.execVstp h f s
  | .vcas h f => Sys2Proof.Machine.execVcas h f s
  | .vadd h f => Sys2Proof.Machine.execVadd h f s
  | .vsub h f => Sys2Proof.Machine.execVsub h f s
  | .vmul h f => Sys2Proof.Machine.execVmul h f s
  | .vmulh h f => Sys2Proof.Machine.execVmulh h f s
  | .vfma h f => Sys2Proof.Machine.execVfma h f s
  | .vmax h f => Sys2Proof.Machine.execVmax h f s
  | .vmin h f => Sys2Proof.Machine.execVmin h f s
  | .vneg h f => Sys2Proof.Machine.execVneg h f s
  | .vabs h f => Sys2Proof.Machine.execVabs h f s
  | .vand h f => Sys2Proof.Machine.execVand h f s
  | .vor h f => Sys2Proof.Machine.execVor h f s
  | .vxor h f => Sys2Proof.Machine.execVxor h f s
  | .vnot h f => Sys2Proof.Machine.execVnot h f s
  | .vshl h f => Sys2Proof.Machine.execVshl h f s
  | .vshr h f => Sys2Proof.Machine.execVshr h f s
  | .vsra h f => Sys2Proof.Machine.execVsra h f s
  | .vcls h f => Sys2Proof.Machine.execVcls h f s
  | .vcmp h f => Sys2Proof.Machine.execVcmp h f s
  | .vsel h f => Sys2Proof.Machine.execVsel h f s
  | .vwmul h f => Sys2Proof.Machine.execVwmul h f s
  | .vwmac h f => Sys2Proof.Machine.execVwmac h f s
  | .vdot h f => Sys2Proof.Machine.execVdot h f s
  | .vfxmac h f => Sys2Proof.Machine.execVfxmac h f s
  | .vcvt h f => Sys2Proof.Machine.execVcvt h f s
  | .vaccout h f => Sys2Proof.Machine.execVaccout h f s
  | .vexp2 h f => Sys2Proof.Machine.execVexp2 h f s
  | .vlog2 h f => Sys2Proof.Machine.execVlog2 h f s
  | .vrcp h f => Sys2Proof.Machine.execVrcp h f s
  | .vrsqrt h f => Sys2Proof.Machine.execVrsqrt h f s
  | .vredsum h f => Sys2Proof.Machine.execVredsum h f s
  | .vredmax h f => Sys2Proof.Machine.execVredmax h f s
  | .vredmin h f => Sys2Proof.Machine.execVredmin h f s
  | .vperm h f => Sys2Proof.Machine.execVperm h f s
  | .vslide h f => Sys2Proof.Machine.execVslide h f s
  | .vcompress h f => Sys2Proof.Machine.execVcompress h f s
  | .vexpand h f => Sys2Proof.Machine.execVexpand h f s
  | .vmvxs h f => Sys2Proof.Machine.execVmvxs h f s
  | .vmvsx h f => Sys2Proof.Machine.execVmvsx h f s
  | .vbcast h f => Sys2Proof.Machine.execVbcast h f s
  | .vpand h f => Sys2Proof.Machine.execVpand h f s
  | .vpor h f => Sys2Proof.Machine.execVpor h f s
  | .vpxor h f => Sys2Proof.Machine.execVpxor h f s
  | .vpnot h f => Sys2Proof.Machine.execVpnot h f s
  | .vpwhile h f => Sys2Proof.Machine.execVpwhile h f s
  | .vpcnt h f => Sys2Proof.Machine.execVpcnt h f s
  | .remoteAmo h j => Sys2Proof.Machine.execRemoteAmo h j s
  | .threadResume h => Sys2Proof.Machine.execThreadResume h s
  | .threadTimeslice c => Sys2Proof.Machine.execThreadTimeslice c s
  | .coreWfi h => Sys2Proof.Machine.execCoreWfi h s
  | .cpuStartGo q v => Sys2Proof.Machine.execCpuStartGo q v s
  | .memRead a len obs => Sys2Proof.Machine.execMemRead a len obs s
  | .memWrite a d => Sys2Proof.Machine.execMemWrite a d s
  | .wcbEntryDrain c now => Sys2Proof.Machine.execWcbEntryDrain c now s
  | .drain q c v => Sys2Proof.Machine.execDrain q c v s
  | .patrolScrub c a obs last => Sys2Proof.Machine.execPatrolScrub c a obs last s
  | .memCeRate c => Sys2Proof.Machine.execMemCeRate c s
  | .hbmTempRead k temp => Sys2Proof.Machine.execHbmTempRead k temp s
  | .memTrainingLost c => Sys2Proof.Machine.execMemTrainingLost c s
  | .guardCopy page => Sys2Proof.Machine.execGuardCopy page s
  | .nandRead p lba n retry bad => Sys2Proof.Machine.execNandRead p lba n retry bad s
  | .nandWrite p lba d => Sys2Proof.Machine.execNandWrite p lba d s
  | .d2dFlitRetry k consecutive => Sys2Proof.Machine.execD2dFlitRetry k consecutive s
  | .flitReceive p flit => Sys2Proof.Machine.execFlitReceive p flit s
  | .ackTimeoutResend p => Sys2Proof.Machine.execAckTimeoutResend p s
  | .portLeavesService p why now => Sys2Proof.Machine.execPortLeavesService p why now s
  | .portTrained p peerPort ok now => Sys2Proof.Machine.execPortTrained p peerPort ok now s
  | .linkExchange p x => Sys2Proof.Machine.execLinkExchange p x s
  | .rd p m now => Sys2Proof.Machine.execRd p m now s
  | .wr p m now => Sys2Proof.Machine.execWr p m now s
  | .atom p m now => Sys2Proof.Machine.execAtom p m now s
  | .arrive p m now => Sys2Proof.Machine.execArrive p m now s
  | .ledgerSync p m now => Sys2Proof.Machine.execLedgerSync p m now s
  | .fabricResponse p m now => Sys2Proof.Machine.execFabricResponse p m now s
  | .atomRetransmit tag now => Sys2Proof.Machine.execAtomRetransmit tag now s
  | .requestTimeout tag now => Sys2Proof.Machine.execRequestTimeout tag now s
  | .replayCacheExpiry now => Sys2Proof.Machine.execReplayCacheExpiry now s
  | .congExpiry dst now => Sys2Proof.Machine.execCongExpiry dst now s
  | .gets p m => Sys2Proof.Machine.execGets p m s
  | .getm p m => Sys2Proof.Machine.execGetm p m s
  | .putm p m => Sys2Proof.Machine.execPutm p m s
  | .fwdGets p m => Sys2Proof.Machine.execFwdGets p m s
  | .fwdGetm p m => Sys2Proof.Machine.execFwdGetm p m s
  | .inv p m => Sys2Proof.Machine.execInv p m s
  | .data p m => Sys2Proof.Machine.execData p m s
  | .ack p m => Sys2Proof.Machine.execAck p m s
  | .swAssign p m => Sys2Proof.Machine.execSwAssign p m s
  | .nodeAnnounce p m => Sys2Proof.Machine.execNodeAnnounce p m s
  | .fabWindowWrite q off v => Sys2Proof.Machine.execFabWindowWrite q off v s
  | .colSubmit q v => Sys2Proof.Machine.execColSubmit q v s
  | .collectiveHead c now => Sys2Proof.Machine.execCollectiveHead c now s
  | .colData p m => Sys2Proof.Machine.execColData p m s
  | .colCredit p m => Sys2Proof.Machine.execColCredit p m s
  | .colAbort p m => Sys2Proof.Machine.execColAbort p m s
  | .collectiveTimeout c now => Sys2Proof.Machine.execCollectiveTimeout c now s
  | .collectiveComplete c now => Sys2Proof.Machine.execCollectiveComplete c now s
  | .colCtxReset q c v => Sys2Proof.Machine.execColCtxReset q c v s
  | .colCtxDestroy q c v => Sys2Proof.Machine.execColCtxDestroy q c v s
  | .colCtxPolicyWrite q c v => Sys2Proof.Machine.execColCtxPolicyWrite q c v s
  | .draftBegin p m now => Sys2Proof.Machine.execDraftBegin p m now s
  | .draftChunk p m now => Sys2Proof.Machine.execDraftChunk p m now s
  | .draftValidate now => Sys2Proof.Machine.execDraftValidate now s
  | .draftAck p m now => Sys2Proof.Machine.execDraftAck p m now s
  | .draftAckTimeout now => Sys2Proof.Machine.execDraftAckTimeout now s
  | .treeUpdate p m now => Sys2Proof.Machine.execTreeUpdate p m now s
  | .jobGo p m now => Sys2Proof.Machine.execJobGo p m now s
  | .jobAbandon p m now => Sys2Proof.Machine.execJobAbandon p m now s
  | .jobDrain p m now => Sys2Proof.Machine.execJobDrain p m now s
  | .drainComplete now => Sys2Proof.Machine.execDrainComplete now s
  | .drainDone p m now => Sys2Proof.Machine.execDrainDone p m now s
  | .teardown p m now => Sys2Proof.Machine.execTeardown p m now s
  | .teardownDone p m now => Sys2Proof.Machine.execTeardownDone p m now s
  | .rdmaWrite e off d => Sys2Proof.Machine.execRdmaWrite e off d s
  | .rdmaSend e d => Sys2Proof.Machine.execRdmaSend e d s
  | .snapshotBackgroundCopy stripe => Sys2Proof.Machine.execSnapshotBackgroundCopy stripe s
  | .chunkWr src a d id => Sys2Proof.Machine.execChunkWr src a d id s
  | .chunkAck src id => Sys2Proof.Machine.execChunkAck src id s
  | .ready src gen tier members now => Sys2Proof.Machine.execReady src gen tier members now s
  | .commit src c => Sys2Proof.Machine.execCommit src c s
  | .abandon src gen tier => Sys2Proof.Machine.execAbandon src gen tier s
  | .commitRec src a d => Sys2Proof.Machine.execCommitRec src a d s
  | .logAppend src a d => Sys2Proof.Machine.execLogAppend src a d s
  | .logAck src lsn => Sys2Proof.Machine.execLogAck src lsn s
  | .mirror src x => Sys2Proof.Machine.execMirror src x s
  | .heartbeat d p src pick st now => Sys2Proof.Machine.execHeartbeat d p src pick st now s
  | .heartbeatSilence peer now => Sys2Proof.Machine.execHeartbeatSilence peer now s
  | .suspect src node now => Sys2Proof.Machine.execSuspect src node now s
  | .probe src => Sys2Proof.Machine.execProbe src s
  | .probeReply src pick => Sys2Proof.Machine.execProbeReply src pick s
  | .probeTimeout node now => Sys2Proof.Machine.execProbeTimeout node now s
  | .fatal src status now => Sys2Proof.Machine.execFatal src status now s
  | .declare src lost now => Sys2Proof.Machine.execDeclare src lost now s
  | .halt src pick => Sys2Proof.Machine.execHalt src pick s
  | .haltAck src pick barrier => Sys2Proof.Machine.execHaltAck src pick barrier s
  | .chunkRd src id => Sys2Proof.Machine.execChunkRd src id s
  | .chunkData src id d => Sys2Proof.Machine.execChunkData src id d s
  | .pickRestart => Sys2Proof.Machine.execPickRestart s
  | .resume src r base now => Sys2Proof.Machine.execResume src r base now s
  | .hello r nonce key role => Sys2Proof.Machine.execHello r nonce key role s
  | .hostProof r sig => Sys2Proof.Machine.execHostProof r sig s
  | .close r => Sys2Proof.Machine.execClose r s
  | .enroll r key secret => Sys2Proof.Machine.execEnroll r key secret s
  | .release r sig => Sys2Proof.Machine.execRelease r sig s
  | .statusGet r => Sys2Proof.Machine.execStatusGet r s
  | .regRead r offs => Sys2Proof.Machine.execRegRead r offs s
  | .regWrite r ws => Sys2Proof.Machine.execRegWrite r ws s
  | .eventRead r start n => Sys2Proof.Machine.execEventRead r start n s
  | .eventAck r upto => Sys2Proof.Machine.execEventAck r upto s
  | .eventSubscribe r on => Sys2Proof.Machine.execEventSubscribe r on s
  | .eventNotify session => Sys2Proof.Machine.execEventNotify session s
  | .hostkeySet r hash role remove => Sys2Proof.Machine.execHostkeySet r hash role remove s
  | .policySet r p => Sys2Proof.Machine.execPolicySet r p s
  | .windowSetInstall r w => Sys2Proof.Machine.execWindowSetInstall r w s
  | .windowSetRemove r name => Sys2Proof.Machine.execWindowSetRemove r name s
  | .timeRootSet r v => Sys2Proof.Machine.execTimeRootSet r v s
  | .planSet r clock cap => Sys2Proof.Machine.execPlanSet r clock cap s
  | .nodeAssign r chain span => Sys2Proof.Machine.execNodeAssign r chain span s
  | .portEnable r p => Sys2Proof.Machine.execPortEnable r p s
  | .groupCreate r g => Sys2Proof.Machine.execGroupCreate r g s
  | .groupDestroy r c => Sys2Proof.Machine.execGroupDestroy r c s
  | .jobStart r j now => Sys2Proof.Machine.execJobStart r j now s
  | .jobSubstitute r subs => Sys2Proof.Machine.execJobSubstitute r subs s
  | .dripolJobGo r tag base first now => Sys2Proof.Machine.execDripolJobGo r tag base first now s
  | .dripolJobAbandon r tag status now => Sys2Proof.Machine.execDripolJobAbandon r tag status now s
  | .dripolJobDrain r tag last snap now => Sys2Proof.Machine.execDripolJobDrain r tag last snap now s
  | .jobTeardown r tag scrub now => Sys2Proof.Machine.execJobTeardown r tag scrub now s
  | .spareHold r tag => Sys2Proof.Machine.execSpareHold r tag s
  | .fenceClear r node => Sys2Proof.Machine.execFenceClear r node s
  | .restore r x => Sys2Proof.Machine.execRestore r x s
  | .storeExport r gen page => Sys2Proof.Machine.execStoreExport r gen page s
  | .fwStage r off d last => Sys2Proof.Machine.execFwStage r off d last s
  | .fwActivate r => Sys2Proof.Machine.execFwActivate r s
  | .fwCommit r => Sys2Proof.Machine.execFwCommit r s
  | .fwRevert r => Sys2Proof.Machine.execFwRevert r s
  | .maintEnter r => Sys2Proof.Machine.execMaintEnter r s
  | .maintExit r => Sys2Proof.Machine.execMaintExit r s
  | .attest r nonce => Sys2Proof.Machine.execAttest r nonce s
  | .measureLogGet r => Sys2Proof.Machine.execMeasureLogGet r s
  | .identityGet r => Sys2Proof.Machine.execIdentityGet r s
  | .reset r c => Sys2Proof.Machine.execReset r c s
  | .remove r force => Sys2Proof.Machine.execRemove r force s
  | .dripolSegment e src seg now => Sys2Proof.Machine.execDripolSegment e src seg now s
  | .reassemblyTimeout now => Sys2Proof.Machine.execReassemblyTimeout now s
  | .sessionIdleTimeout session now => Sys2Proof.Machine.execSessionIdleTimeout session now s
  | .deferredActivation => Sys2Proof.Machine.execDeferredActivation s
  | .trialRevert => Sys2Proof.Machine.execTrialRevert s
  | .boot now => Sys2Proof.Machine.execBoot now s
  | .kick p now => Sys2Proof.Machine.execKick p now s
  | .watchdogRestart p now => Sys2Proof.Machine.execWatchdogRestart p now s
  | .pwrEnRise slot vin now => Sys2Proof.Machine.execPwrEnRise slot vin now s
  | .pwrEnFall now => Sys2Proof.Machine.execPwrEnFall now s
  | .presentNRise => Sys2Proof.Machine.execPresentNRise s
  | .nodeResetNLow us slot => Sys2Proof.Machine.execNodeResetNLow us slot s
  | .lowInput mv us => Sys2Proof.Machine.execLowInput mv us s
  | .inputUndervoltage mv us => Sys2Proof.Machine.execInputUndervoltage mv us s
  | .inputOvervoltage mv us => Sys2Proof.Machine.execInputOvervoltage mv us s
  | .overcurrent ma100 limit us => Sys2Proof.Machine.execOvercurrent ma100 limit us s
  | .inputRestart mv goodMs now => Sys2Proof.Machine.execInputRestart mv goodMs now s
  | .railFault us => Sys2Proof.Machine.execRailFault us s
  | .thermalTrip where_ temp => Sys2Proof.Machine.execThermalTrip where_ temp s
  | .limiterUpdate x => Sys2Proof.Machine.execLimiterUpdate x s
  | .droopEvent t mv => Sys2Proof.Machine.execDroopEvent t mv s
  | .pwrStateTarget q v => Sys2Proof.Machine.execPwrStateTarget q v s
  | .powerStateChangeDone => Sys2Proof.Machine.execPowerStateChangeDone s
  | .pwrResetPkg q v => Sys2Proof.Machine.execPwrResetPkg q v s
  | .pwrResetCmp q v => Sys2Proof.Machine.execPwrResetCmp q v s
  | .pwrResetFab q v => Sys2Proof.Machine.execPwrResetFab q v s
  | .pwrResetFwp q v => Sys2Proof.Machine.execPwrResetFwp q v s
  | .resetComplete => Sys2Proof.Machine.execResetComplete s
  | .readClearRegister q a size => Sys2Proof.Machine.execReadClearRegister q a size s
  | .registerWrite q a size v => Sys2Proof.Machine.execRegisterWrite q a size v s
  | .coreLoad h j => Sys2Proof.Machine.execCoreLoad h j s
  | .coreStore h j => Sys2Proof.Machine.execCoreStore h j s
  | .amo h j => Sys2Proof.Machine.execAmo h j s
  | .lrSc h sc j => Sys2Proof.Machine.execLrSc h sc j s
  | .fence h pred succ => Sys2Proof.Machine.execFence h pred succ s
  | .fvxCsrAccess h j => Sys2Proof.Machine.execFvxCsrAccess h j s
  | .shuttleLoadStore t j => Sys2Proof.Machine.execShuttleLoadStore t j s
  | .powerEmergencyExit mv us => Sys2Proof.Machine.execPowerEmergencyExit mv us s
  | .noSpare => Sys2Proof.Machine.execNoSpare s
  | .jtagInstruction j => Sys2Proof.Machine.execJtagInstruction j s
  | .ethLinkChange e up => Sys2Proof.Machine.execEthLinkChange e up s

end Sys2Proof.Machine
end

