-- ==== Sys2Proof/Safety.lean ====
section
/-! DEFINITION. What counts as a safe run, and the terms in which the statements speak: which part of the state a command
changes, and when a hart, a tile or the node can run one. -/

namespace Sys2Proof

open Sys2Proof.Machine

/-! ### Safe runs -/

/-- Every memory that the state lists byte by byte is in canonical form. -/
def memoriesWf (s : State) : Prop :=
  s.mem.wf = true ∧ s.flash.wf = true ∧ ∀ e ∈ s.tiles, e.2.smem.wf = true ∧ e.2.treg.wf = true

/-- The block answers the command with a next state. -/
def answers (c : Instr) (s : State) : Prop := ∃ t, exec c s = .next t

/-- A step that neither stops the block nor spoils a memory's form. -/
def safeStep (s : State) : Prop := ∃ t, step s = .next t ∧ memoriesWf t

/-! ### Harts -/

/-- Hart h can run an instruction: its core is in service, it is the running thread, and it is not parked. -/
def hartRuns (s : State) (h : HartId) : Bool := s.ready 12 && (s.hart h).st == .running && (s.hart h).park.isNone

/-- Hart h can run FVX instruction `op f`: it can run, FVX is on and the encoding is valid. -/
def fvxRuns (s : State) (h : HartId) (op : FvxOp) (f : FvxWord) : Bool := hartRuns s h && (s.hart h).fvxOn && fvxOk op f

/-- Nothing but hart h, and how many free values have been drawn, may differ between s and t. -/
def hartOnly (h : HartId) (s t : State) : Prop :=
  { t with harts := s.harts, free := s.free } = s ∧ ∀ k : HartId, k ≠ h → t.hart k = s.hart k

/-- The command of an FVX operation. -/
def fvxInstr : FvxOp → HartId → FvxWord → Instr
  | .vld => .vld
  | .vst => .vst
  | .vlds => .vlds
  | .vsts => .vsts
  | .vldx => .vldx
  | .vstx => .vstx
  | .vldseg => .vldseg
  | .vstseg => .vstseg
  | .vldbc => .vldbc
  | .vldp => .vldp
  | .vstp => .vstp
  | .vcas => .vcas
  | .vadd => .vadd
  | .vsub => .vsub
  | .vmul => .vmul
  | .vmulh => .vmulh
  | .vfma => .vfma
  | .vmax => .vmax
  | .vmin => .vmin
  | .vneg => .vneg
  | .vabs => .vabs
  | .vand => .vand
  | .vor => .vor
  | .vxor => .vxor
  | .vnot => .vnot
  | .vshl => .vshl
  | .vshr => .vshr
  | .vsra => .vsra
  | .vcls => .vcls
  | .vcmp => .vcmp
  | .vsel => .vsel
  | .vwmul => .vwmul
  | .vwmac => .vwmac
  | .vdot => .vdot
  | .vfxmac => .vfxmac
  | .vcvt => .vcvt
  | .vaccout => .vaccout
  | .vexp2 => .vexp2
  | .vlog2 => .vlog2
  | .vrcp => .vrcp
  | .vrsqrt => .vrsqrt
  | .vredsum => .vredsum
  | .vredmax => .vredmax
  | .vredmin => .vredmin
  | .vperm => .vperm
  | .vslide => .vslide
  | .vcompress => .vcompress
  | .vexpand => .vexpand
  | .vmvxs => .vmvxs
  | .vmvsx => .vmvsx
  | .vbcast => .vbcast
  | .vpand => .vpand
  | .vpor => .vpor
  | .vpxor => .vpxor
  | .vpnot => .vpnot
  | .vpwhile => .vpwhile
  | .vpcnt => .vpcnt

/-- Element format of an FVX instruction, and its number of elements. -/
def fvxFmt (f : FvxWord) : Fmt := (fmtOf f).getD .i8
def fvxCount (f : FvxWord) : Nat := 64 * grp f / (fvxFmt f).bytes

/-- Element i of w bytes from vector register r. -/
def lane (x : Hart) (r : BitVec 5) (w n i : Nat) : Nat := (x.elems r.toNat w n).getD i 0

/-- What an element of the destination receives: the result when the element is active under the predicate read at width
pw, else 0 with zeroing and its old value without (R331). -/
def masked (x : Hart) (f : FvxWord) (pw w n i v : Nat) : Nat :=
  if x.active f.pg.toNat pw i then v else if f.z = 1 then 0 else lane x f.vd w n i

/-- Vector register r. -/
def vreg (x : Hart) (r : Nat) : BitVec 512 := Tab.get (fun _ => 0) x.v r

/-- FVX instruction `op f` on hart h of s answers t: elements 0 to n − 1 of w bytes of the destination hold k, every
register outside it and the rest of the state are as before, and the program counter has moved by 8. -/
def writesLanes (op : FvxOp) (h : HartId) (f : FvxWord) (s : State) (w n : Nat) (k : Nat → Nat) : Prop :=
  ∃ t, exec (fvxInstr op h f) s = .next t ∧ (∀ i, i < n → lane (t.hart h) f.vd w n i = k i % 2 ^ (8 * w)) ∧
    (∀ r, r < f.vd.toNat ∨ f.vd.toNat + ceilDiv (n * w) 64 ≤ r → vreg (t.hart h) r = vreg (s.hart h) r) ∧
    (t.hart h).pc = (s.hart h).pc + 8 ∧ (t.hart h).x = (s.hart h).x ∧ (t.hart h).f = (s.hart h).f ∧ (t.hart h).p = (s.hart h).p ∧
    hartOnly h s t

/-! ### Memory accesses of a hart -/

/-- Node-local part of a global address. -/
def localAddr (a : BitVec 64) : Nat := bitsOf a 47 0

/-- Every element lies in DRAM or tile SRAM of this node that is in service, no other node holds a line of it, nothing is
poisoned, and the node does not replay. -/
def ownEls (s : State) (h : HartId) (els : List El) : Bool :=
  s.dir.isEmpty && s.dirTrans.isEmpty && !s.replaying && s.poison.isEmpty &&
    els.all (fun e => match s.corePlace h e.addr e.n with | .dram _ => true | .window _ => true | _ => false)

/-- What the cores hold modified and what the guard holds lies in DRAM: an invariant of the node. -/
def cachesInDram (s : State) : Bool :=
  s.dirty.all (fun e => decide (e.1 < sramWindow)) && s.heldWrites.all (fun w => decide (w.addr + w.data.length ≤ sramWindow))

/-- The value in memory at an element of w bytes; 16 bytes are two words. -/
def memValue (s : State) (a : BitVec 64) (w : Nat) : Nat := leNat ((elParts a w).flatMap (fun e => s.bytes (localAddr e.addr) e.n))

/-- Bytes stored by elements, in order: the addresses of each element's bytes with the data. -/
def storedBytes (els : List El) (d : List Byte) : List (Nat × Byte) :=
  (els.flatMap (fun e => (List.range e.n).map (fun i => localAddr e.addr + i))).zip d

/-- What a byte is after a list of byte stores in order. -/
def afterStores : List (Nat × Byte) → Nat → Byte → Byte
  | [], _, v => v
  | (b, w) :: l, a, v => afterStores l a (if a = b then w else v)

/-- Nothing but memory and harts differs, and of the harts only hart h's registers and reservations. -/
def memoryAndHart (h : HartId) (s t : State) : Prop :=
  { t with mem := s.mem, dirty := s.dirty, harts := s.harts } = s ∧
    ∀ k : HartId, k ≠ h → { t.hart k with resv := none } = { s.hart k with resv := none }

/-- Every byte of the node's memory reads as the stores leave it. -/
def memoryAfter (s t : State) (l : List (Nat × Byte)) : Prop := ∀ a, a < 2 ^ 48 → t.byteAt a = afterStores l a (s.byteAt a)

/-! ### What a command leaves as it was -/

/-- Of the registers of space type 01, only those at the offsets of l may differ between s and t. -/
def otherRegs (l : List Nat) (s t : State) : Prop := ∀ a, a ∉ l → t.reg a = s.reg a

/-- Only tile k may differ between s and t. -/
def otherTiles (k : TileId) (s t : State) : Prop := ∀ j : TileId, j ≠ k → t.tile j = s.tile j

/-- Only port k may differ between s and t. -/
def otherPorts (k : PortId) (s t : State) : Prop := ∀ j : PortId, j ≠ k → t.port j = s.port j

/-! ### Messages to other nodes -/

/-- The node can send a request now: its target is neither fenced nor lost, a window lets it leave, a live path leads to the
target, and no output waits for the log. -/
def canAsk (s : State) (dst : NodeId) (vc opc addr len : Nat) : Bool :=
  !s.resil.fence.contains dst && !s.resil.lost.contains dst && s.windowMatch dst vc opc addr (reachOf opc len) &&
    (s.pathTo s.srcNode dst vc addr).isSome && decide (s.resil.lsn ≤ s.resil.ackedLsn)

/-- Between s and t the node has sent one request, of the next tag, and awaits its response for owner o. -/
def asked (s t : State) (o : Owner) (dst : NodeId) (vc opc addr len : Nat) (d : List Byte) : Prop :=
  let m := request dst vc opc addr len s.nextTag d
  t.nextTag = s.nextTag + 1 ∧
    t.reqs = s.reqs ++ [{ msg := m.asMsg s.srcNode, sentAt := s.clock.ns.toNat, sends := 1, owner := o }] ∧
    t.outbox = s.outbox ++ [{ m with port := s.pathTo s.srcNode dst vc addr }]

/-! ### Threads -/

/-- The thread that its core starts after hart h leaves it: the first ready one after it. -/
def nextThread (s : State) (h : HartId) : Option HartId :=
  ((List.range 8).map (fun i => hartOf (coreOf h) ((threadOf h + 1 + i) % 8))).find? (fun k => k != h && (s.hart k).st == .ready)

/-- Between s and t hart h has left its core with state st, and the next thread, if one is ready, has been started and
counted; every other hart and the rest of the state are as before, but for what `x` says of hart h. -/
def hartLeaves (s t : State) (h : HartId) (x : Hart) : Prop :=
  t.hart h = x ∧
    (∀ k, nextThread s h = some k → t.hart k = { s.hart k with st := .running } ∧
      Tab.get (fun _ => 0) t.running (coreOf h) = threadOf k ∧
      t.fld (corePark (coreOf h) F.CPU_CORE_PARKS_SWITCHES) =
        min (s.fld (corePark (coreOf h) F.CPU_CORE_PARKS_SWITCHES) + 1) (2 ^ 32 - 1)) ∧
    (∀ k, k ≠ h → nextThread s h ≠ some k → t.hart k = s.hart k) ∧
    (nextThread s h = none → t.running = s.running)

/-! ### Events -/

/-- The event record written last: to the firmware ring, or to the ring in BSC SRAM while LPDDR5X is not ready (R653). -/
def newestEvent (s : State) : Option EventRec := if s.lpReady then s.rings.fw.getLast? else s.rings.bsc.getLast?

/-- Between s and t an event has been raised, the last one of the command (Table 0-8). -/
def raised (s t : State) (src : Nat) (code : Status) (detail : List Byte) (fatal : Bool) : Prop :=
  newestEvent t = some { ts := s.stamp, source := BitVec.ofNat 16 src, code := code, pick := s.eventPick,
                         detail := (detail ++ zeros 14).take 14, fatal := fatal }

/-! ### Shuttles -/

/-- The shuttle of tile k executes, waits for nothing, and n bytes at its program counter lie in instruction memory. -/
def shuttleFree (s : State) (k : TileId) (n : Nat) : Bool :=
  s.shuttleRuns k && decide ((s.tile k).pc.toNat + n ≤ 0x10000) && (s.tile k).waiting.isNone

/-- Nothing but tile k's own data differs between s and t. -/
def tileOnly (k : TileId) (s t : State) : Prop := { t with tiles := s.tiles } = s ∧ otherTiles k s t

/-- Register rd of a shuttle holds v, unless it is x0, and every other register is as before. -/
def shuttleWrites (x y : Tile) (rd : BitVec 5) (v : Word) : Prop :=
  (rd ≠ 0 → y.xreg rd = v) ∧ y.xreg 0 = 0 ∧ ∀ r : BitVec 5, r ≠ rd → y.xreg r = x.xreg r

/-- The shuttle of tile k has trapped: SEQ_TRAP, SEQ_CTRL and the event say so, and its program counter has stayed (R129). -/
def shuttleTrapped (s t : State) (k : TileId) (cause tval : Nat) : Prop :=
  t.fld (tfld k F.SEQ_TRAP_CAUSE) = cause ∧ t.fld (tfld k F.SEQ_TRAP_TVAL) = tval % 2 ^ 32 ∧ t.bit (tfld k F.SEQ_CTRL_TRAP) = true ∧
    t.bit (tfld k F.SEQ_CTRL_HALTED) = true ∧ t.bit (tfld k F.SEQ_CTRL_RUN) = false ∧ (t.tile k).pc = (s.tile k).pc ∧
    (t.tile k).x = (s.tile k).x ∧ raised s t (tileSrc k) St.aborted (leBytes 4 cause ++ leBytes 4 (s.tile k).pc.toNat) false

/-! ### Memory system -/

/-- No write waits outside memory: no modified line in a cache, none held by the guard, nothing poisoned. -/
def memQuiet (s : State) : Bool := s.dirty.isEmpty && s.heldWrites.isEmpty && s.poison.isEmpty

/-- Offsets of a write-combining entry's bytes: rising and below 256. -/
def risingBelow256 : List (Nat × Byte) → Bool
  | [] => true
  | e :: l => decide (e.1 < 256) && l.all (fun f => decide (e.1 < f.1)) && risingBelow256 l

/-- The write-combining buffer of controller c holds at most one entry for a granule, each of DRAM of that controller, with
each valid byte once: an invariant of the buffers (R367, R368). -/
def wcbOk (s : State) (c : CtrlId) : Prop :=
  (s.wcbOf c).Pairwise (fun e f => e.granule ≠ f.granule) ∧
    ∀ e ∈ s.wcbOf c, ctrlOf (e.granule * 256) = c ∧ e.granule * 256 < sramWindow ∧ risingBelow256 e.bytes = true

/-- Every byte of the node reads as before. -/
def sameMemory (s t : State) : Prop := ∀ a, t.byteAt a = s.byteAt a

/-- Byte stores into tile k's SRAM: offsets with the bytes stored from there upward. -/
def sramStores (k : TileId) (l : List (Nat × List Byte)) : List (Nat × Byte) :=
  l.flatMap (fun e => ((List.range e.2.length).map (fun i => sramAddr k e.1 + i)).zip e.2)

/-! ### Engines -/

/-- Between s and t engine n of tile k has taken the head of its queue, which is e, and runs r. -/
def engineStarted (s t : State) (k : TileId) (n : Nat) (r : EngRun) : Prop :=
  (t.tile k).running n = some r ∧ (t.tile k).queue n = ((s.tile k).queue n).drop 1 ∧ otherTiles k s t

/-- What a byte reads as after one row of n bytes has been copied from its source address, or filled with a pattern. -/
def copyRow (n : Nat) (pat : Nat → Byte) (f : Nat → Byte) (r : Option Nat × Nat) : Nat → Byte := fun a =>
  if r.2 ≤ a ∧ a < r.2 + n then (match r.1 with | some b => f (b + (a - r.2)) | none => pat (a - r.2)) else f a

/-- Every row of a copy has its source, if it has one, and its destination in the node's own memory. -/
def ownRows (s : State) (rows : List (Option (BitVec 64) × BitVec 64)) : Bool :=
  rows.all (fun r => bitsOf r.2 63 62 == 0 && s.isLocal (addrNode r.2) &&
    (match r.1 with | some a => bitsOf a 63 62 == 0 && s.isLocal (addrNode a) | none => true))

/-! ### Messages from other nodes -/

/-- The node takes a message that waits at port p: the port is in service, the source is not fenced, the message is well
formed and meant for this node. -/
def takes (s : State) (p : PortId) (m : Msg) : Bool :=
  s.portUp p && !s.resil.fence.contains m.src && !s.malformed m && (m.loc || !s.nodeValid || m.dst == s.nodeId)

/-- What the node sends to node n can leave at once: n is not fenced, a live port leads there, and no output waits for the
log. -/
def canReach (s : State) (n : NodeId) : Bool :=
  !s.resil.fence.contains n && !(s.pathPorts n).isEmpty && decide (s.resil.lsn ≤ s.resil.ackedLsn)

/-- A message as it stands in the list of what has left the node, with its port. -/
def onItsPort (s : State) (m : OutMsg) : OutMsg := { m with port := s.pathTo s.srcNode m.dst m.vc m.addr }

/-- Between s and t the node has answered m, and sent nothing else, with operation opc, a status and data. -/
def answered (s t : State) (m : Msg) (opc : Nat) (st : Status) (d : List Byte) : Prop :=
  ∃ c, t.outbox = s.outbox ++ [onItsPort s { response m st d with opc := opc, cong := c }]

/-- Hart h waits for the reply with a tag; between s and t it has got the cells and the failures, and waits no longer for
that tag. -/
def gotReply (s t : State) (h : HartId) (tag : BitVec 16) (cells : List Host.Cell) (fails : List (Nat × Nat × Status)) : Prop :=
  ∀ k, (s.hart h).park = some k → tag ∈ k.waits →
    (t.hart h).park = some { k with waits := k.waits.erase tag, got := cells ++ k.got, fails := k.fails ++ fails }

/-- The ring that holds an event record first (R653). -/
def eventRing (s : State) : List EventRec := if s.lpReady then s.rings.fw else s.rings.bsc

/-- Between s and t an event has been raised, among the records of the command (Table 0-8). -/
def recorded (s t : State) (src : Nat) (code : Status) (detail : List Byte) (fatal : Bool) : Prop :=
  ∃ l k, eventRing t = (eventRing s).drop l ++ k ∧
    { ts := s.stamp, source := BitVec.ofNat 16 src, code := code, pick := s.eventPick, detail := (detail ++ zeros 14).take 14, fatal := fatal } ∈ k

/-! ### Jobs -/

/-- A job-management message that the node takes and that concerns its draft d (R549). -/
def jobTakes (s : State) (p : PortId) (m : Msg) (opc : Nat) (d : Draft) : Prop :=
  takes s p m = true ∧ m.opc.toNat = opc ∧ m.rsp = false ∧ s.draft = some d ∧ d.jobTag = BitVec.ofNat 64 (bytesAt m.data 0 8) ∧
    m.src ∈ s.treeKids d ++ s.treeParents d

/-- A window lets a job-management message out to node n, and a path leads there. -/
def canTell (s : State) (opc : Nat) (n : NodeId) : Bool := canReach s n && s.windowMatch n 6 opc 0 0

/-- Between s and t the node has sent its children a message, and nothing else. -/
def toldKids (s t : State) (d : Draft) (opc : Nat) (b : List Byte) : Prop :=
  (∀ n ∈ s.treeKids d, canTell s opc n = true) →
    t.outbox = s.outbox ++ (s.treeKids d).map (fun n => onItsPort s (request n 6 opc 0 b.length 0 b))

/-! ### The host -/

/-- A request of session x whose number the node accepts: it has waited, or its number is new (R648). -/
def inSession (s : State) (r : Dripol) (type : Nat) (x : Session) : Bool :=
  s.power.on && !s.power.stopped && r.major == 1 && s.enrolled && decide (s.openSession r.session = some x) &&
    (s.isTaken r type || ((x.cached r.seq).isNone && x.fresh r.seq))

/-- The node serves a request: its number is accepted, its session has the role, and its processor can take it (R623, R648, R651). -/
def served (s : State) (r : Dripol) (type : Nat) (least : Role) (srv : Option Nat) : Bool :=
  (s.serviceStop type srv).isNone &&
    (match s.openSession r.session with
     | some x => inSession s r type x && decide (least.level ≤ x.role.level)
     | none => false)

/-- The node takes a message that opens a session or enrolls an owner, or a request outside a session (R650). -/
def servedOutside (s : State) (r : Dripol) (type : Nat) : Bool :=
  s.power.on && !s.power.stopped && r.major == 1 && (s.serviceStop type (some 0)).isNone

/-- The last thing the node has sent to the host between s and t is the answer to a request, with a status and data. -/
def replied (s t : State) (r : Dripol) (type : Nat) (st : Status) (d : List Byte) : Prop :=
  t.hostOut = s.hostOut ++ [hostReply r.session r.seq type st [] d]

/-- Between s and t the node has answered a request, and for the rest t is u, but for what it notes of sessions and of the
requests that wait. -/
def answersHost (s t u : State) (r : Dripol) (type : Nat) (st : Status) (d : List Byte) : Prop :=
  replied s t r type st d ∧ { t with hostOut := u.hostOut, fw := { t.fw with sessions := u.fw.sessions, taken := u.fw.taken } } = u

/-- A request in the form of Table 15-6, without its tag. -/
def dripolBytes (session seq : BitVec 32) (type : Nat) (d : List Byte) : List Byte :=
  leBytes 4 0x4C4F5044 ++ leBytes 2 1 ++ leBytes 2 type ++ zeros 4 ++ leBytes 4 seq.toNat ++ leBytes 4 d.length ++
    leBytes 4 session.toNat ++ zeros 8 ++ d

/-- Segment i of n of a message (R641). -/
def segmentBytes (seq : BitVec 32) (i n : Nat) (b : List Byte) : List Byte := leBytes 4 seq.toNat ++ leBytes 1 i ++ leBytes 1 n ++ zeros 2 ++ b

/-- The first bytes of every chunk of a draft that its root sends, map first (R551). -/
def draftChunks (d : Draft) : List (Nat × Nat) := imageChunks d.total (2 * d.nmembers) ++ imageChunks 0 d.total

/-! ### Power -/

/-- FATAL on every port in service, toward the coordinator (R600, R665). -/
def fatalMsgs (s : State) (code : Status) : List OutMsg :=
  if s.nodeValid then s.livePorts.map (fun p => plainMsg (some p) (s.coordinator.getD 0) 0 0x5B [code.toNat] []) else []

/-- Between s and t every rail has been turned off: all contents but NAND are lost (Table 16-10). -/
def railsFell (s t : State) (why : OffCause) : Prop :=
  t.power.on = false ∧ t.power.pwrGood = false ∧ t.power.off = some why ∧ t.mem = [] ∧ t.tiles = [] ∧ t.harts = [] ∧ t.draft = none ∧
    t.fw.sessions = [] ∧ t.flash = s.flash ∧ t.fw.slots = s.fw.slots ∧ t.fw.ownerKey = s.fw.ownerKey ∧ t.pending = s.pending

/-- Between s and t a protection has turned every rail off: FATAL went out first, PWR_OFF_CAUSE keeps the code (R664, R665). -/
def turnedOff (s t : State) (code : Status) (why : OffCause) : Prop :=
  railsFell s t why ∧ t.fld F.PWR_OFF_CAUSE_CODE = code.toNat ∧ t.bit F.PWR_OFF_CAUSE_VALID = true ∧ t.outbox = s.outbox ++ fatalMsgs s code

/-- Between s and t the node has started with a POR: BSC is about to boot (R678). -/
def startedPor (s t : State) : Prop :=
  t.power.on = true ∧ t.power.pwrGood = true ∧ t.power.thermtripN = true ∧ t.power.off = none ∧ t.power.resets = [(1, 0, 5)] ∧
    t.fld F.PWR_RESET_LAST_CLASS = 1 ∧ t.fld F.PWR_RESET_LAST_TRIGGER = 5 ∧ (∀ i, i < 128 → t.ready i = false) ∧ t.mem = [] ∧
    t.draft = none ∧ t.flash = s.flash ∧ t.pending = s.pending

/-- No reset is in progress or asked for, no rail was turned off, and the node is in P0. -/
def powerQuiet (s : State) : Prop :=
  s.power.on = true ∧ s.power.off = none ∧ s.power.resets = [] ∧ s.power.resetAfter = none ∧ s.fld F.PWR_STATE_CUR = 0

end Sys2Proof
end

