-- ==== Sys2Proof/Certificates/Slice0/Obligations.lean ====
section
/-! DEFINITION. The statements for the provers. Each docstring says what the statement claims; the rules it rests on stand in
OBLIGATIONS.json. -/

open Sys2Proof Sys2Proof.Machine

/-- For every command and state, step with that command at the front of the queue is exec of it with the rest of the
queue. With an empty queue the step is one tick of the reference clock (the model's choice, assumption log 1). -/
def Obligations.StepRunsTheFrontCommand : Prop :=
  ∀ (c : Instr) (rest : List Instr) (s : State),
    step { s with pending := c :: rest } = exec c { s with pending := rest } ∧ (s.pending = [] → step s = .next s.idle)

/-- exec gives a next state for every command on every state, except FLIT_RECEIVE of a byte list that is not 256 bytes
long, which stops with the fault notAFlit. -/
def Obligations.EveryCommandIsAnswered : Prop :=
  ∀ (c : Instr) (s : State), (∃ t, exec c s = .next t) ∨ ∃ p f, c = .flitReceive p f ∧ f.length ≠ 256 ∧ exec c s = .fault .notAFlit

/-- At State.reset every register reads the reset value of its fields (0 where none is given), no command waits, no event
is recorded, no tile has a program, every hart has not been started and is in machine mode, every shuttle is halted
and no session is open. The contents of memory, and registers without a reset value, are the model's choice
(assumption logs 5 and 6). -/
def Obligations.ResetLeavesTheManualsValues : Prop :=
  (∀ off, State.reset.reg off = resetVal off) ∧ State.reset.pending = [] ∧ State.reset.rings.host = [] ∧
    (∀ h : HartId, (State.reset.hart h).st = .notStarted ∧ (State.reset.hart h).machineMode = true) ∧
    (∀ k : TileId, State.reset.shuttleRuns k = false ∧ (State.reset.tile k).program = false) ∧
    State.reset.fw.sessions = [] ∧ State.reset.draft = none ∧ memoriesWf State.reset ∧ State.reset.fld F.GLB_JOB_STATE = 0

/-- A read of space type 01 at an aligned offset that no register occupies returns 0 and changes nothing, and a write
there changes nothing. -/
def Obligations.UnoccupiedOffsetsIgnoreWrites : Prop :=
  ∀ (q : Requester) (off : BitVec 48) (v : BitVec 64) (s : State), regAt off.toNat = none →
    (s.busRead q off.toNat).1 = 0 ∧ exec (.readClearRegister q off 8) s = .next s ∧ exec (.registerWrite q off 8 v) s = .next s

/-- A register access of another size than 8 bytes or at an offset that is no multiple of 8 changes nothing, and neither
does the write of a hart in user mode or of a shuttle outside its tile's block. A write of a register of the global
block, whose fields are all read-only, changes no register. -/
def Obligations.MalformedRegisterAccessesChangeNothing : Prop :=
  ∀ (q : Requester) (off : BitVec 48) (n : Nat) (v : BitVec 64) (s : State),
    (n ≠ 8 ∨ off.toNat % 8 ≠ 0 → exec (.readClearRegister q off n) s = .next s ∧ exec (.registerWrite q off n v) s = .next s) ∧
    (∀ h : HartId, q = .hart h → (s.hart h).machineMode = false → exec (.registerWrite q off n v) s = .next s) ∧
    (∀ k : TileId, q = .shuttle k → off.toNat / 0x10000 ≠ k.toNat → exec (.registerWrite q off n v) s = .next s) ∧
    (0x9000000 ≤ off.toNat → off.toNat < 0x9010000 →
      ∃ t, exec (.registerWrite q off n v) s = .next t ∧ { t with regs := s.regs } = s ∧ otherRegs [] s t)

/-- A write by a requester that reaches it of a register of the NAND, Ethernet, resilience, security or global block sets
an RW field to the written bits, clears W1C bits and sets W1S bits written as 1, when the field takes that requester's
writes, and leaves every other field. A read of any register puts its RC fields to their reset value. No other
register but the fraction latched by a read of TIME_NOW, and nothing else, changes. -/
def Obligations.RegisterFieldsFollowTheirAccessCodes : Prop :=
  ∀ (q : Requester) (off : BitVec 48) (v : BitVec 64) (r : RegDesc) (f : FieldDesc) (s : State),
    regAt off.toNat = some r → f ∈ r.fields → off.toNat % 8 = 0 → s.reaches q off.toNat = true →
    let a := off.toNat
    let old := bitsOf (s.reg a) f.hi f.lo
    let new := bitsOf v f.hi f.lo
    (q ≠ .host → (blockAt a).map Prod.fst ∈ [some Block.nand, some .eth, some .ckpt, some .sec, some .glb] →
      ∃ t, exec (.registerWrite q off 8 v) s = .next t ∧ { t with regs := s.regs } = s ∧ otherRegs [a] s t ∧
        bitsOf (t.reg a) f.hi f.lo = (if writerOk q a f.acc then
          (match f.acc with | .rw => new | .w1c => old - Nat.land old new | .w1s => Nat.lor old new | _ => old) else old)) ∧
    ∃ t, exec (.readClearRegister q off 8) s = .next t ∧ { t with regs := s.regs } = s ∧ otherRegs [a, R.TIME_FRAC] s t ∧
      (a ≠ R.TIME_FRAC → bitsOf (t.reg a) f.hi f.lo = if f.acc = .rc then f.rst else old)

/-- A write by FBC0 or FBC1 of a window register sets its RW fields in both fabric dies' copies. A write by any other
requester that reaches it leaves both copies, adds one to FAB_WIN_REFUSED.WRITES of the die and raises ACCESS_BLOCKED.
KICK by a firmware processor restarts its watchdog period at the present time and changes no register. -/
def Obligations.FabricWindowWritesAndKicks : Prop :=
  ∀ (p : FwpId) (o : BitVec 24) (v now : BitVec 64) (s : State),
    let n := o.toNat % 0x400000
    let d := o.toNat % 0x800000 / 0x400000
    let a := 0x3000000 + o.toNat % 0x800000
    let b := if d = 0 then a + 0x400000 else a - 0x400000
    (0x1000 ≤ n → n < 0x1800 → n % 8 = 0 →
      (4 ≤ p.val → ∀ r f, regAt a = some r → f ∈ r.fields → f.acc = .rw →
        ∃ t, exec (.fabWindowWrite (.fw p) o v) s = .next t ∧ bitsOf (t.reg a) f.hi f.lo = bitsOf v f.hi f.lo ∧
          bitsOf (t.reg b) f.hi f.lo = bitsOf v f.hi f.lo ∧ otherRegs [a, b] s t ∧ { t with regs := s.regs } = s) ∧
      (p.val < 4 → (regAt a).isSome = true →
        ∃ t, exec (.fabWindowWrite (.fw p) o v) s = .next t ∧ t.reg a = s.reg a ∧ t.reg b = s.reg b ∧
          t.fld (F.FAB_WIN_REFUSED_WRITES.plus (dieBase d)) = (s.fld (F.FAB_WIN_REFUSED_WRITES.plus (dieBase d)) + 1) %
            2 ^ (F.FAB_WIN_REFUSED_WRITES.hi - F.FAB_WIN_REFUSED_WRITES.lo + 1) ∧
          raised s t (0x300 + 0x40 * d) St.accessBlocked [] false ∧ t.tiles = s.tiles ∧ t.mem = s.mem)) ∧
    ∃ t, exec (.kick p now) s = .next t ∧ Tab.find t.fw.kicked p.val = some (max s.clock.ns.toNat now.toNat) ∧ t.regs = s.regs ∧
      { t with clock := s.clock, fw := s.fw } = s

/-- A running hart that issues any FVX instruction while FVX is disabled, or with an invalid encoding, takes an illegal-
instruction exception: mcause 2, mepc at the instruction, the program counter at the trap vector, machine mode; vector
registers and the rest of the state stay. A running hart whose valid scalar load or store is not aligned to its size
takes an address-misaligned exception: mcause 4 for a load, 6 for a store, mtval the address, mepc the instruction;
nothing but the hart changes. The causes are those of the RISC-V privileged architecture (assumption log 36). -/
def Obligations.HartsTrap : Prop :=
  (∀ (op : FvxOp) (h : HartId) (f : FvxWord) (s : State),
    hartRuns s h = true → ((s.hart h).fvxOn && fvxOk op f) = false →
    ∃ t, exec (fvxInstr op h f) s = .next t ∧ (t.hart h).mcause = 2 ∧ (t.hart h).mepc = (s.hart h).pc ∧
      (t.hart h).pc = (s.hart h).mtvec / 4 * 4 ∧ (t.hart h).machineMode = true ∧ (t.hart h).v = (s.hart h).v ∧
      (t.hart h).x = (s.hart h).x ∧ (t.hart h).p = (s.hart h).p ∧ hartOnly h s t)
  ∧ (∀ (h : HartId) (i : CoreMem) (s : State),
    hartRuns s h = true →
    let x := s.hart h
    let a := x.xreg i.base + BitVec.signExtend 64 i.imm
    a.toNat % sizeBytes i.size ≠ 0 → (i.fp = true → x.fpOff = false) →
    (coreMemBad i false = false → ∃ t, exec (.coreLoad h i) s = .next t ∧ (t.hart h).mcause = 4 ∧ (t.hart h).mtval = a ∧
      (t.hart h).mepc = x.pc ∧ (t.hart h).x = x.x ∧ hartOnly h s t) ∧
    (coreMemBad i true = false → ∃ t, exec (.coreStore h i) s = .next t ∧ (t.hart h).mcause = 6 ∧ (t.hart h).mtval = a ∧
      (t.hart h).mepc = x.pc ∧ (t.hart h).x = x.x ∧ hartOnly h s t))

/-- For VADD, VSUB, VMUL, VMULH, VFMA, VMAX, VMIN, VNEG, VABS, VAND, VOR, VXOR, VNOT, VSHL, VSHR, VSRA, VEXP2, VLOG2, VRCP
and VRSQRT: a valid instruction of a running hart completes; element i of the destination group is the operation of
elements i of the sources when active, else 0 with Z and its old value without; other registers, predicates and the
state are unchanged and the program counter moves by 8. The elementwise FVX operations add to fvnsat the number of
active elements that saturated and to fvnflush the number of active elements that were flushed, each counter stopping
at its largest value. -/
def Obligations.FvxElementwise : Prop :=
  (∀ (op : FvxOp) (e : ElemOp) (h : HartId) (f : FvxWord) (s : State),
    fvxRuns s h op f = true → op.elem (fvxFmt f).isFloat = some e →
    let x := s.hart h
    let w := (fvxFmt f).bytes
    let n := fvxCount f
    writesLanes op h f s w n (fun i => masked x f w w n i
      (elem1 e (fvxFmt f) (f.sat == 1) (NMode.of f.nm.toNat) 0 (lane x f.va w n i) (lane x f.vb w n i) (lane x f.vc w n i)).1))
  ∧ (∀ (op : FvxOp) (e : ElemOp) (h : HartId) (f : FvxWord) (s : State),
    fvxRuns s h op f = true → op.elem (fvxFmt f).isFloat = some e →
    let x := s.hart h
    let w := (fvxFmt f).bytes
    let n := fvxCount f
    let ev := fun i => (elem1 e (fvxFmt f) (f.sat == 1) (NMode.of f.nm.toNat) 0 (lane x f.va w n i) (lane x f.vb w n i) (lane x f.vc w n i)).2
    let on := (List.range n).filter (x.active f.pg.toNat w)
    ∃ t, exec (fvxInstr op h f) s = .next t ∧
      (t.hart h).fvnsat.toNat = min (x.fvnsat.toNat + (on.filter (fun i => (ev i).sat)).length) (2 ^ 64 - 1) ∧
      (t.hart h).fvnflush.toNat = min (x.fvnflush.toNat + (on.filter (fun i => (ev i).flush)).length) (2 ^ 64 - 1))

/-- A valid VCLS counts leading sign bits per active element; VSEL takes A where active and B elsewhere; VSLIDE takes
element i + IMM of A, 0 beyond the group; VBCAST copies the scalar; VMVSX writes element IMM alone; VPERM picks bytes
of A by the byte indexes in B, 0 beyond the group; VCOMPRESS packs the active elements of A at the bottom and clears
the rest; VEXPAND spreads elements of A over the active places and keeps B elsewhere. Nothing else changes. A valid
VWMUL or VWMAC writes double-width products, added to the destination for VWMAC; VDOT adds the dot product of each
lane group; VFXMAC adds exact products into 128-bit accumulators; VCVT converts each element and VACCOUT each
accumulator to the second format. Each is predicated at the width that R330 gives it, and nothing else changes. -/
def Obligations.FvxMovesAndWideningOps : Prop :=
  (∀ (h : HartId) (f : FvxWord) (s : State),
    let x := s.hart h
    let w := (fvxFmt f).bytes
    let n := fvxCount f
    let a := lane x f.va w n
    let b := lane x f.vb w n
    let act := x.active f.pg.toNat w
    let scalar := (x.xreg f.va).toNat
    (fvxRuns s h .vcls f = true → writesLanes .vcls h f s w n (fun i => masked x f w w n i (clsBits (8 * w) (a i)))) ∧
    (fvxRuns s h .vsel f = true → writesLanes .vsel h f s w n (fun i => if act i then a i else b i)) ∧
    (fvxRuns s h .vslide f = true → writesLanes .vslide h f s w n (fun i => masked x f w w n i (a (i + f.imm.toNat)))) ∧
    (fvxRuns s h .vbcast f = true → writesLanes .vbcast h f s w n (fun i => masked x f w w n i scalar)) ∧
    (fvxRuns s h .vmvsx f = true → writesLanes .vmvsx h f s w n (fun i => if i = f.imm.toNat then scalar else lane x f.vd w n i)) ∧
    (fvxRuns s h .vperm f = true → writesLanes .vperm h f s 1 (64 * grp f) (fun i => masked x f 1 1 (64 * grp f) i
        (lane x f.va 1 (64 * grp f) (lane x f.vb 1 (64 * grp f) i)))) ∧
    (fvxRuns s h .vcompress f = true → writesLanes .vcompress h f s w n (fun i =>
        (((List.range n).filter act).map a).getD i 0)) ∧
    (fvxRuns s h .vexpand f = true → writesLanes .vexpand h f s w n (fun i =>
        if act i then a ((List.range i).filter act).length else b i)))
  ∧ (∀ (h : HartId) (f : FvxWord) (s : State),
    let x := s.hart h
    let fm := fvxFmt f
    let w := fm.bytes
    let n := fvxCount f
    let a := lane x f.va w n
    let b := lane x f.vb w n
    let sat := f.sat == 1
    let md := NMode.of f.nm.toNat
    let wide := (wideFmt fm).getD .i16
    let dot := (dotFmt fm).getD .i32
    let k := if fm = .i8 then 8 else if fm = .i16 then 4 else 2
    let m := 64 * grp f / dot.bytes
    let to2 := (fmt2Of f).getD .i8
    let e := signed 18 (x.xreg f.vb).toNat
    let out := (fmt2Of f).getD .fx64
    (fvxRuns s h .vwmul f = true → writesLanes .vwmul h f s wide.bytes n (fun i =>
        masked x f wide.bytes wide.bytes n i (wideLane fm wide sat md none (a i) (b i)).1)) ∧
    (fvxRuns s h .vwmac f = true → writesLanes .vwmac h f s wide.bytes n (fun i =>
        masked x f wide.bytes wide.bytes n i (wideLane fm wide sat md (some (lane x f.vd wide.bytes n i)) (a i) (b i)).1)) ∧
    (fvxRuns s h .vdot f = true → writesLanes .vdot h f s dot.bytes m (fun i =>
        masked x f dot.bytes dot.bytes m i (dotLane fm dot sat md (lane x f.vd dot.bytes m i)
          ((List.range k).map (fun j => lane x f.va w (m * k) (k * i + j))) ((List.range k).map (fun j => lane x f.vb w (m * k) (k * i + j)))).1)) ∧
    (fvxRuns s h .vfxmac f = true → writesLanes .vfxmac h f s 16 n (fun i => masked x f 16 16 n i
        (wrapN 128 (accAdd (signed 128 (lane x f.vd 16 n i)) (signed 64 (a i) * signed 64 (b i))).1))) ∧
    (fvxRuns s h .vcvt f = true → writesLanes .vcvt h f s to2.bytes n (fun i => masked x f (max w to2.bytes) to2.bytes n i
        (convertNum (some fm) to2 (if to2.isFx then e else 0) md (decodeNum fm (if fm.isFx && !to2.isFx then e else 0) (a i))).1)) ∧
    (fvxRuns s h .vaccout f = true → writesLanes .vaccout h f s out.bytes (8 * grp f) (fun i => masked x f 16 out.bytes (8 * grp f) i
        (convertNum none out (if out.isFx then e else 0) md
          (Num.ofInt (signed 128 (lane x f.va 16 (8 * grp f) i)) (if out.isFx then 0 else e))).1)))

/-- A valid VCMP on one register sets all predicate bits of each active element by its comparison, clears or keeps the
inactive ones by Z; VPAND, VPOR, VPXOR and VPNOT combine predicates bit by bit, P0 reading as all ones; VPWHILE sets
the elements below the scalar. Only the destination predicate and the program counter change. A valid VREDSUM writes
the sum of the active elements, VREDMAX and VREDMIN their extreme when one is active (else a free value), VMVXS
element IMM when it lies in the group (else a free value), VPCNT the number of active elements of a predicate; x0 is
never written. Vector and predicate registers and the rest of the state are unchanged, but for the event counters of
VREDSUM. -/
def Obligations.FvxPredicatesAndScalars : Prop :=
  (∀ (h : HartId) (f : FvxWord) (s : State),
    let x := s.hart h
    let w := (fvxFmt f).bytes
    let n := fvxCount f
    let holds := fun i => cmpHolds (fvxFmt f) f.imm.toNat (lane x f.va w n i) (lane x f.vb w n i)
    let writes := fun (op : FvxOp) (v : BitVec 64) => ∃ t, exec (fvxInstr op h f) s = .next t ∧ (t.hart h).pred f.vd.toNat = v ∧
      (∀ r, r ≠ f.vd.toNat → (t.hart h).pred r = x.pred r) ∧ (t.hart h).v = x.v ∧ (t.hart h).x = x.x ∧ (t.hart h).pc = x.pc + 8 ∧ hartOnly h s t
    (fvxRuns s h .vcmp f = true → grp f = 1 → writes .vcmp (predOf w (fun i =>
        if x.active f.pg.toNat w i then holds i else f.z == 0 && x.active f.vd.toNat w i))) ∧
    (fvxRuns s h .vcmp f = true → grp f ≠ 1 → ∃ v, writes .vcmp v) ∧
    (fvxRuns s h .vpand f = true → writes .vpand (x.pred f.va.toNat &&& x.pred f.vb.toNat)) ∧
    (fvxRuns s h .vpor f = true → writes .vpor (x.pred f.va.toNat ||| x.pred f.vb.toNat)) ∧
    (fvxRuns s h .vpxor f = true → writes .vpxor (x.pred f.va.toNat ^^^ x.pred f.vb.toNat)) ∧
    (fvxRuns s h .vpnot f = true → writes .vpnot (~~~ x.pred f.va.toNat)) ∧
    (fvxRuns s h .vpwhile f = true → writes .vpwhile (predOf w (fun i => decide (i < (x.xreg f.va).toNat)))))
  ∧ (∀ (h : HartId) (f : FvxWord) (s : State),
    let x := s.hart h
    let fm := fvxFmt f
    let w := fm.bytes
    let n := fvxCount f
    let on := ((List.range n).filter (x.active f.pg.toNat w)).map (lane x f.va w n)
    let writes := fun (op : FvxOp) (v : BitVec 64 → Prop) => ∃ t, exec (fvxInstr op h f) s = .next t ∧
      (f.vd ≠ 0 → v ((t.hart h).xreg f.vd)) ∧ (∀ r : BitVec 5, r ≠ f.vd → (t.hart h).xreg r = x.xreg r) ∧ (t.hart h).xreg 0 = 0 ∧
      (t.hart h).v = x.v ∧ (t.hart h).p = x.p ∧ (t.hart h).pc = x.pc + 8 ∧ hartOnly h s t
    (fvxRuns s h .vredsum f = true → writes .vredsum (fun v => v = elemToX fm (rowSum fm (f.sat == 1) (NMode.of f.nm.toNat) on).1)) ∧
    (fvxRuns s h .vredmax f = true → writes .vredmax (fun v => on ≠ [] → v = elemToX fm (rowMax fm false on))) ∧
    (fvxRuns s h .vredmin f = true → writes .vredmin (fun v => on ≠ [] → v = elemToX fm (rowMax fm true on))) ∧
    (fvxRuns s h .vmvxs f = true → writes .vmvxs (fun v => f.imm.toNat < n → v = elemToX fm (lane x f.va w n f.imm.toNat))) ∧
    (fvxRuns s h .vpcnt f = true → writes .vpcnt (fun v =>
        v = BitVec.ofNat 64 ((List.range (64 / w)).filter (x.active f.va.toNat w)).length)))

/-- For VLD, VLDS, VLDX, VLDSEG and VLDBC: when every active element is aligned and lies in readable memory of the node,
the instruction completes; each active element of the destination holds the bytes at its address, little-endian, and
an inactive one is 0 with Z and keeps its value without. Memory and everything else are unchanged. -/
def Obligations.FvxLoadsFromOwnMemory : Prop :=
  ∀ (op : FvxOp) (h : HartId) (f : FvxWord) (s : State),
    fvxRuns s h op f = true → op.loads = true →
    let x := s.hart h
    let w := fvxW f
    let n := 64 * grp f / w
    let slots := x.fvxSlots op f
    let addr := fun j => if op = .vldbc then x.fvxAddr op f 0 0 else x.fvxAddr op f (j / n) (j % n)
    (∀ j ∈ slots, (addr j).toNat % w = 0) → ownEls s h (slots.flatMap (fun j => elParts (addr j) w)) = true →
    writesLanes op h f s w (fvxNf op f * n) (fun j =>
      if slots.contains j then memValue s (addr j) w else if f.z = 1 then 0 else lane x f.vd w (fvxNf op f * n) j)

/-- For VST, VSTS, VSTX and VSTSEG: when every active element is aligned and lies in memory of the node, the instruction
completes; every byte of the node's memory is what the stores of the active elements, in ascending order, leave there,
all other bytes read as before, and registers other than the program counter are unchanged. An aligned VLDP loads a
predicate from, and VSTP stores one to, the 8 bytes at the scalar plus 8 times IMM; an aligned VCAS on the node's
memory returns the old 8 or 16 bytes in the low bytes of its destination and stores the new ones only when the old
equal the compare value. No other byte of memory changes. -/
def Obligations.FvxStores : Prop :=
  (∀ (op : FvxOp) (h : HartId) (f : FvxWord) (s : State),
    fvxRuns s h op f = true → op.stores = true → cachesInDram s = true → memoriesWf s →
    let x := s.hart h
    let w := fvxW f
    let n := 64 * grp f / w
    let slots := x.fvxSlots op f
    let addr := fun j => x.fvxAddr op f (j / n) (j % n)
    let els := slots.flatMap (fun j => elParts (addr j) w)
    (∀ j ∈ slots, (addr j).toNat % w = 0) → ownEls s h els = true →
    ∃ t, exec (fvxInstr op h f) s = .next t ∧
      memoryAfter s t (storedBytes els (slots.flatMap (fun j => leBytes w (lane x f.vd w (fvxNf op f * n) j)))) ∧
      (t.hart h).pc = x.pc + 8 ∧ (t.hart h).v = x.v ∧ (t.hart h).x = x.x ∧ (t.hart h).p = x.p ∧ memoryAndHart h s t)
  ∧ (∀ (h : HartId) (f : FvxWord) (s : State),
    cachesInDram s = true → memoriesWf s →
    let x := s.hart h
    let a := x.xreg f.va + BitVec.ofInt 64 (8 * f.imm.toInt)
    let c := x.xreg f.va
    let n := if f.imm = 1 then 16 else 8
    let old := s.bytes (localAddr c) n
    (fvxRuns s h .vldp f = true → a.toNat % 8 = 0 → ownEls s h [⟨a, 8⟩] = true →
      ∃ t, exec (.vldp h f) s = .next t ∧ ((t.hart h).pred f.vd.toNat).toNat = leNat (s.bytes (localAddr a) 8) ∧
        (t.hart h).v = x.v ∧ (t.hart h).pc = x.pc + 8 ∧ hartOnly h s t) ∧
    (fvxRuns s h .vstp f = true → a.toNat % 8 = 0 → ownEls s h [⟨a, 8⟩] = true →
      ∃ t, exec (.vstp h f) s = .next t ∧ memoryAfter s t (storedBytes [⟨a, 8⟩] (leBytes 8 (x.pred f.vd.toNat).toNat)) ∧
        (t.hart h).pc = x.pc + 8 ∧ memoryAndHart h s t) ∧
    (fvxRuns s h .vcas f = true → c.toNat % n = 0 → ownEls s h [⟨c, n⟩] = true →
      ∃ t, exec (.vcas h f) s = .next t ∧ ((t.hart h).vbytes f.vd.toNat 1).take n = old ∧
        memoryAfter s t (if leNat old = leNat ((x.vbytes f.vb.toNat 1).take n) then storedBytes [⟨c, n⟩] ((x.vbytes f.vc.toNat 1).take n) else []) ∧
        (t.hart h).pc = x.pc + 8 ∧ memoryAndHart h s t))

/-- A valid, aligned CORE_LOAD from readable memory of the node (for an f register with mstatus.FS on, assumption log 23)
completes: an x register receives the value sign- or zero-extended (x0 stays 0), an f register the 32 bits, a halfword
NaN-boxed; no other register and nothing of memory changes, and the program counter moves by the instruction length. A
valid, aligned CORE_STORE to memory of the node (of an f register with mstatus.FS on, assumption log 23) completes:
the bytes at its address are the low bytes of its register, least significant first; every other byte reads as before,
no register but the program counter changes, and reservations on the line are lost. -/
def Obligations.CoreLoadsAndStores : Prop :=
  (∀ (h : HartId) (i : CoreMem) (s : State),
    hartRuns s h = true → coreMemBad i false = false →
    let x := s.hart h
    let a := x.xreg i.base + BitVec.signExtend 64 i.imm
    let n := sizeBytes i.size
    let d := s.bytes (localAddr a) n
    a.toNat % n = 0 → ownEls s h [⟨a, n⟩] = true → (i.fp = true → x.fpOff = false) →
    ∃ t, exec (.coreLoad h i) s = .next t ∧
      (i.fp = false → i.reg ≠ 0 → (t.hart h).xreg i.reg = if i.signed then BitVec.ofInt 64 (signed (8 * n) (leNat d)) else BitVec.ofNat 64 (leNat d)) ∧
      (i.fp = true → Tab.get (fun _ => 0) (t.hart h).f i.reg.toNat = BitVec.ofNat 32 (if i.size = .h then 0xFFFF0000 + leNat d else leNat d)) ∧
      (∀ r : BitVec 5, i.fp = true ∨ r ≠ i.reg → (t.hart h).xreg r = x.xreg r) ∧
      (∀ r, i.fp = false ∨ r ≠ i.reg.toNat → Tab.get (fun _ => 0) (t.hart h).f r = Tab.get (fun _ => 0) x.f r) ∧
      (t.hart h).v = x.v ∧ (t.hart h).pc = x.pc + BitVec.ofNat 64 (coreLen i) ∧ hartOnly h s t)
  ∧ (∀ (h : HartId) (i : CoreMem) (s : State),
    hartRuns s h = true → coreMemBad i true = false → cachesInDram s = true → memoriesWf s →
    let x := s.hart h
    let a := x.xreg i.base + BitVec.signExtend 64 i.imm
    let n := sizeBytes i.size
    let v := if i.fp then (Tab.get (fun _ => 0) x.f i.reg.toNat).toNat else (x.xreg i.reg).toNat
    a.toNat % n = 0 → ownEls s h [⟨a, n⟩] = true → (i.fp = true → x.fpOff = false) →
    ∃ t, exec (.coreStore h i) s = .next t ∧ memoryAfter s t (storedBytes [⟨a, n⟩] (leBytes n v)) ∧
      (t.hart h).pc = x.pc + BitVec.ofNat 64 (coreLen i) ∧ (t.hart h).x = x.x ∧ (t.hart h).f = x.f ∧ (t.hart h).v = x.v ∧ memoryAndHart h s t)

/-- An aligned AMO on the node's memory returns the sign-extended old value and stores the result of its operation; LR
from DRAM returns the value and reserves; SC with the matching reservation stores and returns 0; without it SC stores
nothing and returns 1. After SC no reservation is left, and no other byte of memory changes. -/
def Obligations.CoreAtomicsOnOwnMemory : Prop :=
  ∀ (h : HartId) (i : AmoInst) (s : State),
    hartRuns s h = true → cachesInDram s = true → memoriesWf s →
    let x := s.hart h
    let a := x.xreg i.rs1
    let n := if i.dword then 8 else 4
    let old := leNat (s.bytes (localAddr a) n)
    let v := (x.xreg i.rs2).toNat
    a.toNat % n = 0 → ownEls s h [⟨a, n⟩] = true →
    let ends := fun (c : Instr) (l : List (Nat × Byte)) (res : BitVec 64) (t : State) => exec c s = .next t ∧ memoryAfter s t l ∧
      (i.rd ≠ 0 → (t.hart h).xreg i.rd = res) ∧ (∀ r : BitVec 5, r ≠ i.rd → (t.hart h).xreg r = x.xreg r) ∧ (t.hart h).pc = x.pc + 4 ∧
      memoryAndHart h s t
    (∃ t, ends (.amo h i) (storedBytes [⟨a, n⟩] (leBytes n (amoResult (8 * n) i.op old (v % 2 ^ (8 * n))))) (signExt (8 * n) old) t) ∧
    (localAddr a < sramWindow →
      (∃ t, ends (.lrSc h false i) [] (signExt (8 * n) old) t ∧ (t.hart h).resv = some (localAddr a, n)) ∧
      (x.resv = some (localAddr a, n) → ∃ t, ends (.lrSc h true i) (storedBytes [⟨a, n⟩] (leBytes n v)) 0 t ∧ (t.hart h).resv = none) ∧
      (x.resv ≠ some (localAddr a, n) → ∃ t, ends (.lrSc h true i) [] 1 t ∧ (t.hart h).resv = none))

/-- A running hart in machine mode that executes WFI moves its program counter by 4 and waits, and a running thread of a
core in which another is ready becomes ready at the end of its time slice; in both the core starts the first ready
thread after it and counts one switch. No other hart, and nothing but harts, the running threads and the switch count,
changes. Every access of a hart is complete when its next instruction runs, so a FENCE changes nothing but the program
counter of its hart. -/
def Obligations.ThreadsAndFence : Prop :=
  (∀ (h : HartId) (s : State), hartRuns s h = true →
    let parks := R.CPU_CORE_PARKS + 8 * coreOf h
    let rest := fun (t : State) => { t with harts := s.harts, running := s.running, regs := s.regs } = s ∧ otherRegs [parks] s t
    ((s.hart h).machineMode = true →
      ∃ t, exec (.coreWfi h) s = .next t ∧ hartLeaves s t h { s.hart h with pc := (s.hart h).pc + 4, st := .wfi } ∧ rest t) ∧
    ((∀ k, coreOf k = coreOf h → k ≠ h → (s.hart k).st ≠ .running) → nextThread s h ≠ none →
      ∃ t, exec (.threadTimeslice (BitVec.ofNat 7 (coreOf h))) s = .next t ∧ hartLeaves s t h { s.hart h with st := .ready } ∧ rest t))
  ∧ (∀ (h : HartId) (p q : BitVec 4) (s : State), hartRuns s h = true →
    ∃ t, exec (.fence h p q) s = .next t ∧ t.hart h = { s.hart h with pc := (s.hart h).pc + 4 } ∧ hartOnly h s t)

/-- In machine mode CSRRW and its immediate form write bit 0 to fvctl; with FVX enabled CSRRW, CSRRS and CSRRC write, set
and clear the bits of fvnsat and fvnflush, and every form returns the old value in rd; fcsr holds frm and fflags. A
write of the read-only fvrstat, a user-mode access of fvctl, fvnsat with FVX disabled and fcsr with mstatus.FS off
(assumption log 23) raise an illegal-instruction exception. -/
def Obligations.CsrAccessReadsAndWrites : Prop :=
  ∀ (h : HartId) (i : CsrInst) (s : State), hartRuns s h = true →
    let x := s.hart h
    let v := if i.useImm then BitVec.setWidth 64 i.rs1 else x.xreg i.rs1
    let new := fun (old : BitVec 64) => match i.op with | .rw => v | .rs => old ||| v | .rc => old &&& ~~~v
    let writes := i.op = .rw ∨ i.rs1 ≠ 0
    let done := fun (t : State) (old : BitVec 64) => exec (.fvxCsrAccess h i) s = .next t ∧ (t.hart h).pc = x.pc + 4 ∧
      (i.rd ≠ 0 → (t.hart h).xreg i.rd = old) ∧ (∀ r : BitVec 5, r ≠ i.rd → (t.hart h).xreg r = x.xreg r) ∧
      (t.hart h).v = x.v ∧ (t.hart h).p = x.p ∧ hartOnly h s t
    let trap := ∃ t, exec (.fvxCsrAccess h i) s = .next t ∧ (t.hart h).mcause = 2 ∧ (t.hart h).mepc = x.pc ∧ (t.hart h).x = x.x ∧ hartOnly h s t
    (i.csr = 0x7C0 → x.machineMode = true → ∃ t, done t x.fvctl ∧
      (t.hart h).fvctl = (if writes then new x.fvctl &&& 1 else x.fvctl) ∧ (t.hart h).fvnsat = x.fvnsat) ∧
    (i.csr = 0x800 → x.fvxOn = true → ∃ t, done t x.fvnsat ∧ (t.hart h).fvnsat = (if writes then new x.fvnsat else x.fvnsat) ∧ (t.hart h).fvctl = x.fvctl) ∧
    (i.csr = 0x801 → x.fvxOn = true → ∃ t, done t x.fvnflush ∧ (t.hart h).fvnflush = (if writes then new x.fvnflush else x.fvnflush) ∧ (t.hart h).fvctl = x.fvctl) ∧
    (i.csr = 0xCC1 → ¬writes → ∃ t, done t s.clock.ns) ∧
    (i.csr = 0x003 → x.fpOff = false → ∃ t, done t x.fcsr ∧ (t.hart h).fcsr = (if writes then new x.fcsr &&& 0xFF else x.fcsr)) ∧
    (i.csr = 0x003 → x.fpOff = true → trap) ∧
    (i.csr = 0xCC0 → writes → trap) ∧
    (i.csr = 0x7C0 → x.machineMode = false → trap) ∧
    (i.csr = 0x800 → x.fvxOn = false → trap)

/-- A running hart whose 8-byte AMO addresses a node outside the coherence domain, through a window that allows it and a
live path, sends one ATOM request on VC4 whose payload is SEQ, the operation, the operand and no compare value; the
SEQ of that target advances by one, and the thread parks until the reply. A 4-byte AMO raises an access fault with
BAD_DESCRIPTOR instead, and so does a misaligned one with cause 6. -/
def Obligations.RemoteAmoSendsAtom : Prop :=
  ∀ (h : HartId) (i : AmoInst) (s : State), hartRuns s h = true →
    let x := s.hart h
    let a := x.xreg i.rs1
    let n : NodeId := BitVec.ofNat 14 (bitsOf a 61 48)
    let seq := Tab.get (fun _ => 0) s.atomSeq n.toNat
    let v := (x.xreg i.rs2).toNat
    let d := leBytes 4 seq.toNat ++ leBytes 1 (amoAop i.op) ++ zeros 3 ++ leBytes 8 v ++ leBytes 8 0
    bitsOf a 63 62 = 0 → s.isLocal n = false → (s.inDomain n = false ∨ sramWindow ≤ localAddr a) →
    (a.toNat % 8 = 0 → i.dword = true → s.replaying = false → s.flights (coreOf h) < 64 → (s.mustSync = false ∨ n ∈ s.synced) →
      canAsk s n 4 3 (localAddr a) 24 = true →
      ∃ t, exec (.remoteAmo h i) s = .next t ∧ asked s t (.hart h) n 4 3 (localAddr a) 24 d ∧
        Tab.get (fun _ => 0) t.atomSeq n.toNat = seq + 1 ∧
        hartLeaves s t h { x with st := .parked, park := some ⟨.amo i, [s.nextTag], [], []⟩, remoteCount := x.remoteCount + 1 } ∧
        t.mem = s.mem ∧ t.tiles = s.tiles) ∧
    (a.toNat % 8 = 0 → i.dword = false →
      ∃ t, exec (.remoteAmo h i) s = .next t ∧ (t.hart h).mcause = 7 ∧ (t.hart h).fvrstat = 2 ∧ (t.hart h).mepc = x.pc ∧ hartOnly h s t) ∧
    (a.toNat % (if i.dword then 8 else 4) ≠ 0 →
      ∃ t, exec (.remoteAmo h i) s = .next t ∧ (t.hart h).mcause = 6 ∧ (t.hart h).mepc = x.pc ∧ hartOnly h s t)

/-- When every reply of a load that a parked thread issued to another node, outside the coherence domain, has arrived
without failure, THREAD_RESUME writes the register, moves the program counter, and the thread runs if no other thread
of its core does, else becomes ready; a thread that waits in WFI likewise becomes ready or runs. A failed reply raises
the load access exception of Table 8-2 with its status. Memory is unchanged. -/
def Obligations.ThreadResumeCompletesItsInstruction : Prop :=
  ∀ (h : HartId) (s : State), s.ready 12 = true →
    let x := s.hart h
    let idle := (List.range 8).all (fun i => (s.hart (hartOf (coreOf h) i)).st != .running && (s.hart (hartOf (coreOf h) i)).st != .ready)
    let up := fun (t : State) => (t.hart h).st = (if idle then .running else .ready)
    let busy := (List.range 8).any (fun i => (s.hart (hartOf (coreOf h) i)).st == .running)
    (idle = true ∨ busy = true) →
    (x.st = .wfi → ∃ t, exec (.threadResume h) s = .next t ∧ up t ∧ (t.hart h).pc = x.pc ∧ (t.hart h).x = x.x ∧ t.mem = s.mem) ∧
    (∀ (i : CoreMem) (got : List Host.Cell) (fails : List (Nat × Nat × Status)),
      x.st = .parked → x.park = some ⟨.load i, [], got, fails⟩ → coreMemBad i false = false → i.fp = false → s.replaying = false →
      let a := x.xreg i.base + BitVec.signExtend 64 i.imm
      let n : NodeId := BitVec.ofNat 14 (bitsOf a 61 48)
      let w := sizeBytes i.size
      let key := farKey n (localAddr a)
      let d := (List.range w).map (fun j => (Tab.find got (key + j)).getD 0)
      bitsOf a 63 62 = 0 → s.isLocal n = false → s.inDomain n = false → a.toNat % w = 0 →
      (fails = [] → (∀ j, j < w → (Tab.find got (key + j)).isSome = true) →
        ∃ t, exec (.threadResume h) s = .next t ∧ up t ∧ (t.hart h).pc = x.pc + BitVec.ofNat 64 (coreLen i) ∧ (t.hart h).park = none ∧
          (i.reg ≠ 0 → (t.hart h).xreg i.reg = if i.signed then BitVec.ofInt 64 (signed (8 * w) (leNat d)) else BitVec.ofNat 64 (leNat d)) ∧
          t.mem = s.mem ∧ t.outbox = s.outbox) ∧
      (∀ st : Status, fails = [(key, w, st)] →
        ∃ t, exec (.threadResume h) s = .next t ∧ up t ∧ (t.hart h).mcause = BitVec.ofNat 64 (accessCause true st) ∧
          (t.hart h).mtval = a ∧ (t.hart h).mepc = x.pc ∧ (t.hart h).fvrstat = BitVec.setWidth 64 st ∧ (t.hart h).x = x.x ∧ t.mem = s.mem))

/-- When a firmware processor writes CPU_START with GO set while STARTED is 0 and the processor die is in service, STARTED
reads 1 and ADDR the written bits; every hart has the program counter ADDR times 4 and machine mode; thread 0 of each
core runs and the others are ready. With STARTED already 1 no hart changes. -/
def Obligations.GoStartsAllHarts : Prop :=
  ∀ (p : FwpId) (v : BitVec 64) (s : State), bitN v.toNat 0 = true → s.ready 12 = true →
    (s.bit F.CPU_START_STARTED = false →
      ∃ t, exec (.cpuStartGo (.fw p) v) s = .next t ∧ t.bit F.CPU_START_STARTED = true ∧ t.fld F.CPU_START_ADDR = v.toNat / 4 ∧
        (∀ h : HartId, t.hart h =
          { s.hart h with pc := BitVec.ofNat 64 (v.toNat / 4 * 4), machineMode := true, st := if threadOf h = 0 then .running else .ready }) ∧
        otherRegs [R.CPU_START] s t ∧ { t with regs := s.regs, harts := s.harts, running := s.running } = s) ∧
    (s.bit F.CPU_START_STARTED = true → ∃ t, exec (.cpuStartGo (.fw p) v) s = .next t ∧ { t with regs := s.regs } = s ∧ otherRegs [R.CPU_START] s t)

/-- With no write-combining entry, no modified line and nothing held or poisoned, a write whose every byte is mapped and
in service leaves each of its bytes as written and every other byte of the node as before, through the write-combining
buffers or past them; registers, tiles and cores but for reservations stay. A write with an unmapped or offline byte
changes nothing at all. -/
def Obligations.MemWriteStoresItsBytes : Prop :=
  ∀ (a : BitVec 48) (d : List Byte) (s : State),
    (memQuiet s = true → memoriesWf s → s.wcb = [] → s.memStatus a.toNat d.length = St.ok →
      ∃ t, exec (.memWrite a d) s = .next t ∧ memoryAfter s t (storedBytes [⟨BitVec.ofNat 64 a.toNat, d.length⟩] d) ∧
        { t with mem := s.mem, wcb := s.wcb, heldWrites := s.heldWrites, harts := s.harts, resil := s.resil } = s ∧
        ∀ h : HartId, { t.hart h with resv := none } = { s.hart h with resv := none }) ∧
    (s.memStatus a.toNat d.length ≠ St.ok → exec (.memWrite a d) s = .next s)

/-- A read of memory in service, with nothing modified in a cache, held or poisoned, changes no byte. Of DRAM: a clean
read changes nothing; a corrected error adds one to MEM_ECC.CORR of the sector's controller; an uncorrectable one adds
one to UNCORR, poisons the sector, sets MEM_STAT.ERR and raises UNCORRECTABLE with the sector's address, and where
VALID was clear MEM_ERR_ADDR then names the sector. Of SRAM the tile counts it in MON_SRAM_ECC. A read of unmapped or
offline memory changes nothing. A patrol read of a DRAM sector of its controller, while MRC is in service and PERIOD
is not 0, counts a corrected error and, at the end of a pass, the pass. MEM_CE_RATE raises one event when the present
second's count exceeds CE_LIMIT and none has been raised in it. A stack reading above 85 degrees sets HOT_REFRESH, one
below 82 clears it, one between keeps it; MEM_TEMP shows the reading. MEM_TRAINING_LOST sets FAILED and clears READY
of the controller and clears its readiness bit; a fatal event from the controller is recorded, whose code the manual
does not give (assumption log 9), and GLB_FATAL becomes valid. No other readiness bit and no byte of a memory that
stays in service changes. -/
def Obligations.MemoryErrors : Prop :=
  (∀ (a : BitVec 48) (n : Nat) (obs : EccObs) (s : State),
    let c := ctrlOf a.toNat
    let u := eccUnit a.toNat
    let tile := sramTile a.toNat
    let reads := fun (o : EccObs) (t : State) => exec (.memRead a n o) s = .next t ∧ sameMemory s t
    (memQuiet s = true → 0 < n → s.memStatus a.toNat n = St.ok → a.toNat < sramWindow →
      reads .clean s ∧
      (∃ t, reads .corrected t ∧ t.fld (cfld c F.MEM_ECC_CORR) = (s.fld (cfld c F.MEM_ECC_CORR) + 1) % 2 ^ 32 ∧ t.poison = s.poison ∧
        (s.bit (cfld c F.MEM_ERR_ADDR_VALID) = false → t.bit (cfld c F.MEM_ERR_ADDR_VALID) = true ∧
          t.bit (cfld c F.MEM_ERR_ADDR_UNC) = false ∧ t.fld (cfld c F.MEM_ERR_ADDR_ADDR) = u) ∧
        otherRegs [R.MEM_ECC + ctrlBase c, R.MEM_ERR_ADDR + ctrlBase c] s t) ∧
      (∃ t, reads .uncorrectable t ∧ t.fld (cfld c F.MEM_ECC_UNCORR) = (s.fld (cfld c F.MEM_ECC_UNCORR) + 1) % 2 ^ 32 ∧ t.poison = [u] ∧
        t.bit (cfld c F.MEM_STAT_ERR) = true ∧ raised s t (ctrlSrc c) St.uncorrectable (leBytes 6 u) false ∧
        (s.bit (cfld c F.MEM_ERR_ADDR_VALID) = false → t.bit (cfld c F.MEM_ERR_ADDR_VALID) = true ∧
          t.bit (cfld c F.MEM_ERR_ADDR_UNC) = true ∧ t.fld (cfld c F.MEM_ERR_ADDR_ADDR) = u))) ∧
    (memQuiet s = true → 0 < n → s.memStatus a.toNat n = St.ok → sramWindow ≤ a.toNat →
      (∃ t, reads .corrected t ∧ t.fld (tfld tile F.MON_SRAM_ECC_CORR) = (s.fld (tfld tile F.MON_SRAM_ECC_CORR) + 1) % 2 ^ 32 ∧ t.poison = []) ∧
      (∃ t, reads .uncorrectable t ∧ t.fld (tfld tile F.MON_SRAM_ECC_UNCORR) = (s.fld (tfld tile F.MON_SRAM_ECC_UNCORR) + 1) % 2 ^ 32 ∧ t.poison = [u])) ∧
    (s.memStatus a.toNat n ≠ St.ok → exec (.memRead a n obs) s = .next s))
  ∧ (∀ (s : State),
    (∀ (c : CtrlId) (a : BitVec 48) (last : Bool), s.fld (cfld c F.MEM_SCRUB_PERIOD) ≠ 0 → s.ready 2 = true →
      s.memStatus a.toNat 1 = St.ok → a.toNat < sramWindow → ctrlOf a.toNat = c → eccUnit a.toNat ∉ s.poison →
      ∃ t, exec (.patrolScrub c a .corrected last) s = .next t ∧
        t.fld (cfld c F.MEM_ECC_CORR) = (s.fld (cfld c F.MEM_ECC_CORR) + 1) % 2 ^ 32 ∧
        t.fld (cfld c F.MEM_SCRUB_PASSES) = (s.fld (cfld c F.MEM_SCRUB_PASSES) + (if last then 1 else 0)) % 2 ^ 32 ∧
        sameMemory s t ∧ t.poison = s.poison) ∧
    (∀ (c : CtrlId) (n : Nat), Tab.find s.ceCount c.val = some (s.clock.ns.toNat / 1000000000, n, false) →
      (s.fld (cfld c F.MEM_SCRUB_CE_LIMIT) < n →
        ∃ t, exec (.memCeRate c) s = .next t ∧ raised s t (ctrlSrc c) St.memCeRate [] false ∧
          Tab.find t.ceCount c.val = some (s.clock.ns.toNat / 1000000000, n, true) ∧ exec (.memCeRate c) t = .next t ∧ sameMemory s t) ∧
      (n ≤ s.fld (cfld c F.MEM_SCRUB_CE_LIMIT) → exec (.memCeRate c) s = .next s)) ∧
    (∀ (k : Fin 12) (temp : Int),
      let c : CtrlId := Fin.ofNat 44 k.val
      ∃ t, exec (.hbmTempRead k temp) s = .next t ∧ t.fld (cfld c F.MEM_TEMP_TEMP) = wrapN 16 temp ∧
        t.bit (cfld c F.MEM_STAT_HOT_REFRESH) =
          (decide (1360 < temp) || (s.bit (cfld c F.MEM_STAT_HOT_REFRESH) && decide (1312 ≤ temp))) ∧
        otherRegs [R.MEM_TEMP + ctrlBase c, R.MEM_STAT + ctrlBase c] s t ∧ { t with regs := s.regs } = s))
  ∧ (∀ (c : CtrlId) (s : State), s.lpReady = false →
    ∃ t e, exec (.memTrainingLost c) s = .next t ∧ t.bit (cfld c F.MEM_STAT_FAILED) = true ∧ t.bit (cfld c F.MEM_STAT_READY) = false ∧
      (∀ n, n < 64 → t.ready n = (s.ready n && n != 20 + c.val)) ∧ t.bit F.GLB_FATAL_VALID = true ∧
      t.rings.bsc.getLast? = some e ∧ e.fatal = true ∧ e.source = BitVec.ofNat 16 (ctrlSrc c) ∧ sameMemory s t ∧ t.tiles = s.tiles)

/-- WCB_ENTRY_DRAIN empties every entry of a controller allocated at least 1 microsecond before and keeps the others; the
DRAIN bit of MEM_WCB empties the whole buffer. With nothing poisoned, modified or held, every byte of the node reads
as before, and of the registers only MEM_WCB may change. -/
def Obligations.DrainingChangesNoByte : Prop :=
  ∀ (c : CtrlId) (now v : BitVec 64) (p : FwpId) (s : State), memQuiet s = true → memoriesWf s → wcbOk s c → bitN v.toNat 0 = true →
    let time := max s.clock.ns.toNat now.toNat
    let rest := fun (t : State) => sameMemory s t ∧ otherRegs [R.MEM_WCB + ctrlBase c] s t ∧
      (∀ k, k ≠ c → t.wcbOf k = s.wcbOf k) ∧ t.tiles = s.tiles ∧ t.harts = s.harts
    (∃ t, exec (.wcbEntryDrain c now) s = .next t ∧
      t.wcbOf c = (s.wcbOf c).filter (fun e => decide (time < e.born + 1000)) ∧ rest t) ∧
    ∃ t, exec (.drain (.fw p) c v) s = .next t ∧ t.wcbOf c = [] ∧ rest t

/-- With the controller ready, a write of blocks inside the requester's region stores its bytes at block 4,096 times the
address and no others, and counts them; a write with READ_ONLY set, or with less than 1 % of spare blocks, which sets
READ_ONLY, and a request outside the region store nothing and set ERR. A read counts a retry in RETRIES; one that
cannot be corrected counts in UNCORR and sets ERR. -/
def Obligations.NandReadsAndWrites : Prop :=
  ∀ (p : FlashReq) (lba n : Nat) (d : List Byte) (s : State), s.bit F.NAND_STAT_READY = true → s.flash.wf = true →
    let ok := s.flashStatus p lba (ceilDiv d.length 4096) = St.ok
    let keeps := fun (t : State) => t.flash = s.flash ∧ t.flashBytes = s.flashBytes ∧ { t with regs := s.regs } = s
    (ok → s.fld F.NAND_WEAR_SPARE ≠ 0 → s.bit F.NAND_STAT_READ_ONLY = false →
      ∃ t, exec (.nandWrite p lba d) s = .next t ∧ (∀ i, i < d.length → t.flash.read (lba * 4096 + i) = d.getD i 0) ∧
        (∀ b, b < lba * 4096 ∨ lba * 4096 + d.length ≤ b → t.flash.read b = s.flash.read b) ∧
        t.flashBytes = s.flashBytes + d.length ∧ otherRegs [R.NAND_WEAR] s t ∧
        { t with regs := s.regs, flash := s.flash, flashBytes := s.flashBytes } = s) ∧
    (s.fld F.NAND_WEAR_SPARE = 0 → ∃ t, exec (.nandWrite p lba d) s = .next t ∧ t.bit F.NAND_STAT_READ_ONLY = true ∧
      t.bit F.NAND_STAT_ERR = true ∧ keeps t) ∧
    (s.bit F.NAND_STAT_READ_ONLY = true ∨ ¬ok → ∃ t, exec (.nandWrite p lba d) s = .next t ∧ t.bit F.NAND_STAT_ERR = true ∧ keeps t) ∧
    (s.flashStatus p lba n = St.ok →
      (∃ t, exec (.nandRead p lba n true false) s = .next t ∧
        t.fld F.NAND_ECC_RETRIES = (s.fld F.NAND_ECC_RETRIES + 1) % 2 ^ 32 ∧ otherRegs [R.NAND_ECC] s t ∧ keeps t) ∧
      exec (.nandRead p lba n false false) s = .next s ∧
      ∃ t, exec (.nandRead p lba n false true) s = .next t ∧
        t.fld F.NAND_ECC_UNCORR = (s.fld F.NAND_ECC_UNCORR + 1) % 2 ^ 32 ∧ t.bit F.NAND_STAT_ERR = true ∧ keeps t) ∧
    (s.flashStatus p lba n ≠ St.ok → ∃ t, exec (.nandRead p lba n false false) s = .next t ∧ t.bit F.NAND_STAT_ERR = true ∧ keeps t)

/-- EISSUE of a running shuttle with a valid engine code and a 64-byte aligned SRAM address appends the 64 bytes there to
the queue with the next ticket, returns that ticket in rd and retires, when the queue has room and no digest bank
stalls it; with the queue full the shuttle waits at the instruction. Nothing outside the tile changes but the copy
queue's TICKET field. EISSUE with an engine code above 7 traps with cause 2, with a misaligned address with cause 4,
with an address beyond SRAM with cause 5. EWAIT on a ticket that has not been issued traps with cause 25 and on one
older than the 64 most recent with cause 24; TVAL is the ticket. -/
def Obligations.Eissue : Prop :=
  (∀ (k : TileId) (i : RInst) (s : State), shuttleFree s k 4 = true → s.haltedNode = false →
    let x := s.tile k
    let a := (x.xreg i.rs1).toNat
    let code := i.funct7.toNat
    let d := s.sram k a 64
    let n := BitVec.ofNat 32 (x.tickets code)
    code < 8 → a % 64 = 0 → a < 0x800000 →
    (x.room code = true → (descDg code d && x.bankStall) = false →
      ∃ t, exec (.eissue k i) s = .next t ∧ shuttleWrites x (t.tile k) i.rd n ∧ (t.tile k).pc = x.pc + 4 ∧ (t.tile k).waiting = none ∧
        (t.tile k).tickets code = x.tickets code + 1 ∧
        (code < 4 → (t.tile k).queue code = x.queue code ++ [⟨n, d, s.sramBad k a 64, if descDg code d then some x.openBank else none⟩]) ∧
        (4 ≤ code → (t.tile k).copyQ (code - 4) = x.copyQ (code - 4) ++ [⟨n, d, s.sramBad k a 64, .queued, St.ok, false, 0, [], [], false⟩]) ∧
        (4 ≤ code → t.fld ((F.COPY_QSTAT_TICKET.plus (8 * (code - 4))).plus (tileBase k)) = n.toNat) ∧
        otherRegs [R.COPY_QSTAT + 8 * (code - 4) + tileBase k] s t ∧ otherTiles k s t ∧ { t with tiles := s.tiles, regs := s.regs } = s) ∧
    (x.room code = false →
      ∃ t, exec (.eissue k i) s = .next t ∧ t.tile k = { x with waiting := some (.queue i.funct7) } ∧ tileOnly k s t))
  ∧ (∀ (k : TileId) (i : RInst) (s : State), shuttleFree s k 4 = true →
    let x := s.tile k
    let a := (x.xreg i.rs1).toNat
    let code := i.funct7.toNat
    let last := x.tickets code
    (8 ≤ code → ∃ t, exec (.eissue k i) s = .next t ∧ shuttleTrapped s t k 2 (rinstBits i 0)) ∧
    (code < 8 → a % 64 ≠ 0 → ∃ t, exec (.eissue k i) s = .next t ∧ shuttleTrapped s t k 4 a) ∧
    (code < 8 → a % 64 = 0 → 0x800000 ≤ a → ∃ t, exec (.eissue k i) s = .next t ∧ shuttleTrapped s t k 5 a) ∧
    (code < 8 → last ≤ a → last < 2 ^ 31 → a - last < 2 ^ 31 → ∃ t, exec (.ewait k i) s = .next t ∧ shuttleTrapped s t k 25 a) ∧
    (code < 8 → a + 64 < last → last < 2 ^ 31 → ∃ t, exec (.ewait k i) s = .next t ∧ shuttleTrapped s t k 24 a))

/-- EWAIT on one of the 64 most recent tickets returns its status in rd and retires when the operation has completed; else
the shuttle waits at the instruction, and the same command retires it once the status is there. EFENCE retires,
changing only the program counter, when every engine code of its mask has nothing queued or running, else the shuttle
waits; WFI of a shuttle only moves the program counter by 4; ECALL traps with cause 11 and EBREAK with cause 3, TVAL
0. -/
def Obligations.EwaitEfenceWfiEcall : Prop :=
  (∀ (k : TileId) (i : RInst) (s : State),
    let x := s.tile k
    let n := x.xreg i.rs1
    let code := i.funct7.toNat
    let done := fun (st : Status) => ∃ t, exec (.ewait k i) s = .next t ∧ shuttleWrites x (t.tile k) i.rd (BitVec.setWidth 32 st) ∧
      (t.tile k).pc = x.pc + 4 ∧ (t.tile k).waiting = none ∧ (t.tile k).smem = x.smem ∧ tileOnly k s t
    code < 8 → s.shuttleRuns k = true → x.pc.toNat + 4 ≤ 0x10000 →
    (x.waiting = none → n.toNat < x.tickets code → x.tickets code ≤ n.toNat + 64 → x.tickets code < 2 ^ 31 →
      (∀ st, x.statusOf code n = some st → done st) ∧
      (x.statusOf code n = none → ∃ t, exec (.ewait k i) s = .next t ∧ t.tile k = { x with waiting := some (.ticket i.funct7 n) } ∧ tileOnly k s t)) ∧
    (x.waiting = some (.ticket i.funct7 n) → ∀ st, x.statusOf code n = some st → done st))
  ∧ (∀ (k : TileId) (i : RInst) (s : State), shuttleFree s k 4 = true →
    let x := s.tile k
    let m := BitVec.ofNat 8 (x.xreg i.rs1).toNat
    let idle := ∀ c, c < 8 → m.getLsbD c = true → x.engineIdle c = true
    let passes := fun (c : Instr) => ∃ t, exec c s = .next t ∧ t.tile k = { x with pc := x.pc + 4 } ∧ tileOnly k s t
    (i.funct7 = 0 → idle → passes (.efence k i)) ∧
    (i.funct7 = 0 → ¬idle → ∃ t, exec (.efence k i) s = .next t ∧ t.tile k = { x with waiting := some (.fence m) } ∧ tileOnly k s t) ∧
    passes (.shuttleWfi k) ∧
    (∀ b : Bool, ∃ t, exec (.shuttleEcallEbreak k b) s = .next t ∧ shuttleTrapped s t k (if b then 3 else 11) 0))

/-- CSET writes rs2 to arrival counter rs1 mod 64 and CADD adds rs2 to it modulo 2^32; CWAIT retires with the counter in
rd when the counter minus rs2 is not negative as a signed number, else it waits with the counter, the target and its
limit; a limit event that is undefined traps with cause 26, and funct7 other than 0 in CSET or CADD with cause 2. -/
def Obligations.ShuttleCounterInstructions : Prop :=
  ∀ (k : TileId) (i : RInst) (s : State), shuttleFree s k 4 = true →
    let x := s.tile k
    let n := (x.xreg i.rs1).toNat % 64
    let v := s.arrival k n
    let want := x.xreg i.rs2
    let j := i.funct7.toNat - 1
    let sets := fun (c : Instr) (w : Word) => ∃ t, exec c s = .next t ∧ t.arrival k n = w ∧ t.tile k = { x with pc := x.pc + 4 } ∧
      otherRegs [(arriveFld k n).off] s t ∧ otherTiles k s t ∧ { t with tiles := s.tiles, regs := s.regs } = s
    (i.funct7 = 0 → sets (.cset k i) want ∧ sets (.cadd k i) (v + want)) ∧
    (i.funct7 ≠ 0 → (∃ t, exec (.cset k i) s = .next t ∧ shuttleTrapped s t k 2 (rinstBits i 3)) ∧
      ∃ t, exec (.cadd k i) s = .next t ∧ shuttleTrapped s t k 2 (rinstBits i 4)) ∧
    (i.funct7 = 0 ∨ s.eventUndefined j = false → 0 ≤ (v - want).toInt →
      ∃ t, exec (.cwait k i) s = .next t ∧ shuttleWrites x (t.tile k) i.rd v ∧ (t.tile k).pc = x.pc + 4 ∧ (t.tile k).waiting = none ∧ tileOnly k s t) ∧
    (i.funct7 = 0 → (v - want).toInt < 0 →
      ∃ t, exec (.cwait k i) s = .next t ∧ t.tile k = { x with waiting := some (.counter (BitVec.ofNat 6 n) want none) } ∧ tileOnly k s t) ∧
    (i.funct7 ≠ 0 → s.eventUndefined j = false → (v - want).toInt < 0 → s.targetFired (x.eventPick j) j = false →
      ∃ t, exec (.cwait k i) s = .next t ∧
        t.tile k = { x with waiting := some (.counter (BitVec.ofNat 6 n) want (some (BitVec.ofNat 7 j, x.eventPick j))) } ∧ tileOnly k s t) ∧
    (i.funct7 ≠ 0 → s.eventUndefined j = true → ∃ t, exec (.cwait k i) s = .next t ∧ shuttleTrapped s t k 26 j)

/-- TWAIT of a defined event whose pick has fired it retires with the low 32 bits of that pick in rd and makes the pick
current; of an event not yet fired it waits for exactly that event and pick; a shuttle released from its wait retires
in the same way; an undefined event traps with cause 26. No shuttle leaves the last pick of a drain: it halts. -/
def Obligations.TwaitReturnsThePick : Prop :=
  ∀ (k : TileId) (i : RInst) (s : State), s.shuttleRuns k = true → (s.tile k).pc.toNat + 4 ≤ 0x10000 → i.funct7 = 0 →
    let x := s.tile k
    let n := (x.xreg i.rs1).toNat
    let returns := fun (p : Pick) => ∃ t, exec (.twait k i) s = .next t ∧ shuttleWrites x (t.tile k) i.rd (BitVec.setWidth 32 p) ∧
      (t.tile k).cur = some p ∧ (t.tile k).pc = x.pc + 4 ∧ (t.tile k).waiting = none ∧ otherTiles k s t
    (s.eventUndefined n = false → s.drainHalts k n = false →
      (x.waiting = none → ∀ p, x.eventPick n = some p →
        (s.eventFired p n = true → returns p) ∧
        (s.eventFired p n = false → ∃ t, exec (.twait k i) s = .next t ∧
          t.tile k = { x with waiting := some (.event (BitVec.ofNat 7 n) (some p)) } ∧ tileOnly k s t)) ∧
      (x.waiting = none → x.eventPick n = none → ∃ t, exec (.twait k i) s = .next t ∧
        t.tile k = { x with waiting := some (.event (BitVec.ofNat 7 n) none) } ∧ tileOnly k s t) ∧
      (∀ (j : BitVec 7) (p : Pick), j.toNat = n → x.waiting = some (.released j p) → returns p)) ∧
    (x.waiting = none → s.eventUndefined n = true → ∃ t, exec (.twait k i) s = .next t ∧ shuttleTrapped s t k 26 n) ∧
    (x.waiting = none → s.eventUndefined n = false → s.drainHalts k n = true →
      ∃ t, exec (.twait k i) s = .next t ∧ t.bit (tfld k F.SEQ_CTRL_HALTED) = true ∧ (t.tile k).pc = x.pc ∧ (t.tile k).cur = x.cur)

/-- A word store to the lower half of a register of the tile's block only latches; the store to the upper half of the same
register then writes all 64 bits as one register write of the shuttle and empties the latch, and without a matching
latch traps with cause 7. A word load of the lower half returns it and latches the upper half, which the load of the
upper half then returns. Accesses of another size trap with causes 7 and 5. -/
def Obligations.ShuttleRegisterAccesses : Prop :=
  ∀ (k : TileId) (i : ShMem) (s : State), shuttleFree s k (shLen i) = true →
    let x := s.tile k
    let a := (x.xreg i.base + BitVec.signExtend 32 i.imm).toNat
    let off := a % 0x10000 / 8 * 8
    let n : Word := if i.short then 2 else 4
    let w := (s.busRead (.shuttle k) (tileBase k + off)).1
    0x40000000 ≤ a → a < 0x40010000 →
    (i.size = .w → a % 8 = 0 →
      ∃ t, exec (.shuttleRegStore k i) s = .next t ∧ t.tile k = { x with wlatch := some (off, x.xreg i.reg), pc := x.pc + n } ∧ tileOnly k s t) ∧
    (i.size = .w → a % 8 = 4 → ∀ lo, x.wlatch = some (off, lo) →
      ∃ t u, exec (.shuttleRegStore k i) s = .next t ∧ u.tile k = { x with wlatch := none, pc := x.pc + n } ∧ tileOnly k s u ∧
        exec (.registerWrite (.shuttle k) (BitVec.ofNat 48 (tileBase k + off)) 8 (x.xreg i.reg ++ lo)) u = .next t) ∧
    (i.size = .w → a % 8 = 4 → (∀ lo, x.wlatch ≠ some (off, lo)) → ∃ t, exec (.shuttleRegStore k i) s = .next t ∧ shuttleTrapped s t k 7 a) ∧
    (i.size = .w → i.signed = true → a % 8 = 0 →
      ∃ t, exec (.shuttleRegLoad k i) s = .next t ∧ shuttleWrites x (t.tile k) i.reg (BitVec.ofNat 32 w.toNat) ∧
        (t.tile k).rlatch = some (off, BitVec.ofNat 32 (w.toNat / 2 ^ 32)) ∧ (t.tile k).pc = x.pc + n ∧ otherTiles k s t) ∧
    (i.size = .w → i.signed = true → a % 8 = 4 → ∀ hi, x.rlatch = some (off, hi) →
      ∃ t, exec (.shuttleRegLoad k i) s = .next t ∧ shuttleWrites x (t.tile k) i.reg hi ∧ (t.tile k).pc = x.pc + n ∧ tileOnly k s t) ∧
    (i.size = .h ∨ i.size = .b →
      (∃ t, exec (.shuttleRegStore k i) s = .next t ∧ shuttleTrapped s t k 7 a) ∧
      ∃ t, exec (.shuttleRegLoad k i) s = .next t ∧ shuttleTrapped s t k 5 a)

/-- An aligned shuttle load of 1, 2 or 4 bytes returns the little-endian bytes of instruction memory, data memory or the
tile's SRAM, sign- or zero-extended; an aligned store writes exactly its bytes of data memory or SRAM. A misaligned
access traps with cause 4 or 6, a store to instruction memory with cause 7, and any other address with cause 5 or 7. -/
def Obligations.ShuttleLoadsAndStores : Prop :=
  ∀ (k : TileId) (i : ShMem) (s : State), shuttleFree s k (shLen i) = true → i.size ≠ .d → (i.store = true ∨ i.size ≠ .w ∨ i.signed = true) →
    let x := s.tile k
    let a := (x.xreg i.base + BitVec.signExtend 32 i.imm).toNat
    let n := memBytes i.size
    let o := a - 0x80000000
    let len : Word := if i.short then 2 else 4
    let d := leBytes n (x.xreg i.reg).toNat
    let inSram := 0x80000000 ≤ a ∧ a < 0x80800000
    let loads := fun (b : List Byte) => ∃ t, exec (.shuttleLoadStore k i) s = .next t ∧
      shuttleWrites x (t.tile k) i.reg (if i.signed then BitVec.ofInt 32 (signed (8 * n) (leNat b)) else BitVec.ofNat 32 (leNat b)) ∧
      (t.tile k).pc = x.pc + len ∧ (t.tile k).smem = x.smem ∧ tileOnly k s t
    let traps := fun (c : Nat) => ∃ t, exec (.shuttleLoadStore k i) s = .next t ∧ shuttleTrapped s t k c a
    (a % n = 0 →
      (i.store = false → a < 0x20000 → loads (x.smem.readN a n)) ∧
      (i.store = false → inSram → s.sramBad k o n = false → loads (s.sram k o n)) ∧
      (i.store = false → inSram → s.sramBad k o n = true → traps 5) ∧
      (i.store = true → 0x10000 ≤ a → a < 0x20000 → memoriesWf s →
        ∃ t, exec (.shuttleLoadStore k i) s = .next t ∧ (∀ b, (t.tile k).smem.read b = afterStores (storedBytes [⟨BitVec.ofNat 64 a, n⟩] d) b (x.smem.read b)) ∧
          (t.tile k).pc = x.pc + len ∧ (t.tile k).x = x.x ∧ tileOnly k s t) ∧
      (i.store = true → inSram → s.poison = [] → cachesInDram s = true → memoriesWf s →
        ∃ t, exec (.shuttleLoadStore k i) s = .next t ∧ memoryAfter s t (storedBytes [⟨BitVec.ofNat 64 (sramAddr k o), n⟩] d) ∧
          t.tile k = { x with pc := x.pc + len } ∧ otherTiles k s t ∧ { t with tiles := s.tiles, mem := s.mem } = s) ∧
      (i.store = true → a < 0x10000 → traps 7) ∧
      (0x20000 ≤ a → ¬inSram → ¬(0x40000000 ≤ a ∧ a < 0x40010000) → traps (if i.store then 7 else 5))) ∧
    (a % n ≠ 0 → ¬(0x40000000 ≤ a ∧ a < 0x40010000) → traps (if i.store then 6 else 4))

/-- A firmware write of SEQ_CTRL with RUN 1 to a halted shuttle on a die in service, and SHUTTLE_DEFERRED_START of a
shuttle whose RUN was kept, set RUN, clear HALTED and start at address 0 with no current pick and no wait; on a die
out of service RUN is only kept. A write with RUN 0 halts the shuttle where it is and abandons its wait. Writing 1 to
TRAP clears it. A firmware write of an arrival counter that meets increments leaves the low 32 bits written plus the
increments, modulo 2^32; only that register changes. -/
def Obligations.SeqCtrlAndArrivalWrites : Prop :=
  (∀ (p : FwpId) (k : TileId) (v : BitVec 64) (s : State),
    let x := s.tile k
    let starts := fun (t : State) => t.bit (tfld k F.SEQ_CTRL_RUN) = true ∧ t.bit (tfld k F.SEQ_CTRL_HALTED) = false ∧ (t.tile k).pc = 0 ∧
      (t.tile k).waiting = none ∧ (t.tile k).cur = none ∧ (t.tile k).x = x.x ∧ (t.tile k).smem = x.smem ∧
      otherRegs [R.SEQ_CTRL + tileBase k] s t ∧ otherTiles k s t ∧ { t with tiles := s.tiles, regs := s.regs } = s
    let trap := fun (t : State) => t.bit (tfld k F.SEQ_CTRL_TRAP) = (s.bit (tfld k F.SEQ_CTRL_TRAP) && !bitN v.toNat 2)
    (bitN v.toNat 0 = true → s.shuttleRuns k = false → s.tileReady k = true →
      ∃ t, exec (.seqCtrlRun (.fw p) k v) s = .next t ∧ starts t ∧ trap t) ∧
    (bitN v.toNat 0 = true → s.shuttleRuns k = false → s.tileReady k = false →
      ∃ t, exec (.seqCtrlRun (.fw p) k v) s = .next t ∧ t.bit (tfld k F.SEQ_CTRL_RUN) = true ∧ t.shuttleRuns k = false ∧ t.tiles = s.tiles ∧ trap t) ∧
    (bitN v.toNat 0 = false →
      ∃ t, exec (.seqCtrlRun (.fw p) k v) s = .next t ∧ t.bit (tfld k F.SEQ_CTRL_RUN) = false ∧ t.shuttleRuns k = false ∧ (t.tile k).pc = x.pc ∧
        (t.tile k).waiting = none ∧ trap t ∧ otherTiles k s t) ∧
    (s.bit (tfld k F.SEQ_CTRL_RUN) = true → s.shuttleRuns k = false → s.tileReady k = true →
      ∃ t, exec (.shuttleDeferredStart k) s = .next t ∧ starts t))
  ∧ (∀ (p : FwpId) (k : TileId) (n : BitVec 6) (v : BitVec 64) (m : Nat) (s : State),
    ∃ t, exec (.copyArriveWrite (.fw p) k n v m) s = .next t ∧ t.arrival k n.toNat = BitVec.ofNat 32 (v.toNat + m) ∧
      otherRegs [(arriveFld k n.toNat).off] s t ∧ { t with regs := s.regs } = s)

/-- The queued head of a copy queue on a die in service, with a valid descriptor whose rows all lie in readable memory of
the node, is copied row by row: after LINEAR, GATHER, SCATTER or FILL every byte of the node is what the rows, in
ascending order, leave there, each row reading before it writes; after ROUTE the rows of the tile's SRAM stand in the
destination tile, all read before any is written. The named arrival counter, and no other, is one higher, and the
descriptor has moved with OK. An invalid descriptor moves nothing and ends with BAD_DESCRIPTOR. When the head of a
copy queue has moved with OK, COPY_COMPLETE removes it, keeps its status for EWAIT and adds one to its completion
counter if DONE is enabled, changing no memory. After a failure that had moved nothing it also sets ERR and, where ERR
was clear, FIRST_STATUS, and raises the status with the ticket as an event of the tile. A head that has not moved
stays. -/
def Obligations.CopiesAndTheirCompletion : Prop :=
  (∀ (k : TileId) (q : QId) (n : Word) (b : List Byte) (rest : List CopyEntry) (s : State),
    let e : CopyEntry := ⟨n, b, false, .queued, St.ok, false, 0, [], [], false⟩
    let d := CopyDesc.of b
    let idx := if d.op = 2 ∨ d.op = 3 then s.sram k d.idx (8 * d.rows) else []
    let rows := d.allRows idx
    let c := if d.op = 2 then Instr.gather k q else if d.op = 3 then .scatter k q else if d.op = 4 then .fill k q else .linear k q
    let dt : TileId := BitVec.ofNat 8 (s.routeFld k F.SEQ_ROUTE_DEST_TILE d.route)
    let base := s.routeFld k F.SEQ_ROUTE_DEST_BASE d.route
    let moved := fun (t : State) => (t.tile k).copyQ q.val = { e with phase := .moved, moved := true } :: rest ∧
      (∀ (j : TileId) (m : BitVec 6), t.arrival j m.toNat = s.arrival j m.toNat + (if d.arrEn ∧ j = d.arrTile ∧ m = d.arrCtr then 1 else 0)) ∧
      otherTiles k s t ∧ t.outbox = s.outbox
    (s.tile k).copyQ q.val = e :: rest → (∀ f ∈ rest, f.ticket ≠ n) → s.tileReady k = true → s.replaying = false →
    memQuiet s = true → memoriesWf s → (∀ m, wcbOk s m) → s.dir = [] → s.dirTrans = [] →
    (s.copyOk k d = true → 0 < d.len → 0 < d.rows → (d.arrEn = true → d.arrLocal = true ∨ s.isLocal d.arrNode = true) →
      (d.op ≠ 5 → ownRows s rows = true → s.rowsStatus d rows = St.ok →
        ∃ t, exec c s = .next t ∧ moved t ∧
          ∀ a, t.byteAt a = (rows.map (fun r => (r.1.map localAddr, localAddr r.2))).foldl (copyRow d.len (fillByte d.src)) s.byteAt a) ∧
      (d.op = 5 → (∀ i, i < d.rows → s.memStatus (sramAddr dt (base + (d.routeDst i).toNat)) d.len = St.ok) →
        ∃ t, exec (.route k q) s = .next t ∧ moved t ∧
          memoryAfter s t (sramStores dt ((List.range d.rows).map (fun i =>
            (base + (d.routeDst i).toNat, s.sram k (d.routeSrc i).toNat d.len)))))) ∧
    (s.copyOk k d = false → 1 ≤ d.op → d.op ≤ 5 →
      ∃ t, exec (if d.op = 5 then .route k q else c) s = .next t ∧
        (t.tile k).copyQ q.val = { e with phase := .moved, status := St.badDescriptor } :: rest ∧ { t with tiles := s.tiles } = s))
  ∧ (∀ (k : TileId) (q : QId) (e : CopyEntry) (rest : List CopyEntry) (s : State),
    let d := CopyDesc.of e.desc
    let err := (F.COPY_QSTAT_ERR.plus (8 * q.val)).plus (tileBase k)
    let first := (F.COPY_QSTAT_FIRST_STATUS.plus (8 * q.val)).plus (tileBase k)
    (s.tile k).copyQ q.val = e :: rest → (s.tile k).statusOf (4 + q.val) e.ticket = none →
    let ends := fun (t : State) => exec (.copyComplete k q) s = .next t ∧ (t.tile k).copyQ q.val = rest ∧
      (t.tile k).statusOf (4 + q.val) e.ticket = some e.status ∧ sameMemory s t ∧ otherTiles k s t ∧
      (∀ (j : TileId) (m : BitVec 6), t.arrival j m.toNat =
        s.arrival j m.toNat + (if d.doneEn ∧ e.bad = false ∧ j = k ∧ m = d.doneCtr then 1 else 0))
    (e.phase = .moved → e.status = St.ok → ∃ t, ends t ∧ t.bit err = s.bit err ∧ t.rings = s.rings) ∧
    (e.phase = .moved → e.status ≠ St.ok → e.moved = false →
      ∃ t, ends t ∧ t.bit err = true ∧ (s.bit err = false → t.fld first = e.status.toNat) ∧
        raised s t (tileSrc k) e.status (leBytes 4 e.ticket.toNat) false) ∧
    (e.phase ≠ .moved → exec (.copyComplete k q) s = .next s))

/-- With a readable, valid descriptor at the head of the tensor queue, no operation running and no poisoned word, MATMUL
stores for each row i and column j that the masks select the value of R161, computed from the operands as they were,
and no other byte of the node changes; the operation then runs with status OK. A descriptor that fails a check of
Table 4-4 stores nothing and runs with that check's status; one that could not be read with UNCORRECTABLE. A chain of
one iteration with one elementwise stage and no streams, digest or counts leaves in the stage's destination register,
element by element, the operation of the source registers' elements, every other tile register and all memory as
before, and runs with status OK. A chain that fails a check of Table 6-7 changes nothing and runs with that check's
status. -/
def Obligations.TensorAndElementOperations : Prop :=
  (∀ (k : TileId) (e : QEntry) (s : State), s.engHead k 0 = some e →
    let x := TensorDesc.of e.desc
    let cells := x.written.map (fun ij => (x.d.at ij.1 ij.2, leBytes x.d.esz (s.tensorElem k x ij.1 ij.2).1))
    (e.bad = false → memQuiet s = true → memoriesWf s → s.tensorCheck k x = none →
      ∃ t r, exec (.matmul k) s = .next t ∧ engineStarted s t k 0 r ∧ r.status = St.ok ∧ r.ticket = e.ticket ∧ r.crec = some x.crec ∧
        memoryAfter s t (sramStores k cells) ∧ (x.dgEn = false → (t.tile k).banks = (s.tile k).banks) ∧
        { t with tiles := s.tiles, mem := s.mem } = s) ∧
    (∀ st, e.bad = false → s.tensorCheck k x = some st →
      ∃ t r, exec (.matmul k) s = .next t ∧ engineStarted s t k 0 r ∧ r.status = st ∧ r.nsat = 0 ∧ r.nflush = 0 ∧ { t with tiles := s.tiles } = s) ∧
    (e.bad = true → ∃ t r, exec (.matmul k) s = .next t ∧ engineStarted s t k 0 r ∧ r.status = St.uncorrectable ∧ r.crec = none ∧
      { t with tiles := s.tiles } = s))
  ∧ (∀ (k : TileId) (e : QEntry) (s : State), s.engHead k 1 = some e → e.bad = false →
    let x := ChainDesc.of e.desc
    let reg := fun (u : State) (r : Nat) => (u.tile k).treg.readN (1024 * r) 1024
    (∀ g : Stage, memoriesWf s → s.chainCheck k x = none → x.count = 1 → x.stages = [g] → x.ins = [] → x.outs = [] → x.auxKind = 0 →
      x.dgEn = false → g.op ∉ [ElemOp.cat, .rbshr, .rmax, .rmin, .rsum, .compress, .expand, .causal] → (∀ f, g.op ≠ .cvt f) →
      ∃ t r, exec (.chain k) s = .next t ∧ engineStarted s t k 1 r ∧ r.status = St.ok ∧ r.ticket = e.ticket ∧
        reg t g.d = elemBytes g.f.bytes (List.zipWith (fun p q => (elem1 g.op g.f g.sat (NMode.of x.nmode) g.imm p q.1 q.2).1)
          (tileElems g.f (reg s g.a)) (List.zip (tileElems g.f (reg s g.b)) (tileElems g.f (reg s g.c)))) ∧
        (∀ j, j < 32 → j ≠ g.d → reg t j = reg s j) ∧ { t with tiles := s.tiles } = s) ∧
    (∀ st, s.chainCheck k x = some st →
      ∃ t r, exec (.chain k) s = .next t ∧ engineStarted s t k 1 r ∧ r.status = st ∧ (t.tile k).treg = (s.tile k).treg ∧ { t with tiles := s.tiles } = s))

/-- With a readable descriptor of the operation at the head of the solver queue that passes the checks of Table 7-3 and no
poisoned word, every element of each output image of each batch element holds the result of Table 7-4, or 0 where that
element failed, no byte outside the images' rows changes, and the operation runs with OK or with the status of the
first failure. A failed check changes nothing and the operation runs with its status. With a readable ASSEMBLE or
SOLVE at the head of the solver queue that passes its checks, a program that verifies and no poisoned word: only bytes
of the regions that the operation writes change; ASSEMBLE runs with OK; SOLVE without a deadline takes no SEQ, and
with one takes the tile's next number; outside replay its solution record opens with the header of R289 for the status
and K with which it runs. A failed check changes nothing. -/
def Obligations.SolverOperations : Prop :=
  (∀ (k : TileId) (e : QEntry) (s : State), s.engHead k 2 = some e → e.bad = false →
    let x := SolvDesc.of e.desc
    let c : Instr := if x.op = 1 then .chol k else if x.op = 2 then .ldlt k else if x.op = 3 then .lu k else if x.op = 4 then .qr k
      else if x.op = 5 then .trsv k else .mv k
    let outs := x.imgs.filter Img.wr
    let row := fun (i : Img) (b r : Nat) => x.base i.slot + b * i.size + r * i.pitch
    let res := fun b => s.denseElem k x b
    let bad := (List.range x.batch).filter (fun b => (res b).fail.isSome)
    1 ≤ x.op → x.op ≤ 6 →
    (memQuiet s = true → memoriesWf s → s.denseCheck k x = none →
      ∃ t r, exec c s = .next t ∧ engineStarted s t k 2 r ∧ r.status = (bad.head?.bind (fun b => (res b).fail)).getD St.ok ∧ r.x2 = bad.length ∧
        (∀ b, b < x.batch → ∀ (n : Nat) (i : Img), outs[n]? = some i → ∀ a j, a < i.rows → j < i.cols →
          t.sramNat k (row i b a + i.esz * j) i.esz =
            wrapN (8 * i.esz) (if (res b).fail.isSome then 0 else WImg.at ((res b).outs.getD n []) a j)) ∧
        (∀ o, (∀ b, b < x.batch → ∀ i ∈ outs, ∀ a, a < i.rows → o < row i b a ∨ row i b a + i.cols * i.esz ≤ o) →
          t.byteAt (sramAddr k o) = s.byteAt (sramAddr k o)) ∧
        (∀ a, a < sramAddr k 0 → t.byteAt a = s.byteAt a) ∧ { t with tiles := s.tiles, mem := s.mem } = s) ∧
    (∀ st, s.denseCheck k x = some st →
      ∃ t r, exec c s = .next t ∧ engineStarted s t k 2 r ∧ r.status = st ∧ r.x3 = 0xFFFFFFFF ∧ { t with tiles := s.tiles } = s))
  ∧ (∀ (k : TileId) (e : QEntry) (dl : DlPoint) (s : State), s.engHead k 2 = some e → e.bad = false →
    let x := SolvDesc.of e.desc
    let c : Instr := if x.op = 7 then .assemble k else .solve k dl
    let d := s.sram k x.prog (s.sramNat k (x.prog + 16) 4)
    let h := PatHdr.of (bytesAt d)
    let regions := (patRegions x h (h.srcs (bytesAt d))).filter (fun r => r.2.2.2)
    x.op = 7 ∨ x.op = 8 → x.crec % 64 = 0 → (s.tile k).inSolver x.crec 64 = true → s.solvFields k x = true →
    (memQuiet s = true → memoriesWf s → s.patCheck k x = none → patternOk (s.tile k) d = true →
      ∃ t r, exec c s = .next t ∧ engineStarted s t k 2 r ∧ r.ticket = e.ticket ∧ r.crec = some x.crec ∧
        (∀ o, o < 0x800000 → (∀ g ∈ regions, o < g.1 ∨ g.1 + g.2.1 ≤ o) → t.byteAt (sramAddr k o) = s.byteAt (sramAddr k o)) ∧
        (x.op = 7 → r.status = St.ok ∧ t.regs = s.regs) ∧
        (x.op = 8 → x.dl = 0 → r.x3 = 0xFFFFFFFF ∧ t.fld (tfld k F.SOLVER_SEQ_SEQ) = s.fld (tfld k F.SOLVER_SEQ_SEQ)) ∧
        (x.op = 8 → x.dl ≠ 0 → r.x3 = s.fld (tfld k F.SOLVER_SEQ_SEQ) ∧
          t.fld (tfld k F.SOLVER_SEQ_SEQ) = (s.fld (tfld k F.SOLVER_SEQ_SEQ) + 1) % 2 ^ 32) ∧
        (x.op = 8 → s.bit (tfld k F.SOLVER_STAT_REPLAY) = false →
          t.sram k (x.base 0) 64 = solHeader h (((s.tile k).cur).getD noPick) x.batch r.x2 r.status)) ∧
    (∀ st, s.patCheck k x = some st →
      ∃ t r, exec c s = .next t ∧ engineStarted s t k 2 r ∧ r.status = st ∧ { t with tiles := s.tiles } = s))

/-- TENSOR_COMPLETE, ELEM_COMPLETE, SOLVER_COMPLETE and BOBBIN_COMPLETE of a running operation write its completion record
at its address and no other byte, leave nothing running, keep its status for EWAIT and show its ticket in LAST_DONE.
The operation counts in OPS.DONE, or in FAILED. A status that the manual makes an error sets ERR, fills FIRST_STATUS
where ERR was clear, and is raised with the ticket. With nothing running they change nothing. -/
def Obligations.EngineCompletions : Prop :=
  ∀ (k : TileId) (n : Fin 4) (r : EngRun) (bank withheld : Nat) (s : State), memQuiet s = true → memoriesWf s →
    (s.tile k).lateOwed = [] → (s.tile k).statusOf n.val r.ticket = none → (∀ a, r.crec = some a → a + 64 ≤ 0x800000) →
    let c : Instr := if n = 0 then .tensorComplete k bank withheld else if n = 1 then .elemComplete k bank withheld
      else if n = 2 then .solverComplete k bank withheld else .bobbinComplete k
    let live := r.cycles ≠ 0
    let cyc := if live then r.cycles + bank + withheld else 0
    let stalls := if live then bank + withheld else 0
    let record := if n = 0 then tensorRecord r cyc stalls s.clock.ns else if n = 1 then elemRecord r cyc s.clock.ns
      else if n = 2 then solverRecord r cyc stalls s.clock.ns else bobRecord r s.clock.ns
    let fails := if n = 2 then solverErr r.status = true else r.status ≠ St.ok
    let done := if n = 0 then F.TENSOR_OPS_DONE else if n = 1 then F.ELEM_OPS_DONE else F.SOLVER_OPS_DONE
    let failed := if n = 0 then F.TENSOR_OPS_FAILED else if n = 1 then F.ELEM_OPS_FAILED else F.SOLVER_OPS_FAILED
    let up := fun (t : State) (f : Fld) => t.fld (tfld k f) = (s.fld (tfld k f) + 1) % 2 ^ 32
    let err := tfld k (engRegs n.val).err
    ((s.tile k).running n.val = some r →
      ∃ t, exec c s = .next t ∧ (t.tile k).running n.val = none ∧ (t.tile k).statusOf n.val r.ticket = some r.status ∧
        t.fld (tfld k (engRegs n.val).lastDone) = r.ticket.toNat ∧
        memoryAfter s t (match r.crec with | some a => sramStores k [(a, record)] | none => []) ∧
        (t.tile k).queue n.val = (s.tile k).queue n.val ∧ otherTiles k s t ∧
        (¬fails → t.bit err = s.bit err ∧ t.rings = s.rings ∧ (n.val < 3 → up t done)) ∧
        (fails → t.bit err = true ∧ (s.bit err = false → t.fld (tfld k (engRegs n.val).first) = r.status.toNat) ∧ (n.val < 3 → up t failed) ∧
          raised s t (tileSrc k) r.status (leBytes 4 r.ticket.toNat ++ (if n = 3 then leBytes 2 r.x1 else [])) false)) ∧
    ((s.tile k).running n.val = none → exec c s = .next s)

/-- A PUSH that passes its checks and fits stores its 64-byte header and its payload at the place of R207, makes them the
top entry and runs with OK; one that does not fit sets FAULTED and runs with status 0x0410. A POP whose TAG and LEN
match the top copies the payload to SRAM and removes the entry; an empty stack, another TAG or another LEN sets
FAULTED, changes no memory and runs with 0x0411, 0x0412 or 0x0413. A RESET empties its stack, or all, and clears
FAULTED. BOBBIN_TOP follows the stack. When the runtime of a running shuttle with a current pick and a valid header
has nothing outstanding or failed and takes the head of the FWD list, which is ready and finds room at its engine,
SCHEDULE_ENTRY_ISSUE appends the entry's descriptor to the engine's queue with the next ticket, moves the list on and
keeps the entry outstanding. While the shuttle waits, halts or has no current pick nothing changes. -/
def Obligations.BobbinsAndSchedule : Prop :=
  (∀ (k : TileId) (e : QEntry) (s : State), s.engHead k 3 = some e → e.bad = false →
    let x := BobDesc.of e.desc
    let st := (s.tile k).bobStack x.stack
    let top := fun (t : State) (l : List BobEntry) => (t.tile k).bobStack x.stack = l ∧
      t.fld ((tfld k F.BOBBIN_TOP_DEPTH).plus (8 * x.stack)) = l.length % 2 ^ 24 ∧
      t.fld ((tfld k F.BOBBIN_TOP_USED).plus (8 * x.stack)) = (l.map BobEntry.occ).sum % 2 ^ 40
    let runs := fun (c : Instr) (status : Status) (t : State) => ∃ r, exec c s = .next t ∧ engineStarted s t k 3 r ∧ r.status = status ∧ r.ticket = e.ticket
    let faults := fun (c : Instr) (status : Status) => ∃ t, runs c status t ∧ t.bit (tfld k F.BOBBIN_STAT_FAULTED) = true ∧ sameMemory s t ∧
      (t.tile k).bobStack x.stack = st
    s.bobCheck k x = none →
    (x.op = 1 → bobPlace (s.hbmShare k) (s.lpShare k) (bobOcc x.len x.drop) st = none → faults (.push k) 0x0410) ∧
    (x.op = 1 → ∀ o, bobPlace (s.hbmShare k) (s.lpShare k) (bobOcc x.len x.drop) st = some o →
      let pay := if x.drop then [] else s.sram k x.sram x.len
      let a := s.bobAddr k x.stack o
      memQuiet s = true → memoriesWf s → s.wcb = [] → s.memStatus a (64 + pay.length) = St.ok →
      ∃ t, runs (.push k) St.ok t ∧ top t (⟨o, bobOcc x.len x.drop, x.tag, x.len, x.drop⟩ :: st) ∧
        memoryAfter s t (storedBytes [⟨BitVec.ofNat 64 a, 64 + pay.length⟩]
          (bobHeader x.tag x.len x.drop ((st.head?.map BobEntry.off).getD (2 ^ 64 - 1)) ++ pay))) ∧
    (x.op = 2 → st = [] → faults (.pop k) 0x0411) ∧
    (x.op = 2 → ∀ p rest, st = p :: rest →
      (p.tag ≠ x.tag → faults (.pop k) 0x0412) ∧
      (p.tag = x.tag → p.len ≠ x.len → faults (.pop k) 0x0413) ∧
      (p.tag = x.tag → p.len = x.len → p.drop = false → memQuiet s = true → memoriesWf s →
        s.memStatus (s.bobAddr k x.stack p.off) (64 + p.len) = St.ok →
        ∃ t, runs (.pop k) St.ok t ∧ top t rest ∧
          memoryAfter s t (sramStores k [(x.sram, s.bytes (s.bobAddr k x.stack p.off + 64) p.len)])) ∧
      (p.tag = x.tag → p.len = x.len → p.drop = true → memQuiet s = true → s.memStatus (s.bobAddr k x.stack p.off) 64 = St.ok →
        ∃ t, runs (.pop k) St.ok t ∧ top t rest ∧ sameMemory s t)) ∧
    (x.op = 3 → ∃ t, runs (.bobbinReset k) St.ok t ∧ top t [] ∧ t.bit (tfld k F.BOBBIN_STAT_FAULTED) = false ∧ sameMemory s t ∧
      (x.all = true → ∀ j, j < 4 → (t.tile k).bobStack j = [])))
  ∧ (∀ (k : TileId) (e : ProdEntry) (s : State),
    let x := s.tile k
    let h := x.schedHdr
    let n := BitVec.ofNat 32 (x.tickets e.engine)
    (s.shuttleRuns k = true → x.waiting = none → x.cur.isSome = true → h.mbcount ≠ 0 →
      h.ok (2 ^ min 2 (s.fld (tfld k F.BOBBIN_HBM_NSTACKS))) = true → s.haltedNode = false →
      x.sched.out = [] → x.sched.failed = none → x.sched.stopUntil = none → x.sched.pop = none → s.issuePop k h = none →
      s.pickList k h = some 0 → s.schedEntry k h 0 = some e → s.headReady k 0 e = true → x.engRoom h e.engine = true →
      x.sched.parts = [] → (descDg e.engine e.desc && x.bankStall) = false → e.engine < 4 →
      ∃ t, exec (.scheduleEntryIssue k) s = .next t ∧
        (t.tile k).queue e.engine = x.queue e.engine ++ [⟨n, e.desc, e.bad, if descDg e.engine e.desc then some x.openBank else none⟩] ∧
        (t.tile k).tickets e.engine = x.tickets e.engine + 1 ∧ (t.tile k).sched.at_ 0 = x.sched.at_ 0 + 1 ∧
        (t.tile k).sched.out = [⟨0, x.sched.at_ 0, e.engine, [n], none⟩] ∧ (t.tile k).pc = x.pc ∧ tileOnly k s t) ∧
    (s.shuttleRuns k = false ∨ x.waiting ≠ none ∨ x.cur = none → exec (.scheduleEntryIssue k) s = .next s))

/-- When the job runs, every event of the pick before has fired and the start time of the next pick has come, PICK_START
makes it the pick, with no event fired, a place in the digest log and SOLVER_SEQ 0 in every listed tile; a pending
rebase that it reaches takes effect; a shuttle that waits for the next pick is released. TIMETABLE_EVENT_FIRE fires a
due event of the pick when its time has come and releases exactly the waits for it. REPLAY_EVENT_FIRE does so in
replay once every shuttle waits, taking the logged inputs of that position out of the log. Before the time nothing but
the time counter changes. -/
def Obligations.PicksStartAndEventsFire : Prop :=
  ∀ (now : BitVec 64) (s : State),
    let time := max s.clock.ns.toNat now.toNat
    let n := s.nextPick
    let ended := s.pick = noPick ∨ s.clock.rebaseForced = true ∨ ∀ e ∈ s.clock.timetable, e.index ∈ s.clock.fired
    let due := s.bit F.TIME_REBASE_AT_PENDING = true ∧ s.fld F.TIME_REBASE_AT_PICK ≤ n.toNat
    (s.draft.isSome = true → s.picksRun = true → n ≠ noPick → ended →
      (s.pickStartNs n.toNat ≤ time →
        ∃ t, exec (.pickStart now) s = .next t ∧ t.clock.ns.toNat = time ∧ t.pick = n ∧ t.clock.fired = [] ∧
          t.clock.digests = s.clock.digests ++ [(n, [], [], false)] ∧
          (∀ k : TileId, (Tab.find s.tiles k.toNat).isSome = true → t.fld (tfld k F.SOLVER_SEQ_SEQ) = 0) ∧
          (∀ k : TileId, (s.tile k).waiting = some (.event 0 none) → (t.tile k).waiting = some (.released 0 n)) ∧
          (∀ k : TileId, (t.tile k).pc = (s.tile k).pc ∧ (t.tile k).x = (s.tile k).x) ∧
          (due → t.fld F.TIME_PICK_BASE_BASE = s.fld F.TIME_REBASE_BASE_BASE ∧ t.bit F.TIME_REBASE_AT_PENDING = false)) ∧
      (time < s.pickStartNs n.toNat → exec (.pickStart now) s = .next (s.at_ now))) ∧
    (∀ i : BitVec 7, s.eventKind i.toNat ≠ 4 → i ≠ 0 → s.eventDue i.toNat = true →
      let fires := fun (t : State) => t.clock.fired = i.toNat :: s.clock.fired ∧ t.pick = s.pick ∧
        (∀ k : TileId, (s.tile k).waiting = some (.event i (some s.pick)) → (t.tile k).waiting = some (.released i s.pick)) ∧
        (∀ (k : TileId) (j : BitVec 7) (p : Pick), j ≠ i ∨ p ≠ s.pick → (s.tile k).waiting = some (.event j (some p)) →
          (t.tile k).waiting = some (.event j (some p)))
      (s.picksRun = true → s.eventNs s.pick i.toNat ≤ time → ∃ t, exec (.timetableEventFire i now) s = .next t ∧ fires t ∧ t.clock.ns.toNat = time) ∧
      (s.picksRun = true → time < s.eventNs s.pick i.toNat → exec (.timetableEventFire i now) s = .next (s.at_ now)) ∧
      (s.replaying = true → s.draft.isSome = true →
        (∀ k : TileId, (s.tile k).program = false ∨ s.shuttleRuns k = false ∨ (s.tile k).waiting = some (.event i (some s.pick))) →
        ∃ t, exec (.replayEventFire i) s = .next t ∧ fires t ∧
          ∀ e ∈ t.resil.log, ¬(e.pick = s.pick ∧ e.pos = i.toNat ∧ (e.type = Lt.write ∨ e.type = Lt.arrive ∨ e.type = Lt.external))))

/-- DIGEST_BANK_HANDOFF takes a closed bank off the tile, adds it to the sums of its pick and shows the pick in
DIGEST_STAT. DIGEST_RECORD_WRITE of a due record stores it in its slot of the ring in LPDDR5X, no other byte, and
shows one record more in HEAD. Reading TIME_NOW latches the fraction. A TAIL beyond HEAD becomes HEAD. A rebase is
refused with TIME_REBASE_REFUSED when the job does not run, or in normal running when its start lies before the old
one or the old one has come; else it is pending. -/
def Obligations.DigestLogAndTimeRegisters : Prop :=
  ∀ (s : State),
    (∀ (k : TileId) (b : Bank), (s.tile k).handable = some b →
      ∃ t, exec (.digestBankHandoff k) s = .next t ∧ (t.tile k).banks = (s.tile k).banks.filter (fun c => c.pick != b.pick) ∧
        t.fld (tfld k F.DIGEST_STAT_LAST_PICK) = b.pick.toNat ∧
        t.clock.digests = s.clock.digests.map (fun d => if d.1 = b.pick then
          (d.1, s.sumBank k b d.2.1, d.2.2.1 ++ [k.toNat], d.2.2.2 || b.late) else d) ∧ otherTiles k s t ∧ t.mem = s.mem) ∧
    (∀ k : TileId, (s.tile k).handable = none → exec (.digestBankHandoff k) s = .next s) ∧
    (∀ x d r, s.draft = some x → s.clock.digests = d :: r → s.recordDue d = true →
      let slot := alignUp (32 + 16 * x.nent) 64
      let a := x.ring.1 + s.clock.records % (x.ring.2 * 65536 / slot) * slot
      let rec_ := digestRecord d.1 x.dids s.nodeId d.2.2.2 s.replaying s.clock.ns d.2.1
      let b := rec_ ++ zeros (slot - rec_.length)
      memQuiet s = true → memoriesWf s → s.wcb = [] → lpBase ≤ a → a + b.length ≤ 0x030000000000 →
      ∃ t, exec .digestRecordWrite s = .next t ∧ memoryAfter s t (storedBytes [⟨BitVec.ofNat 64 a, b.length⟩] b) ∧
        t.fld F.TIME_DIGLOG_HEAD = (s.clock.records + 1) % 2 ^ 32 ∧ t.clock.records = s.clock.records + 1 ∧ t.clock.digests = r ∧ t.tiles = s.tiles) ∧
    (∀ p : FwpId, ∃ t, exec (.timeNowRead (.fw p)) s = .next t ∧ t.fld F.TIME_FRAC_FRAC = s.clock.frac.toNat / 65536 ∧
      otherRegs [R.TIME_FRAC] s t ∧ { t with regs := s.regs } = s) ∧
    (∀ (p : FwpId) (v : BitVec 64),
      let head : Word := BitVec.ofNat 32 (s.fld F.TIME_DIGLOG_HEAD)
      let tail : Word := BitVec.ofNat 32 v.toNat
      ∃ t, exec (.timeDiglogTailWrite (.fw p) v) s = .next t ∧
        t.fld F.TIME_DIGLOG_TAIL_TAIL = (if 0 < (tail - head).toInt then head.toNat else tail.toNat) ∧
        otherRegs [R.TIME_DIGLOG_TAIL] s t ∧ { t with regs := s.regs } = s) ∧
    (∀ (p : FwpId) (v : BitVec 64),
      let n := v.toNat % 2 ^ 48
      let old := s.startOn (s.fld F.TIME_PICK_BASE_BASE) n
      let new := s.startOn (s.fld F.TIME_REBASE_BASE_BASE) n
      let takes := fun (t : State) => exec (.timeRebaseAtWrite (.fw p) v) s = .next t ∧ t.bit F.TIME_REBASE_AT_PENDING = true ∧
        t.fld F.TIME_REBASE_AT_PICK = n ∧ t.rings = s.rings ∧ otherRegs [R.TIME_REBASE_AT] s t
      let refuses := fun (t : State) => exec (.timeRebaseAtWrite (.fw p) v) s = .next t ∧ t.bit F.TIME_REBASE_AT_PENDING = false ∧
        raised s t 0x0400 0x0706 [] false
      (s.fld F.GLB_JOB_STATE ≠ 3 → ∃ t, refuses t) ∧
      (s.fld F.GLB_JOB_STATE = 3 → s.fld F.CKPT_STAT_STATE < 2 ∨ 4 < s.fld F.CKPT_STAT_STATE →
        (old ≤ new → s.clock.ns.toNat < old → ∃ t, takes t) ∧ (new < old ∨ old ≤ s.clock.ns.toNat → ∃ t, refuses t)) ∧
      (s.fld F.GLB_JOB_STATE = 3 → 2 ≤ s.fld F.CKPT_STAT_STATE → s.fld F.CKPT_STAT_STATE ≤ 4 →
        (s.clock.ns.toNat + 1000000 ≤ new → ∃ t, takes t ∧ t.clock.rebaseForced = true) ∧ (new < s.clock.ns.toNat + 1000000 → ∃ t, refuses t)))

/-- TIME_REQ of a node with a parent leaves on the parent's port, and a serving node answers one with its two stamps and
lists the child. TIME_RSP from the parent, and a measurement of a root's primary port, show the offset in TIME_STAT,
end holdover and count towards or away from LOCKED, which 64 good measurements set and one beyond 200 ns clears with
an event. An Announce is kept if none is known or it ranks better. Three intervals without one move a root to its
other port with TIME_SOURCE_CHANGE. With no source left TIME_HOLDOVER is raised once. -/
def Obligations.TimeSources : Prop :=
  ∀ (s : State),
    let measured := fun (u t : State) (off : Int) => t.fld F.TIME_STAT_OFFSET = wrapN 32 off ∧ t.bit F.TIME_STAT_HOLDOVER = false ∧
      t.clock.lockRun = (if off.natAbs ≤ 2560 then u.clock.lockRun + 1 else 0) ∧ t.clock.adj.natAbs ≤ u.adjLimit ∧
      (51200 < off.natAbs → t.bit F.TIME_STAT_LOCKED = false) ∧ (off.natAbs ≤ 2560 → 63 ≤ u.clock.lockRun → t.bit F.TIME_STAT_LOCKED = true) ∧
      (2560 < off.natAbs → off.natAbs ≤ 51200 → t.bit F.TIME_STAT_LOCKED = u.bit F.TIME_STAT_LOCKED) ∧
      t.tiles = u.tiles ∧ t.mem = u.mem ∧ t.outbox = u.outbox
    (∀ (p : PortId) (n : NodeId) (tag : BitVec 16) (a b : BitVec 64), s.portUp p = true →
      (s.clock.parent.isSome = true → s.fld F.TIME_STAT_PARENT_PORT = p.val →
        exec (.timeReq .send p n tag a b) s = .next { s with outbox := s.outbox ++
          [{ plainMsg (some p) 0 0 0x50 [a.toNat] [] with loc := true, tag := tag }] }) ∧
      (s.serves = true → ∃ t, exec (.timeReq .recv p n tag a b) s = .next t ∧
        t.outbox = s.outbox ++ [{ plainMsg (some p) 0 0 0x51 [a.toNat, b.toNat] [] with loc := true, rsp := true, tag := tag }] ∧
        t.clock.children = n :: s.clock.children.filter (· != n) ∧ { t with outbox := s.outbox, clock := s.clock } = s)) ∧
    (∀ (p : PortId) (n : NodeId) (t1 t2 t3 t4 : Int), s.portUp p = true → s.clock.parent = some n →
      ∃ t, exec (.timeRsp p n t1 t2 t3 t4) s = .next t ∧ measured s t (((t2 - t1) - (t4 - t3)) / 2 - (s.port p).asym)) ∧
    (∀ (e : EthId) (now : BitVec 64), s.bit F.TIME_PTP_CFG_ROOT = true → bitN (s.fld F.TIME_PTP_CFG_PORT_EN) e.val = true →
      let u := s.at_ now
      (∀ off, s.fld F.TIME_STAT_PRIMARY = e.val → ∃ t, exec (.ptpMessage e (.measure off) now) s = .next t ∧ measured u t off) ∧
      (∀ rank master, ∃ t, exec (.ptpMessage e (.announce rank master) now) s = .next t ∧
        Tab.find t.clock.announced e.val = some u.clock.ns.toNat ∧
        (Tab.find s.clock.masters e.val = none → Tab.find t.clock.masters e.val = some (rank, master)) ∧
        (∀ m, Tab.find s.clock.masters e.val = some m → Tab.find t.clock.masters e.val =
          if rank < m.1 ∨ m.2 = master then some (rank, master) else some m))) ∧
    (∀ now : BitVec 64, s.bit F.TIME_PTP_CFG_ROOT = true →
      ∃ t, exec (.announceTimeout now) s = .next t ∧ t.fld F.TIME_STAT_PRIMARY = 1 - s.fld F.TIME_STAT_PRIMARY ∧
        raised (s.at_ now) t 0x0400 0x0704 (leBytes 1 (1 - s.fld F.TIME_STAT_PRIMARY)) false ∧ t.clock.adj = s.clock.adj) ∧
    (s.hasSource = false → s.bit F.TIME_STAT_HOLDOVER = false →
      ∃ t, exec .timeHoldover s = .next t ∧ t.bit F.TIME_STAT_HOLDOVER = true ∧ t.fld F.TIME_STAT_SOURCE = 3 ∧ raised s t 0x0400 0x0703 [] false) ∧
    (s.hasSource = true ∨ s.bit F.TIME_STAT_HOLDOVER = true → exec .timeHoldover s = .next s)

/-- An RD of memory in service is answered with its bytes; one that meets poison with UNCORRECTABLE. A WR leaves its
bytes, and no other, changed. Without a log it is answered at once; while the node logs to another node the entry
joins the log and the answer is held until that entry is acknowledged. A request of unmapped or offline memory is
answered with that status and changes no byte. -/
def Obligations.RemoteReadsAndWrites : Prop :=
  ∀ (p : PortId) (m : Msg) (now : BitVec 64) (s : State), takes s p m = true → canReach s m.src = true → m.rsp = false →
    m.space = 0 → s.dir = [] → s.dirTrans = [] →
    let a := m.addr.toNat
    let quiet := fun (t : State) => sameMemory s t ∧ t.regs = s.regs ∧ t.tiles = s.tiles ∧ t.harts = s.harts ∧ t.reqs = s.reqs
    (m.opc = 1 →
      (s.memStatus a m.len.toNat = St.ok → s.badRead a m.len.toNat = false →
        ∃ t, exec (.rd p m now) s = .next t ∧ answered s t m 1 St.ok (s.bytes a m.len.toNat) ∧ quiet t) ∧
      (s.memStatus a m.len.toNat = St.ok → s.badRead a m.len.toNat = true →
        ∃ t, exec (.rd p m now) s = .next t ∧ answered s t m 1 St.uncorrectable [] ∧ sameMemory s t) ∧
      (s.memStatus a m.len.toNat ≠ St.ok →
        ∃ t, exec (.rd p m now) s = .next t ∧ answered s t m 1 (s.memStatus a m.len.toNat) [] ∧ quiet t)) ∧
    (m.opc = 2 →
      (s.memStatus a m.data.length = St.ok → memQuiet s = true → memoriesWf s → s.wcb = [] →
        let wrote := fun (t : State) => exec (.wr p m now) s = .next t ∧
          memoryAfter s t (storedBytes [⟨BitVec.ofNat 64 a, m.data.length⟩] m.data) ∧ t.tiles = s.tiles ∧ t.reqs = s.reqs
        (s.logging = false → ∃ t, wrote t ∧ answered s t m 2 St.ok [] ∧ t.resil.log = s.resil.log) ∧
        (∀ n, s.logging = true → s.logTarget = some n → ∃ t c, wrote t ∧
          t.resil.log = s.resil.log ++ [{ type := 1, pos := s.lastEvent, pick := s.eventPick, lsn := s.resil.lsn, key := a, payload := m.data }] ∧
          t.resil.held = s.resil.held ++ [.respond s.resil.lsn { response m St.ok [] with cong := c }] ∧
          ∀ x ∈ t.outbox.drop s.outbox.length, x.rsp = false)) ∧
      (s.memStatus a m.data.length ≠ St.ok →
        ∃ t, exec (.wr p m now) s = .next t ∧ answered s t m 2 (s.memStatus a m.data.length) [] ∧ quiet t))

/-- An ATOM newer than the ledger's SEQ of its source replaces the word by the value that Table 10-10 gives, returns the
old one, keeps it for 16 ms and sets the ledger. A repeated SEQ changes no byte: its kept result is returned and
counted in REPLAYED, or OUTCOME_UNKNOWN when none is kept. Without a log ARRIVE adds one to its counter and no other.
LEDGER_SYNC discards the SEQ and results of its source alone. -/
def Obligations.AtomsArrivalsAndTheLedger : Prop :=
  ∀ (p : PortId) (m : Msg) (now : BitVec 64) (s : State), takes s p m = true → canReach s m.src = true → m.rsp = false →
    s.dir = [] → s.dirTrans = [] → s.logging = false →
    let a := m.addr.toNat
    let b := bytesAt m.data
    let w := if b 4 1 = 5 then 16 else 8
    let seq : Word := BitVec.ofNat 32 (b 0 4)
    let old := s.bytes a w
    let time := max s.clock.ns.toNat now.toNat
    let kept := s.replays.filter (fun r => decide (time < r.applied + 16000000))
    let fld := fun (f : Fld) => f.plus (dieBase (p.val / 10))
    (m.opc = 3 → m.space = 0 → 1 ≤ b 4 1 → b 4 1 ≤ 12 → b 5 3 = 0 → a % w = 0 →
      ((∀ h, Tab.find s.ledger m.src.toNat = some h → 0 < (seq - h).toInt) → s.memStatus a w = St.ok → memQuiet s = true →
        memoriesWf s → s.wcb = [] →
        ∃ t, exec (.atom p m now) s = .next t ∧ answered s t m 3 St.ok old ∧
          memoryAfter s t (storedBytes [⟨BitVec.ofNat 64 a, w⟩]
            (leBytes w ((atomNew (b 4 1) w (leNat old) (b 8 w) (b (8 + w) w)).getD (leNat old)))) ∧
          Tab.find t.ledger m.src.toNat = some seq ∧ (∀ n, n ≠ m.src.toNat → Tab.find t.ledger n = Tab.find s.ledger n) ∧
          ⟨m.src, seq, old, time⟩ ∈ t.replays ∧ t.tiles = s.tiles) ∧
      (∀ h, Tab.find s.ledger m.src.toNat = some h → (seq - h).toInt ≤ 0 →
        (∀ r, kept.find? (fun r => r.src == m.src && r.seq == seq) = some r →
          ∃ t, exec (.atom p m now) s = .next t ∧ answered s t m 3 St.ok r.result ∧ sameMemory s t ∧ t.ledger = s.ledger ∧
            t.fld (fld F.FAB_ATOM_REPLAYED) = (s.fld (fld F.FAB_ATOM_REPLAYED) + 1) % 2 ^ (F.FAB_ATOM_REPLAYED.hi - F.FAB_ATOM_REPLAYED.lo + 1)) ∧
        (kept.find? (fun r => r.src == m.src && r.seq == seq) = none →
          ∃ t, exec (.atom p m now) s = .next t ∧ answered s t m 3 St.outcomeUnknown [] ∧ sameMemory s t ∧ t.ledger = s.ledger))) ∧
    (m.opc = 4 →
      let k : TileId := BitVec.ofNat 8 (a / 64)
      ∃ t, exec (.arrive p m now) s = .next t ∧ answered s t m 4 St.ok [] ∧ t.arrival k (a % 64) = s.arrival k (a % 64) + 1 ∧
        (∀ (j : TileId) (n : Nat), n < 64 → j ≠ k ∨ n ≠ a % 64 → t.arrival j n = s.arrival j n) ∧ t.mem = s.mem) ∧
    (m.opc = 5 →
      ∃ t, exec (.ledgerSync p m now) s = .next t ∧ answered s t m 5 St.ok [] ∧ Tab.find t.ledger m.src.toNat = none ∧
        (∀ n, n ≠ m.src.toNat → Tab.find t.ledger n = Tab.find s.ledger n) ∧ t.replays = s.replays.filter (fun r => r.src != m.src) ∧
        t.mem = s.mem ∧ t.regs = s.regs)

/-- ATOM_RETRANSMIT of an ATOM that has no response sends the same message again at 2 ms, 6 ms and 14 ms after the first
send, each once, and before those times sends nothing. At 16 ms the request is given up and the hart that waits for it
gets OUTCOME_UNKNOWN. -/
def Obligations.AtomsAreRetransmitted : Prop :=
  ∀ (tag : BitVec 16) (now : BitVec 64) (r : Req) (s : State),
    s.reqs.find? (fun r => r.msg.tag == tag && r.msg.opc == 3) = some r → r.msg.vc = 4 → canReach s r.msg.dst = true →
    let time := max s.clock.ns.toNat now.toNat
    let due := (r.sends = 1 ∧ r.sentAt + 2000000 ≤ time) ∨ (r.sends = 2 ∧ r.sentAt + 6000000 ≤ time) ∨ (r.sends = 3 ∧ r.sentAt + 14000000 ≤ time)
    (time < r.sentAt + 16000000 → due →
      ∃ t, exec (.atomRetransmit tag now) s = .next t ∧ t.outbox = s.outbox ++ [onItsPort s (msgOut r.msg)] ∧
        t.reqs = s.reqs.map (fun q => if q = r then { q with sends := r.sends + 1 } else q) ∧ t.mem = s.mem ∧ t.harts = s.harts) ∧
    (time < r.sentAt + 16000000 → ¬due → exec (.atomRetransmit tag now) s = .next (s.at_ now)) ∧
    (r.sentAt + 16000000 ≤ time →
      ∃ t, exec (.atomRetransmit tag now) s = .next t ∧ t.outbox = s.outbox ∧ t.reqs = s.reqs.erase r ∧ t.mem = s.mem ∧
        ∀ h : HartId, r.owner = .hart h → r.msg.tag = tag → r.msg.len ≠ 0 →
          gotReply s t h tag [] [(farKey r.msg.dst r.msg.addr.toNat, r.msg.len.toNat, St.outcomeUnknown)])

/-- FABRIC_RESPONSE takes the request that it answers off the list and gives the hart that waits for it the bytes read,
the bytes acknowledged or the failure; one with CONG is counted in FAB_CONG.MARKS. REQUEST_TIMEOUT ends an RD, WR,
ARRIVE or LEDGER_SYNC with TIMEOUT once FAB_TIMEOUT.REQ ms have passed, not before. REPLAY_CACHE_EXPIRY discards
results 16 ms old, CONG_EXPIRY a destination 100 microseconds after its last mark. -/
def Obligations.ResponsesAndTimeLimits : Prop :=
  ∀ (p : PortId) (m : Msg) (tag : BitVec 16) (dst : NodeId) (now : BitVec 64) (s : State),
    let time := max s.clock.ns.toNat now.toNat
    (∀ r (h : HartId), takes s p m = true → s.reqOf m = some r → r.owner = .hart h →
      let key := farKey r.msg.dst r.msg.addr.toNat
      ∃ t, exec (.fabricResponse p m now) s = .next t ∧ t.reqs = s.reqs.erase r ∧ t.mem = s.mem ∧ t.tiles = s.tiles ∧
        (∀ k : HartId, k ≠ h → t.hart k = s.hart k) ∧
        (m.addr.toNat % 65536 = 0 → r.msg.opc ≠ 2 →
          gotReply s t h m.tag ((List.range m.data.length).map (fun i => (key + i, m.data.getD i 0))) []) ∧
        (m.addr.toNat % 65536 = 0 → r.msg.opc = 2 →
          gotReply s t h m.tag ((List.range r.msg.len.toNat).map (fun i => (key + i, 0))) []) ∧
        (m.addr.toNat % 65536 ≠ 0 → gotReply s t h m.tag [] [(key, r.msg.len.toNat, BitVec.ofNat 16 m.addr.toNat)]) ∧
        t.fld (F.FAB_CONG_MARKS.plus (dieBase (p.val / 10))) =
          (s.fld (F.FAB_CONG_MARKS.plus (dieBase (p.val / 10))) + (if m.cong then 1 else 0)) %
            2 ^ (F.FAB_CONG_MARKS.hi - F.FAB_CONG_MARKS.lo + 1)) ∧
    (∀ r, s.reqs.find? (fun r => r.msg.tag == tag && (r.msg.opc == 1 || r.msg.opc == 2 || r.msg.opc == 4 || r.msg.opc == 5)) = some r →
      (s.fld F.FAB_TIMEOUT_REQ * 1000000 ≤ time - r.sentAt →
        ∃ t, exec (.requestTimeout tag now) s = .next t ∧ t.reqs = s.reqs.erase r ∧ t.mem = s.mem ∧ t.outbox = s.outbox ∧
          ∀ h : HartId, r.owner = .hart h → r.msg.tag = tag → r.msg.len ≠ 0 →
            gotReply s t h tag [] [(farKey r.msg.dst r.msg.addr.toNat, r.msg.len.toNat, St.timeout)]) ∧
      (time - r.sentAt < s.fld F.FAB_TIMEOUT_REQ * 1000000 → exec (.requestTimeout tag now) s = .next (s.at_ now))) ∧
    exec (.replayCacheExpiry now) s = .next { s.at_ now with replays := s.replays.filter (fun r => decide (time < r.applied + 16000000)) } ∧
    ∃ t, exec (.congExpiry dst now) s = .next t ∧ { t with cong := s.cong, overflow := s.overflow } = s.at_ now ∧
      ∀ e, (e ∈ t.cong ↔ e ∈ s.cong ∧ (e.2.1 ≠ dst ∨ time < e.2.2 + 100000)) ∧
        (e ∈ t.overflow ↔ e ∈ s.overflow ∧ (e.2.1 ≠ dst ∨ time < e.2.2 + 100000))

/-- With no open transaction, GETS of a line no other member owns is answered with DATA and lists the source; of an owned
line it becomes FWD_GETS to the owner. GETM of a line with no other holder makes the source owner; with sharers it
becomes an INV to each; with an owner FWD_GETM. PUTM of the owner stores its 64 bytes and frees the line, of another
node it changes nothing; both are answered with ACK. A source outside the domain gets COHERENCE_DOMAIN. An owner that
is asked for another member sends it the line; on FWD_GETS it keeps it unmodified and sends the home the data, on
FWD_GETM it drops it and acknowledges. INV drops a line and acknowledges. DATA that a hart waits for is held from then
on, modified after GETM. The last DATA or ACK of a transaction at the home ends it, with the line as the transaction
says, and DATA is stored. An ACK of a write-back ends that request. -/
def Obligations.SpanCoherence : Prop :=
  (∀ (p : PortId) (m : Msg) (s : State), takes s p m = true → canReach s m.src = true → m.rsp = false → memQuiet s = true →
    s.dirTrans = [] → s.dir.length < 16 →
    let line := m.addr.toNat / 64 * 64
    let held := Tab.find s.dir line
    let opens := fun (t : State) (next : Option DirState) (l : List NodeId) (opc : Nat) (w : List (PortId × Msg)) =>
      t.dir = s.dir ∧ sameMemory s t ∧ (∃ x, t.dirTrans = [x] ∧ x.line = line ∧ x.next = next ∧ x.acks.map Prod.fst = l ∧ x.waiting = w) ∧
        (t.outbox.drop s.outbox.length).map (fun x => (x.dst, x.opc, x.addr)) = l.map (fun n => (n, opc, line))
    let keeps := fun (t : State) => ∀ n, n ≠ line → Tab.find t.dir n = Tab.find s.dir n
    (s.inDomain m.src = true → s.memStatus line 64 = St.ok →
      let grants := fun (t : State) (d : DirState) => answered s t m 0x16 St.ok (s.bytes line 64) ∧ Tab.find t.dir line = some d ∧
        keeps t ∧ sameMemory s t ∧ t.dirTrans = []
      (m.opc = 0x10 →
        (held = none → ∃ t, exec (.gets p m) s = .next t ∧ grants t (.shared [m.src])) ∧
        (∀ l, held = some (.shared l) → ∃ t, exec (.gets p m) s = .next t ∧ grants t (.shared (if m.src ∈ l then l else m.src :: l))) ∧
        (∀ n, held = some (.owned n) → n ≠ m.src → canReach s n = true →
          ∃ t, exec (.gets p m) s = .next t ∧ opens t (some (.shared [n, m.src])) [n] 0x13 [])) ∧
      (m.opc = 0x11 →
        (held = none ∨ held = some (.shared [m.src]) → ∃ t, exec (.getm p m) s = .next t ∧ grants t (.owned m.src)) ∧
        (∀ l, held = some (.shared l) → l.filter (· != m.src) ≠ [] → (∀ n ∈ l, canReach s n = true) →
          ∃ t, exec (.getm p m) s = .next t ∧ opens t none (l.filter (· != m.src)) 0x15 [(p, m)]) ∧
        (∀ n, held = some (.owned n) → n ≠ m.src → canReach s n = true →
          ∃ t, exec (.getm p m) s = .next t ∧ opens t (some (.owned m.src)) [n] 0x14 [])) ∧
      (m.opc = 0x12 →
        (held = some (.owned m.src) → m.data.length = 64 → memoriesWf s → s.wcb = [] →
          ∃ t, exec (.putm p m) s = .next t ∧ answered s t m 0x17 St.ok [] ∧ Tab.find t.dir line = none ∧ keeps t ∧
            memoryAfter s t (storedBytes [⟨BitVec.ofNat 64 line, 64⟩] m.data)) ∧
        (held ≠ some (.owned m.src) →
          ∃ t, exec (.putm p m) s = .next t ∧ answered s t m 0x17 St.ok [] ∧ t.dir = s.dir ∧ sameMemory s t))) ∧
    (s.inDomain m.src = false →
      (m.opc = 0x10 → ∃ t, exec (.gets p m) s = .next t ∧ answered s t m 0x16 St.coherenceDomain [] ∧ t.dir = s.dir ∧ sameMemory s t) ∧
      (m.opc = 0x11 → ∃ t, exec (.getm p m) s = .next t ∧ answered s t m 0x16 St.coherenceDomain [] ∧ t.dir = s.dir ∧ sameMemory s t)))
  ∧ (∀ (p : PortId) (m : Msg) (s : State), takes s p m = true → canReach s m.src = true →
    let line := m.addr.toNat / 64 * 64
    let key := farKey m.src line
    let r : NodeId := BitVec.ofNat 14 (bytesAt m.data 0 2)
    let others := fun (k : Nat) (t : State) => ∀ n, n ≠ k → Tab.find t.coh n = Tab.find s.coh n
    (∀ c, Tab.find s.coh key = some c → r ≠ m.src → canReach s r = true → (∀ q ∈ s.reqs, q.owner ≠ .coh key) →
      let give := onItsPort s { response m St.ok c.bytes with opc := 0x16, dst := r, tag := BitVec.ofNat 16 (bytesAt m.data 2 2) }
      (∃ t, exec (.fwdGets p m) s = .next t ∧ t.outbox = s.outbox ++ [give, onItsPort s { response m St.ok c.bytes with opc := 0x16 }] ∧
        Tab.find t.coh key = some { c with modified := false } ∧ others key t ∧ t.mem = s.mem) ∧
      ∃ t, exec (.fwdGetm p m) s = .next t ∧ t.outbox = s.outbox ++ [give, onItsPort s { response m St.ok [] with opc := 0x17 }] ∧
        Tab.find t.coh key = none ∧ others key t ∧ t.mem = s.mem) ∧
    (m.opc = 0x15 → m.rsp = false →
      ∃ t, exec (.inv p m) s = .next t ∧ answered s t m 0x17 St.ok [] ∧ Tab.find t.coh key = none ∧ others key t ∧ t.mem = s.mem) ∧
    (∀ q, s.reqs.find? (fun r => r.msg.tag == m.tag && (r.msg.opc == 0x10 || r.msg.opc == 0x11)) = some q → m.addr.toNat % 65536 = 0 →
      let mine := farKey q.msg.dst (q.msg.addr.toNat / 64 * 64)
      ∃ t, exec (.data p m) s = .next t ∧ Tab.find t.coh mine = some ⟨q.msg.opc == 0x11, m.data⟩ ∧ others mine t ∧
        t.reqs = s.reqs.erase q ∧ t.mem = s.mem ∧ ∀ h : HartId, (Tab.find s.harts h.toNat).isSome = true → gotReply s t h m.tag [] []) ∧
    (∀ n next, s.dirTrans = [⟨n, next, [(m.src, m.tag)], []⟩] → next ≠ some (.shared []) → (∀ q ∈ s.reqs, q.msg.tag ≠ m.tag) →
      let ends := fun (t : State) => t.dirTrans = [] ∧ Tab.find t.dir n = next ∧ t.outbox = s.outbox ∧
        ∀ k, k ≠ n → Tab.find t.dir k = Tab.find s.dir k
      (∃ t, exec (.ack p m) s = .next t ∧ ends t ∧ t.mem = s.mem) ∧
      (m.data.length = 64 → s.memStatus n 64 = St.ok → memQuiet s = true → memoriesWf s → s.wcb = [] →
        ∃ t, exec (.data p m) s = .next t ∧ ends t ∧ memoryAfter s t (storedBytes [⟨BitVec.ofNat 64 n, 64⟩] m.data))) ∧
    (∀ q, s.reqs.find? (fun r => r.msg.tag == m.tag && r.msg.opc == 0x12) = some q →
      ∃ t, exec (.ack p m) s = .next t ∧ t.reqs = s.reqs.erase q ∧ t.mem = s.mem ∧ t.outbox = s.outbox))

/-- At a port in service a damaged flit, or a DATA flit out of order, is answered with an IDLE flit that carries NAK and
delivers nothing. A DATA flit in order advances the sequence number, is acknowledged, and its messages for this node
join those that the port has delivered. ACK_TIMEOUT_RESEND sends every unacknowledged DATA flit again, the oldest
first, and counts it. A flit at a port out of service changes nothing. A die-to-die retry is counted; the sixteenth in
a row stops the node with a fatal event (its code is a free value, assumption log 9). A port in service leaves it
after 16 failures of one flit, on lost lock, or at firmware's word: its status bits say so, its readiness bit clears
and LINK_DOWN is recorded; before 16 failures nothing changes but the time. The link exchange keeps its proof when
both signatures verify and the peer stands where the wiring says, else raises LINK_AUTH_FAILED. Training with the
proof puts the port into service with fresh sequence numbers. The third failure within 10 s disables it. The first
SW_ASSIGN, on an uplink, gives a node without a number chain, span and slot as its number on both fabric dies. A later
one that names the same span changes nothing more; one that names another puts its port out of service with
LINK_AUTH_FAILED. NODE_ANNOUNCE on a copper port is recorded in FAB_PORT_STAT, unless its number lies in another span
than the node's own: then the port leaves service with LINK_AUTH_FAILED. -/
def Obligations.LinksAndPorts : Prop :=
  (∀ (p : PortId) (flit : List Byte) (s : State),
    let x := s.port p
    let h := linkHdr flit
    let refused := fun (t : State) => exec (.flitReceive p flit) s = .next t ∧ (t.port p).nak = true ∧ (t.port p).rxSeq = x.rxSeq ∧
      (t.port p).rxMsgs = x.rxMsgs ∧ (t.port p).rxSlots = x.rxSlots ∧ (∃ y, (t.port p).tx.getLast? = some (idleFlit y) ∧ y.nak = true) ∧
      otherPorts p s t ∧ { t with ports := s.ports, regs := s.regs } = s
    (flit.length = 256 →
      (s.portUp p = false → exec (.flitReceive p flit) s = .next s) ∧
      (s.portUp p = true →
        (crcOk flit = false → ∃ t, refused t ∧ (t.port p).fails = x.fails + 1 ∧ t.regs = s.regs) ∧
        (crcOk flit = true → h.type = 1 → h.seq ≠ x.rxSeq + 1 → ∃ t, refused t) ∧
        (crcOk flit = true → h.type = 1 → h.seq = x.rxSeq + 1 →
          let d := x.rxSlots ++ (flit.drop 8).take 240
          let r := parseSlots d.length d
          (∀ m ∈ r.1, s.resil.fence.contains m.src = false ∧ s.malformed m = false ∧ heldOpc m.opc.toNat = true ∧
            (m.loc = true ∨ s.nodeValid = false ∨ m.dst = s.nodeId)) →
          ∃ t, exec (.flitReceive p flit) s = .next t ∧ (t.port p).rxSeq = h.seq ∧ (t.port p).nak = false ∧ (t.port p).fails = 0 ∧
            (t.port p).rxMsgs = x.rxMsgs ++ r.1 ∧ (t.port p).rxSlots = r.2 ∧
            (∃ y, (t.port p).tx.getLast? = some (idleFlit y) ∧ y.nak = false ∧ y.rxSeq = h.seq) ∧
            otherPorts p s t ∧ { t with ports := s.ports, regs := s.regs } = s))) ∧
    (s.portUp p = true → x.unacked ≠ [] →
      ∃ t, exec (.ackTimeoutResend p) s = .next t ∧ (t.port p).tx = x.tx ++ x.unacked.map (fun e => dataFlit x e.1 e.2) ∧
        (t.port p).unacked = x.unacked ∧ otherPorts p s t ∧ otherRegs [R.FAB_PORT_ERR + dieBase (p.val / 10) + 8 * (p.val % 10)] s t ∧
        t.fld (pfld p F.FAB_PORT_ERR_RETRIES) = min (s.fld (pfld p F.FAB_PORT_ERR_RETRIES) + 1)
          (2 ^ (F.FAB_PORT_ERR_RETRIES.hi - F.FAB_PORT_ERR_RETRIES.lo + 1) - 1)) ∧
    (∀ (k : LinkId) (n : Nat),
      let f := fun (f : Fld) => f.plus (8 * k.val)
      let counts := fun (t : State) => exec (.d2dFlitRetry k n) s = .next t ∧ t.fld (f F.GLB_D2D_ERR_RETRIES) =
        min (s.fld (f F.GLB_D2D_ERR_RETRIES) + 1) (2 ^ (F.GLB_D2D_ERR_RETRIES.hi - F.GLB_D2D_ERR_RETRIES.lo + 1) - 1)
      (n < 16 → ∃ t, counts t ∧ { t with regs := s.regs } = s ∧ otherRegs [(f F.GLB_D2D_ERR_RETRIES).off] s t) ∧
      (16 ≤ n → ∃ t code, counts t ∧ t.bit (f F.GLB_D2D_ERR_FAILED) = true ∧ t.power.stopped = true ∧ t.power.thermtripN = true ∧
        t.bit F.GLB_FATAL_VALID = true ∧ t.livePorts = [] ∧ (∀ i ∈ [12, 13, 14, 16, 17, 18, 19], t.ready i = false) ∧
        raised s t 0x0900 code [] true ∧ t.mem = s.mem)))
  ∧ (∀ (p : PortId) (why : DownCause) (now : BitVec 64) (s : State),
    let f := fun (f : Fld) => pfld p f
    let time := max s.clock.ns.toNat now.toNat
    (s.portUp p = true → (why = .failures → 16 ≤ (s.port p).fails ∨ 16 ≤ (s.port p).txFails) →
      ∃ t, exec (.portLeavesService p why now) s = .next t ∧ t.portUp p = false ∧ t.bit (f F.FAB_PORT_STAT_AUTH) = false ∧
        t.bit (f F.FAB_PORT_STAT_DOWN_EV) = true ∧ t.bit (f F.FAB_PORT_STAT_PEER_VALID) = false ∧
        t.bit (f F.FAB_PORT_STAT_TRAINING) = s.ready (4 + p.val / 10) ∧ t.ready (64 + p.val) = false ∧ (t.port p).unacked = [] ∧
        recorded (s.at_ now) t (0x300 + 0x40 * (p.val / 10)) St.linkDown (leBytes 1 p.val) false ∧
        (∀ q, q ≠ p → t.portUp q = s.portUp q) ∧ t.mem = s.mem ∧ t.tiles = s.tiles) ∧
    ((s.port p).fails < 16 → (s.port p).txFails < 16 → exec (.portLeavesService p .failures now) s = .next (s.at_ now)) ∧
    (∀ x : LinkProof,
      let nonce := (Config.random s.fw.draws).take 32
      let ok := Config.slhVerify slh256s s.vendorKey (ascii (if x.switch then "FVN-SWITCH" else "FVN-IDENT")) x.cert x.certSig = true ∧
        Config.slhVerify slh256f x.key (ascii "FVN-LINK")
          (x.nonce ++ nonce ++ leBytes 2 x.position.toNat ++ leBytes 1 x.port.toNat ++ leBytes 2 s.position ++ leBytes 1 p.val) x.sig = true ∧
        s.placeOk p x = true
      ∃ t, exec (.linkExchange p x) s = .next t ∧ ((t.port p).proof = true ↔ ok) ∧ (t.port p).peerSwitch = x.switch ∧
        (¬ok → raised s t (0x300 + 0x40 * (p.val / 10)) St.linkAuthFailed (leBytes 1 p.val) false) ∧ (ok → t.rings = s.rings) ∧
        otherPorts p s t ∧ t.fw.draws = s.fw.draws + 1 ∧ t.mem = s.mem) ∧
    (∀ n : BitVec 5, s.portUp p = false → s.bit (f F.FAB_PORT_STAT_DISABLED) = false → s.ready (4 + p.val / 10) = true → s.power.stopped = false →
      let near := (s.port p).retrains.filter (fun a => decide (time < a + 10000000000))
      ((s.port p).proof = true →
        ∃ t, exec (.portTrained p n true now) s = .next t ∧ t.portUp p = true ∧ t.bit (f F.FAB_PORT_STAT_AUTH) = true ∧
          t.bit (f F.FAB_PORT_STAT_TRAINING) = false ∧ t.fld (f F.FAB_PORT_STAT_PEER_PORT) = n.toNat ∧ t.ready (64 + p.val) = true ∧
          (t.port p).rxSeq = 0xFFFF ∧ (t.port p).nak = false ∧ (t.port p).retrains = [] ∧ otherPorts p s t ∧ t.mem = s.mem) ∧
      (∃ t, exec (.portTrained p n false now) s = .next t ∧ t.portUp p = false ∧
        t.bit (f F.FAB_PORT_STAT_DISABLED) = decide (2 ≤ near.length) ∧ t.bit (f F.FAB_PORT_STAT_TRAINING) = decide (near.length < 2) ∧
        (t.port p).retrains = near ++ [time] ∧ otherPorts p s t ∧ t.mem = s.mem)))
  ∧ (∀ (p : PortId) (m : Msg) (s : State), takes s p m = true →
    let span := m.addr.toNat % 16384 / 16
    let n := m.addr.toNat % 16384
    let denied := fun (t : State) => t.portUp p = false ∧ raised s t (0x300 + 0x40 * (p.val / 10)) St.linkAuthFailed (leBytes 1 p.val) false ∧
      t.nodeId = s.nodeId ∧ (∀ q, q ≠ p → t.portUp q = s.portUp q)
    (optical p = true →
      (s.nodeValid = false → ∃ t, exec (.swAssign p m) s = .next t ∧ t.nodeValid = true ∧
        t.nodeId.toNat = span * 16 + s.power.slotId.toNat % 16 ∧
        t.fld (F.FAB_NODE_ID_NODE.plus 0x400000) = span * 16 + s.power.slotId.toNat % 16 ∧ t.portUp p = true ∧ t.mem = s.mem) ∧
      (s.nodeValid = true → s.nodeId.toNat / 16 = span →
        ∃ t, exec (.swAssign p m) s = .next t ∧ t.regs = s.regs ∧ t.rings = s.rings ∧ t.outbox = s.outbox ∧ t.mem = s.mem) ∧
      (s.nodeValid = true → s.nodeId.toNat / 16 ≠ span → ∃ t, exec (.swAssign p m) s = .next t ∧ denied t)) ∧
    (optical p = false →
      (s.nodeValid = false ∨ n / 16 = s.nodeId.toNat / 16 →
        ∃ t, exec (.nodeAnnounce p m) s = .next t ∧ t.fld (pfld p F.FAB_PORT_STAT_PEER) = n ∧
          t.bit (pfld p F.FAB_PORT_STAT_PEER_VALID) = true ∧ t.portUp p = true ∧ t.nodeId = s.nodeId ∧ t.mem = s.mem) ∧
      (s.nodeValid = true → n / 16 ≠ s.nodeId.toNat / 16 → ∃ t, exec (.nodeAnnounce p m) s = .next t ∧ denied t)))

/-- COL_SUBMIT of a readable descriptor for a context that is not aborted and holds fewer than 16 queues it under the next
SEQ. Without a context, or with 16 queued, it completes at once: its record says COL_NO_CONTEXT or COL_QUEUE_FULL and
no other byte changes. One that cannot be read is reported with BAD_DESCRIPTOR alone. COLLECTIVE_HEAD of a descriptor
that passes every check starts it with SRC read, a policy that is due in force, and no byte changed; one whose form is
bad aborts the context. -/
def Obligations.CollectivesAreSubmittedAndHeaded : Prop :=
  ∀ (q : Requester) (v now : BitVec 64) (s : State), memQuiet s = true →
    (s.reaches q R.COL_SUBMIT = true →
      let a := v.toNat % 2 ^ 48 / 64 * 64
      let desc := s.bytes a 64
      let x := ColDesc.of desc
      let c : CtxId := BitVec.ofNat 8 x.ctx
      let seq := s.ctxSeq c
      let rec_ := fun (st : Status) => leBytes 2 st.toNat ++ zeros 2 ++ zeros 12 ++ leBytes 8 s.clock.ns.toNat ++ leBytes 8 s.clock.ns.toNat
      let fails := fun (t : State) (st : Status) (gid : Word) => exec (.colSubmit q v) s = .next t ∧
        memoryAfter s t (storedBytes [⟨BitVec.ofNat 64 x.crec, 32⟩] (rec_ st)) ∧ t.ctxs = s.ctxs ∧ t.bit F.COL_STAT_ERR = true ∧
        (s.bit F.COL_STAT_ERR = false → t.fld F.COL_STAT_FIRST_STATUS = st.toNat) ∧
        raised s t 0x380 st (leBytes 4 gid.toNat ++ zeros 4) false
      (s.memStatus a 64 = St.ok → x.crec % 32 = 0 → s.memStatus x.crec 32 = St.ok →
        (∀ k, s.ctx c = some k → k.pending < 16 → s.ctxAborted c = false →
          ∃ t, exec (.colSubmit q v) s = .next t ∧ t.ctx c = some { k with queue := k.queue ++ [⟨seq, a, desc⟩] } ∧
            t.ctxSeq c = seq + 1 ∧ (∀ b, b ≠ c → t.ctx b = s.ctx b) ∧ t.mem = s.mem ∧ t.rings = s.rings) ∧
        (memoriesWf s → s.wcb = [] → s.ctx c = none → ∃ t, fails t St.colNoContext 0) ∧
        (∀ k, memoriesWf s → s.wcb = [] → s.ctx c = some k → 16 ≤ k.pending → ∃ t, fails t St.colQueueFull k.gid)) ∧
      (s.memStatus a 64 ≠ St.ok ∨ x.crec % 32 ≠ 0 ∨ s.memStatus x.crec 32 ≠ St.ok →
        ∃ t, exec (.colSubmit q v) s = .next t ∧ raised s t 0x380 St.badDescriptor [] false ∧ t.bit F.COL_STAT_ERR = true ∧
          { t with regs := s.regs, rings := s.rings } = s)) ∧
    (∀ (c : CtxId) x e rest, s.ctx c = some x → x.run = none → x.queue = e :: rest → x.credits = [] → s.dir = [] → s.dirTrans = [] →
      s.bit F.COL_STAT_REPLAY = false →
      let d := ColDesc.of e.desc
      let me := x.members.idxOf s.nodeId
      let n := (d.sizes x.members.length me).1
      (s.colChecks d x.members.length me = St.ok → (∀ m ∈ x.members, m = s.nodeId ∨ s.windowMatch m 2 0x20 0 0 = true) →
        s.badRead d.src n = false →
        ∃ t y r, exec (.collectiveHead c now) s = .next t ∧ t.ctx c = some y ∧ y.queue = rest ∧ y.run = some r ∧ r.seq = e.seq ∧
          r.desc = e.desc ∧ r.src = s.bytes d.src n ∧ r.start = max s.clock.ns.toNat now.toNat ∧ r.ddig = colDigest e.desc r.alg x.gid e.seq ∧
          (olderSeq e.seq (BitVec.ofNat 32 (s.fld (ctxStat c F.COL_CTX_POLICY_FROM_SEQ))) = false →
            t.fld (ctxStat c F.COL_CTX_POLICY_CUR_THRESH) = s.fld (ctxStat c F.COL_CTX_POLICY_NEXT_THRESH) ∧
            t.bit (ctxStat c F.COL_CTX_POLICY_CUR_RING) = s.bit (ctxStat c F.COL_CTX_POLICY_NEXT_RING)) ∧
          (∀ b, b ≠ c → t.ctx b = s.ctx b) ∧ t.mem = s.mem) ∧
      (d.formBad x.members.length me = true →
        ∃ t y, exec (.collectiveHead c now) s = .next t ∧ t.ctx c = some y ∧ y.run = none ∧ t.ctxAborted c = true ∧
          t.fld (ctxStat c F.COL_CTX_STAT_REASON) = St.aborted.toNat))

/-- COL_CREDIT of a current collective that does not run yet is kept. COL_DATA of the step in progress is kept in its
place until the transfer is whole; with another digest it aborts the collective with MISMATCH; one of an older SEQ is
counted in COL_ERR.STALE and dropped, one of an unknown group reported. COLLECTIVE_COMPLETE of a finished exchange,
outside a log, writes the final values to DST, then the record with OK, and no other byte; while the node logs, the
record waits for the log. COL_ABORT of the running collective, and COLLECTIVE_TIMEOUT once COL_CFG.TIMEOUT ms have
passed since it reached the head, end it with a record of the status, count it and make the context ABORTED with the
reason; before that time only the clock moves. COL_ABORT of one still to be submitted is kept for it. RESET by
firmware empties the context, clears STATE and REASON and sets SEQ; DESTROY by FBC0 or FBC1 removes it; neither
touches another context. COL_CTX_POLICY takes its three fields from FBC0 and FBC1 alone. -/
def Obligations.CollectiveMessagesAndEnds : Prop :=
  (∀ (p : PortId) (m : Msg) (c : CtxId) (x : Ctx) (s : State), s.ctx c = some x →
    let b := bytesAt m.data
    let seq : Word := BitVec.ofNat 32 (b 4 4)
    let peer := x.members.idxOf m.src
    let others := fun (t : State) => ∀ e, e ≠ c → t.ctx e = s.ctx e
    (takes s p m = true → s.bit F.COL_STAT_REPLAY = false →
      (s.ctxOfGroup (BitVec.ofNat 32 (b 0 4)) = none →
        ∃ t, exec (.colData p m) s = .next t ∧ raised s t 0x380 St.colUnknownGroup [] false ∧ t.ctxs = s.ctxs ∧ t.mem = s.mem) ∧
      (s.ctxOfGroup (BitVec.ofNat 32 (b 0 4)) = some c →
        (olderSeq seq (s.currentSeq c x) = true →
          ∃ t, exec (.colData p m) s = .next t ∧ t.fld F.COL_ERR_STALE = (s.fld F.COL_ERR_STALE + 1) % 2 ^ (F.COL_ERR_STALE.hi - F.COL_ERR_STALE.lo + 1) ∧
            t.ctxs = s.ctxs ∧ t.mem = s.mem ∧ t.outbox = s.outbox) ∧
        (olderSeq seq (s.currentSeq c x) = false →
          (x.run = none → x.credits.length < 64 →
            ∃ t, exec (.colCredit p m) s = .next t ∧ t.ctx c = some { x with credits := x.credits ++
              [⟨seq, b 12 1 % 16, b 13 1, peer, b 14 2 / 4096, BitVec.ofNat 32 (b 8 4), b 12 1 / 16⟩] } ∧ others t ∧ t.mem = s.mem) ∧
          (∀ r, x.run = some r → r.status = none → b 4 4 = r.seq.toNat →
            (b 8 4 ≠ r.ddig.toNat → ∃ t y, exec (.colData p m) s = .next t ∧ t.ctx c = some y ∧ y.run = none ∧ t.ctxAborted c = true ∧
              t.fld (ctxStat c F.COL_CTX_STAT_REASON) = St.mismatch.toNat) ∧
            (∀ z rest e, r.steps = z :: rest → z.recvs.find? (fun e => e.1 == peer) = some e → b 8 4 = r.ddig.toNat →
              b 12 1 = r.phaseByte → r.phase < 16 → b 13 1 = z.step →
              let o := (r.gotOf peer).getD (0, [])
              let d := m.data.drop 16
              o.1 + d.length < rangeLen (ColDesc.of r.desc) r.phase e.2.2 →
              ∃ t y r', exec (.colData p m) s = .next t ∧ t.ctx c = some y ∧ y.run = some r' ∧
                r'.gotOf peer = some (o.1 + d.length, o.2.writeN (o.1 / 16384 * 16384 + b 14 2 % 1024 * 16) d) ∧ r'.steps = r.steps ∧
                others t ∧ t.mem = s.mem))))) ∧
    (∀ (r : ColRun) (now : BitVec 64), x.run = some r → r.status.isSome = true → r.phase ≠ 3 → s.dir = [] → s.dirTrans = [] →
      memQuiet s = true → memoriesWf s → s.wcb = [] →
      let d := ColDesc.of r.desc
      let me := x.members.idxOf s.nodeId
      let n := (d.sizes x.members.length me).2
      let out := r.output x.members.length me
      let bytes := out.flatMap (fun e => leBytes d.fmtOf.bytes e.1)
      let rec_ := leBytes 2 0 ++ leBytes 1 r.alg ++ zeros 1 ++ leBytes 4 r.seq.toNat ++ leBytes 4 (stop32 (countSat (out.map Prod.snd))) ++
        leBytes 4 (stop32 (countFlush (out.map Prod.snd))) ++ leBytes 8 r.start ++ leBytes 8 (max s.clock.ns.toNat now.toNat)
      bytes.length = n → s.memStatus d.dst n = St.ok → s.memStatus d.crec 32 = St.ok →
      d.syncs = true ∨ s.bytes d.src (d.sizes x.members.length me).1 = r.src →
      (s.logging = false →
        ∃ t y, exec (.collectiveComplete c now) s = .next t ∧ t.ctx c = some y ∧ y.run = none ∧ y.queue = x.queue ∧ others t ∧
          memoryAfter s t (storedBytes [⟨BitVec.ofNat 64 d.dst, n⟩] bytes ++ storedBytes [⟨BitVec.ofNat 64 d.crec, 32⟩] rec_)) ∧
      (∀ k, s.logging = true → s.logTarget = some k →
        ∃ t, exec (.collectiveComplete c now) s = .next t ∧ t.resil.held = s.resil.held ++ [.colDone s.resil.lsn c] ∧ others t ∧
          memoryAfter s t (storedBytes [⟨BitVec.ofNat 64 d.dst, n⟩] bytes))))
  ∧ (∀ (p : PortId) (m : Msg) (c : CtxId) (x : Ctx) (now : BitVec 64) (s : State), s.ctx c = some x →
    let b := bytesAt m.data
    let seq : Word := BitVec.ofNat 32 (b 4 4)
    let reason : Status := BitVec.ofNat 16 (b 14 2)
    let others := fun (t : State) => ∀ e, e ≠ c → t.ctx e = s.ctx e
    let marked := fun (t : State) (why : Status) => t.ctxAborted c = true ∧ t.fld (ctxStat c F.COL_CTX_STAT_REASON) = why.toNat ∧ others t
    let ends := fun (t : State) (r : ColRun) (st why : Status) (at_ : Nat) => (∃ y, t.ctx c = some y ∧ y.run = none) ∧ marked t why ∧
      t.fld F.COL_ERR_ABORTS = min (s.fld F.COL_ERR_ABORTS + 1) (2 ^ (F.COL_ERR_ABORTS.hi - F.COL_ERR_ABORTS.lo + 1) - 1) ∧
      (memQuiet s = true → memoriesWf s → s.wcb = [] → x.queue = [] → s.memStatus (ColDesc.of r.desc).crec 32 = St.ok →
        t.bytes (ColDesc.of r.desc).crec 32 = leBytes 2 st.toNat ++ leBytes 1 r.alg ++ zeros 1 ++ leBytes 4 r.seq.toNat ++ zeros 8 ++
          leBytes 8 r.start ++ leBytes 8 at_)
    (takes s p m = true → s.bit F.COL_STAT_REPLAY = false → s.ctxOfGroup (BitVec.ofNat 32 (b 0 4)) = some c → olderSeq seq (s.currentSeq c x) = false →
      (∀ r, x.run = some r → r.status = none → r.seq = seq →
        ∃ t, exec (.colAbort p m) s = .next t ∧
          ends t r (if reason = St.mismatch ∨ reason = St.nodeLost then reason else St.aborted) reason s.clock.ns.toNat) ∧
      (x.run = none → x.queue = [] →
        ∃ t y, exec (.colAbort p m) s = .next t ∧ marked t reason ∧ t.ctx c = some y ∧ t.mem = s.mem ∧
          y.aborts = x.aborts ++ [(seq, if reason = St.mismatch ∨ reason = St.nodeLost then reason else St.aborted)])) ∧
    (∀ r, x.run = some r → r.status = none →
      let time := max s.clock.ns.toNat now.toNat
      (r.start + s.fld F.COL_CFG_TIMEOUT * 1000000 ≤ time →
        ∃ t, exec (.collectiveTimeout c now) s = .next t ∧ ends t r St.timeout St.aborted time) ∧
      (time < r.start + s.fld F.COL_CFG_TIMEOUT * 1000000 → exec (.collectiveTimeout c now) s = .next (s.at_ now))) ∧
    (∀ (k : FwpId) (v : BitVec 64),
      (v.getLsbD 63 = true → v.getLsbD 62 = false → ∃ t y, exec (.colCtxReset (.fw k) c v) s = .next t ∧ t.ctx c = some y ∧ y.run = none ∧
        y.queue = [] ∧ y.members = x.members ∧ t.fld (ctxStat c F.COL_CTX_STAT_STATE) = 0 ∧ t.fld (ctxStat c F.COL_CTX_STAT_REASON) = 0 ∧
        t.fld (ctxStat c F.COL_CTX_STAT_SEQ) = v.toNat % 2 ^ 32 ∧ others t) ∧
      (v.getLsbD 63 = false → v.getLsbD 62 = true →
        (4 ≤ k.val → ∃ t, exec (.colCtxDestroy (.fw k) c v) s = .next t ∧ t.ctx c = none ∧ others t ∧ t.reg (R.COL_CTX_STAT + 8 * c.toNat) = 0) ∧
        (k.val < 4 → exec (.colCtxDestroy (.fw k) c v) s = .next s)) ∧
      (4 ≤ k.val → ∃ t, exec (.colCtxPolicyWrite (.fw k) c v) s = .next t ∧ { t with regs := s.regs } = s ∧
        otherRegs [R.COL_CTX_POLICY + 8 * c.toNat] s t ∧ t.fld (ctxStat c F.COL_CTX_POLICY_FROM_SEQ) = v.toNat / 2 ^ 32 ∧
        t.fld (ctxStat c F.COL_CTX_POLICY_NEXT_RING) = v.toNat / 2 ^ 31 % 2 ∧ t.fld (ctxStat c F.COL_CTX_POLICY_NEXT_THRESH) = v.toNat / 2 ^ 16 % 2 ^ 15 ∧
        t.fld (ctxStat c F.COL_CTX_POLICY_CUR_THRESH) = s.fld (ctxStat c F.COL_CTX_POLICY_CUR_THRESH)) ∧
      (k.val < 4 → exec (.colCtxPolicyWrite (.fw k) c v) s = .next s)))

/-- DRAFT_BEGIN at a node without a draft or job opens the intake with the fields it carries: RECEIVING, and GLB_JOB shows
members and tag. One of another draft is answered as busy and changes nothing. DRAFT_CHUNK from the source of an
incomplete intake stores its bytes at their place in the staging region, no other byte, and counts them; from any
other node it is discarded and counted as malformed. DRAFT_VALIDATE of a complete image loads it when every check of
Table 13-5 passes: LOADED, the map read and the member shown. When a check fails nothing is loaded and the event
carries its status. DRAFT_ACK of a child is kept; once this node and every child have their outcome the node
acknowledges. DRAFT_ACK_TIMEOUT acknowledges without the missing children once ACK_TIMEOUT has passed, not before.
TREE_UPDATE puts its nodes at their places in the map. -/
def Obligations.DraftIntakeAndLoading : Prop :=
  (∀ (p : PortId) (m : Msg) (now : BitVec 64) (s : State), takes s p m = true → m.rsp = false →
    let b := m.data
    (m.opc = 0x40 →
      (s.draft = none → s.fld F.GLB_JOB_STATE = 0 → s.busyNode = false →
        ∃ t d, exec (.draftBegin p m now) s = .next t ∧ t.draft = some d ∧ d.jobTag = BitVec.ofNat 64 (bytesAt b 0 8) ∧ d.total = bytesAt b 8 8 ∧
          d.digest = (b.drop 16).take 64 ∧ d.mapDigest = (b.drop 80).take 8 ∧ d.nmembers = bytesAt b 88 2 ∧
          d.ackTimeout = (if bytesAt b 90 2 = 0 then 50 else bytesAt b 90 2) ∧ d.source = some m.src ∧ d.got = 0 ∧ d.outcome = none ∧
          t.fld F.GLB_JOB_STATE = 1 ∧ t.fld F.GLB_JOB_NMEMBERS = d.nmembers % 2 ^ 15 ∧ t.fld F.GLB_JOB_TAG_JOB_TAG = d.jobTag.toNat ∧
          t.mem = s.mem ∧ t.outbox = s.outbox) ∧
      (∀ o, s.draft = some o → o.jobTag ≠ BitVec.ofNat 64 (bytesAt b 0 8) ∨ o.digest ≠ (b.drop 16).take 64 → canTell s 0x42 m.src = true →
        ∃ t, exec (.draftBegin p m now) s = .next t ∧ t.draft = s.draft ∧ t.regs = s.regs ∧ t.mem = s.mem ∧
          t.outbox = s.outbox ++ [onItsPort s (request m.src 6 0x42 0 (busyBytes m).length 0 (busyBytes m))])) ∧
    (∀ d, m.opc = 0x41 → s.draft = some d →
      let a := m.addr.toNat
      (d.source = some m.src → 0 < b.length → a + b.length ≤ d.total + 2 * d.nmembers → d.complete = false → d.outcome = none →
        s.memStatus (d.base + a) b.length = St.ok → memQuiet s = true → memoriesWf s → s.wcb = [] →
        ∃ t e, exec (.draftChunk p m now) s = .next t ∧ t.draft = some e ∧ e.got = d.got + b.length ∧
          e.mapGot = d.mapGot + (a + b.length - max a d.total) ∧ e.outcome = none ∧ e.jobTag = d.jobTag ∧
          memoryAfter s t (storedBytes [⟨BitVec.ofNat 64 (d.base + a), b.length⟩] b)) ∧
      (d.source ≠ some m.src → ∃ t, exec (.draftChunk p m now) s = .next t ∧ t.draft = s.draft ∧ t.mem = s.mem ∧ t.outbox = s.outbox ∧
        t.fld (pfld p F.FAB_PORT_ERR_MALFORMED) = min (s.fld (pfld p F.FAB_PORT_ERR_MALFORMED) + 1)
          (2 ^ (F.FAB_PORT_ERR_MALFORMED.hi - F.FAB_PORT_ERR_MALFORMED.lo + 1) - 1))))
  ∧ (∀ (p : PortId) (m : Msg) (now : BitVec 64) (d : Draft) (s : State), s.draft = some d →
    let u := s.at_ now
    (s.fld F.GLB_JOB_STATE = 1 → d.complete = true → d.outcome = none → s.ready 0 = true → s.ready 4 = true →
      let ms := mapOfBytes (s.mapBytes d) d.nmembers
      let d' := { d with map := ms, member := ms.idxOf s.nodeId, digestAt := some u.clock.ns.toNat }
      (u.draftErr d' = none → ∃ t e, exec (.draftValidate now) s = .next t ∧ t.fld F.GLB_JOB_STATE = 2 ∧ t.draft = some e ∧ e.loaded = true ∧
        e.outcome = some (St.ok, 0, []) ∧ e.map = ms ∧ e.member = ms.idxOf s.nodeId ∧ t.fld F.GLB_JOB_MEMBER = ms.idxOf s.nodeId % 2 ^ 14 ∧
        t.fld F.CKPT_GEN_COMMITTED = 0 ∧ t.clock.records = 0) ∧
      (∀ err, u.draftErr d' = some err → ∃ t e, exec (.draftValidate now) s = .next t ∧ t.draft = some e ∧ e.loaded = d.loaded ∧
        e.outcome = some (err.status, err.reason, []) ∧ t.tiles = s.tiles ∧ t.ctxs = s.ctxs ∧ t.mem = s.mem ∧ t.resil = s.resil ∧
        t.fld F.GLB_JOB_STATE = 1 ∧
        raised u t 0x300 err.status (leBytes 2 err.reason ++ leBytes 2 err.dir ++ leBytes 2 (ms.idxOf s.nodeId) ++ leBytes 1 err.tile ++
          leBytes 6 err.off ++ leBytes 1 err.low) false)) ∧
    (jobTakes s p m 0x42 d → m.src ∈ s.treeKids d →
      let a : AckInfo := { child := m.src, accepted := bytesAt m.data 80 2, status := BitVec.ofNat 16 (bytesAt m.data 82 2), reason := bytesAt m.data 84 2, lowest := bytesAt m.data 86 2, missing := (List.range (min 80 (bytesAt m.data 88 2))).map (fun i => BitVec.ofNat 14 (bytesAt m.data (90 + 2 * i) 2)) }
      ∃ t e, exec (.draftAck p m now) s = .next t ∧ t.draft = some e ∧ e.acks = d.acks.filter (fun x => x.child != m.src) ++ [a] ∧
        (d.outcome.isSome = true → s.ready 4 = true → (∀ n ∈ s.treeKids d, ∃ x ∈ e.acks, x.child = n) → e.acked = true) ∧
        (d.outcome = none → e.acked = false) ∧ t.mem = s.mem) ∧
    (d.outcome.isSome = true → d.acked = false → s.ready 4 = true → ∀ t0, d.digestAt = some t0 →
      (t0 + d.ackTimeout * 1000000 ≤ u.clock.ns.toNat →
        ∃ t, exec (.draftAckTimeout now) s = .next t ∧ t.draft = some { d with acked := true } ∧ t.mem = s.mem ∧
          (∀ n, d.source = some n → canTell s 0x42 n = true → t.outbox = s.outbox ++
            [onItsPort s (request n 6 0x42 0 (ackBytes d (s.aggregate d)).length 0 (ackBytes d (s.aggregate d)))]) ∧
          (d.source = none → t.outbox = s.outbox ∧ ∃ x, t.hostOut = s.hostOut ++ [x] ∧ x.type = 0x30 ∧ x.status = (s.aggregate d).status)) ∧
      (u.clock.ns.toNat < t0 + d.ackTimeout * 1000000 → s.unacked d ≠ [] → exec (.draftAckTimeout now) s = .next u)) ∧
    (jobTakes s p m 0x43 d →
      ∃ t e, exec (.treeUpdate p m now) s = .next t ∧ t.draft = some e ∧ e.jobTag = d.jobTag ∧
        e.map = (subsOf m.data).foldl (fun l x => l.set x.1 x.2) d.map ∧ e.member = e.map.idxOf s.nodeId))

/-- JOB_GO at least 1 ms before BASE passes down the tree, sets the job RUNNING, the base of the picks and the checkpoint
state, and starts every tile that has a program; less than 1 ms before, it raises TIMEOUT. JOB_DRAIN in time notes the
last pick; DRAIN_COMPLETE of a drained node sets DRAINED. TEARDOWN and JOB_ABANDON pass down, remove every context and
window of the draft and reset the compute part. A report of a child is kept; with the last one the node is IDLE
without a draft. At an Ethernet port whose link is up, an RDMA WRITE inside the staging region leaves its bytes, and
no other, changed and is acknowledged; one that reaches below the region or beyond LPDDR5X is answered with an access
error and changes no byte. RDMA SEND is acknowledged and changes nothing else. With the link down neither does
anything. Before a draft is held the region is the largest there can be (the model's choice, assumption log 30). -/
def Obligations.JobsAndRdma : Prop :=
  (∀ (p : PortId) (m : Msg) (now : BitVec 64) (d : Draft) (s : State), s.draft = some d →
    let u := s.at_ now
    let b := m.data
    let base := bytesAt b 8 8
    let first : Pick := BitVec.ofNat 48 (bytesAt b 16 6)
    (jobTakes s p m 0x44 d → s.fld F.GLB_JOB_STATE = 2 →
      (u.clock.ns.toNat + 1000000 ≤ base → s.resil.restored = false →
        ∃ t, exec (.jobGo p m now) s = .next t ∧ t.fld F.GLB_JOB_STATE = 3 ∧ t.fld F.CKPT_STAT_STATE = 1 ∧
          t.draft = some { d with firstPick := first } ∧ t.mem = s.mem ∧ t.startOn (t.fld F.TIME_PICK_BASE_BASE) first.toNat = base ∧
          (∀ k : TileId, (Tab.find s.tiles k.toNat).isSome = true → (s.tile k).program = true → s.shuttleRuns k = false → s.tileReady k = true →
            t.shuttleRuns k = true ∧ (t.tile k).pc = 0) ∧
          toldKids s t d 0x44 (leBytes 8 d.jobTag.toNat ++ leBytes 8 base ++ leBytes 6 first.toNat)) ∧
      (base < u.clock.ns.toNat + 1000000 →
        ∃ t, exec (.jobGo p m now) s = .next t ∧ t.fld F.GLB_JOB_STATE = 2 ∧ t.tiles = s.tiles ∧ raised u t 0x300 St.timeout [] false)) ∧
    (jobTakes s p m 0x46 d → s.fld F.GLB_JOB_STATE = 3 →
      let last : Pick := BitVec.ofNat 48 (bytesAt b 8 6)
      u.clock.ns.toNat + 1000000 ≤ s.pickStartNs (last.toNat + 1) →
      ∃ t, exec (.jobDrain p m now) s = .next t ∧ t.draft = some { d with drainAsked := last, drainLast := some (last, bitN (bytesAt b 14 1) 0) } ∧
        t.fld F.GLB_JOB_STATE = 3 ∧ t.tiles = s.tiles ∧ t.mem = s.mem) ∧
    (∀ last final, d.drainLast = some (last, final) → s.fld F.GLB_JOB_STATE = 3 → d.drained = false → u.drainReady last final = true →
      ∃ t e, exec (.drainComplete now) s = .next t ∧ t.fld F.GLB_JOB_STATE = 4 ∧ t.draft = some e ∧ e.drained = true ∧ t.tiles = s.tiles ∧ t.mem = s.mem) ∧
    (jobTakes s p m 0x47 d →
      (∀ e ∈ d.drainDone, e.1 ≠ s.nodeId) → m.src ≠ s.nodeId →
      ∃ t, exec (.drainDone p m now) s = .next t ∧ t.outbox = s.outbox ∧ t.mem = s.mem ∧ t.draft = some { d with
        drainDone := d.drainDone.filter (fun (e : NodeId × Nat × Status) => e.1 != m.src) ++ [(m.src, bytesAt b 16 2, BitVec.ofNat 16 (bytesAt b 14 2))] }) ∧
    (∀ c scrub, (c = .teardown p m now ∧ jobTakes s p m 0x48 d ∧ scrub = bitN (bytesAt b 8 1) 0) ∨
        (c = .jobAbandon p m now ∧ jobTakes s p m 0x45 d ∧ scrub = false) →
      s.fld F.GLB_JOB_STATE ≠ 5 → (∀ n ∈ d.windows, n < 64) → s.power.on = true → s.power.off = none → s.power.resets = [] → s.power.resetAfter = none →
      s.fld F.PWR_STATE_CUR = 0 →
      ∃ t, exec c s = .next t ∧ t.fld F.GLB_JOB_STATE = 5 ∧ t.draft = some { d with scrub := scrub } ∧ (∀ x : CtxId, t.ctx x = none) ∧
        (∀ n ∈ d.windows, t.fld (winFld F.FAB_WIN_CTL_VALID n) = 0) ∧ t.power.resets = [(3, 0, 3)] ∧
        (∀ i ∈ [12, 16, 17, 18, 19], t.ready i = false) ∧ t.tiles = []) ∧
    (jobTakes s p m 0x49 d →
      let done := d.tearDone.filter (fun (e : NodeId × Nat) => e.1 != m.src) ++ [(m.src, bytesAt b 8 2)]
      (s.fld F.GLB_JOB_STATE = 5 → (∀ n ∈ s.nodeId :: s.treeKids d, ∃ e ∈ done, e.1 = n) →
        ∃ t, exec (.teardownDone p m now) s = .next t ∧ t.draft = none ∧ t.fld F.GLB_JOB_STATE = 0 ∧ t.fld F.GLB_JOB_TAG_JOB_TAG = 0 ∧
          t.fld F.CKPT_STAT_STATE = 0 ∧ t.mem = s.mem) ∧
      ((∃ n ∈ s.treeKids d, ∀ e ∈ done, e.1 ≠ n) →
        ∃ t, exec (.teardownDone p m now) s = .next t ∧ t.draft = some { d with tearDone := done } ∧ t.outbox = s.outbox ∧ t.mem = s.mem)))
  ∧ (∀ (e : EthId) (off : BitVec 48) (d : List Byte) (s : State),
    let up := s.bit (F.ETH_PORT_STAT_UP.plus (8 * e.val))
    let low := match s.draft with | some x => 0x030000000000 - alignUp (x.total + 2 * x.nmembers) 65536 | none => 0x030000000000 - alignUp (2 ^ 32 + 32768) 65536
    let answers := fun (t : State) (st : Status) => ∃ x, t.hostOut = s.hostOut ++ [x] ∧ x.status = st ∧ x.args = [e.val, d.length]
    (up = true → low ≤ off.toNat → off.toNat + d.length ≤ 0x030000000000 → s.memStatus off.toNat d.length = St.ok → memQuiet s = true →
      memoriesWf s → s.wcb = [] →
      ∃ t, exec (.rdmaWrite e off d) s = .next t ∧ answers t St.ok ∧ memoryAfter s t (storedBytes [⟨BitVec.ofNat 64 off.toNat, d.length⟩] d) ∧
        t.tiles = s.tiles ∧ t.draft = s.draft) ∧
    (up = true → off.toNat < low ∨ 0x030000000000 < off.toNat + d.length →
      ∃ t, exec (.rdmaWrite e off d) s = .next t ∧ answers t St.accessBlocked ∧ { t with hostOut := s.hostOut } = s) ∧
    (up = true → ∃ t, exec (.rdmaSend e d) s = .next t ∧ answers t St.ok ∧ { t with hostOut := s.hostOut } = s) ∧
    (up = false → exec (.rdmaWrite e off d) s = .next s ∧ exec (.rdmaSend e d) s = .next s))

/-- SNAPSHOT_MARK with shuttles and engines still opens the next generation: every dirty page of the shard is guarded and
clean, a PREPARED record with the mark and the log's cut stands for it, and the shuttles that wait for the mark go on.
GUARD_COPY of a guarded page that holds back a write copies it to a free shadow slot and releases it; without a free
slot GUARD_POOL_EMPTY is raised once. SNAPSHOT_BACKGROUND_COPY of a stripe digests its chunks, awaits those that live
holders store, and unguards its pages. CHUNK_WR stores its bytes, no other byte, and with the last one of 64 KiB the
holder acknowledges. CHUNK_ACK of the open generation takes the chunk off the list; with the last one the member is
PREPARED. READY at the coordinator is kept; with the READY of every live member COMMIT goes to each. COMMIT from the
coordinator is kept until its pick. ABANDON from it ends the open generation: its pages are dirty and unguarded and
GEN_ABANDONED is raised. COMMIT_REC of another member is stored and kept. -/
def Obligations.SnapshotsAndCommits : Prop :=
  (∀ (now : BitVec 64) (d : Draft) (s : State), s.draft = some d →
    (s.resil.markHeld = true → s.ready 3 = true → s.ready 14 = true → s.fld F.CKPT_STAT_STATE = 1 →
      (∀ e, s.markEntry = some e → s.resil.phase = .idle → s.markQuiet = true → (∀ u ∈ s.poison, u < sramWindow) →
        ∃ t r, exec (.snapshotMark now) s = .next t ∧ t.resil.gen = s.resil.gen + 1 ∧ t.resil.phase = .copying ∧ t.resil.markHeld = false ∧
          t.resil.newRec = some r ∧ r.gen = s.resil.gen + 1 ∧ r.markPick = s.resil.markPick ∧ r.cut = s.resil.lsn ∧ r.committed = false ∧
          t.fld F.CKPT_GEN_WRITING = (s.resil.gen + 1) % 2 ^ 32 ∧
          (∀ i p, i < s.ownStripes d → p ∈ s.stripePages d i → p ∈ s.resil.dirtySkein → p ∈ t.guard ∧ p ∉ t.resil.dirtySkein) ∧
          (∀ p ∈ s.guard, p ∈ t.guard) ∧
          (∀ (k : TileId) (j : BitVec 7), j.toNat = e.index → (s.tile k).waiting = some (.event j (some s.resil.markPick)) →
            (t.tile k).waiting = some (.released j s.resil.markPick))) ∧
      (s.resil.phase ≠ .idle → s.coordinator ≠ some s.nodeId → exec (.snapshotMark now) s = .next (s.at_ now))) ∧
    (∀ page : Nat, page ∈ s.guard → (∃ w ∈ s.heldWrites, w.addr / 65536 = page) →
      (∀ k, s.freeSlot = some k → s.dirty = [] → s.poison = [] →
        ∃ t, exec (.guardCopy page) s = .next t ∧ t.shadow = s.shadow ++ [(page, k)] ∧ (∀ e ∈ s.shadow, e.2 ≠ k) ∧
          t.guard = s.guard.filter (· != page) ∧ (∀ w ∈ t.heldWrites, w.addr / 65536 ≠ page) ∧
          (let slot := s.areaAt d AreaMap.shadow + k * 65536
           memoriesWf s → s.wcb = [] → page * 65536 + 65536 ≤ slot →
           (∀ w ∈ s.heldWrites, w.addr / 65536 = page ∧ w.addr % 65536 + w.data.length ≤ 65536) →
           t.rawBytes slot 65536 = s.rawBytes (page * 65536) 65536)) ∧
      (s.freeSlot = none → s.poolEvent = false → ∃ t, exec (.guardCopy page) s = .next t ∧ t.poolEvent = true ∧ t.guard = s.guard ∧
        raised s t 0x300 St.guardPoolEmpty (leBytes 6 (page * 65536)) false) ∧
      (s.freeSlot = none → s.poolEvent = true → exec (.guardCopy page) s = .next s)) ∧
    (∀ r i, s.resil.newRec = some r → s.resil.phase = .copying → i ∈ s.resil.stripesLeft → (∃ j ∈ s.resil.stripesLeft, j ≠ i) →
      i < r.stripes.length → s.ready 3 = true → s.ready 14 = true → s.poison = [] →
      let due := (List.range 15).filter (fun c => s.chunkKept d i c &&
        (match (d.holder d.member i c).bind d.node with | some n => !s.isLost n | none => false))
      ∃ t x, exec (.snapshotBackgroundCopy i) s = .next t ∧ t.resil.newRec = some x ∧ x.gen = r.gen ∧ t.resil.phase = .copying ∧
        (x.stripes.getD i (0, 0, [])).2.2.length = 15 ∧ (∀ j, j ≠ i → x.stripes[j]? = r.stripes[j]?) ∧
        t.resil.stripesLeft = s.resil.stripesLeft.filter (· != i) ∧ t.resil.chunksDue = s.resil.chunksDue ++ due.map (fun c => (i, c)) ∧
        (∀ p ∈ s.stripePages d i, p ∉ t.guard ∧ ∀ e ∈ t.shadow, e.1 ≠ p)))
  ∧ (∀ (src : NodeId) (id : ChunkId) (d : Draft) (now : BitVec 64) (s : State), s.draft = some d → s.resil.fence.contains src = false →
    (∀ (a : BitVec 48) (b : List Byte), s.ready 14 = true → lpBase ≤ a.toNat → a.toNat + b.length ≤ 0x030000000000 →
      s.memStatus a.toNat b.length = St.ok → memQuiet s = true → memoriesWf s → s.wcb = [] →
      let got := ((s.resil.holds.find? (fun h => h.id == id)).map Hold.got).getD 0 + b.length
      let stored := fun (t : State) => memoryAfter s t (storedBytes [⟨BitVec.ofNat 64 a.toNat, b.length⟩] b)
      (∃ t h, exec (.chunkWr src a b id) s = .next t ∧ stored t ∧ h ∈ t.resil.holds ∧ h.id = id ∧ h.got = got ∧
        t.outbox = s.outbox ++ (if 65536 ≤ got then [plainMsg none src 5 0x31 [id.gen.toNat, id.member.toNat, id.stripe, id.chunk] []] else [])) ∧
      (s.fld F.CKPT_STAT_STATE ≠ 3 → ∃ t, exec (.commitRec src a b) s = .next t ∧ stored t ∧ (src, b) ∈ t.resil.replicas)) ∧
    (id.gen.toNat = s.resil.gen → id.member.toNat = d.member →
      let left := s.resil.chunksDue.erase (id.stripe, id.chunk)
      (s.resil.stripesLeft ≠ [] ∨ left ≠ [] → ∃ t, exec (.chunkAck src id) s = .next t ∧ t.resil.chunksDue = left ∧ t.resil.phase = s.resil.phase ∧
        t.outbox = s.outbox ∧ t.mem = s.mem) ∧
      (∀ r, s.resil.newRec = some r → s.resil.phase = .copying → s.resil.stripesLeft = [] → left = [] →
        ∃ t, exec (.chunkAck src id) s = .next t ∧ t.resil.phase = .prepared)) ∧
    (∀ (gen : BitVec 64) (tier : Tier) (n : Nat), s.coordinator = some s.nodeId → s.ready 3 = true →
      let live := s.liveMembers d
      let others := s.resil.readys.filter (fun e => e.1 == gen.toNat && e.2.1 == tier && e.2.2.1 != src)
      let sum := (others.map (fun e => e.2.2.2)).sum + n
      (sum < live.length → ∃ t, exec (.ready src gen tier n now) s = .next t ∧ (gen.toNat, tier, src, n) ∈ t.resil.readys ∧
        t.resil.commits = s.resil.commits ∧ t.outbox = s.outbox) ∧
      (live.length ≤ sum → (∀ m ∈ live, s.resil.fence.contains m = false ∧ s.windowMatch m 5 0x36 0 0 = true) →
        ∃ t c, exec (.ready src gen tier n now) s = .next t ∧ c ∈ t.resil.commits ∧ c.gen = gen ∧ c.tier = tier ∧
          c.commitPick = (s.at_ now).commitAt ∧ c.fromPick = c.commitPick ∧ t.outbox = s.outbox ++ (live.filter (· != s.nodeId)).map (fun m =>
            plainMsg none m 5 0x36 [gen.toNat, if tier = .skein then 1 else 2, c.commitPick.toNat, c.every.toNat, c.commitPick.toNat] []))) ∧
    (∀ c : CommitMsg, (s.coordinator = some src → ∃ t, exec (.commit src c) s = .next t ∧ c ∈ t.resil.commits ∧
        (c.every ≠ 0 → t.clock.everyPending = some (c.every.toNat, c.fromPick)) ∧ t.mem = s.mem ∧ t.regs = s.regs) ∧
      (s.coordinator ≠ some src → exec (.commit src c) s = .next s)) ∧
    (∀ gen : BitVec 64, s.coordinator = some src → s.resil.phase ≠ .idle →
      (gen.toNat = s.resil.gen → ∃ t, exec (.abandon src gen .skein) s = .next t ∧ t.resil.phase = .idle ∧ t.resil.newRec = none ∧
        t.fld F.CKPT_GEN_WRITING = 0 ∧ t.shadow = [] ∧ raised s t 0x700 St.genAbandoned (leBytes 8 s.resil.gen) false ∧
        t.fld F.CKPT_EVENTS_ABANDONED = min (s.fld F.CKPT_EVENTS_ABANDONED + 1) (2 ^ 16 - 1) ∧
        ∀ i ∈ s.covered, ∀ p ∈ s.stripePages d i, p ∈ t.resil.dirtySkein ∧ p ∉ t.guard) ∧
      (gen.toNat ≠ s.resil.gen → exec (.abandon src gen .skein) s = .next s)))

/-- LOG_APPEND of the partner is stored in its ring and kept; it is forwarded to a live copy holder, and acknowledged at
once only when there is none; an entry to copy is stored and acknowledged; a full ring takes nothing and LOG_FULL is
raised once. LOG_ACK advances CKPT_LOG.LSN and releases exactly what waits for the entries now acknowledged. MIRROR
pages of the partner are stored at their place, in twin mode the old contents being kept once; a MIRROR_END whose
digest agrees takes the undo buffer away, another raises MIRROR_DIVERGED. -/
def Obligations.LogsAndMirrors : Prop :=
  ∀ (src : NodeId) (d : Draft) (s : State), s.draft = some d → s.resil.fence.contains src = false → memQuiet s = true → memoriesWf s → s.wcb = [] →
    (∀ (a : BitVec 48) (b : List Byte), s.ready 14 = true → lpBase ≤ a.toNat → a.toNat + b.length ≤ 0x030000000000 →
      let lsn := bytesAt b 16 8
      let ack := fun (t : State) => t.outbox = s.outbox ++ [plainMsg none src 5 0x33 [lsn] []]
      let stored := fun (t : State) (p : NodeId) => exec (.logAppend src a b) s = .next t ∧
        memoryAfter s t (storedBytes [⟨BitVec.ofNat 64 a.toNat, b.length⟩] b) ∧
        ∃ r ∈ t.resil.logRings, r.owner = p ∧ (lsn, a.toNat, b) ∈ r.entries
      (s.inRing (s.areaAt d AreaMap.ring) a.toNat = true → d.partner = some src →
        ((s.ringOf src).room s.ringBytes b.length = true →
          (d.copyHolderOf src = none ∨ (∃ h, d.copyHolderOf src = some h ∧ s.isLost h = true) → ∃ t, stored t src ∧ ack t) ∧
          (∀ h, d.copyHolderOf src = some h → s.isLost h = false →
            ∃ t, stored t src ∧ (∃ r ∈ t.resil.logRings, r.owner = src ∧ lsn ∈ r.due) ∧ ∀ x ∈ t.outbox.drop s.outbox.length, x.opc = 0x32 ∧ x.dst = h)) ∧
        ((s.ringOf src).room s.ringBytes b.length = false → (s.ringOf src).full = false →
          ∃ t, exec (.logAppend src a b) s = .next t ∧ t.mem = s.mem ∧ t.outbox = s.outbox ∧ raised s t 0x700 St.logFull (leBytes 2 src.toNat) false)) ∧
      (∀ p, s.inRing (s.areaAt d AreaMap.ring) a.toNat = false → s.inRing (s.areaAt d AreaMap.copy) a.toNat = true → d.copied = some p →
        ∃ t, stored t p ∧ ack t)) ∧
    (∀ n : BitVec 64, s.logTarget = some src →
      let acked := max s.resil.ackedLsn (min (n.toNat + 1) s.resil.lsn)
      ∃ t, exec (.logAck src n) s = .next t ∧ t.resil.ackedLsn = acked ∧ t.fld F.CKPT_LOG_LSN = (acked - 1) % 2 ^ 48 ∧
        t.resil.held = s.resil.held.filter (fun h => decide (acked ≤ h.lsn)) ∧
        (∀ k m, s.resil.held = [.respond k m] → k < acked → m.fwd = none → s.resil.fence.contains m.dst = false → s.pathPorts m.dst ≠ [] →
          t.outbox = s.outbox ++ [onItsPort s m] ∧ t.mem = s.mem) ∧
        ((∀ h ∈ s.resil.held, acked ≤ h.lsn) → t.outbox = s.outbox ∧ t.mem = s.mem ∧ t.tiles = s.tiles)) ∧
    (d.partner = some src →
      (∀ (k : Nat) (b : List Byte), b.length = 65536 →
        (k < 64 → ∃ t, exec (.mirror src (.page k b)) s = .next t ∧ t.rawBytes (s.areaAt d AreaMap.ctl + 64 * 65536 + k * 65536) 65536 = b ∧
          t.resil.undo = s.resil.undo) ∧
        (64 ≤ k → s.bit F.CKPT_STAT_TWIN = true → ∃ t, exec (.mirror src (.page k b)) s = .next t ∧
          t.rawBytes (s.areaAt d AreaMap.mirror + k * 65536) 65536 = b ∧
          t.resil.undo = (if k ∈ s.resil.undo then s.resil.undo else s.resil.undo ++ [k]))) ∧
      (∀ (p : Pick) (dg : List Byte), s.bit F.CKPT_STAT_TWIN = true →
        let sum := shake256 (s.resil.undo.flatMap (fun k => s.rawBytes (s.areaAt d AreaMap.mirror + k * 65536) 65536)) 32
        ∃ t, exec (.mirror src (.stop p dg)) s = .next t ∧ t.resil.undo = [] ∧ t.resil.mirrorPick = some p ∧ t.mem = s.mem ∧
          (sum = dg → t.rings = s.rings) ∧ (sum ≠ dg → raised s t 0x700 St.mirrorDiverged (leBytes 6 p.toNat) false)))

/-- A heartbeat is sent with pick and state, and one received is noted. A loaded node that has heard nothing of a span
peer for 50 ms tells the member that decides, before that nothing; the second suspicion of a node makes that member
probe it on every port that leads there. PROBE is answered at once; the answer ends the suspicion. 20 ms without one,
or FATAL, or DECLARE, makes the node lost: fenced, its direct ports disabled, no request to it left; the member that
decides then halts itself. -/
def Obligations.SilenceIsSuspectedProbedAndDeclared : Prop :=
  ∀ (d : Draft) (now : BitVec 64) (s : State), s.draft = some d →
    let u := s.at_ now
    let free := fun (n : NodeId) => s.resil.fence.contains n = false
    let gone := fun (t : State) (n : NodeId) => n ∈ t.resil.lost ∧ n ∈ t.resil.fence ∧ (∀ r ∈ t.reqs, r.msg.dst ≠ n) ∧
      ∀ p, s.portUp p = true → s.bit (pfld p F.FAB_PORT_STAT_PEER_VALID) = true → s.fld (pfld p F.FAB_PORT_STAT_PEER) = n.toNat →
        t.portUp p = false ∧ t.bit (pfld p F.FAB_PORT_STAT_DISABLED) = true
    (∀ (p : PortId) (src : NodeId) (k : BitVec 48) (st : BitVec 4), s.portUp p = true →
      exec (.heartbeat .send p src k st now) s = .next (u.send { plainMsg (some p) 0 0 0x58 [s.eventPick.toNat, s.fld F.CKPT_STAT_STATE] [] with loc := true }) ∧
      (free src → ∃ t, exec (.heartbeat .recv p src k st now) s = .next t ∧ (src, u.clock.ns.toNat) ∈ t.resil.heard ∧ t.outbox = s.outbox ∧ t.regs = s.regs)) ∧
    (∀ peer n last, d.loaded = true → peer ∈ (spanOf d.member d.nmembers).filterMap d.node → peer ≠ s.nodeId → s.isLost peer = false →
      s.resil.heard.find? (fun e => e.1 == peer) = some (peer, last) →
      (u.clock.ns.toNat < last + 50000000 → exec (.heartbeatSilence peer now) s = .next u) ∧
      (last + 50000000 ≤ u.clock.ns.toNat → s.judge d peer = some n → n ≠ s.nodeId → free n → s.windowMatch n 5 0x38 0 0 = true →
        exec (.heartbeatSilence peer now) s = .next (u.send (plainMsg none n 5 0x38 [peer.toNat] [])))) ∧
    (∀ src node, free src → node ∈ d.map → s.isLost node = false → s.judge d node = some s.nodeId → s.ready 3 = true →
      (∀ e ∈ s.resil.suspects, e.1 ≠ node) ∨ (∃ q, q ≠ src ∧ s.resil.suspects = [(node, q)] ∧ s.resil.probing = []) →
      ∃ t, exec (.suspect src node now) s = .next t ∧ (node, src) ∈ t.resil.suspects ∧
        (s.resil.suspects = [] → t.outbox = s.outbox ∧ t.resil.probing = s.resil.probing) ∧
        (∀ q, s.resil.suspects = [(node, q)] → t.resil.probing = [(node, u.clock.ns.toNat)] ∧
          t.outbox = s.outbox ++ (s.pathPorts node).map (fun p => plainMsg (some p) node 0 0x59 [] []))) ∧
    (∀ src, free src →
      (∃ t, exec (.probe src) s = .next t ∧ t.outbox = s.outbox ++ [plainMsg none src 0 0x5A [s.eventPick.toNat] []] ∧ t.regs = s.regs) ∧
      ∀ k, ∃ t, exec (.probeReply src k) s = .next t ∧ (∀ e ∈ t.resil.probing, e.1 ≠ src) ∧ (∀ e ∈ t.resil.suspects, e.1 ≠ src) ∧
        t.outbox = s.outbox ∧ t.regs = s.regs) ∧
    (∀ node, s.ready 3 = true → s.isLost node = false → node ≠ s.nodeId →
      let halted := fun (t : State) => s.fld F.CKPT_STAT_STATE = 1 → t.fld F.CKPT_STAT_STATE = 2
      (∀ t0, s.resil.probing = [(node, t0)] →
        (t0 + 20000000 ≤ u.clock.ns.toNat → ∃ t, exec (.probeTimeout node now) s = .next t ∧ gone t node ∧ halted t) ∧
        (u.clock.ns.toNat < t0 + 20000000 → exec (.probeTimeout node now) s = .next u)) ∧
      (∀ st, free node → node ∈ d.map → s.judge d node = some s.nodeId → ∃ t, exec (.fatal node st now) s = .next t ∧ gone t node ∧ halted t)) ∧
    (∀ src l, free src → src ∈ d.map → s.nodeId ∉ l →
      ∃ t, exec (.declare src l now) s = .next t ∧ ∀ n ∈ l, s.isLost n = false → gone t n)

/-- HALT from the coordinator stops a running node and is answered once its engines are idle. HALT_ACK at the coordinator
is kept; the last one fixes a restart pick after every barrier that a member completed. A holder answers CHUNK_RD with
the chunk, or with nothing when it has none. A spare keeps CHUNK_DATA whose digest agrees, and counts and reports
another. PICK_RESTART takes the tiles back to the pick-start record and keeps the logged EXTERNAL and FREEZE inputs
alone. RESUME from the coordinator sets the node RUNNING with the new base pending. NO_SPARE is raised once. -/
def Obligations.HaltRebuildRestartResume : Prop :=
  ∀ (src : NodeId) (d : Draft) (now : BitVec 64) (s : State), s.draft = some d → s.resil.fence.contains src = false →
    let me := s.coordinator = some s.nodeId
    (∀ pick : BitVec 48, s.coordinator = some src → s.fld F.CKPT_STAT_STATE = 1 →
      (s.enginesIdle = false → ∃ t, exec (.halt src pick) s = .next t ∧ t.fld F.CKPT_STAT_STATE = 2 ∧ t.resil.markHeld = false ∧
        t.resil.haltAcked = false ∧ t.outbox = s.outbox ∧ t.tiles = s.tiles) ∧
      (s.enginesIdle = true → src ≠ s.nodeId → s.windowMatch src 5 0x3B 0 0 = true → ∃ t, exec (.halt src pick) s = .next t ∧
        t.fld F.CKPT_STAT_STATE = 2 ∧ t.resil.haltAcked = true ∧ t.tiles = s.tiles ∧
        t.outbox = s.outbox ++ [plainMsg none src 5 0x3B [s.pick.toNat, (s.resil.lastBarrier.getD noPick).toNat] []])) ∧
    (∀ pick bar : BitVec 48, me → src ∈ d.map →
      ∃ t, exec (.haltAck src pick bar) s = .next t ∧ t.resil.haltAcks = s.resil.haltAcks.filter (fun e => e.1 != src) ++ [(src, pick, bar)] ∧
        ((∀ n ∈ s.liveMembers d, ∃ e ∈ t.resil.haltAcks, e.1 = n) → ∃ r, t.resil.restartPick = some r ∧ d.firstPick ≤ r ∧
          ∀ e ∈ t.resil.haltAcks, e.2.2 ≠ noPick → e.2.2.toNat < r.toNat) ∧
        ((∃ n ∈ s.liveMembers d, ∀ e ∈ t.resil.haltAcks, e.1 ≠ n) → t.resil.restartPick = s.resil.restartPick)) ∧
    (∀ id : ChunkId, s.ready 14 = true →
      let args := [id.gen.toNat, id.member.toNat, id.stripe, id.chunk]
      (s.resil.holds = [] → exec (.chunkRd src id) s = .next (s.send (plainMsg none src 5 0x3D args []))) ∧
      (∀ h, s.resil.holds = [h] → h.id = id → 65536 ≤ h.got → s.poison = [] →
        exec (.chunkRd src id) s = .next ((cut 256 0 (s.rawBytes h.base 65536)).foldl
          (fun s p => s.send { plainMsg none src 5 0x3D args p.2 with addr := p.1 }) s))) ∧
    (∀ (id : ChunkId) (b : List Byte) r t2 c2, s.resil.rebuildRec = some r → s.fld F.CKPT_STAT_STATE = 3 → id.gen.toNat = r.gen →
      id.member.toNat = d.member → s.chunkHere id.stripe id.chunk = none → t2 < r.stripes.length → t2 ≠ id.stripe → c2 ∈ s.wanted d r t2 →
      s.chunkHere t2 c2 = none → (∀ i, (s.gaps d r i).length ≤ 1) →
      ((r.stripes.getD id.stripe (0, 0, [])).2.2.getD id.chunk [] = chunkDig b →
        ∃ t, exec (.chunkData src id b) s = .next t ∧ t.resil.rebuilt = s.resil.rebuilt ++ [(id.stripe, id.chunk, b)] ∧ t.mem = s.mem ∧
          t.rings = s.rings ∧ t.outbox = s.outbox) ∧
      ((r.stripes.getD id.stripe (0, 0, [])).2.2.getD id.chunk [] ≠ chunkDig b →
        ∃ t, exec (.chunkData src id b) s = .next t ∧ t.resil.missing = s.resil.missing ++ [(id.stripe, id.chunk)] ∧ t.mem = s.mem ∧
          t.resil.rebuilt = s.resil.rebuilt ∧ recorded s t 0x700 St.chunkDigest (leBytes 4 id.stripe ++ leBytes 1 id.chunk) false ∧
          t.fld F.CKPT_EVENTS_CHUNK_BAD = min (s.fld F.CKPT_EVENTS_CHUNK_BAD + 1) (2 ^ 16 - 1))) ∧
    (∀ b, s.resil.pickRec = some b → s.fld F.CKPT_STAT_STATE = 2 →
      let lsn := bytesAt b 24 8
      let keep := s.resil.log.filter (fun e => decide (lsn ≤ e.lsn) && (e.type == 7 || e.type == 6))
      ∃ t, exec .pickRestart s = .next t ∧ t.resil.held = [] ∧ t.resil.lsn = lsn + keep.length ∧ t.resil.reapply.map LogEntry.payload = keep.map LogEntry.payload ∧
        t.resil.log.filter (fun e => decide (e.lsn < lsn)) = s.resil.log.filter (fun e => decide (e.lsn < lsn)) ∧
        t.fld F.CKPT_EVENTS_RESTARTS = min (s.fld F.CKPT_EVENTS_RESTARTS + 1) (2 ^ 16 - 1) ∧
        ∀ k : TileId, (s.tile k).program = true → (Tab.find s.tiles k.toNat).isSome = true →
          (t.tile k).pc = BitVec.ofNat 32 (bytesAt b (64 + 512 * k.toNat) 4) ∧ (t.tile k).waiting = none) ∧
    (∀ (r : BitVec 48) (base : BitVec 64), s.fld F.CKPT_STAT_STATE = 2 → s.fld F.GLB_JOB_STATE = 3 → s.coordinator = some src →
      (src ≠ s.nodeId ∧ (s.at_ now).clock.ns.toNat + 1000000 ≤ base.toNat) ∨
        (src = s.nodeId ∧ s.resil.restartPick = some r ∧ (s.at_ now).clock.ns.toNat + 20000000 ≤ base.toNat ∧ s.ready 3 = true) →
      ∃ t, exec (.resume src r base now) s = .next t ∧ t.fld F.CKPT_STAT_STATE = 1 ∧ t.bit F.TIME_REBASE_AT_PENDING = true ∧
        t.fld F.TIME_REBASE_AT_PICK = r.toNat ∧ t.startOn (t.fld F.TIME_REBASE_BASE_BASE) r.toNat = base.toNat ∧ t.resil.haltAcks = [] ∧
        t.resil.restartPick = none ∧ t.tiles = s.tiles ∧ t.mem = s.mem) ∧
    (me → s.fld F.CKPT_STAT_STATE = 2 →
      (s.resil.noSpare = false → ∃ t, exec .noSpare s = .next t ∧ raised s t 0x700 St.noSpare [] false ∧ t.resil.noSpare = true ∧ exec .noSpare t = .next t) ∧
      (s.resil.noSpare = true → exec .noSpare s = .next s))

/-- HELLO gets CHALLENGE with a nonce and a new session number, the ninth SESSION_LIMIT, and without an owner AUTH_FAILED.
HOST_PROOF opens the session only with a right signature of a key that has the role; the key is KMAC256 over the
transcript. CLOSE, and 60 s without a valid message, end that session alone. ENROLL installs the owner only while
there is none; RELEASE removes it. A request of another MAJOR gets VERSION; one of too low a role gets ROLE; one whose
processor cannot serve it gets that reason; none of these has another effect. A repeated number gets the cached
response alone, and a lower one nothing. STATUS_GET and REG_READ answer with the registers, REG_WRITE answers and then
writes as BSC, EVENT_READ gives records, EVENT_ACK frees them, a subscribed session is sent each new record once. A
message that arrives as one segment, on a port that is up, in an open session, with a new number and the right tag,
waits for its service, is answered with UNKNOWN_TYPE, or with the reason why it cannot be served. With a wrong tag it
is discarded without a response and counted. Two segments make the message that their bytes make, in either order. A
message still incomplete 100 ms after its first segment is discarded, no other. -/
def Obligations.SessionsRequestsAndSegments : Prop :=
  (∀ (r : Dripol) (s : State),
    (∀ nonce key role, servedOutside s r 1 = true →
      (s.enrolled = true → s.fw.sessions.length < 8 →
        ∃ t id n x, exec (.hello r nonce key role) s = .next t ∧ id ≠ 0 ∧ s.sessionOf id = none ∧ n.length = 32 ∧
          replied s t r 2 St.ok (n ++ leBytes 4 id.toNat) ∧ t.sessionOf id = some x ∧ x.opened = false ∧ x.role = role ∧ x.hostKey = key ∧
          x.transcript = shake256 ((nonce ++ key ++ leBytes 1 role.level) ++ (n ++ leBytes 4 id.toNat)) 64 ∧
          ∀ k, k ≠ id → k ≠ r.session → t.sessionOf k = s.sessionOf k) ∧
      (s.enrolled = true → 8 ≤ s.fw.sessions.length → ∃ t, exec (.hello r nonce key role) s = .next t ∧ answersHost s t s r 1 St.sessionLimit []) ∧
      (s.enrolled = false → ∃ t, exec (.hello r nonce key role) s = .next t ∧ answersHost s t s r 1 St.authFailed [])) ∧
    (∀ sig x, servedOutside s r 3 = true → s.enrolled = true → s.sessionOf r.session = some x → x.opened = false →
      let good := Config.slhVerify slh256s x.hostKey (ascii "DRIPOL-HOST") x.transcript sig = true ∧
        (x.hostKey = s.fw.ownerKey ∨ ∃ e ∈ s.fw.hostKeys, e.1 = shake256 x.hostKey e.1.length ∧ x.role.level ≤ e.2.level)
      (good → ∃ t y, exec (.hostProof r sig) s = .next t ∧ replied s t r 4 St.ok (Config.slhSign (ascii "DRIPOL-NODE") x.transcript) ∧
        t.openSession r.session = some y ∧ y.role = x.role ∧ y.high = some r.seq ∧
        y.key = kmac256 s.fw.ownerSecret x.transcript 32 (ascii "DRIPOL-SESSION")) ∧
      (¬ good → ∃ t, exec (.hostProof r sig) s = .next t ∧ replied s t r 3 St.authFailed [] ∧ t.sessionOf r.session = none)) ∧
    (served s r 5 .observer none = true → ∃ t, exec (.close r) s = .next t ∧ replied s t r 5 St.ok [] ∧ t.sessionOf r.session = none ∧
      (∀ k, k ≠ r.session → t.sessionOf k = s.sessionOf k) ∧ { t with hostOut := s.hostOut, fw := s.fw } = s) ∧
    (∀ key secret, servedOutside s r 6 = true →
      (s.enrolled = true → ∃ t, exec (.enroll r key secret) s = .next t ∧ answersHost s t s r 6 St.authFailed []) ∧
      (s.enrolled = false → key.length = 64 → secret.length = 32 → ∃ t, exec (.enroll r key secret) s = .next t ∧
        answersHost s t ({ s with fw := { s.fw with ownerKey := key, ownerSecret := secret } }.setFld F.SEC_STAT_ENROLLED 1) r 6 St.ok
          (Config.slhSign (ascii "FVN-ENROLL") (shake256 (key ++ secret) 64)))) ∧
    (∀ sig, served s r 7 .administrator (some 0) = true →
      (Config.releaseSigned s.fw.ownerKey sig = true → ∃ t, exec (.release r sig) s = .next t ∧
        answersHost s t ({ s with fw := { s.fw with ownerKey := [], ownerSecret := [] } }.setFld F.SEC_STAT_ENROLLED 0) r 7 St.ok []) ∧
      (Config.releaseSigned s.fw.ownerKey sig = false → ∃ t, exec (.release r sig) s = .next t ∧ answersHost s t s r 7 St.authFailed [])) ∧
    (∀ (id : BitVec 32) (now : BitVec 64) x, s.sessionOf id = some x →
      (x.lastValid + 60000000000 ≤ (s.at_ now).clock.ns.toNat → ∃ t, exec (.sessionIdleTimeout id now) s = .next t ∧ t.sessionOf id = none ∧
        (∀ q ∈ t.fw.taken, q.session ≠ id) ∧ (∀ k, k ≠ id → t.sessionOf k = s.sessionOf k) ∧ t.hostOut = s.hostOut ∧ t.regs = s.regs) ∧
      ((s.at_ now).clock.ns.toNat < x.lastValid + 60000000000 → exec (.sessionIdleTimeout id now) s = .next (s.at_ now))))
  ∧ (∀ (r : Dripol) (s : State),
    (∀ ws upto a b tag role hash rm, ∀ e ∈ [(Instr.regWrite r ws, 0x12, Role.administrator, some 0), (.eventAck r upto, 0x14, .operator, none),
        (.planSet r a b, 0x25, .operator, some 1), (.hostkeySet r hash role rm, 0x20, .administrator, some 0), (.fwCommit r, 0x52, .administrator, some 0),
        (.spareHold r tag, 0x36, .operator, some 4), (.statusGet r, 0x10, .observer, none)],
      s.power.on = true → s.power.stopped = false →
      (r.major ≠ 1 → exec e.1 s = .next { s with hostOut := s.hostOut ++ [hostReply r.session r.seq e.2.1 St.sessionVersion [1, 2] []] }) ∧
      (∀ x, r.major = 1 → s.enrolled = true → s.openSession r.session = some x → s.isTaken r e.2.1 = false →
        (∀ m, x.cached r.seq = some m → exec e.1 s = .next { s with hostOut := s.hostOut ++ [m] }) ∧
        (x.cached r.seq = none → x.fresh r.seq = false → exec e.1 s = .next s)) ∧
      (∀ x, inSession s r e.2.1 x = true →
        (x.role.level < e.2.2.1.level → ∃ t, exec e.1 s = .next t ∧ answersHost s t s r e.2.1 St.role []) ∧
        (∀ st, e.2.2.1.level ≤ x.role.level → s.serviceStop e.2.1 e.2.2.2 = some st → ∃ t, exec e.1 s = .next t ∧ answersHost s t s r e.2.1 st []))) ∧
    (served s r 0x10 .observer none = true → ∃ t y, exec (.statusGet r) s = .next t ∧ t.openSession r.session = some y ∧
      (∃ m ∈ y.cache, m.1 = r.seq ∧ m.2.type = 0x10) ∧
      answersHost s t s r 0x10 St.ok (([R.GLB_FUNC_READY, R.GLB_FUNC_READY + 8, R.GLB_JOB] ++
        (List.range 6).map (fun p => F.FWP_STAT_RUNNING.off + 8 * p)).flatMap (fun a => leBytes 8 (s.liveReg a).toNat))) ∧
    (∀ offs, served s r 0x11 .observer none = true → offs.length ≤ 8192 → (∀ a ∈ offs, a.toNat % 8 = 0) →
      let v := s.readRegs (offs.map BitVec.toNat)
      ∃ t, exec (.regRead r offs) s = .next t ∧ answersHost s t v.2 r 0x11 St.ok v.1 ∧ v.1.length = 8 * offs.length) ∧
    (∀ ws, served s r 0x12 .administrator (some 0) = true → (∀ w ∈ ws, w.1.toNat % 8 = 0) →
      ∃ u, answersHost s u s r 0x12 St.ok [] ∧ exec (.regWrite r ws) s = .next (ws.foldl (fun s w => s.busWrite (.fw 0) w.1.toNat w.2) u)) ∧
    (∀ start n, served s r 0x13 .observer none = true → ∃ t, exec (.eventRead r start n) s = .next t ∧
      answersHost s t s r 0x13 St.ok (leBytes 8 (max start s.rings.first) ++
        ((s.rings.host.drop (start - s.rings.first)).take (min n 2048)).flatMap EventRec.bytes)) ∧
    (∀ upto, served s r 0x14 .operator none = true →
      let k := min s.rings.host.length (upto + 1 - s.rings.first)
      ∃ t, exec (.eventAck r upto) s = .next t ∧ t.rings.host.length + k = s.rings.host.length ∧
        answersHost s t { s with rings := { s.rings with host := s.rings.host.drop k, first := s.rings.first + k } } r 0x14 St.ok []) ∧
    (∀ on, served s r 0x15 .observer none = true → ∃ t y, exec (.eventSubscribe r on) s = .next t ∧ answersHost s t s r 0x15 St.ok [] ∧
      t.openSession r.session = some y ∧ y.subscribed = on ∧ y.notified = s.rings.first + s.rings.host.length) ∧
    (∀ (id : BitVec 32) x, s.openSession id = some x →
      let l := (s.rings.host.drop (x.notified - s.rings.first)).take 2048
      (x.subscribed = true → l ≠ [] → ∃ t y m, exec (.eventNotify id) s = .next t ∧ t.hostOut = s.hostOut ++ [m] ∧ m.session = id ∧ m.type = 0x16 ∧
        m.notify = true ∧ m.seq = x.noteSeq ∧ m.data = l.flatMap EventRec.bytes ∧ t.openSession id = some y ∧ y.noteSeq = x.noteSeq + 1 ∧
        y.notified = max x.notified s.rings.first + l.length ∧ { t with hostOut := s.hostOut, fw := s.fw } = s) ∧
      (x.subscribed = false ∨ l = [] → exec (.eventNotify id) s = .next s)))
  ∧ (∀ (e : EthId) (src : Nat) (now : BitVec 64) (session seq : BitVec 32) (type : Nat) (d : List Byte) (s : State),
    let u := s.at_ now
    s.power.on = true → s.power.stopped = false → s.bit (F.ETH_PORT_STAT_UP.plus (8 * e.val)) = true →
    (∀ m ∈ s.fw.reasm, ¬(m.src = src ∧ m.seq = seq)) → s.fw.reasm.length < 16 →
    (∀ x tag, session ≠ 0 → s.enrolled = true → s.sessionOf session = some x → x.opened = true → type < 65536 → type ≠ 3 →
      d.length ≤ 8144 → tag.length = 16 → x.cached seq = none → x.fresh seq = true →
      let m := dripolBytes session seq type d
      let go := exec (.dripolSegment e src (segmentBytes seq 0 1 (m ++ tag)) now) s
      let q : Taken := ⟨session, seq, type, d⟩
      let r : Dripol := ⟨session, seq, 1⟩
      (tag = kmac256 x.key m 16 (ascii "DRIPOL-MSG") →
        (type ∈ knownTypes → s.serviceStop type q.server = none → ∃ t y, go = .next t ∧ t.fw.taken = s.fw.taken ++ [q] ∧ t.hostOut = s.hostOut ∧
          t.regs = s.regs ∧ t.sessionOf session = some y ∧ y.high = some seq ∧ y.lastValid = u.clock.ns.toNat) ∧
        (∀ st, type ∈ knownTypes → s.serviceStop type q.server = some st → ∃ t, go = .next t ∧ answersHost u t u r type st []) ∧
        (type ∉ knownTypes → ∃ t, go = .next t ∧ answersHost u t u r type St.unknownType [])) ∧
      (tag ≠ kmac256 x.key m 16 (ascii "DRIPOL-MSG") → ∃ t, go = .next t ∧ t.fw = s.fw ∧ t.hostOut = s.hostOut ∧
        (∀ a, a ≠ F.MBX_STAT_TAG_FAILED.off → t.reg a = s.reg a) ∧
        t.fld F.MBX_STAT_TAG_FAILED = (s.fld F.MBX_STAT_TAG_FAILED + 1) % 2 ^ (F.MBX_STAT_TAG_FAILED.hi - F.MBX_STAT_TAG_FAILED.lo + 1))) ∧
    (∀ b0 b1, 0 < b0.length → b0.length ≤ 8192 → 0 < b1.length → b1.length ≤ 8192 →
      let at0 := Instr.dripolSegment e src (segmentBytes seq 0 2 b0) now
      let at1 := Instr.dripolSegment e src (segmentBytes seq 1 2 b1) now
      ∀ x ∈ [(at0, at1), (at1, at0)], ∃ a, exec x.1 s = .next a ∧ a.hostOut = s.hostOut ∧ a.fw.taken = s.fw.taken ∧ a.fw.reasm.length = s.fw.reasm.length + 1 ∧
        exec x.2 a = .next (u.dripolMsg (b0 ++ b1) seq.toNat)) ∧
    (∃ t, exec (.reassemblyTimeout now) s = .next t ∧ (∀ m, m ∈ t.fw.reasm ↔ m ∈ s.fw.reasm ∧ u.clock.ns.toNat < m.first + 100000000) ∧
      t.fw.taken = s.fw.taken ∧ t.fw.sessions = s.fw.sessions ∧ t.hostOut = s.hostOut ∧ t.regs = s.regs))

/-- HOSTKEY_SET replaces the entry of a key or removes it, and a full list takes no new one. POLICY_SET sets the items it
carries and no other. A window set replaces that of its name; removing an unknown one is refused. TIME_ROOT_SET writes
TIME_PTP_CFG. PLAN_SET in range without a draft sets the plan, else PLAN_REFUSED. NODE_ASSIGN gives the number while
no uplink is in service. PORT_ENABLE retrains a disabled port. GROUP_CREATE makes a context, GROUP_DESTROY removes one
that the host made. JOB_START at a root without a draft or job opens the intake and sends DRAFT_BEGIN, the map and the
image to its children; with a draft it gets JOB_PRESENT. JOB_SUBSTITUTE changes the map. On the root of the draft
JOB_GO, JOB_DRAIN, JOB_ABANDON and JOB_TEARDOWN pass down and act as their messages do, and JOB_GO too late gets
TIMEOUT; elsewhere they get ABORTED. SPARE_HOLD and FENCE_CLEAR change that alone. RESTORE without a draft, or of
another shape or draft, gets SHAPE_MISMATCH and changes nothing; without a valid generation GEN_INCONSISTENT, with a
damaged page CHUNK_DIGEST, and nothing is loaded. Otherwise every page of the shard reads as the generation holds it
and the generation is shown as committed. STORE_EXPORT answers with one page of a committed generation and changes
nothing; of another generation it gets BAD_DESCRIPTOR. -/
def Obligations.HostPolicyJobsAndRestore : Prop :=
  (∀ (r : Dripol) (s : State),
    (∀ hash role rm, served s r 0x20 .administrator (some 0) = true →
      let rest := s.fw.hostKeys.filter (fun e => e.1 != hash)
      let set := fun l => ({ s with fw := { s.fw with hostKeys := l } } : State)
      ∃ t, exec (.hostkeySet r hash role rm) s = .next t ∧
        (rm = true → answersHost s t (set rest) r 0x20 St.ok []) ∧
        (rm = false → rest.length < 32 → answersHost s t (set (rest ++ [(hash, role)])) r 0x20 St.ok []) ∧
        (rm = false → 32 ≤ rest.length → answersHost s t s r 0x20 St.badDescriptor [])) ∧
    (∀ p : HostPolicy, served s r 0x21 .administrator (some 0) = true →
      ∃ t, exec (.policySet r p) s = .next t ∧ replied s t r 0x21 St.ok [] ∧ t.fw.sigRequired = p.sigRequired.getD s.fw.sigRequired ∧
        t.fw.jobKeys = p.jobKeys.getD s.fw.jobKeys ∧ t.fw.vcMin = p.vcMin.getD s.fw.vcMin ∧
        t.reg R.CKPT_CFG = (match p.ckptCfg with | some v => (s.busWrite (.fw 0) R.CKPT_CFG v).reg R.CKPT_CFG | none => s.reg R.CKPT_CFG) ∧
        (∀ a, a ≠ R.CKPT_CFG → a ≠ F.SEC_STAT_SIG_REQUIRED.off → t.reg a = s.reg a) ∧ t.fw.hostKeys = s.fw.hostKeys ∧
        t.fw.ownerKey = s.fw.ownerKey ∧ t.mem = s.mem) ∧
    (∀ w : WindowSet, served s r 0x22 .administrator (some 4) = true → ∃ t, exec (.windowSetInstall r w) s = .next t ∧
      (w.name.length ≤ 24 → w.entries.length ≤ 64 →
        answersHost s t { s with fw := { s.fw with windowSets := s.fw.windowSets.filter (fun x => x.name != w.name) ++ [w] } } r 0x22 St.ok []) ∧
      (24 < w.name.length ∨ 64 < w.entries.length → answersHost s t s r 0x22 St.badDescriptor [])) ∧
    (∀ name, served s r 0x23 .administrator (some 4) = true → ∃ t, exec (.windowSetRemove r name) s = .next t ∧
      ((∃ w ∈ s.fw.windowSets, w.name = name) →
        answersHost s t { s with fw := { s.fw with windowSets := s.fw.windowSets.filter (fun x => x.name != name) } } r 0x23 St.ok []) ∧
      ((∀ w ∈ s.fw.windowSets, w.name ≠ name) → answersHost s t s r 0x23 St.badDescriptor [])) ∧
    (∀ v, served s r 0x24 .administrator (some 4) = true → ∃ t, exec (.timeRootSet r v) s = .next t ∧
      answersHost s t (s.busWrite (.fw 4) R.TIME_PTP_CFG v) r 0x24 St.ok []) ∧
    (∀ clock cap : BitVec 8, served s r 0x25 .operator (some 1) = true → ∃ t, exec (.planSet r clock cap) s = .next t ∧
      let ok := clock.toNat < 3 ∧ 16 ≤ cap.toNat ∧ cap.toNat ≤ 26 ∧ s.fld F.GLB_JOB_STATE = 0
      (ok → answersHost s t ((s.setFld F.PWR_PLAN_CLOCK clock.toNat).setFld F.PWR_PLAN_CAP cap.toNat) r 0x25 St.ok []) ∧
      (¬ ok → answersHost s t s r 0x25 St.planRefused [])) ∧
    (∀ (chain : BitVec 6) (span : BitVec 4), served s r 0x26 .administrator (some 4) = true → ∃ t, exec (.nodeAssign r chain span) s = .next t ∧
      ((∀ p ∈ s.livePorts, optical p = false) → replied s t r 0x26 St.ok [] ∧ t.nodeValid = true ∧ t.power = s.power ∧ t.mem = s.mem ∧
        t.nodeId.toNat = chain.toNat * 256 + span.toNat * 16 + s.power.slotId.toNat % 16) ∧
      ((∃ p ∈ s.livePorts, optical p = true) → answersHost s t s r 0x26 St.aborted [])) ∧
    (∀ p : PortId, served s r 0x27 .administrator (some (4 + p.val / 10)) = true → ∃ t, exec (.portEnable r p) s = .next t ∧
      (s.bit (pfld p F.FAB_PORT_STAT_DISABLED) = true → replied s t r 0x27 St.ok [] ∧ t.bit (pfld p F.FAB_PORT_STAT_DISABLED) = false ∧
        t.bit (pfld p F.FAB_PORT_STAT_TRAINING) = true ∧ (t.port p).retrains = [] ∧ otherPorts p s t ∧
        otherRegs [(pfld p F.FAB_PORT_STAT_DISABLED).off] s t) ∧
      (s.bit (pfld p F.FAB_PORT_STAT_DISABLED) = false → answersHost s t s r 0x27 St.ok [])) ∧
    (∀ g : GroupRec, served s r 0x28 .administrator (some 4) = true → s.draft = none → (∀ n ∈ g.members, n.toNat < 16384) →
      let ms := g.members.map (fun n => (BitVec.ofNat 14 n.toNat : NodeId))
      (ms ≠ [] ∧ ms.Nodup ∧ s.nodeId ∈ ms ∧ g.thresh.toNat < 32768 ∧ (∀ e ∈ s.ctxs, e.2.gid ≠ g.groupId) →
        (s.ctxs.length < 256 → s.ctx g.ctx = none → (s.ctxs.map (fun e => e.2.members.length)).sum + ms.length ≤ 1048576 →
          ∃ t x, exec (.groupCreate r g) s = .next t ∧ replied s t r 0x28 St.ok [] ∧ t.ctx g.ctx = some x ∧ x.gid = g.groupId ∧ x.members = ms ∧
            x.byHost = true ∧ x.queue = [] ∧ t.fld (ctxStat g.ctx F.COL_CTX_STAT_VALID) = 1 ∧
            t.fld (ctxStat g.ctx F.COL_CTX_ID_INDEX) = ms.idxOf s.nodeId % 2 ^ (F.COL_CTX_ID_INDEX.hi - F.COL_CTX_ID_INDEX.lo + 1) ∧
            t.fld (ctxStat g.ctx F.COL_CTX_ID_GROUP_ID) = g.groupId.toNat ∧ (∀ c : CtxId, c ≠ g.ctx → t.ctx c = s.ctx c)) ∧
        ((s.ctx g.ctx).isSome = true → ∃ t, exec (.groupCreate r g) s = .next t ∧ answersHost s t s r 0x28 St.colNoContext [])) ∧
      (ms = [] ∨ ¬ ms.Nodup ∨ s.nodeId ∉ ms ∨ (∃ e ∈ s.ctxs, e.2.gid = g.groupId) →
        ∃ t, exec (.groupCreate r g) s = .next t ∧ answersHost s t s r 0x28 St.badDescriptor [])) ∧
    (∀ c : CtxId, served s r 0x29 .administrator (some 4) = true → ∃ t, exec (.groupDestroy r c) s = .next t ∧
      (∀ x, s.ctx c = some x → x.byHost = true → replied s t r 0x29 St.ok [] ∧ t.ctx c = none ∧ t.fld (ctxStat c F.COL_CTX_STAT_VALID) = 0) ∧
      ((∀ x, s.ctx c = some x → x.byHost = false) → answersHost s t s r 0x29 St.badDescriptor [])))
  ∧ (∀ (r : Dripol) (tag : BitVec 64) (now : BitVec 64) (s : State),
    let u := s.at_ now
    (∀ j : JobStart, served u r 0x30 .operator (some 4) = true →
      (s.draft = none → s.fld F.GLB_JOB_STATE = 0 → s.busyNode = false → ∃ t e, exec (.jobStart r j now) s = .next t ∧ replied s t r 0x30 St.ok [] ∧
        t.draft = some e ∧ e.root = true ∧ e.jobTag = j.jobTag ∧ e.total = j.totalSize.toNat ∧ e.digest = j.digest ∧ e.mapDigest = j.mapDigest ∧
        e.nmembers = j.nmembers.toNat ∧ e.session = r.session ∧ e.source = none ∧ e.chains = j.chains.map BitVec.toNat ∧ e.outcome = none ∧
        e.map = mapOfBytes (s.mapBytes e) e.nmembers ∧ t.fld F.GLB_JOB_STATE = 1 ∧ t.fld F.GLB_JOB_TAG_JOB_TAG = j.jobTag.toNat ∧ t.mem = s.mem ∧
        let kids := s.treeKids e
        ((∀ n ∈ kids, canTell s 0x40 n = true ∧ canTell s 0x41 n = true) →
          t.outbox = s.outbox ++ kids.map (fun n => onItsPort s (request n 6 0x40 0 (beginBytes e).length 0 (beginBytes e))) ++
            (draftChunks e).flatMap (fun c => kids.map (fun n => onItsPort s (request n 6 0x41 c.1 c.2 0 (s.bytes (e.base + c.1) c.2)))))) ∧
      (s.draft.isSome = true → ∃ t, exec (.jobStart r j now) s = .next t ∧ answersHost u t u r 0x30 St.jobPresent [])) ∧
    (∀ (d : Draft) (subs : List (BitVec 16 × NodeId)), served s r 0x31 .operator (some 4) = true → s.draft = some d →
      (d.root = true → (∀ e ∈ subs, e.1.toNat < d.map.length) → ∃ t e l, exec (.jobSubstitute r subs) s = .next t ∧ t.draft = some e ∧
        e.map = subs.foldl (fun m x => m.set x.1.toNat x.2) d.map ∧ e.jobTag = d.jobTag ∧
        t.hostOut = s.hostOut ++ l ++ [hostReply r.session r.seq 0x31 St.ok [] []] ∧ ∀ m ∈ l, m.type = 0x30) ∧
      (d.root = false ∨ (∃ e ∈ subs, d.map.length ≤ e.1.toNat) →
        ∃ t, exec (.jobSubstitute r subs) s = .next t ∧ answersHost s t s r 0x31 St.badDescriptor [])) ∧
    (∀ d : Draft, s.draft = some d → d.root = true → d.jobTag = tag →
      (∀ (base : BitVec 64) (first : BitVec 48), served u r 0x32 .operator (some 4) = true → s.fld F.GLB_JOB_STATE = 2 →
        (u.clock.ns.toNat + 1000000 ≤ base.toNat → s.resil.restored = false →
          ∃ t, exec (.dripolJobGo r tag base first now) s = .next t ∧ replied s t r 0x32 St.ok [] ∧ t.fld F.GLB_JOB_STATE = 3 ∧
            t.fld F.CKPT_STAT_STATE = 1 ∧ t.draft = some { d with firstPick := first } ∧ t.startOn (t.fld F.TIME_PICK_BASE_BASE) first.toNat = base.toNat ∧
            t.mem = s.mem ∧ toldKids s t d 0x44 (goBytes d base.toNat first)) ∧
        (base.toNat < u.clock.ns.toNat + 1000000 →
          ∃ t, exec (.dripolJobGo r tag base first now) s = .next t ∧ replied s t r 0x32 St.timeout [] ∧ t.fld F.GLB_JOB_STATE = 2 ∧ t.tiles = s.tiles ∧
            toldKids s t d 0x44 (goBytes d base.toNat first))) ∧
      (∀ (last : BitVec 48) snap, served u r 0x34 .operator (some 4) = true → s.fld F.GLB_JOB_STATE = 3 →
        u.clock.ns.toNat + 1000000 ≤ s.pickStartNs (last.toNat + 1) →
        ∃ t, exec (.dripolJobDrain r tag last snap now) s = .next t ∧ replied s t r 0x34 St.ok [] ∧
          t.draft = some { d with drainAsked := last, drainLast := some (last, snap) } ∧ t.tiles = s.tiles ∧ t.mem = s.mem ∧
          toldKids s t d 0x46 (leBytes 8 tag.toNat ++ leBytes 6 last.toNat ++ leBytes 1 (natOf snap))) ∧
      (∀ c ty scrub, (c = .jobTeardown r tag scrub now ∧ ty = 0x35) ∨ (∃ st, c = .dripolJobAbandon r tag st now ∧ ty = 0x33 ∧ scrub = false) →
        served u r ty .operator (some 4) = true → s.fld F.GLB_JOB_STATE ≠ 5 → (∀ n ∈ d.windows, n < 64) → s.power.off = none → s.power.resets = [] →
        s.power.resetAfter = none → s.fld F.PWR_STATE_CUR = 0 →
        ∃ t, exec c s = .next t ∧ replied s t r ty St.ok [] ∧ t.fld F.GLB_JOB_STATE = 5 ∧ t.draft = some { d with scrub := scrub } ∧
          (∀ x : CtxId, t.ctx x = none) ∧ (∀ n ∈ d.windows, t.fld (winFld F.FAB_WIN_CTL_VALID n) = 0) ∧ t.power.resets = [(3, 0, 3)] ∧ t.tiles = [])) ∧
    ((∀ d, s.draft = some d → d.root = true → d.jobTag ≠ tag) → ∀ base first st last snap scrub,
      ∀ e ∈ [(Instr.dripolJobGo r tag base first now, 0x32), (.dripolJobAbandon r tag st now, 0x33), (.dripolJobDrain r tag last snap now, 0x34),
        (.jobTeardown r tag scrub now, 0x35)],
      served u r e.2 .operator (some 4) = true → ∃ t, exec e.1 s = .next t ∧ answersHost u t u r e.2 St.aborted []) ∧
    (served s r 0x36 .operator (some 4) = true → ∃ t, exec (.spareHold r tag) s = .next t ∧
      answersHost s t { s with resil := { s.resil with spareHold := some tag } } r 0x36 St.ok []) ∧
    (∀ node, served s r 0x37 .administrator (some 4) = true → ∃ t, exec (.fenceClear r node) s = .next t ∧
      answersHost s t { s with resil := { s.resil with
        fence := s.resil.fence.filter (· != node), lost := s.resil.lost.filter (· != node) } } r 0x37 St.ok []))
  ∧ (∀ (r : Dripol) (s : State),
    (∀ x : RestoreReq, served s r 0x40 .operator (some 3) = true →
      (s.draft = none → ∃ t, exec (.restore r x) s = .next t ∧ answersHost s t s r 0x40 St.shapeMismatch []) ∧
      (∀ d, s.draft = some d →
        let same := x.nmembers.toNat = d.nmembers ∧ x.draft = d.digest ∧ x.shape = shapeOf d.map
        (¬ same → ∃ t, exec (.restore r x) s = .next t ∧ answersHost s t s r 0x40 St.shapeMismatch []) ∧
        (same → x.fromStore = false → d.loaded = true → s.fld F.GLB_JOB_STATE = 2 →
          (s.newestFlash d = none → ∃ t, exec (.restore r x) s = .next t ∧ answersHost s t s r 0x40 St.genInconsistent []) ∧
          (∀ g, s.newestFlash d = some g →
            (s.flashGood g = false → ∃ t, exec (.restore r x) s = .next t ∧ answersHost s t s r 0x40 St.chunkDigest []) ∧
            (s.flashGood g = true → ∃ t, exec (.restore r x) s = .next t ∧ replied s t r 0x40 St.ok [] ∧ t.resil.gen = g.gen ∧
              t.resil.restored = true ∧ t.fld F.CKPT_GEN_COMMITTED = g.gen % 2 ^ (F.CKPT_GEN_COMMITTED.hi - F.CKPT_GEN_COMMITTED.lo + 1) ∧
              ((∀ e ∈ s.resil.recs, e.gen ≤ g.gen) → ∃ e ∈ t.resil.recs, e.gen = g.gen ∧ e.committed = true) ∧ t.draft = s.draft ∧ t.flash = s.flash ∧
              (memoriesWf s → s.wcb = [] → s.ctxs = [] → (∀ k p, s.shardPage d k = some p → p.1 % 65536 = 0 ∧ p.1 < sramWindow) →
                (∀ j k p q, s.shardPage d j = some p → s.shardPage d k = some q → j ≠ k → p.1 ≠ q.1) →
                ∀ k p, k < 13 * g.stripes.length → s.shardPage d k = some p → t.rawBytes p.1 65536 = s.flashPage g k)))))) ∧
    (∀ (gen : BitVec 64) (page : Nat) (d : Draft), served s r 0x41 .operator (some 3) = true → s.draft = some d →
      (∀ b p, s.flashRec d gen.toNat = some b → (recOf b).gen = gen.toNat → s.exportPage (recOf b) b page = some p →
        ∃ t, exec (.storeExport r gen page) s = .next t ∧ answersHost s t s r 0x41 St.ok p ∧ p.length = 65536) ∧
      (s.flashRec d gen.toNat = none → ∃ t, exec (.storeExport r gen page) s = .next t ∧ answersHost s t s r 0x41 St.badDescriptor [])))

/-- FW_STAGE keeps the chunk; the last one verifies the whole: a good bundle is staged in the slot, a bad one leaves it
empty, with the reason. FW_ACTIVATE needs maintenance state and a staged bundle, waits for the end of an emergency,
and boots the other slot on trial; FW_COMMIT raises the fuse counters, FW_REVERT and a restart within 60 s boot the
previous slot. MAINT_ENTER needs IDLE; MAINT_EXIT cancels what waits. BOOT after POR or a PKG reset verifies the
active slot, then the other: the processors start, measured in order, memories and ports come up, and the reset event
is raised; with no good slot the node stays in recovery mode. A processor that misses its watchdog is reset, at the
third time within 10 s held. ATTEST, MEASURE_LOG_GET and IDENTITY_GET answer with report and signature, log and
certificate. RESET answers and resets. REMOVE answers and takes every port out of service; with a draft only with
FORCE, after FATAL. -/
def Obligations.FirmwareBootAndRemoval : Prop :=
  (∀ (r : Dripol) (s : State),
    let quiet := s.power.off = none ∧ s.power.resets = [] ∧ s.power.resetAfter = none ∧ s.fld F.PWR_STATE_CUR = 0
    (∀ (off : Nat) (d : List Byte) (last : Bool), served s r 0x50 .administrator (some 0) = true →
      let m := Memory.writeN (if s.fw.stagingLen = 0 then [] else s.fw.staging) off d
      let n := max s.fw.stagingLen (off + d.length)
      let b := m.readN 0 n
      let slot := s.stageSlot
      ∃ t, exec (.fwStage r off d last) s = .next t ∧ (∀ k, k ≠ slot → t.slotBytes k = s.slotBytes k) ∧ t.mem = s.mem ∧
        (268435456 < off + d.length → replied s t r 0x50 St.bundleInvalid [] ∧ t.slotBytes slot = [] ∧ t.bit F.SEC_BUNDLE_STAGED = false ∧
          t.fw.stagingLen = 0) ∧
        (off + d.length ≤ 268435456 → last = false → replied s t r 0x50 St.ok [] ∧ t.fw.staging = m ∧ t.fw.stagingLen = n) ∧
        (off + d.length ≤ 268435456 → last = true → t.fw.stagingLen = 0 ∧
          (s.bundleErr b = none → replied s t r 0x50 St.ok [] ∧ t.slotBytes slot = b ∧ t.bit F.SEC_BUNDLE_STAGED = true) ∧
          (∀ st, s.bundleErr b = some st → replied s t r 0x50 st [] ∧ t.slotBytes slot = [] ∧ t.bit F.SEC_BUNDLE_STAGED = false))) ∧
    (served s r 0x51 .administrator (some 0) = true →
      let rom := s.bit F.SEC_STAT_RECOVERY
      ∃ t, exec (.fwActivate r) s = .next t ∧
        (rom = false → s.maint = false → answersHost s t s r 0x51 St.notMaintenance []) ∧
        (rom = true ∨ s.maint = true → s.bit F.SEC_BUNDLE_STAGED = false → answersHost s t s r 0x51 St.notStaged []) ∧
        (rom = false → s.maint = true → s.bit F.SEC_BUNDLE_STAGED = true → s.emergency = true →
          answersHost s t { s with fw := { s.fw with deferred := true } } r 0x51 St.deferred []) ∧
        (rom = true ∨ (s.maint = true ∧ s.emergency = false) → s.bit F.SEC_BUNDLE_STAGED = true → quiet →
          replied s t r 0x51 St.ok [] ∧ t.power.resets = [(2, 0, 4)] ∧ t.bit F.SEC_BUNDLE_TRIAL = true ∧ t.bit F.SEC_BUNDLE_STAGED = false ∧
          t.fld F.SEC_BUNDLE_SLOT = (if rom = true then s.fld F.SEC_BUNDLE_SLOT else s.idleSlot) ∧ t.fw.slots = s.fw.slots ∧ t.fw.sessions = [])) ∧
    (s.power.on = true → quiet →
      (s.fw.deferred = true → s.emergency = false → s.maint = true → s.bit F.SEC_BUNDLE_STAGED = true → s.ready 0 = true →
        s.bit F.SEC_STAT_RECOVERY = false → ∃ t, exec .deferredActivation s = .next t ∧ t.power.resets = [(2, 0, 4)] ∧ t.fw.deferred = false ∧
          t.bit F.SEC_BUNDLE_TRIAL = true ∧ t.fld F.SEC_BUNDLE_SLOT = s.idleSlot) ∧
      (s.bit F.SEC_BUNDLE_TRIAL = true → s.trialFailed = true → ∃ t, exec .trialRevert s = .next t ∧ t.power.resets = [(2, 0, 4)] ∧
        t.fld F.SEC_BUNDLE_SLOT = s.idleSlot ∧ t.bit F.SEC_BUNDLE_TRIAL = false ∧ t.fw.reverted = true)) ∧
    (s.fw.deferred = false ∨ s.emergency = true → exec .deferredActivation s = .next s) ∧
    (s.bit F.SEC_BUNDLE_TRIAL = false ∨ s.trialFailed = false → exec .trialRevert s = .next s) ∧
    (served s r 0x52 .administrator (some 0) = true → ∃ t, exec (.fwCommit r) s = .next t ∧
      (s.bit F.SEC_BUNDLE_TRIAL = true → replied s t r 0x52 St.ok [] ∧ t.bit F.SEC_BUNDLE_TRIAL = false ∧ t.fw.trialSince = none ∧
        t.fld F.SEC_FUSE_BOOT_CTR = max (s.fld F.SEC_FUSE_BOOT_CTR) (bytesAt s.bundle 12 1) ∧
        t.fld F.SEC_FUSE_FW_CTR = max (s.fld F.SEC_FUSE_FW_CTR) (bytesAt s.bundle 13 1) ∧ t.fld F.SEC_BUNDLE_SLOT = s.fld F.SEC_BUNDLE_SLOT) ∧
      (s.bit F.SEC_BUNDLE_TRIAL = false → answersHost s t s r 0x52 St.aborted [])) ∧
    (served s r 0x53 .administrator (some 0) = true → ∃ t, exec (.fwRevert r) s = .next t ∧
      (s.bit F.SEC_BUNDLE_TRIAL = true → quiet → replied s t r 0x53 St.ok [] ∧ t.power.resets = [(2, 0, 4)] ∧ t.fld F.SEC_BUNDLE_SLOT = s.idleSlot ∧
        t.bit F.SEC_BUNDLE_TRIAL = false ∧ t.fw.slots = s.fw.slots) ∧
      (s.bit F.SEC_BUNDLE_TRIAL = false → answersHost s t s r 0x53 St.aborted [])) ∧
    (served s r 0x54 .administrator (some 0) = true → ∃ t, exec (.maintEnter r) s = .next t ∧
      (s.fld F.GLB_JOB_STATE = 0 → answersHost s t (s.setFld F.MBX_STAT_MAINT 1) r 0x54 St.ok [] ∧ t.maint = true) ∧
      (s.fld F.GLB_JOB_STATE ≠ 0 → answersHost s t s r 0x54 St.jobPresent [])) ∧
    (served s r 0x55 .administrator (some 0) = true → ∃ t, exec (.maintExit r) s = .next t ∧ t.maint = false ∧
      answersHost s t { s.setFld F.MBX_STAT_MAINT 0 with fw := { s.fw with deferred := false } } r 0x55 St.ok []))
  ∧ (∀ (r : Dripol) (now : BitVec 64) (s : State),
    let u := s.at_ now
    let quiet := s.power.off = none ∧ s.power.resets = [] ∧ s.power.resetAfter = none ∧ s.fld F.PWR_STATE_CUR = 0
    ((s.power.on = true ∧ s.power.off = none ∧ ∃ x ∈ s.power.resets, x.1 ≤ 2) →
      (∀ k, s.bootSlot = some k → s.rings.host.length + s.rings.bsc.length + 2 < 65536 →
        let own := k = s.fld F.SEC_BUNDLE_SLOT
        ∃ t, exec (.boot now) s = .next t ∧ t.bit F.SEC_STAT_RECOVERY = false ∧ t.bit F.SEC_STAT_IDENTITY = true ∧ t.fld F.SEC_BUNDLE_SLOT = k ∧
          t.fld F.SEC_BUNDLE_VERSION = bytesAt (s.slotBytes k) 8 4 ∧ (∀ p, p < 6 → t.ready p = true ∧ t.bit (fwpFld p F.FWP_STAT_RUNNING) = true) ∧
          (∀ i ∈ [11, 12, 13, 14], t.ready i = true) ∧ (∀ i, 16 ≤ i → i < 64 → t.ready i = true) ∧ t.power.pwrGood = true ∧
          t.power.resets = s.power.resets.filter (fun x => decide (3 ≤ x.1)) ∧ (∀ p, t.bit (pfld p F.FAB_PORT_STAT_TRAINING) = true) ∧
          t.fw.measure = s.fw.measure ++ (List.range 6).map (fun p => measureEntry p (if own ∧ s.bit F.SEC_BUNDLE_TRIAL = true ∧ s.fw.trialSince = none then 3 else 1) u.stamp (bundleImage (s.slotBytes k) (p + 1))) ∧
          (∃ e ∈ t.rings.host, e.source = 0x500 ∧ e.code = St.aborted ∧ bytesAt e.detail 0 1 = s.fld F.PWR_RESET_LAST_CLASS ∧
            bytesAt e.detail 2 1 = s.fld F.PWR_RESET_LAST_TRIGGER) ∧
          (¬ own → t.bit F.SEC_BUNDLE_TRIAL = false ∧ ∃ e ∈ t.rings.host, e.source = 0x600 ∧ e.code = St.bootReverted)) ∧
      (s.bootSlot = none → ∃ t, exec (.boot now) s = .next t ∧ t.bit F.SEC_STAT_RECOVERY = true ∧ (∀ i, t.ready i = s.ready i) ∧ t.power.pwrGood = true ∧
        raised u t 0x500 St.aborted (leBytes 1 (s.fld F.PWR_RESET_LAST_CLASS) ++ leBytes 1 0 ++ leBytes 1 (s.fld F.PWR_RESET_LAST_TRIGGER)) false)) ∧
    (s.power.on = false ∨ s.power.off ≠ none ∨ (∀ x ∈ s.power.resets, 2 < x.1) → exec (.boot now) s = .next u) ∧
    (∀ p : FwpId, s.power.on = true → quiet → s.bit (fwpFld p.val F.FWP_STAT_RUNNING) = true → s.bit (fwpFld p.val F.FWP_STAT_HELD) = false →
      let due := Tab.get (fun _ => 0) s.fw.kicked p.val + s.fld (fwpFld p.val F.FWP_WDT_PERIOD) * 1000000
      let past := (s.recentRestarts p.val u.clock.ns.toNat).length
      (u.clock.ns.toNat < due → exec (.watchdogRestart p now) s = .next u) ∧
      (due ≤ u.clock.ns.toNat → ∃ t, exec (.watchdogRestart p now) s = .next t ∧ t.bit (fwpFld p.val F.FWP_STAT_RUNNING) = false ∧
        t.ready p.val = false ∧ (∀ q ∈ t.fw.taken, q.server ≠ some p.val) ∧
        (past < 2 → t.power.resets = [(5, p.val, 2)] ∧ t.bit (fwpFld p.val F.FWP_STAT_RESTARTING) = true ∧ t.fld (fwpFld p.val F.FWP_WDT_PERIOD) = 100) ∧
        (2 ≤ past → t.power.resets = [] ∧ t.bit (fwpFld p.val F.FWP_STAT_HELD) = true ∧ raised u t 0x600 St.serviceHeld (leBytes 1 p.val) true))) ∧
    (∀ nonce, (served s r 0x60 .observer (some 0) = true ∨ (servedOutside s r 0x60 = true ∧ s.enrolled = false ∧ r.session = 0)) →
      ∃ t, exec (.attest r nonce) s = .next t ∧
        answersHost s t s r 0x60 St.ok (s.report nonce ++ Config.slhSign (ascii "FVN-ATTEST") (s.report nonce)) ∧
        (nonce.length = 32 → ((s.report nonce).drop 32).take 32 = nonce ∧
          ((s.report nonce).drop 64).take 64 = shake256 (s.fw.measure.flatMap id) 64)) ∧
    (served s r 0x61 .observer (some 0) = true → ∃ t, exec (.measureLogGet r) s = .next t ∧ answersHost s t s r 0x61 St.ok (s.fw.measure.flatMap id)) ∧
    ((served s r 0x62 .observer (some 0) = true ∨ (servedOutside s r 0x62 = true ∧ s.enrolled = false ∧ r.session = 0)) →
      ∃ t, exec (.identityGet r) s = .next t ∧ answersHost s t s r 0x62 St.ok Config.certificate) ∧
    (served s r 0x70 .administrator (some 0) = true → quiet →
      (∀ x ∈ [(ResetReq.pkg, 2), (.cmp, 3), (.fab, 4)], ∃ t, exec (.reset r x.1) s = .next t ∧ replied s t r 0x70 St.ok [] ∧
        t.power.resets = [(x.2, 0, 1)] ∧ t.fld F.PWR_RESET_LAST_CLASS = x.2 ∧ t.fld F.PWR_RESET_LAST_TRIGGER = 1) ∧
      (∀ p : FwpId, s.bit (fwpFld p.val F.FWP_STAT_HELD) = false → (s.recentRestarts p.val s.clock.ns.toNat).length < 2 →
        (∀ q ∈ s.fw.taken, q.server ≠ some p.val) → ∃ t, exec (.reset r (.fwp p)) s = .next t ∧ replied s t r 0x70 St.ok [] ∧
          t.power.resets = [(5, p.val, 1)] ∧ t.bit (fwpFld p.val F.FWP_STAT_RUNNING) = false)) ∧
    (∀ force, served s r 0x71 .operator (some 1) = true → ∃ t, exec (.remove r force) s = .next t ∧
      (s.fld F.GLB_JOB_STATE = 0 ∨ force = true → replied s t r 0x71 St.ok [] ∧ t.fw.removing = some s.clock.ns.toNat ∧ (∀ p, t.portUp p = false) ∧
        t.ready 11 = false ∧ t.power = s.power ∧ t.mem = s.mem ∧
        t.outbox = s.outbox ++ (if s.fld F.GLB_JOB_STATE ≠ 0 ∧ s.nodeValid = true then
          s.livePorts.map (fun p => plainMsg (some p) (s.coordinator.getD 0) 0 0x5B [St.removalRequested.toNat] []) else [])) ∧
      (s.fld F.GLB_JOB_STATE ≠ 0 → force = false → answersHost s t s r 0x71 St.jobPresent [])))

/-- PWR_EN high starts a node that is off, after a lockout, latch-off or trip only under its conditions. PWR_EN falling
opens the switch, with FATAL before a removal has completed. Undervoltage below 30 V for 50 us, overvoltage above 42 V
for 10 us and 500 us in the current limit turn off and latch or lock out; a milder overcurrent raises an event and
every withholding level. Below 32 V or above 40 V for 1 ms the power emergency begins, and it ends as it began.
NODE_RESET_N low for 10 us and a rail fault of 100 us reset the package. THERMAL_TRIP at a site at or above its limit
sends FATAL, turns the main rails off and lowers THERMTRIP_N; below the limit it does nothing. With every site cool
LIMITER_UPDATE moves each withholding level one step up while power or current exceeds its limit and one step down
otherwise, and raises nothing. A die that reaches 105 C withholds more in every case, raises THERMAL_THROTTLE and
begins the thermal emergency. DROOP_EVENT counts a sample and keeps the lowest. -/
def Obligations.InputHeatAndDroop : Prop :=
  (∀ (mv : BitVec 16) (us : Nat) (now : BitVec 64) (s : State),
    let v := s.setFld F.PWR_INPUT_VIN mv.toNat
    let low := match s.power.enLowSince with | some t => now.toNat - t | none => 0
    (∀ slot : BitVec 6,
      let w := { s with power := { s.power with pwrEn := true, slotPins := slot } }.setFld F.PWR_INPUT_VIN mv.toNat
      (s.power.on = true ∨ s.power.pwrEn = true → exec (.pwrEnRise slot mv now) s = .next w) ∧
      (s.power.on = false → s.power.pwrEn = false →
        let may := s.power.off = none ∨ s.power.off = some .removed ∨ (s.power.off = some .lockout ∧ 32000 < mv.toNat) ∨
          (s.power.off = some .latched ∧ 100000000 ≤ low) ∨
          (s.power.off = some .trip ∧ 1000000000 ≤ low ∧ 32000 ≤ mv.toNat ∧ mv.toNat ≤ 40000)
        (may → ∃ t, exec (.pwrEnRise slot mv now) s = .next t ∧ startedPor s t ∧ t.power.slotId = slot ∧ t.power.pwrEn = true) ∧
        (¬ may → exec (.pwrEnRise slot mv now) s = .next w))) ∧
    (
      let done := ∃ t0, s.fw.removing = some t0 ∧ t0 + 200000000 ≤ now.toNat
      (s.power.on = true → s.power.off = none → ∃ t, exec (.pwrEnFall now) s = .next t ∧ t.power.pwrEn = false ∧ t.power.enLowSince = some now.toNat ∧
        t.power.thermtripN = true ∧ (done → railsFell s t .removed ∧ t.outbox = s.outbox) ∧ (¬ done → turnedOff s t St.removalRequested .removed)) ∧
      (s.power.on = false → exec (.pwrEnFall now) s =
        .next { s with power := { s.power with pwrEn := false, thermtripN := true, enLowSince := some now.toNat } }) ∧
      (∀ why, s.power.on = true → s.power.off = some why → s.fw.removing = none →
        ∃ t, exec (.pwrEnFall now) s = .next t ∧ railsFell s t why ∧ t.outbox = s.outbox)) ∧
    (exec .presentNRise s = .next { s with power := { s.power with presentN := true } }) ∧
    (∀ slot : BitVec 6, (us < 10 → exec (.nodeResetNLow us slot) s = .next s) ∧
      (10 ≤ us → powerQuiet s → ∃ t, exec (.nodeResetNLow us slot) s = .next t ∧ t.power.resets = [(2, 0, 6)] ∧ t.power.slotId = slot ∧
        t.fld F.PWR_RESET_LAST_CLASS = 2 ∧ t.fld F.PWR_RESET_LAST_TRIGGER = 6 ∧ t.draft = none ∧ t.tiles = [] ∧ t.fw.sessions = [] ∧ t.flash = s.flash)) ∧
    ((us < 100 ∨ s.power.on = false → exec (.railFault us) s = .next s) ∧
      (100 ≤ us → powerQuiet s → ∃ t, exec (.railFault us) s = .next t ∧ t.power.resets = [(2, 0, 7)] ∧ t.power.pwrGood = false ∧ t.draft = none ∧
        t.fld F.PWR_RESET_LAST_TRIGGER = 7)) ∧
    (
      let out := decide (mv.toNat < 32000) || decide (40000 < mv.toNat)
      ∀ c ∈ [Instr.lowInput mv us, .powerEmergencyExit mv us],
        (s.power.on = true ∧ 1000 ≤ us ∧ out ≠ s.power.emergencyInput → ∃ t, exec c s = .next t ∧ t.power.emergencyInput = out ∧
          t.fld F.PWR_INPUT_VIN = mv.toNat ∧ raised s t 0x500 St.powerEmergency (leBytes 1 (natOf out) ++ leBytes 1 1) false) ∧
        (¬ (s.power.on = true ∧ 1000 ≤ us ∧ out ≠ s.power.emergencyInput) → exec c s = .next v)) ∧
    ((s.power.on = true ∧ mv.toNat < 30000 ∧ 50 ≤ us → ∃ t, exec (.inputUndervoltage mv us) s = .next t ∧ turnedOff s t St.inputUndervoltage .lockout) ∧
      (¬ (s.power.on = true ∧ mv.toNat < 30000 ∧ 50 ≤ us) → exec (.inputUndervoltage mv us) s = .next v)) ∧
    ((s.power.on = true ∧ 42000 < mv.toNat ∧ 10 ≤ us → ∃ t, exec (.inputOvervoltage mv us) s = .next t ∧ turnedOff s t St.inputOvervoltage .latched) ∧
      (¬ (s.power.on = true ∧ 42000 < mv.toNat ∧ 10 ≤ us) → exec (.inputOvervoltage mv us) s = .next v)) ∧
    (∀ limit, s.power.on = true →
      (limit = true → 500 ≤ us → ∃ t, exec (.overcurrent mv limit us) s = .next t ∧ turnedOff s t St.overcurrent .latched) ∧
      (limit = false → 850 < mv.toNat → 1000 ≤ us → ∃ t, exec (.overcurrent mv limit us) s = .next t ∧ t.power.on = true ∧
        raised s t 0x500 St.overcurrent (leBytes 2 mv.toNat) false ∧ ∀ d, d < 5 →
          t.fld (F.PWR_WITHHELD_LEVEL.plus (8 * d)) = min 31 (s.fld (F.PWR_WITHHELD_LEVEL.plus (8 * d)) + 1)) ∧
      (limit = false → mv.toNat ≤ 850 ∨ us < 1000 → exec (.overcurrent mv limit us) s = .next (s.setFld F.PWR_INPUT_IIN (10 * mv.toNat)))) ∧
    (∀ ms : Nat,
      let may := (s.power.off = some .lockout ∧ 32000 < mv.toNat ∧ 100 ≤ ms) ∨ (s.power.off = some .latched ∧ 100000000 ≤ low) ∨
        (s.power.off = some .trip ∧ 1000000000 ≤ low ∧ 32000 ≤ mv.toNat ∧ mv.toNat ≤ 40000)
      (s.power.pwrEn = true → may → ∃ t, exec (.inputRestart mv ms now) s = .next t ∧ startedPor s t ∧ t.power.enLowSince = none) ∧
      (s.power.pwrEn = false ∨ ¬ may → exec (.inputRestart mv ms now) s = .next v)))
  ∧ (∀ s : State,
    (∀ (site : ThermSite) (temp : Int),
      (s.power.on = true ∧ s.power.off = none ∧ ThermSite.trip site ≤ temp → ∃ t, exec (.thermalTrip site temp) s = .next t ∧ t.power.on = true ∧
        t.power.off = some .trip ∧ t.power.thermtripN = false ∧ t.power.pwrGood = false ∧ t.fld F.PWR_OFF_CAUSE_CODE = St.thermalTrip.toNat ∧
        t.bit F.PWR_OFF_CAUSE_VALID = true ∧ (∀ i, 9 ≤ i → i < 84 → t.ready i = false) ∧ t.ready 0 = s.ready 0 ∧ t.tiles = [] ∧ t.harts = [] ∧
        t.draft = none ∧ t.outbox = s.outbox ++ fatalMsgs s St.thermalTrip) ∧
      (temp < ThermSite.trip site → exec (.thermalTrip site temp) s = .next s)) ∧
    (∀ x : LimiterIn, s.power.on = true →
      let level := F.PWR_WITHHELD_LEVEL
      let excess := 100 * s.fld F.PWR_PLAN_CAP < x.power ∨ 850 < x.current
      ((∀ t ∈ x.dies, t < 102 * 16) → (∀ t ∈ x.devices, t < 92 * 16) → s.power.throttling = [] → s.power.emergencyThermal = false →
        ∃ t, exec (.limiterUpdate x) s = .next t ∧ t.rings = s.rings ∧ t.power.throttling = [] ∧ t.power.emergencyThermal = false ∧
          ∀ d, d < 5 → (excess → t.fld (level.plus (8 * d)) = min 31 (s.fld (level.plus (8 * d)) + 1)) ∧
            (¬ excess → t.fld (level.plus (8 * d)) = s.fld (level.plus (8 * d)) - 1)) ∧
      (∀ d, d < 5 → d < x.dies.length → 105 * 16 ≤ x.dies.getD d 0 → ∃ t, exec (.limiterUpdate x) s = .next t ∧ d ∈ t.power.throttling ∧
        t.power.emergencyThermal = true ∧ t.fld (level.plus (8 * d)) = min 31 (s.fld (level.plus (8 * d)) + 1) ∧
        t.fld (F.MON_DIE_THROTTLE.plus (8 * d)) = 1 ∧ (d ∉ s.power.throttling →
          recorded s t 0x500 St.thermalThrottle (leBytes 1 d ++ zeros 1 ++ leBytes 2 (wrapN 16 (x.dies.getD d 0))) false) ∧
        (s.power.emergencyThermal = false → recorded s t 0x500 St.powerEmergency (leBytes 1 1 ++ leBytes 1 2) false))) ∧
    (∀ (k : TileId) (mv : BitVec 16),
      let f := tfld k F.MON_DROOP_VMIN
      let g := tfld k F.MON_DROOP_EVENTS
      (s.tileReady k = true → ∃ t, exec (.droopEvent k mv) s = .next t ∧ t.fld f = min (s.fld f) mv.toNat ∧
        t.fld g = (s.fld g + 1) % 2 ^ (F.MON_DROOP_EVENTS.hi - F.MON_DROOP_EVENTS.lo + 1) ∧ otherRegs [f.off] s t) ∧
      (s.tileReady k = false → exec (.droopEvent k mv) s = .next s)))

/-- A firmware processor's write of TARGET asks for the state; for P1 to P3 with a job it is ignored and sets REFUSED,
from anyone else it does nothing. POWER_STATE_CHANGE_DONE enters P1 with the tiles and cores off, P2 with the tiles
lost and the memories in self-refresh, P3 with LPDDR5X alone kept. It leaves a state through P0, with the functions
back, and from P2 and P3 with the reset event; after P3 four processors have restarted. While a reset is in progress
it waits. A write of PWR_RESET by BSC resets package, compute part, fabric or one processor; from anyone else it does
nothing. RESET_COMPLETE ends the oldest reset: compute or fabric functions return; a processor restarts when its image
still agrees (a free value of the model, assumption log 31), else it is held. Outside maintenance state JTAG
instructions that drive pins act as BYPASS. A port is up while link and processor are. -/
def Obligations.PowerStatesAndResets : Prop :=
  (∀ (q : Requester) (v : BitVec 64) (s : State),
    let n := bitsOf v 3 2
    let cur := s.fld F.PWR_STATE_CUR
    let off := F.PWR_STATE_TARGET.off
    (Requester.isFw q = true →
      (n ≠ 0 ∧ s.fld F.GLB_JOB_STATE ≠ 0 → ∃ t, exec (.pwrStateTarget q v) s = .next t ∧ t.bit F.PWR_STATE_REFUSED = true ∧ otherRegs [off] s t ∧
        t.fld F.PWR_STATE_TARGET = s.fld F.PWR_STATE_TARGET ∧ t.power = s.power) ∧
      (¬ (n ≠ 0 ∧ s.fld F.GLB_JOB_STATE ≠ 0) → ∃ t, exec (.pwrStateTarget q v) s = .next t ∧ t.fld F.PWR_STATE_TARGET = n ∧ otherRegs [off] s t ∧
        t.fld F.PWR_STATE_CUR = cur ∧ (n ≠ cur ∨ s.power.stateTarget.isSome = true → t.bit F.PWR_STATE_BUSY = true ∧ t.power.stateTarget = some n))) ∧
    (Requester.isFw q = false → exec (.pwrStateTarget q v) s = .next s) ∧
    (s.power.stateTarget = none ∨ s.power.resets ≠ [] → exec .powerStateChangeDone s = .next s) ∧
    (∀ k, s.power.on = true → s.power.off = none → s.power.resets = [] → s.power.stateTarget = some k → k < 4 →
      let ended := fun (t : State) => t.fld F.PWR_STATE_CUR = k ∧ t.bit F.PWR_STATE_BUSY = false ∧ t.power.stateTarget = none
      (cur = k → ∃ t, exec .powerStateChangeDone s = .next t ∧ ended t ∧ otherRegs [off] s t ∧ t.mem = s.mem) ∧
      (cur = 0 → k ≠ 0 → s.fld F.GLB_JOB_STATE ≠ 0 → ∃ t, exec .powerStateChangeDone s = .next t ∧ t.fld F.PWR_STATE_CUR = 0 ∧
        t.bit F.PWR_STATE_REFUSED = true ∧ t.power.stateTarget = none ∧ t.mem = s.mem) ∧
      (cur = 0 → s.fld F.GLB_JOB_STATE = 0 →
        (k = 1 → ∃ t, exec .powerStateChangeDone s = .next t ∧ ended t ∧ t.ready 12 = false ∧ (∀ i ∈ [16, 17, 18, 19], t.ready i = false) ∧
          t.tiles = s.tiles ∧ t.harts = s.harts ∧ t.mem = s.mem) ∧
        (k = 2 → ∃ t, exec .powerStateChangeDone s = .next t ∧ ended t ∧ t.ready 12 = false ∧ (∀ i, 16 ≤ i → i < 64 → t.ready i = false) ∧
          t.tiles = [] ∧ t.harts = s.harts ∧ (∀ c : CtrlId, t.bit (cfld c F.MEM_STAT_SELF_REFRESH) = true) ∧
          ((∀ c : CtrlId, wcbOk s c) → memoriesWf s → memQuiet s = true → ∀ a, a < sramWindow → t.byteAt a = s.byteAt a)) ∧
        (k = 3 → ∃ t, exec .powerStateChangeDone s = .next t ∧ ended t ∧ (∀ i, 9 ≤ i → i < 84 → t.ready i = false) ∧
          (∀ p ∈ [2, 3, 4, 5], t.ready p = false) ∧ t.tiles = [] ∧ t.harts = [] ∧ t.rings = s.rings ∧
          ((∀ c : CtrlId, wcbOk s c) → memoriesWf s → memQuiet s = true → ∀ a, lpBase ≤ a → a < sramWindow → t.byteAt a = s.byteAt a) ∧
          (memQuiet s = true → ∀ a, a < lpBase → t.byteAt a = 0))) ∧
      (cur ≠ 0 → k = 0 → s.power.resetAfter = none → ∃ t, exec .powerStateChangeDone s = .next t ∧ ended t ∧
        (cur = 1 → t.ready 12 = true ∧ (∀ i ∈ [16, 17, 18, 19], t.ready i = true) ∧ t.mem = s.mem ∧ t.rings = s.rings) ∧
        (cur = 2 → t.ready 12 = true ∧ (∀ i, 16 ≤ i → i < 64 → t.ready i = true) ∧ t.fld F.PWR_RESET_LAST_CLASS = 6 ∧
          raised s t 0x500 St.aborted [6, 0, 8] false) ∧
        (cur = 3 → (∀ i, 16 ≤ i → i < 64 → t.ready i = true) ∧ (∀ p ∈ [2, 3, 4, 5], t.ready p = true ∧ t.bit (fwpFld p F.FWP_STAT_RUNNING) = true) ∧
          t.fw.measure.length = s.fw.measure.length + 4 ∧ t.fld F.PWR_RESET_LAST_CLASS = 7 ∧ raised s t 0x500 St.aborted [7, 0, 8] false)) ∧
      (cur ≠ 0 → k ≠ 0 → k ≠ cur → ∃ t, exec .powerStateChangeDone s = .next t ∧ t.fld F.PWR_STATE_CUR = 0 ∧ t.power.stateTarget = some k)))
  ∧ (∀ s : State,
    (∀ (q : Requester) (v : BitVec 64), ∀ c ∈ [Instr.pwrResetPkg q v, .pwrResetCmp q v, .pwrResetFab q v, .pwrResetFwp q v],
      let k := bitsOf v 2 0
      let p := bitsOf v 11 8
      (q ≠ .fw 0 ∨ k < 2 ∨ 5 < k ∨ (k = 5 ∧ 6 ≤ p) → exec c s = .next s) ∧
      (q = .fw 0 → powerQuiet s →
        (k = 2 ∨ k = 3 ∨ k = 4 → ∃ t, exec c s = .next t ∧ t.power.resets = [(k, 0, 4)] ∧ t.fld F.PWR_RESET_LAST_CLASS = k ∧
          t.fld F.PWR_RESET_LAST_TRIGGER = 4 ∧ (k ≠ 4 → t.tiles = []) ∧ (k = 2 → t.draft = none ∧ t.fw.sessions = []) ∧
          (k = 3 → (∀ i ∈ [12, 16, 17, 18, 19], t.ready i = false) ∧ t.harts = [] ∧ t.fw = s.fw ∧ ∀ x : CtxId, t.ctx x = none) ∧
          (k = 4 → t.ready 13 = false ∧ (∀ x, t.portUp x = false) ∧ t.reqs = [] ∧ t.fw = s.fw)) ∧
        (k = 5 → p < 6 → s.bit (fwpFld p F.FWP_STAT_HELD) = false → (s.recentRestarts p s.clock.ns.toNat).length < 2 →
          ∃ t, exec c s = .next t ∧ t.power.resets = [(5, p, 4)] ∧ t.bit (fwpFld p F.FWP_STAT_RUNNING) = false ∧ t.ready p = false ∧
            (∀ x ∈ t.fw.taken, x.server ≠ some p) ∧ t.mem = s.mem))) ∧
    (s.power.resets = [] → exec .resetComplete s = .next s) ∧
    (∀ c p trig, s.power.resets = [(c, p, trig)] →
      (c < 3 → exec .resetComplete s = .next s) ∧
      (c = 3 → s.fld F.GLB_JOB_STATE ≠ 5 → ∃ t, exec .resetComplete s = .next t ∧ t.power.resets = [] ∧
        (∀ i ∈ [12, 16, 17, 18, 19], t.ready i = true) ∧ raised s t 0x500 St.aborted (leBytes 1 3 ++ leBytes 1 p ++ leBytes 1 trig) false) ∧
      (c = 3 → s.fld F.GLB_JOB_STATE = 5 → ∀ d n, s.draft = some d → d.scrub = false → n ∈ s.treeKids d → (∀ e ∈ d.tearDone, e.1 ≠ n) → n ≠ s.nodeId →
        ∃ t, exec .resetComplete s = .next t ∧ t.draft = some { d with tearDone := d.tearDone ++ [(s.nodeId, 1)] } ∧ t.fld F.GLB_JOB_STATE = 5 ∧ t.mem = s.mem) ∧
      (c = 4 → ∃ t, exec .resetComplete s = .next t ∧ t.power.resets = [] ∧ t.ready 13 = true ∧
        raised s t 0x500 St.aborted (leBytes 1 4 ++ leBytes 1 p ++ leBytes 1 trig) false) ∧
      (c = 5 → p < 6 → ∃ t, exec .resetComplete s = .next t ∧ t.power.resets = [] ∧ t.free = s.free + 1 ∧
        (Config.freeValue s.free ≠ 0 → t.ready p = true ∧ t.bit (fwpFld p F.FWP_STAT_RUNNING) = true ∧ t.bit (fwpFld p F.FWP_STAT_RESTARTING) = false ∧
          t.fld (fwpFld p F.FWP_STAT_RESTARTS) = (s.fld (fwpFld p F.FWP_STAT_RESTARTS) + 1) % 2 ^ 32 ∧
          t.fw.measure = s.fw.measure ++ [measureEntry p 2 s.stamp (bundleImage s.bundle (p + 1))]) ∧
        (Config.freeValue s.free = 0 → t.bit (fwpFld p F.FWP_STAT_HELD) = true ∧ t.ready p = false ∧
          recorded s t 0x600 St.measurementMismatch (leBytes 1 p) true) ∧
        raised s t 0x500 St.aborted (leBytes 1 5 ++ leBytes 1 p ++ leBytes 1 trig) false)) ∧
    (∀ i : JtagOp,
      let drives := i ∈ [JtagOp.extest, .extestPulse, .extestTrain, .clamp, .highz]
      (drives → s.bit F.MBX_STAT_MAINT = false → exec (.jtagInstruction i) s = .next { s with power := { s.power with jtag := .bypass } }) ∧
      (¬ drives ∨ s.bit F.MBX_STAT_MAINT = true → exec (.jtagInstruction i) s = .next { s with power := { s.power with jtag := i } })) ∧
    (∀ (e : EthId) (up : Bool),
      let ok := up && (s.ready (4 + e.val) || (s.bit F.SEC_STAT_RECOVERY && decide (e.val = 0)))
      ∃ t, exec (.ethLinkChange e up) s = .next t ∧ t.bit (F.ETH_PORT_STAT_UP.plus (8 * e.val)) = ok ∧ t.ready (6 + e.val) = ok ∧
        t.ready 8 = ((s.ready 0 || s.bit F.SEC_STAT_RECOVERY) && (t.ready 6 || t.ready 7)) ∧ t.ready (7 - e.val) = s.ready (7 - e.val) ∧
        otherRegs [(F.ETH_PORT_STAT_UP.plus (8 * e.val)).off, R.GLB_FUNC_READY] s t ∧ t.mem = s.mem ∧ t.power = s.power))

/-- If the node's memory and the flash are in canonical form (addresses rising, no entry equal to what an unlisted byte
reads as), then they are so after every step, whatever command it runs; so equal contents are equal data in every run. -/
def Obligations.MainMemoriesStayCanonical : Prop :=
  ∀ s t : State, s.mem.wf = true ∧ s.flash.wf = true → step s = .next t → t.mem.wf = true ∧ t.flash.wf = true

/-- If the shuttle memories and tile registers of every tile are in canonical form, then they are so after every step,
whatever command it runs. -/
def Obligations.TileMemoriesStayCanonical : Prop :=
  ∀ s t : State, (∀ k : TileId, (s.tile k).smem.wf = true ∧ (s.tile k).treg.wf = true) → step s = .next t →
    ∀ k : TileId, (t.tile k).smem.wf = true ∧ (t.tile k).treg.wf = true
end

