-- ==== Sys2Proof/Laws/Bytes.lean ====
section
/-! SUPPORT. Laws of little-endian bytes: their length, the number they spell, and reading them back out of a longer
list. -/

namespace Sys2Proof.Machine

@[simp] theorem leBytes_length (k n : Nat) : (leBytes k n).length = k := by
  induction k generalizing n with
  | zero => rfl
  | succ k ih => simp [leBytes, ih]

@[simp] theorem zeros_length (n : Nat) : (zeros n).length = n := by simp [zeros]

theorem leNat_lt (d : List Byte) : leNat d < 256 ^ d.length := by
  induction d with
  | nil => simp [leNat]
  | cons b r ih =>
    have hb := b.isLt
    simp only [leNat, List.length_cons, pow_succ]
    omega

/-- The bytes of a number spell it again, but for the bits that do not fit. -/
theorem leNat_leBytes (k n : Nat) : leNat (leBytes k n) = n % 256 ^ k := by
  induction k generalizing n with
  | zero => simp [leBytes, leNat, Nat.mod_one]
  | succ k ih =>
    have h : 256 ^ (k + 1) = 256 * 256 ^ k := by rw [pow_succ, Nat.mul_comm]
    rw [leBytes, leNat, ih, BitVec.toNat_ofNat, h, Nat.mod_mul]

/-- A list of bytes is made by the number it spells. -/
theorem leBytes_leNat (d : List Byte) : leBytes d.length (leNat d) = d := by
  induction d with
  | nil => rfl
  | cons b r ih =>
    have hb := b.isLt
    have h1 : (b.toNat + 256 * leNat r) / 256 = leNat r := by omega
    have h2 : BitVec.ofNat 8 (b.toNat + 256 * leNat r) = b := by
      apply BitVec.eq_of_toNat_eq
      simp only [BitVec.toNat_ofNat]
      omega
    simp only [List.length_cons, leNat, leBytes, h1, h2, ih]

@[simp] theorem leNat_zeros (n : Nat) : leNat (zeros n) = 0 := by
  induction n with
  | zero => rfl
  | succ n ih =>
    have : zeros (n + 1) = 0 :: zeros n := rfl
    rw [this, leNat, ih]; rfl

/-- A field read where bytes of its size stand after a prefix. -/
theorem bytesAt_append (a b c : List Byte) : bytesAt (a ++ (b ++ c)) a.length b.length = leNat b := by
  simp [bytesAt]

/-- A field read inside the first part of a list. -/
theorem bytesAt_append_left (a b : List Byte) (o n : Nat) (h : o + n ≤ a.length) : bytesAt (a ++ b) o n = bytesAt a o n := by
  simp only [bytesAt, List.drop_append, List.take_append, List.length_drop]
  have h1 : n - (a.length - o) = 0 := by omega
  simp [h1]

end Sys2Proof.Machine
end

