-- ==== Sys2Proof/Laws/Draft.lean ====
section
/-! SUPPORT. Laws of the checks of a draft image. -/

namespace Sys2Proof.Machine

/-- An image that passes each check of Table 13-5 is accepted; checks 7 to 12 see the draft with its map and member. -/
theorem State.draftErr_none (s : State) (d e : Draft)
    (he : { d with map := mapOfBytes (s.mapBytes d) d.nmembers, member := (mapOfBytes (s.mapBytes d) d.nmembers).idxOf s.nodeId } = e)
    (h1 : s.check1 d = none) (h2 : s.check2 d = none) (h3 : s.check3 d = none) (h4 : s.check4 d = none) (h5 : s.check5 d = none)
    (h6 : s.check6 d = none) (h7 : s.check7 e = none) (h8 : s.check8 e = none) (h9 : s.check9 e = none) (h10 : s.check10 e = none)
    (h11 : s.check11 e = none) (h12 : s.check12 e = none) (h13 : s.check13 = none) : s.draftErr d = none := by
  subst he
  simp only [State.draftErr, h1, h2, h3, h4, h5, h6, h7, h8, h9, h10, h11, h12, h13]

end Sys2Proof.Machine
end

