-- ==== Sys2Proof/Laws/Keccak.lean ====
section
/-! SUPPORT. Laws of SHAKE256 and KMAC256: a state has 25 lanes, and the output the length asked for. -/

namespace Sys2Proof.Machine

theorem keccakRound_length (a : List (BitVec 64)) (rc : BitVec 64) : (keccakRound a rc).length = 25 := by
  have h : (keccakChi (keccakRhoPi (keccakTheta a))).length = 25 := by simp [keccakChi]
  unfold keccakRound
  split
  · rename_i e; rw [e] at h; exact absurd h (by decide)
  · rename_i e; rw [e] at h; simpa using h

theorem keccakF_length (a : List (BitVec 64)) (h : a.length = 25) : (keccakF a).length = 25 := by
  have : ∀ (l : List (BitVec 64)) (a : List (BitVec 64)), a.length = 25 → (l.foldl keccakRound a).length = 25 := by
    intro l
    induction l with
    | nil => exact fun _ h => h
    | cons c r ih => exact fun a _ => ih _ (keccakRound_length a c)
  exact this _ _ h

theorem absorbAll_length (n : Nat) (a : List (BitVec 64)) (m : List Byte) (h : a.length = 25) : (absorbAll n a m).length = 25 := by
  induction n generalizing a m with
  | zero => exact h
  | succ n ih => exact ih _ _ (keccakF_length _ (by simp [absorb]))

theorem flatMap_leBytes_length (k : Nat) (l : List (BitVec 64)) : (l.flatMap (fun x => leBytes k x.toNat)).length = l.length * k := by
  induction l with
  | nil => simp
  | cons x r ih => simp only [List.flatMap_cons, List.length_append, leBytes_length, ih, List.length_cons, Nat.succ_mul]; omega

theorem squeeze_length (n : Nat) (a : List (BitVec 64)) (h : a.length = 25) : (squeeze n a).length = n * 136 := by
  induction n generalizing a with
  | zero => simp [squeeze]
  | succ n ih =>
    simp only [squeeze, List.length_append, flatMap_leBytes_length, List.length_take, h, ih _ (keccakF_length a h)]
    omega

/-- A sponge answers as many bytes as it is asked for. -/
theorem sponge_length (sfx : Byte) (m : List Byte) (n : Nat) : (sponge sfx m n).length = n := by
  simp only [sponge, List.length_take]
  rw [squeeze_length _ _ (absorbAll_length _ _ _ (by simp))]
  have : n ≤ ceilDiv n 136 * 136 := by simp only [ceilDiv]; omega
  omega

@[simp] theorem shake256_length (m : List Byte) (n : Nat) : (shake256 m n).length = n := sponge_length _ _ _
@[simp] theorem kmac256_length (k m : List Byte) (n : Nat) (c : List Byte) : (kmac256 k m n c).length = n := sponge_length _ _ _

end Sys2Proof.Machine
end

