-- ==== Sys2Proof/Laws/Links.lean ====
section
/-! SUPPORT. Laws of flits: their length, and that the node's own flits carry the check code of their contents. -/

namespace Sys2Proof.Machine

/-- What the check of 248 bytes and a code compares. -/
theorem crcOk_append (b : List Byte) (c : BitVec 64) (h : b.length = 248) : crcOk (b ++ leBytes 8 c.toNat) = (c == crc64 b) := by
  have h1 : (b ++ leBytes 8 c.toNat).take 248 = b := by
    rw [List.take_append_of_le_length (by omega), List.take_of_length_le (by omega)]
  have h2 : bytesAt (b ++ leBytes 8 c.toNat) 248 8 = c.toNat := by
    have := bytesAt_append b (leBytes 8 c.toNat) []
    rw [List.append_nil, h, leBytes_length] at this
    rw [this, leNat_leBytes]
    exact Nat.mod_eq_of_lt (by have := c.isLt; omega)
  rw [crcOk, h1, h2]
  by_cases hc : c = crc64 b
  · simp [hc]
  · have : c.toNat ≠ (crc64 b).toNat := fun e => hc (BitVec.eq_of_toNat_eq e)
    simp [hc, this]

/-- 248 bytes followed by their check code pass the check. -/
theorem crcOk_sealed (b : List Byte) (h : b.length = 248) : crcOk (b ++ leBytes 8 (crc64 b).toNat) = true := by
  rw [crcOk_append _ _ h]
  simp

/-- 248 bytes followed by another code fail it. -/
theorem crcOk_damaged (b : List Byte) (c : BitVec 64) (h : b.length = 248) (hc : c ≠ crc64 b) : crcOk (b ++ leBytes 8 c.toNat) = false := by
  rw [crcOk_append _ _ h]
  simp [hc]

theorem dataFlit_length (x : Port) (seq : BitVec 16) (d : List Byte) (h : d.length ≤ 240) : (dataFlit x seq d).length = 256 := by
  simp [dataFlit]
  omega

/-- A DATA flit that the node makes passes the check. -/
theorem crcOk_dataFlit (x : Port) (seq : BitVec 16) (d : List Byte) (h : d.length ≤ 240) : crcOk (dataFlit x seq d) = true := by
  unfold dataFlit
  exact crcOk_sealed _ (by simp; omega)

theorem idleFlit_length (x : Port) : (idleFlit x).length = 256 := by simp [idleFlit]

/-- An IDLE flit that the node makes passes the check. -/
theorem crcOk_idleFlit (x : Port) : crcOk (idleFlit x) = true := by
  unfold idleFlit
  exact crcOk_sealed _ (by simp)

end Sys2Proof.Machine
end

