-- ==== Sys2Proof/Laws/Memory.lean ====
section
/-! SUPPORT. Laws of tables and of memory: a read after a write, and that every operation keeps the canonical form. -/

namespace Sys2Proof.Machine

/-! ### Tables -/

theorem Tab.get_set {α : Type} (d : Nat → α) (t : Tab α) (j k : Nat) (v : α) :
    Tab.get d (Tab.set j v t) k = if k = j then v else Tab.get d t k := by
  induction t with
  | nil => simp [Tab.set, Tab.get]
  | cons e r ih =>
    obtain ⟨i, w⟩ := e
    by_cases h1 : j < i
    · simp [Tab.set, Tab.get, h1]
    · by_cases h2 : j = i
      · subst h2
        by_cases h3 : k = j <;> simp [Tab.set, Tab.get, h3]
      · simp only [Tab.set, h1, h2, if_false, Tab.get, ih]
        by_cases h3 : k = i
        · subst h3
          simp [Ne.symm h2]
        · simp [h3]

@[simp] theorem Tab.get_set_same {α : Type} (d : Nat → α) (t : Tab α) (k : Nat) (v : α) : Tab.get d (Tab.set k v t) k = v := by
  simp [Tab.get_set]

theorem Tab.get_set_ne {α : Type} (d : Nat → α) (t : Tab α) (j k : Nat) (v : α) (h : k ≠ j) :
    Tab.get d (Tab.set j v t) k = Tab.get d t k := by simp [Tab.get_set, h]

theorem Tab.find_set {α : Type} (t : Tab α) (j k : Nat) (v : α) :
    Tab.find (Tab.set j v t) k = if k = j then some v else Tab.find t k := by
  induction t with
  | nil => simp [Tab.set, Tab.find]
  | cons e r ih =>
    obtain ⟨i, w⟩ := e
    by_cases h1 : j < i
    · simp [Tab.set, Tab.find, h1]
    · by_cases h2 : j = i
      · subst h2
        by_cases h3 : k = j <;> simp [Tab.set, Tab.find, h3]
      · simp only [Tab.set, h1, h2, if_false, Tab.find, ih]
        by_cases h3 : k = i
        · subst h3
          simp [Ne.symm h2]
        · simp [h3]

theorem Tab.find_erase {α : Type} (t : Tab α) (j k : Nat) : Tab.find (Tab.erase j t) k = if k = j then none else Tab.find t k := by
  induction t with
  | nil => simp [Tab.erase, Tab.find]
  | cons e r ih =>
    obtain ⟨i, w⟩ := e
    simp only [Tab.erase] at ih
    by_cases h : i = j
    · subst h
      have hk : Tab.erase i ((i, w) :: r) = r.filter (fun e => e.1 != i) := by simp [Tab.erase]
      rw [hk, ih]
      by_cases h2 : k = i
      · simp [h2]
      · simp [Tab.find, h2]
    · have hk : Tab.erase j ((i, w) :: r) = (i, w) :: r.filter (fun e => e.1 != j) := by simp [Tab.erase, h]
      rw [hk]
      simp only [Tab.find, ih]
      by_cases h2 : k = i
      · subst h2
        simp [h]
      · simp [h2]

theorem Tab.get_eq_find {α : Type} (d : Nat → α) (t : Tab α) (k : Nat) : Tab.get d t k = (Tab.find t k).getD (d k) := by
  induction t with
  | nil => rfl
  | cons e r ih =>
    obtain ⟨i, w⟩ := e
    by_cases h : k = i <;> simp [Tab.get, Tab.find, h, ih]

/-! ### Memory -/

theorem Memory.above_iff (a : Nat) (m : Memory) : m.above a = true ↔ ∀ c ∈ m, a < c.1 := by
  simp [Memory.above, List.all_eq_true]

theorem Memory.above_mono {a b : Nat} (h : a ≤ b) {m : Memory} (hm : m.above b = true) : m.above a = true := by
  rw [Memory.above_iff] at *
  intro c hc
  exact lt_of_le_of_lt h (hm c hc)

theorem Memory.read_above (a : Nat) (m : Memory) (h : m.above a = true) : m.read a = 0 := by
  induction m with
  | nil => rfl
  | cons e r ih =>
    obtain ⟨i, w⟩ := e
    simp only [Memory.above, List.all_cons, Bool.and_eq_true, decide_eq_true_eq] at h
    have : a ≠ i := by omega
    simp only [Memory.read, this, if_false]
    exact ih h.2

theorem Memory.wf_cons (a : Nat) (v : Byte) (m : Memory) :
    Memory.wf ((a, v) :: m) = true ↔ v ≠ 0 ∧ m.above a = true ∧ m.wf = true := by
  simp [Memory.wf, and_assoc]

/-- Writing adds no address below those listed and the one written. -/
theorem Memory.above_write (b a : Nat) (v : Byte) (m : Memory) (hb : b < a) (hm : m.above b = true) : (m.write a v).above b = true := by
  induction m with
  | nil => by_cases h : v = 0 <;> simp [Memory.write, Memory.above, h, hb]
  | cons e r ih =>
    obtain ⟨i, w⟩ := e
    have h' := hm
    simp only [Memory.above, List.all_cons, Bool.and_eq_true, decide_eq_true_eq] at h'
    simp only [Memory.write]
    split
    · split
      · exact hm
      · simp only [Memory.above, List.all_cons, Bool.and_eq_true, decide_eq_true_eq]
        exact ⟨hb, h'.1, h'.2⟩
    · split
      · split
        · exact h'.2
        · simp only [Memory.above, List.all_cons, Bool.and_eq_true, decide_eq_true_eq]
          exact ⟨hb, h'.2⟩
      · have := ih h'.2
        simp only [Memory.above, List.all_cons, Bool.and_eq_true, decide_eq_true_eq] at this ⊢
        exact ⟨h'.1, this⟩

/-- A write keeps the canonical form. -/
theorem Memory.wf_write (a : Nat) (v : Byte) (m : Memory) (h : m.wf = true) : (m.write a v).wf = true := by
  induction m with
  | nil =>
    simp only [Memory.write]
    split
    · rfl
    · rename_i hv
      exact (Memory.wf_cons a v []).2 ⟨hv, rfl, rfl⟩
  | cons e r ih =>
    obtain ⟨i, w⟩ := e
    have h' := (Memory.wf_cons i w r).1 h
    simp only [Memory.write]
    split
    · split
      · exact h
      · rename_i h1 h2
        refine (Memory.wf_cons a v _).2 ⟨h2, ?_, h⟩
        simp only [Memory.above, List.all_cons, Bool.and_eq_true, decide_eq_true_eq]
        exact ⟨h1, Memory.above_mono (le_of_lt h1) h'.2.1⟩
    · split
      · split
        · exact h'.2.2
        · rename_i h1 h2 h3
          exact (Memory.wf_cons a v r).2 ⟨h3, by subst h2; exact h'.2.1, h'.2.2⟩
      · rename_i h1 h2
        exact (Memory.wf_cons i w _).2 ⟨h'.1, Memory.above_write i a v r (by omega) h'.2.1, ih h'.2.2⟩

/-- A read after a write. -/
theorem Memory.read_write (a b : Nat) (v : Byte) (m : Memory) (h : m.wf = true) :
    (m.write a v).read b = if b = a then v else m.read b := by
  induction m with
  | nil =>
    simp only [Memory.write]
    split
    · rename_i hv
      simp [Memory.read, hv]
    · simp [Memory.read]
  | cons e r ih =>
    obtain ⟨i, w⟩ := e
    have h' := (Memory.wf_cons i w r).1 h
    simp only [Memory.write]
    split
    · rename_i h1
      split
      · rename_i hv
        by_cases hb : b = a
        · subst hb
          simp only [if_true, hv]
          exact Memory.read_above b _ (by
            simp only [Memory.above, List.all_cons, Bool.and_eq_true, decide_eq_true_eq]
            exact ⟨h1, Memory.above_mono (le_of_lt h1) h'.2.1⟩)
        · simp [hb]
      · simp [Memory.read]
    · split
      · rename_i h1 h2
        subst h2
        split
        · rename_i hv
          by_cases hb : b = a
          · subst hb
            simp only [if_true, hv]
            exact Memory.read_above b r h'.2.1
          · simp [Memory.read, hb]
        · by_cases hb : b = a <;> simp [Memory.read, hb]
      · rename_i h1 h2
        by_cases hb : b = i
        · subst hb
          have : b ≠ a := fun h => h2 h.symm
          simp [Memory.read, this]
        · simp only [Memory.read, hb, if_false]
          exact ih h'.2.2

theorem Memory.wf_writeN (m : Memory) (a : Nat) (d : List Byte) (h : m.wf = true) : (m.writeN a d).wf = true := by
  induction d generalizing m a with
  | nil => exact h
  | cons b bs ih => exact ih _ _ (Memory.wf_write a b m h)

/-- A read after a write of several bytes. -/
theorem Memory.read_writeN (m : Memory) (a b : Nat) (d : List Byte) (h : m.wf = true) :
    (m.writeN a d).read b = if a ≤ b ∧ b < a + d.length then d.getD (b - a) 0 else m.read b := by
  induction d generalizing m a with
  | nil => simp [Memory.writeN]
  | cons v bs ih =>
    rw [Memory.writeN, ih _ _ (Memory.wf_write a v m h), Memory.read_write a b v m h]
    by_cases h0 : b = a
    · subst h0
      simp
    · by_cases h1 : a + 1 ≤ b ∧ b < a + 1 + bs.length
      · have h2 : a ≤ b ∧ b < a + (v :: bs).length := by simp; omega
        have h3 : b - a = (b - (a + 1)) + 1 := by omega
        rw [if_pos h1, if_pos h2, h3]
        simp
      · have h2 : ¬(a ≤ b ∧ b < a + (v :: bs).length) := by simp; omega
        rw [if_neg h1, if_neg h2, if_neg h0]

@[simp] theorem Memory.readN_length (m : Memory) (a n : Nat) : (m.readN a n).length = n := by
  induction n generalizing a with
  | zero => rfl
  | succ n ih => simp [Memory.readN, ih]

theorem Memory.readN_getD (m : Memory) (a n i : Nat) (h : i < n) : (m.readN a n).getD i 0 = m.read (a + i) := by
  induction n generalizing a i with
  | zero => omega
  | succ n ih =>
    cases i with
    | zero => simp [Memory.readN]
    | succ i =>
      have := ih (a + 1) i (by omega)
      simp only [Memory.readN, List.getD_cons_succ, this]
      congr 1
      omega

/-- Dropping listed bytes keeps the canonical form. -/
theorem Memory.wf_filter (p : Host.Cell → Bool) (m : Memory) (h : m.wf = true) : Memory.wf (m.filter p) = true := by
  induction m with
  | nil => rfl
  | cons e r ih =>
    obtain ⟨i, w⟩ := e
    have h' := (Memory.wf_cons i w r).1 h
    by_cases hp : p (i, w)
    · rw [List.filter_cons_of_pos hp]
      refine (Memory.wf_cons i w _).2 ⟨h'.1, ?_, ih h'.2.2⟩
      have := (Memory.above_iff i r).1 h'.2.1
      exact (Memory.above_iff i _).2 (fun c hc => this c (List.mem_of_mem_filter hc))
    · rw [List.filter_cons_of_neg hp]
      exact ih h'.2.2

theorem Memory.wf_clear (lo hi : Nat) (m : Memory) (h : m.wf = true) : (m.clear lo hi).wf = true := Memory.wf_filter _ m h

/-- A cleared range reads 0 and every other byte as before. -/
theorem Memory.read_clear (lo hi a : Nat) (m : Memory) : (m.clear lo hi).read a = if lo ≤ a ∧ a < hi then 0 else m.read a := by
  induction m with
  | nil => simp [Memory.clear, Memory.read]
  | cons e r ih =>
    obtain ⟨i, w⟩ := e
    by_cases hi' : lo ≤ i ∧ i < hi
    · have h : Memory.clear lo hi ((i, w) :: r) = Memory.clear lo hi r := by simp [Memory.clear, hi']
      rw [h, ih]
      by_cases ha : a = i
      · subst ha; simp [hi']
      · simp [Memory.read, ha]
    · have hb : (!(decide (lo ≤ i) && decide (i < hi))) = true := by
        simp only [Bool.not_eq_true', Bool.and_eq_false_iff, decide_eq_false_iff_not]; omega
      have h : Memory.clear lo hi ((i, w) :: r) = (i, w) :: Memory.clear lo hi r := by
        simp only [Memory.clear, List.filter_cons, hb, if_true]
      rw [h]
      simp only [Memory.read, ih]
      by_cases ha : a = i
      · subst ha; simp [hi']
      · simp [ha]

end Sys2Proof.Machine
end

