-- ==== Sys2Proof/Laws/MemRead.lean ====
section
/-! SUPPORT. Laws of reads through the memory system: with nothing waiting in a cache, a buffer or the guard a read is a
read of memory; and reads of memories given as lists. -/

namespace Sys2Proof.Machine

@[simp] theorem State.bytes_length (s : State) (a n : Nat) : (s.bytes a n).length = n := by
  induction n generalizing a with
  | zero => rfl
  | succ n ih => simp [State.bytes, ih]

/-- With nothing waiting outside memory a byte reads as memory holds it. -/
theorem State.byteAt_of_memory (s : State) (a : Nat) (h1 : s.dirty = []) (h2 : s.heldWrites = []) (h3 : s.wcb = []) : s.byteAt a = s.mem.read a := by
  simp [State.byteAt, h1, h2, Tab.find, heldByte, State.wcbOf, h3, Tab.get, wcbByte]

theorem State.bytes_of_memory (s : State) (a n : Nat) (h1 : s.dirty = []) (h2 : s.heldWrites = []) (h3 : s.wcb = []) :
    s.bytes a n = s.mem.readN a n := by
  induction n generalizing a with
  | zero => rfl
  | succ n ih => rw [State.bytes, Memory.readN, ih, State.byteAt_of_memory s a h1 h2 h3]

theorem Memory.readN_congr (m k : Memory) (a n : Nat) (h : ∀ i, i < n → m.read (a + i) = k.read (a + i)) : m.readN a n = k.readN a n := by
  induction n generalizing a with
  | zero => rfl
  | succ n ih =>
    have h0 := h 0 (by omega)
    have h1 := ih (a + 1) (fun i hi => by have := h (i + 1) (by omega); rwa [show a + (i + 1) = a + 1 + i by omega] at this)
    rw [Memory.readN, Memory.readN, h1]
    exact congrArg (· :: _) h0

/-- A memory that lists no address of a range reads 0 there. -/
theorem Memory.read_unlisted (m : Memory) (a : Nat) (h : ∀ c ∈ m, c.1 ≠ a) : m.read a = 0 := by
  induction m with
  | nil => rfl
  | cons e r ih =>
    obtain ⟨i, w⟩ := e
    have : a ≠ i := fun e => h (i, w) (List.mem_cons_self ..) e.symm
    simp only [Memory.read, this, if_false]
    exact ih (fun c hc => h c (List.mem_cons_of_mem _ hc))

theorem Memory.readN_unlisted (m : Memory) (a n : Nat) (h : ∀ c ∈ m, c.1 < a ∨ a + n ≤ c.1) : m.readN a n = zeros n := by
  induction n generalizing a with
  | zero => rfl
  | succ n ih =>
    rw [Memory.readN, Memory.read_unlisted m a (fun c hc => by have := h c hc; omega),
      ih (a + 1) (fun c hc => by have := h c hc; omega)]
    rfl

/-- Reading past a list that does not list the address. -/
theorem Memory.read_append (m k : Memory) (a : Nat) (h : ∀ c ∈ m, c.1 ≠ a) : Memory.read (m ++ k) a = k.read a := by
  induction m with
  | nil => rfl
  | cons e r ih =>
    obtain ⟨i, w⟩ := e
    have : a ≠ i := fun e => h (i, w) (List.mem_cons_self ..) e.symm
    simp only [List.cons_append, Memory.read, this, if_false]
    exact ih (fun c hc => h c (List.mem_cons_of_mem _ hc))

theorem Memory.read_append_congr (m k l : Memory) (a : Nat) (h : k.read a = l.read a) : Memory.read (m ++ k) a = Memory.read (m ++ l) a := by
  induction m with
  | nil => exact h
  | cons e r ih =>
    obtain ⟨i, w⟩ := e
    simp only [List.cons_append, Memory.read, ih]

/-- A run of n cells from b. -/
theorem Memory.read_run (b n i : Nat) (v : Nat → Byte) (h : i < n) : Memory.read ((List.range n).map (fun j => (b + j, v j))) (b + i) = v i := by
  have : ∀ (l : List Nat), i ∈ l → Memory.read (l.map (fun j => (b + j, v j))) (b + i) = v i := by
    intro l
    induction l with
    | nil => intro h; cases h
    | cons x r ih =>
      intro hi
      simp only [List.map_cons, Memory.read]
      by_cases e : i = x
      · simp [e]
      · have h2 : b + i ≠ b + x := by omega
        rw [if_neg h2]
        exact ih ((List.mem_cons.1 hi).resolve_left e)
  exact this _ (List.mem_range.2 h)

end Sys2Proof.Machine
end

