-- ==== Sys2Proof/Laws/Regs.lean ====
section
/-! SUPPORT. Laws of registers and their fields: a read after a write of a register, of a field, of another field; and
the reset values of a tile's block. -/

namespace Sys2Proof.Machine

/-! ### Bit fields -/

theorem bitsOf_lt (v : BitVec 64) (hi lo : Nat) : bitsOf v hi lo < 2 ^ (hi - lo + 1) := Nat.mod_lt _ (Nat.two_pow_pos _)

theorem bitsOf_testBit (v : BitVec 64) (hi lo i : Nat) : (bitsOf v hi lo).testBit i = (decide (i < hi - lo + 1) && v.toNat.testBit (lo + i)) := by
  rw [bitsOf, Nat.testBit_mod_two_pow, Nat.testBit_div_two_pow, Nat.add_comm i lo]

/-- The bits of a word after a field has been placed. -/
theorem withBits_testBit (v : BitVec 64) (hi lo n i : Nat) (h : lo ≤ hi) (h64 : hi < 64) :
    (withBits v hi lo n).toNat.testBit i = if lo ≤ i ∧ i ≤ hi then n.testBit (i - lo) else v.toNat.testBit i := by
  obtain ⟨w, hw⟩ : ∃ w, hi - lo + 1 = w := ⟨_, rfl⟩
  have hv := v.isLt
  have e1 := Nat.div_add_mod v.toNat (2 ^ lo)
  have e2 := Nat.div_add_mod (v.toNat / 2 ^ lo) (2 ^ w)
  have hm : n % 2 ^ w < 2 ^ w := Nat.mod_lt _ (Nat.two_pow_pos _)
  have hr : v.toNat % 2 ^ lo < 2 ^ lo := Nat.mod_lt _ (Nat.two_pow_pos _)
  have key : v.toNat - v.toNat / 2 ^ lo % 2 ^ w * 2 ^ lo + n % 2 ^ w * 2 ^ lo =
      2 ^ lo * (2 ^ w * (v.toNat / 2 ^ lo / 2 ^ w) + n % 2 ^ w) + v.toNat % 2 ^ lo := by
    have h1 : v.toNat = 2 ^ lo * (2 ^ w * (v.toNat / 2 ^ lo / 2 ^ w)) + v.toNat / 2 ^ lo % 2 ^ w * 2 ^ lo + v.toNat % 2 ^ lo := by
      conv => lhs; rw [← e1, ← e2]
      rw [Nat.mul_add, Nat.mul_comm (2 ^ lo) (v.toNat / 2 ^ lo % 2 ^ w)]
    rw [Nat.mul_add, Nat.mul_comm (2 ^ lo) (n % 2 ^ w)]
    omega
  have bits : ∀ j, (2 ^ lo * (2 ^ w * (v.toNat / 2 ^ lo / 2 ^ w) + n % 2 ^ w) + v.toNat % 2 ^ lo).testBit j =
      if lo ≤ j ∧ j ≤ hi then n.testBit (j - lo) else v.toNat.testBit j := by
    intro j
    rw [Nat.testBit_two_pow_mul_add _ hr, Nat.testBit_two_pow_mul_add _ hm]
    by_cases c1 : j < lo
    · have : ¬(lo ≤ j ∧ j ≤ hi) := by omega
      rw [if_pos c1, if_neg this, Nat.testBit_mod_two_pow]
      simp [c1]
    · rw [if_neg c1]
      by_cases c2 : j - lo < w
      · have : lo ≤ j ∧ j ≤ hi := by omega
        rw [if_pos c2, if_pos this, Nat.testBit_mod_two_pow]
        simp [c2]
      · have : ¬(lo ≤ j ∧ j ≤ hi) := by omega
        rw [if_neg c2, if_neg this, Nat.testBit_div_two_pow, Nat.testBit_div_two_pow]
        congr 1
        omega
  rw [withBits, bitsOf, hw, BitVec.toNat_ofNat, key, Nat.testBit_mod_two_pow, bits]
  by_cases c : i < 64
  · simp [c]
  · have h1 : ¬(lo ≤ i ∧ i ≤ hi) := by omega
    have h2 : v.toNat.testBit i = false := Nat.testBit_lt_two_pow (lt_of_lt_of_le hv (Nat.pow_le_pow_right (by decide) (by omega)))
    simp [h1, h2]

/-- A field reads as it was placed. -/
theorem bitsOf_withBits (v : BitVec 64) (hi lo n : Nat) (h : lo ≤ hi) (h64 : hi < 64) : bitsOf (withBits v hi lo n) hi lo = n % 2 ^ (hi - lo + 1) := by
  apply Nat.eq_of_testBit_eq
  intro i
  rw [bitsOf_testBit, withBits_testBit v hi lo n _ h h64, Nat.testBit_mod_two_pow]
  by_cases c : i < hi - lo + 1
  · have : lo ≤ lo + i ∧ lo + i ≤ hi := by omega
    rw [if_pos this]
    simp
  · simp [c]

/-- Placing a field leaves every field of other bits as it was. -/
theorem bitsOf_withBits_other (v : BitVec 64) (hi lo n hi' lo' : Nat) (h : lo ≤ hi) (h64 : hi < 64) (h' : lo' ≤ hi') (d : hi' < lo ∨ hi < lo') :
    bitsOf (withBits v hi lo n) hi' lo' = bitsOf v hi' lo' := by
  apply Nat.eq_of_testBit_eq
  intro i
  rw [bitsOf_testBit, bitsOf_testBit, withBits_testBit v hi lo n _ h h64]
  by_cases c : i < hi' - lo' + 1
  · have : ¬(lo ≤ lo' + i ∧ lo' + i ≤ hi) := by omega
    rw [if_neg this]
  · simp [c]

/-! ### Registers -/

theorem State.reg_setReg (s : State) (a b : Nat) (v : BitVec 64) : (s.setReg a v).reg b = if b = a then v else s.reg b := Tab.get_set ..

@[simp] theorem State.reg_setReg_same (s : State) (a : Nat) (v : BitVec 64) : (s.setReg a v).reg a = v := by simp [State.reg_setReg]

theorem State.reg_setReg_ne (s : State) (a b : Nat) (v : BitVec 64) (h : b ≠ a) : (s.setReg a v).reg b = s.reg b := by simp [State.reg_setReg, h]

/-- Setting a field changes no other register. -/
theorem State.reg_setFld_ne (s : State) (f : Fld) (n b : Nat) (h : b ≠ f.off) : (s.setFld f n).reg b = s.reg b := s.reg_setReg_ne _ _ _ h

/-- A field reads as it was set. -/
theorem State.fld_setFld (s : State) (f : Fld) (n : Nat) (h : f.lo ≤ f.hi) (h64 : f.hi < 64) : (s.setFld f n).fld f = n % 2 ^ (f.hi - f.lo + 1) := by
  rw [State.fld, State.setFld, State.reg_setReg_same, bitsOf_withBits _ _ _ _ h h64]

/-- Setting a field leaves a field of another register, or of other bits, as it was. -/
theorem State.fld_setFld_other (s : State) (f g : Fld) (n : Nat) (h : f.lo ≤ f.hi) (h64 : f.hi < 64) (h' : g.lo ≤ g.hi)
    (d : g.off ≠ f.off ∨ g.hi < f.lo ∨ f.hi < g.lo) : (s.setFld f n).fld g = s.fld g := by
  rw [State.fld, State.fld]
  by_cases e : g.off = f.off
  · rw [e, State.setFld, State.reg_setReg_same]
    exact bitsOf_withBits_other _ _ _ _ _ _ h h64 h' (d.resolve_left (fun k => k e))
  · rw [State.reg_setFld_ne _ _ _ _ e]

/-! ### A tile's block -/

theorem blockAt_tile (t : TileId) (o : Nat) (h : o < 0x10000) : blockAt (o + tileBase t) = some (.tile, o) := by
  have ht := t.isLt
  have h1 : o + tileBase t < 0x1000000 := by simp only [tileBase]; omega
  have h2 : (o + tileBase t) % 0x10000 = o := by simp only [tileBase]; omega
  simp only [blockAt, h1, h2, if_true]

/-- Every tile's block has the registers of tile 0's. -/
theorem resetVal_tile (t : TileId) (o : Nat) (h : o < 0x10000) : resetVal (o + tileBase t) = resetVal o := by
  have h0 := blockAt_tile 0 o h
  simp only [tileBase, BitVec.ofNat_eq_ofNat, BitVec.toNat_ofNat, Nat.zero_mod, Nat.zero_mul, Nat.add_zero] at h0
  simp only [resetVal, regAt, blockAt_tile t o h, h0]

theorem Tab.get_unlisted {α : Type} (d : Nat → α) (t : Tab α) (k : Nat) (h : ∀ e ∈ t, e.1 ≠ k) : Tab.get d t k = d k := by
  induction t with
  | nil => rfl
  | cons e r ih =>
    obtain ⟨i, w⟩ := e
    have : k ≠ i := fun e => h (i, w) (List.mem_cons_self ..) e.symm
    simp only [Tab.get, this, if_false]
    exact ih (fun c hc => h c (List.mem_cons_of_mem _ hc))

/-- Where no register of a tile's block is listed, every shuttle is halted, as it is after reset. -/
theorem State.halted_unlisted (s : State) (h : ∀ e ∈ s.regs, 0x1000000 ≤ e.1) (t : TileId) : s.shuttleRuns t = false := by
  have ht := t.isLt
  have e : (tfld t F.SEQ_CTRL_HALTED).off = 0 + tileBase t := rfl
  have hr : s.reg (tfld t F.SEQ_CTRL_HALTED).off = resetVal 0 := by
    rw [State.reg, Tab.get_unlisted _ _ _ (fun c hc => ?_), e, resetVal_tile t 0 (by decide)]
    have := h c hc
    rw [e]
    simp only [tileBase]
    omega
  have hv : resetVal 0 = 2 := by decide +kernel
  have hb : (tfld t F.SEQ_CTRL_HALTED).hi = 1 ∧ (tfld t F.SEQ_CTRL_HALTED).lo = 1 := ⟨rfl, rfl⟩
  simp only [State.shuttleRuns, State.bit, State.fld, hr, hv, hb]
  decide

end Sys2Proof.Machine
end

