-- ==== Sys2Proof/Laws/State.lean ====
section
/-! SUPPORT. The state under its updates: one lemma per field per update, true by unfolding; then what each accessor reads
after each update. -/

namespace Sys2Proof.Machine

/-! ### s.setReg a v -/

@[simp] theorem State.mem_setReg_keeps (s : State) (a : Nat) (v : BitVec 64) : (s.setReg a v).mem = s.mem := rfl
@[simp] theorem State.poison_setReg_keeps (s : State) (a : Nat) (v : BitVec 64) : (s.setReg a v).poison = s.poison := rfl
@[simp] theorem State.tiles_setReg_keeps (s : State) (a : Nat) (v : BitVec 64) : (s.setReg a v).tiles = s.tiles := rfl
@[simp] theorem State.harts_setReg_keeps (s : State) (a : Nat) (v : BitVec 64) : (s.setReg a v).harts = s.harts := rfl
@[simp] theorem State.running_setReg_keeps (s : State) (a : Nat) (v : BitVec 64) : (s.setReg a v).running = s.running := rfl
@[simp] theorem State.dirty_setReg_keeps (s : State) (a : Nat) (v : BitVec 64) : (s.setReg a v).dirty = s.dirty := rfl
@[simp] theorem State.wcb_setReg_keeps (s : State) (a : Nat) (v : BitVec 64) : (s.setReg a v).wcb = s.wcb := rfl
@[simp] theorem State.ceCount_setReg_keeps (s : State) (a : Nat) (v : BitVec 64) : (s.setReg a v).ceCount = s.ceCount := rfl
@[simp] theorem State.guard_setReg_keeps (s : State) (a : Nat) (v : BitVec 64) : (s.setReg a v).guard = s.guard := rfl
@[simp] theorem State.shadow_setReg_keeps (s : State) (a : Nat) (v : BitVec 64) : (s.setReg a v).shadow = s.shadow := rfl
@[simp] theorem State.heldWrites_setReg_keeps (s : State) (a : Nat) (v : BitVec 64) : (s.setReg a v).heldWrites = s.heldWrites := rfl
@[simp] theorem State.poolEvent_setReg_keeps (s : State) (a : Nat) (v : BitVec 64) : (s.setReg a v).poolEvent = s.poolEvent := rfl
@[simp] theorem State.flash_setReg_keeps (s : State) (a : Nat) (v : BitVec 64) : (s.setReg a v).flash = s.flash := rfl
@[simp] theorem State.flashBytes_setReg_keeps (s : State) (a : Nat) (v : BitVec 64) : (s.setReg a v).flashBytes = s.flashBytes := rfl
@[simp] theorem State.flashRegion_setReg_keeps (s : State) (a : Nat) (v : BitVec 64) : (s.setReg a v).flashRegion = s.flashRegion := rfl
@[simp] theorem State.ports_setReg_keeps (s : State) (a : Nat) (v : BitVec 64) : (s.setReg a v).ports = s.ports := rfl
@[simp] theorem State.reqs_setReg_keeps (s : State) (a : Nat) (v : BitVec 64) : (s.setReg a v).reqs = s.reqs := rfl
@[simp] theorem State.nextTag_setReg_keeps (s : State) (a : Nat) (v : BitVec 64) : (s.setReg a v).nextTag = s.nextTag := rfl
@[simp] theorem State.outbox_setReg_keeps (s : State) (a : Nat) (v : BitVec 64) : (s.setReg a v).outbox = s.outbox := rfl
@[simp] theorem State.cong_setReg_keeps (s : State) (a : Nat) (v : BitVec 64) : (s.setReg a v).cong = s.cong := rfl
@[simp] theorem State.overflow_setReg_keeps (s : State) (a : Nat) (v : BitVec 64) : (s.setReg a v).overflow = s.overflow := rfl
@[simp] theorem State.dir_setReg_keeps (s : State) (a : Nat) (v : BitVec 64) : (s.setReg a v).dir = s.dir := rfl
@[simp] theorem State.dirTrans_setReg_keeps (s : State) (a : Nat) (v : BitVec 64) : (s.setReg a v).dirTrans = s.dirTrans := rfl
@[simp] theorem State.coh_setReg_keeps (s : State) (a : Nat) (v : BitVec 64) : (s.setReg a v).coh = s.coh := rfl
@[simp] theorem State.ledger_setReg_keeps (s : State) (a : Nat) (v : BitVec 64) : (s.setReg a v).ledger = s.ledger := rfl
@[simp] theorem State.replays_setReg_keeps (s : State) (a : Nat) (v : BitVec 64) : (s.setReg a v).replays = s.replays := rfl
@[simp] theorem State.atomSeq_setReg_keeps (s : State) (a : Nat) (v : BitVec 64) : (s.setReg a v).atomSeq = s.atomSeq := rfl
@[simp] theorem State.synced_setReg_keeps (s : State) (a : Nat) (v : BitVec 64) : (s.setReg a v).synced = s.synced := rfl
@[simp] theorem State.mustSync_setReg_keeps (s : State) (a : Nat) (v : BitVec 64) : (s.setReg a v).mustSync = s.mustSync := rfl
@[simp] theorem State.ctxs_setReg_keeps (s : State) (a : Nat) (v : BitVec 64) : (s.setReg a v).ctxs = s.ctxs := rfl
@[simp] theorem State.draft_setReg_keeps (s : State) (a : Nat) (v : BitVec 64) : (s.setReg a v).draft = s.draft := rfl
@[simp] theorem State.resil_setReg_keeps (s : State) (a : Nat) (v : BitVec 64) : (s.setReg a v).resil = s.resil := rfl
@[simp] theorem State.fw_setReg_keeps (s : State) (a : Nat) (v : BitVec 64) : (s.setReg a v).fw = s.fw := rfl
@[simp] theorem State.rings_setReg_keeps (s : State) (a : Nat) (v : BitVec 64) : (s.setReg a v).rings = s.rings := rfl
@[simp] theorem State.hostOut_setReg_keeps (s : State) (a : Nat) (v : BitVec 64) : (s.setReg a v).hostOut = s.hostOut := rfl
@[simp] theorem State.power_setReg_keeps (s : State) (a : Nat) (v : BitVec 64) : (s.setReg a v).power = s.power := rfl
@[simp] theorem State.clock_setReg_keeps (s : State) (a : Nat) (v : BitVec 64) : (s.setReg a v).clock = s.clock := rfl
@[simp] theorem State.free_setReg_keeps (s : State) (a : Nat) (v : BitVec 64) : (s.setReg a v).free = s.free := rfl
@[simp] theorem State.pending_setReg_keeps (s : State) (a : Nat) (v : BitVec 64) : (s.setReg a v).pending = s.pending := rfl
@[simp] theorem State.tile_setReg_keeps (s : State) (a : Nat) (v : BitVec 64) (t' : TileId) : (s.setReg a v).tile t' = s.tile t' := rfl
@[simp] theorem State.hart_setReg_keeps (s : State) (a : Nat) (v : BitVec 64) (h' : HartId) : (s.setReg a v).hart h' = s.hart h' := rfl
@[simp] theorem State.port_setReg_keeps (s : State) (a : Nat) (v : BitVec 64) (p' : PortId) : (s.setReg a v).port p' = s.port p' := rfl
@[simp] theorem State.ctx_setReg_keeps (s : State) (a : Nat) (v : BitVec 64) (c' : CtxId) : (s.setReg a v).ctx c' = s.ctx c' := rfl
@[simp] theorem State.byteAt_setReg_keeps (s : State) (a : Nat) (v : BitVec 64) (a' : Nat) : (s.setReg a v).byteAt a' = s.byteAt a' := rfl

/-! ### s.setFld f n -/

@[simp] theorem State.mem_setFld_keeps (s : State) (f : Fld) (n : Nat) : (s.setFld f n).mem = s.mem := rfl
@[simp] theorem State.poison_setFld_keeps (s : State) (f : Fld) (n : Nat) : (s.setFld f n).poison = s.poison := rfl
@[simp] theorem State.tiles_setFld_keeps (s : State) (f : Fld) (n : Nat) : (s.setFld f n).tiles = s.tiles := rfl
@[simp] theorem State.harts_setFld_keeps (s : State) (f : Fld) (n : Nat) : (s.setFld f n).harts = s.harts := rfl
@[simp] theorem State.running_setFld_keeps (s : State) (f : Fld) (n : Nat) : (s.setFld f n).running = s.running := rfl
@[simp] theorem State.dirty_setFld_keeps (s : State) (f : Fld) (n : Nat) : (s.setFld f n).dirty = s.dirty := rfl
@[simp] theorem State.wcb_setFld_keeps (s : State) (f : Fld) (n : Nat) : (s.setFld f n).wcb = s.wcb := rfl
@[simp] theorem State.ceCount_setFld_keeps (s : State) (f : Fld) (n : Nat) : (s.setFld f n).ceCount = s.ceCount := rfl
@[simp] theorem State.guard_setFld_keeps (s : State) (f : Fld) (n : Nat) : (s.setFld f n).guard = s.guard := rfl
@[simp] theorem State.shadow_setFld_keeps (s : State) (f : Fld) (n : Nat) : (s.setFld f n).shadow = s.shadow := rfl
@[simp] theorem State.heldWrites_setFld_keeps (s : State) (f : Fld) (n : Nat) : (s.setFld f n).heldWrites = s.heldWrites := rfl
@[simp] theorem State.poolEvent_setFld_keeps (s : State) (f : Fld) (n : Nat) : (s.setFld f n).poolEvent = s.poolEvent := rfl
@[simp] theorem State.flash_setFld_keeps (s : State) (f : Fld) (n : Nat) : (s.setFld f n).flash = s.flash := rfl
@[simp] theorem State.flashBytes_setFld_keeps (s : State) (f : Fld) (n : Nat) : (s.setFld f n).flashBytes = s.flashBytes := rfl
@[simp] theorem State.flashRegion_setFld_keeps (s : State) (f : Fld) (n : Nat) : (s.setFld f n).flashRegion = s.flashRegion := rfl
@[simp] theorem State.ports_setFld_keeps (s : State) (f : Fld) (n : Nat) : (s.setFld f n).ports = s.ports := rfl
@[simp] theorem State.reqs_setFld_keeps (s : State) (f : Fld) (n : Nat) : (s.setFld f n).reqs = s.reqs := rfl
@[simp] theorem State.nextTag_setFld_keeps (s : State) (f : Fld) (n : Nat) : (s.setFld f n).nextTag = s.nextTag := rfl
@[simp] theorem State.outbox_setFld_keeps (s : State) (f : Fld) (n : Nat) : (s.setFld f n).outbox = s.outbox := rfl
@[simp] theorem State.cong_setFld_keeps (s : State) (f : Fld) (n : Nat) : (s.setFld f n).cong = s.cong := rfl
@[simp] theorem State.overflow_setFld_keeps (s : State) (f : Fld) (n : Nat) : (s.setFld f n).overflow = s.overflow := rfl
@[simp] theorem State.dir_setFld_keeps (s : State) (f : Fld) (n : Nat) : (s.setFld f n).dir = s.dir := rfl
@[simp] theorem State.dirTrans_setFld_keeps (s : State) (f : Fld) (n : Nat) : (s.setFld f n).dirTrans = s.dirTrans := rfl
@[simp] theorem State.coh_setFld_keeps (s : State) (f : Fld) (n : Nat) : (s.setFld f n).coh = s.coh := rfl
@[simp] theorem State.ledger_setFld_keeps (s : State) (f : Fld) (n : Nat) : (s.setFld f n).ledger = s.ledger := rfl
@[simp] theorem State.replays_setFld_keeps (s : State) (f : Fld) (n : Nat) : (s.setFld f n).replays = s.replays := rfl
@[simp] theorem State.atomSeq_setFld_keeps (s : State) (f : Fld) (n : Nat) : (s.setFld f n).atomSeq = s.atomSeq := rfl
@[simp] theorem State.synced_setFld_keeps (s : State) (f : Fld) (n : Nat) : (s.setFld f n).synced = s.synced := rfl
@[simp] theorem State.mustSync_setFld_keeps (s : State) (f : Fld) (n : Nat) : (s.setFld f n).mustSync = s.mustSync := rfl
@[simp] theorem State.ctxs_setFld_keeps (s : State) (f : Fld) (n : Nat) : (s.setFld f n).ctxs = s.ctxs := rfl
@[simp] theorem State.draft_setFld_keeps (s : State) (f : Fld) (n : Nat) : (s.setFld f n).draft = s.draft := rfl
@[simp] theorem State.resil_setFld_keeps (s : State) (f : Fld) (n : Nat) : (s.setFld f n).resil = s.resil := rfl
@[simp] theorem State.fw_setFld_keeps (s : State) (f : Fld) (n : Nat) : (s.setFld f n).fw = s.fw := rfl
@[simp] theorem State.rings_setFld_keeps (s : State) (f : Fld) (n : Nat) : (s.setFld f n).rings = s.rings := rfl
@[simp] theorem State.hostOut_setFld_keeps (s : State) (f : Fld) (n : Nat) : (s.setFld f n).hostOut = s.hostOut := rfl
@[simp] theorem State.power_setFld_keeps (s : State) (f : Fld) (n : Nat) : (s.setFld f n).power = s.power := rfl
@[simp] theorem State.clock_setFld_keeps (s : State) (f : Fld) (n : Nat) : (s.setFld f n).clock = s.clock := rfl
@[simp] theorem State.free_setFld_keeps (s : State) (f : Fld) (n : Nat) : (s.setFld f n).free = s.free := rfl
@[simp] theorem State.pending_setFld_keeps (s : State) (f : Fld) (n : Nat) : (s.setFld f n).pending = s.pending := rfl
@[simp] theorem State.tile_setFld_keeps (s : State) (f : Fld) (n : Nat) (t' : TileId) : (s.setFld f n).tile t' = s.tile t' := rfl
@[simp] theorem State.hart_setFld_keeps (s : State) (f : Fld) (n : Nat) (h' : HartId) : (s.setFld f n).hart h' = s.hart h' := rfl
@[simp] theorem State.port_setFld_keeps (s : State) (f : Fld) (n : Nat) (p' : PortId) : (s.setFld f n).port p' = s.port p' := rfl
@[simp] theorem State.ctx_setFld_keeps (s : State) (f : Fld) (n : Nat) (c' : CtxId) : (s.setFld f n).ctx c' = s.ctx c' := rfl
@[simp] theorem State.byteAt_setFld_keeps (s : State) (f : Fld) (n : Nat) (a' : Nat) : (s.setFld f n).byteAt a' = s.byteAt a' := rfl

/-! ### s.count f n -/

@[simp] theorem State.mem_count_keeps (s : State) (f : Fld) (n : Nat) : (s.count f n).mem = s.mem := rfl
@[simp] theorem State.poison_count_keeps (s : State) (f : Fld) (n : Nat) : (s.count f n).poison = s.poison := rfl
@[simp] theorem State.tiles_count_keeps (s : State) (f : Fld) (n : Nat) : (s.count f n).tiles = s.tiles := rfl
@[simp] theorem State.harts_count_keeps (s : State) (f : Fld) (n : Nat) : (s.count f n).harts = s.harts := rfl
@[simp] theorem State.running_count_keeps (s : State) (f : Fld) (n : Nat) : (s.count f n).running = s.running := rfl
@[simp] theorem State.dirty_count_keeps (s : State) (f : Fld) (n : Nat) : (s.count f n).dirty = s.dirty := rfl
@[simp] theorem State.wcb_count_keeps (s : State) (f : Fld) (n : Nat) : (s.count f n).wcb = s.wcb := rfl
@[simp] theorem State.ceCount_count_keeps (s : State) (f : Fld) (n : Nat) : (s.count f n).ceCount = s.ceCount := rfl
@[simp] theorem State.guard_count_keeps (s : State) (f : Fld) (n : Nat) : (s.count f n).guard = s.guard := rfl
@[simp] theorem State.shadow_count_keeps (s : State) (f : Fld) (n : Nat) : (s.count f n).shadow = s.shadow := rfl
@[simp] theorem State.heldWrites_count_keeps (s : State) (f : Fld) (n : Nat) : (s.count f n).heldWrites = s.heldWrites := rfl
@[simp] theorem State.poolEvent_count_keeps (s : State) (f : Fld) (n : Nat) : (s.count f n).poolEvent = s.poolEvent := rfl
@[simp] theorem State.flash_count_keeps (s : State) (f : Fld) (n : Nat) : (s.count f n).flash = s.flash := rfl
@[simp] theorem State.flashBytes_count_keeps (s : State) (f : Fld) (n : Nat) : (s.count f n).flashBytes = s.flashBytes := rfl
@[simp] theorem State.flashRegion_count_keeps (s : State) (f : Fld) (n : Nat) : (s.count f n).flashRegion = s.flashRegion := rfl
@[simp] theorem State.ports_count_keeps (s : State) (f : Fld) (n : Nat) : (s.count f n).ports = s.ports := rfl
@[simp] theorem State.reqs_count_keeps (s : State) (f : Fld) (n : Nat) : (s.count f n).reqs = s.reqs := rfl
@[simp] theorem State.nextTag_count_keeps (s : State) (f : Fld) (n : Nat) : (s.count f n).nextTag = s.nextTag := rfl
@[simp] theorem State.outbox_count_keeps (s : State) (f : Fld) (n : Nat) : (s.count f n).outbox = s.outbox := rfl
@[simp] theorem State.cong_count_keeps (s : State) (f : Fld) (n : Nat) : (s.count f n).cong = s.cong := rfl
@[simp] theorem State.overflow_count_keeps (s : State) (f : Fld) (n : Nat) : (s.count f n).overflow = s.overflow := rfl
@[simp] theorem State.dir_count_keeps (s : State) (f : Fld) (n : Nat) : (s.count f n).dir = s.dir := rfl
@[simp] theorem State.dirTrans_count_keeps (s : State) (f : Fld) (n : Nat) : (s.count f n).dirTrans = s.dirTrans := rfl
@[simp] theorem State.coh_count_keeps (s : State) (f : Fld) (n : Nat) : (s.count f n).coh = s.coh := rfl
@[simp] theorem State.ledger_count_keeps (s : State) (f : Fld) (n : Nat) : (s.count f n).ledger = s.ledger := rfl
@[simp] theorem State.replays_count_keeps (s : State) (f : Fld) (n : Nat) : (s.count f n).replays = s.replays := rfl
@[simp] theorem State.atomSeq_count_keeps (s : State) (f : Fld) (n : Nat) : (s.count f n).atomSeq = s.atomSeq := rfl
@[simp] theorem State.synced_count_keeps (s : State) (f : Fld) (n : Nat) : (s.count f n).synced = s.synced := rfl
@[simp] theorem State.mustSync_count_keeps (s : State) (f : Fld) (n : Nat) : (s.count f n).mustSync = s.mustSync := rfl
@[simp] theorem State.ctxs_count_keeps (s : State) (f : Fld) (n : Nat) : (s.count f n).ctxs = s.ctxs := rfl
@[simp] theorem State.draft_count_keeps (s : State) (f : Fld) (n : Nat) : (s.count f n).draft = s.draft := rfl
@[simp] theorem State.resil_count_keeps (s : State) (f : Fld) (n : Nat) : (s.count f n).resil = s.resil := rfl
@[simp] theorem State.fw_count_keeps (s : State) (f : Fld) (n : Nat) : (s.count f n).fw = s.fw := rfl
@[simp] theorem State.rings_count_keeps (s : State) (f : Fld) (n : Nat) : (s.count f n).rings = s.rings := rfl
@[simp] theorem State.hostOut_count_keeps (s : State) (f : Fld) (n : Nat) : (s.count f n).hostOut = s.hostOut := rfl
@[simp] theorem State.power_count_keeps (s : State) (f : Fld) (n : Nat) : (s.count f n).power = s.power := rfl
@[simp] theorem State.clock_count_keeps (s : State) (f : Fld) (n : Nat) : (s.count f n).clock = s.clock := rfl
@[simp] theorem State.free_count_keeps (s : State) (f : Fld) (n : Nat) : (s.count f n).free = s.free := rfl
@[simp] theorem State.pending_count_keeps (s : State) (f : Fld) (n : Nat) : (s.count f n).pending = s.pending := rfl
@[simp] theorem State.tile_count_keeps (s : State) (f : Fld) (n : Nat) (t' : TileId) : (s.count f n).tile t' = s.tile t' := rfl
@[simp] theorem State.hart_count_keeps (s : State) (f : Fld) (n : Nat) (h' : HartId) : (s.count f n).hart h' = s.hart h' := rfl
@[simp] theorem State.port_count_keeps (s : State) (f : Fld) (n : Nat) (p' : PortId) : (s.count f n).port p' = s.port p' := rfl
@[simp] theorem State.ctx_count_keeps (s : State) (f : Fld) (n : Nat) (c' : CtxId) : (s.count f n).ctx c' = s.ctx c' := rfl
@[simp] theorem State.byteAt_count_keeps (s : State) (f : Fld) (n : Nat) (a' : Nat) : (s.count f n).byteAt a' = s.byteAt a' := rfl

/-! ### s.countWrap f n -/

@[simp] theorem State.mem_countWrap_keeps (s : State) (f : Fld) (n : Nat) : (s.countWrap f n).mem = s.mem := rfl
@[simp] theorem State.poison_countWrap_keeps (s : State) (f : Fld) (n : Nat) : (s.countWrap f n).poison = s.poison := rfl
@[simp] theorem State.tiles_countWrap_keeps (s : State) (f : Fld) (n : Nat) : (s.countWrap f n).tiles = s.tiles := rfl
@[simp] theorem State.harts_countWrap_keeps (s : State) (f : Fld) (n : Nat) : (s.countWrap f n).harts = s.harts := rfl
@[simp] theorem State.running_countWrap_keeps (s : State) (f : Fld) (n : Nat) : (s.countWrap f n).running = s.running := rfl
@[simp] theorem State.dirty_countWrap_keeps (s : State) (f : Fld) (n : Nat) : (s.countWrap f n).dirty = s.dirty := rfl
@[simp] theorem State.wcb_countWrap_keeps (s : State) (f : Fld) (n : Nat) : (s.countWrap f n).wcb = s.wcb := rfl
@[simp] theorem State.ceCount_countWrap_keeps (s : State) (f : Fld) (n : Nat) : (s.countWrap f n).ceCount = s.ceCount := rfl
@[simp] theorem State.guard_countWrap_keeps (s : State) (f : Fld) (n : Nat) : (s.countWrap f n).guard = s.guard := rfl
@[simp] theorem State.shadow_countWrap_keeps (s : State) (f : Fld) (n : Nat) : (s.countWrap f n).shadow = s.shadow := rfl
@[simp] theorem State.heldWrites_countWrap_keeps (s : State) (f : Fld) (n : Nat) : (s.countWrap f n).heldWrites = s.heldWrites := rfl
@[simp] theorem State.poolEvent_countWrap_keeps (s : State) (f : Fld) (n : Nat) : (s.countWrap f n).poolEvent = s.poolEvent := rfl
@[simp] theorem State.flash_countWrap_keeps (s : State) (f : Fld) (n : Nat) : (s.countWrap f n).flash = s.flash := rfl
@[simp] theorem State.flashBytes_countWrap_keeps (s : State) (f : Fld) (n : Nat) : (s.countWrap f n).flashBytes = s.flashBytes := rfl
@[simp] theorem State.flashRegion_countWrap_keeps (s : State) (f : Fld) (n : Nat) : (s.countWrap f n).flashRegion = s.flashRegion := rfl
@[simp] theorem State.ports_countWrap_keeps (s : State) (f : Fld) (n : Nat) : (s.countWrap f n).ports = s.ports := rfl
@[simp] theorem State.reqs_countWrap_keeps (s : State) (f : Fld) (n : Nat) : (s.countWrap f n).reqs = s.reqs := rfl
@[simp] theorem State.nextTag_countWrap_keeps (s : State) (f : Fld) (n : Nat) : (s.countWrap f n).nextTag = s.nextTag := rfl
@[simp] theorem State.outbox_countWrap_keeps (s : State) (f : Fld) (n : Nat) : (s.countWrap f n).outbox = s.outbox := rfl
@[simp] theorem State.cong_countWrap_keeps (s : State) (f : Fld) (n : Nat) : (s.countWrap f n).cong = s.cong := rfl
@[simp] theorem State.overflow_countWrap_keeps (s : State) (f : Fld) (n : Nat) : (s.countWrap f n).overflow = s.overflow := rfl
@[simp] theorem State.dir_countWrap_keeps (s : State) (f : Fld) (n : Nat) : (s.countWrap f n).dir = s.dir := rfl
@[simp] theorem State.dirTrans_countWrap_keeps (s : State) (f : Fld) (n : Nat) : (s.countWrap f n).dirTrans = s.dirTrans := rfl
@[simp] theorem State.coh_countWrap_keeps (s : State) (f : Fld) (n : Nat) : (s.countWrap f n).coh = s.coh := rfl
@[simp] theorem State.ledger_countWrap_keeps (s : State) (f : Fld) (n : Nat) : (s.countWrap f n).ledger = s.ledger := rfl
@[simp] theorem State.replays_countWrap_keeps (s : State) (f : Fld) (n : Nat) : (s.countWrap f n).replays = s.replays := rfl
@[simp] theorem State.atomSeq_countWrap_keeps (s : State) (f : Fld) (n : Nat) : (s.countWrap f n).atomSeq = s.atomSeq := rfl
@[simp] theorem State.synced_countWrap_keeps (s : State) (f : Fld) (n : Nat) : (s.countWrap f n).synced = s.synced := rfl
@[simp] theorem State.mustSync_countWrap_keeps (s : State) (f : Fld) (n : Nat) : (s.countWrap f n).mustSync = s.mustSync := rfl
@[simp] theorem State.ctxs_countWrap_keeps (s : State) (f : Fld) (n : Nat) : (s.countWrap f n).ctxs = s.ctxs := rfl
@[simp] theorem State.draft_countWrap_keeps (s : State) (f : Fld) (n : Nat) : (s.countWrap f n).draft = s.draft := rfl
@[simp] theorem State.resil_countWrap_keeps (s : State) (f : Fld) (n : Nat) : (s.countWrap f n).resil = s.resil := rfl
@[simp] theorem State.fw_countWrap_keeps (s : State) (f : Fld) (n : Nat) : (s.countWrap f n).fw = s.fw := rfl
@[simp] theorem State.rings_countWrap_keeps (s : State) (f : Fld) (n : Nat) : (s.countWrap f n).rings = s.rings := rfl
@[simp] theorem State.hostOut_countWrap_keeps (s : State) (f : Fld) (n : Nat) : (s.countWrap f n).hostOut = s.hostOut := rfl
@[simp] theorem State.power_countWrap_keeps (s : State) (f : Fld) (n : Nat) : (s.countWrap f n).power = s.power := rfl
@[simp] theorem State.clock_countWrap_keeps (s : State) (f : Fld) (n : Nat) : (s.countWrap f n).clock = s.clock := rfl
@[simp] theorem State.free_countWrap_keeps (s : State) (f : Fld) (n : Nat) : (s.countWrap f n).free = s.free := rfl
@[simp] theorem State.pending_countWrap_keeps (s : State) (f : Fld) (n : Nat) : (s.countWrap f n).pending = s.pending := rfl
@[simp] theorem State.tile_countWrap_keeps (s : State) (f : Fld) (n : Nat) (t' : TileId) : (s.countWrap f n).tile t' = s.tile t' := rfl
@[simp] theorem State.hart_countWrap_keeps (s : State) (f : Fld) (n : Nat) (h' : HartId) : (s.countWrap f n).hart h' = s.hart h' := rfl
@[simp] theorem State.port_countWrap_keeps (s : State) (f : Fld) (n : Nat) (p' : PortId) : (s.countWrap f n).port p' = s.port p' := rfl
@[simp] theorem State.ctx_countWrap_keeps (s : State) (f : Fld) (n : Nat) (c' : CtxId) : (s.countWrap f n).ctx c' = s.ctx c' := rfl
@[simp] theorem State.byteAt_countWrap_keeps (s : State) (f : Fld) (n : Nat) (a' : Nat) : (s.countWrap f n).byteAt a' = s.byteAt a' := rfl

/-! ### s.putReady n b -/

@[simp] theorem State.mem_putReady_keeps (s : State) (n : Nat) (b : Bool) : (s.putReady n b).mem = s.mem := rfl
@[simp] theorem State.poison_putReady_keeps (s : State) (n : Nat) (b : Bool) : (s.putReady n b).poison = s.poison := rfl
@[simp] theorem State.tiles_putReady_keeps (s : State) (n : Nat) (b : Bool) : (s.putReady n b).tiles = s.tiles := rfl
@[simp] theorem State.harts_putReady_keeps (s : State) (n : Nat) (b : Bool) : (s.putReady n b).harts = s.harts := rfl
@[simp] theorem State.running_putReady_keeps (s : State) (n : Nat) (b : Bool) : (s.putReady n b).running = s.running := rfl
@[simp] theorem State.dirty_putReady_keeps (s : State) (n : Nat) (b : Bool) : (s.putReady n b).dirty = s.dirty := rfl
@[simp] theorem State.wcb_putReady_keeps (s : State) (n : Nat) (b : Bool) : (s.putReady n b).wcb = s.wcb := rfl
@[simp] theorem State.ceCount_putReady_keeps (s : State) (n : Nat) (b : Bool) : (s.putReady n b).ceCount = s.ceCount := rfl
@[simp] theorem State.guard_putReady_keeps (s : State) (n : Nat) (b : Bool) : (s.putReady n b).guard = s.guard := rfl
@[simp] theorem State.shadow_putReady_keeps (s : State) (n : Nat) (b : Bool) : (s.putReady n b).shadow = s.shadow := rfl
@[simp] theorem State.heldWrites_putReady_keeps (s : State) (n : Nat) (b : Bool) : (s.putReady n b).heldWrites = s.heldWrites := rfl
@[simp] theorem State.poolEvent_putReady_keeps (s : State) (n : Nat) (b : Bool) : (s.putReady n b).poolEvent = s.poolEvent := rfl
@[simp] theorem State.flash_putReady_keeps (s : State) (n : Nat) (b : Bool) : (s.putReady n b).flash = s.flash := rfl
@[simp] theorem State.flashBytes_putReady_keeps (s : State) (n : Nat) (b : Bool) : (s.putReady n b).flashBytes = s.flashBytes := rfl
@[simp] theorem State.flashRegion_putReady_keeps (s : State) (n : Nat) (b : Bool) : (s.putReady n b).flashRegion = s.flashRegion := rfl
@[simp] theorem State.ports_putReady_keeps (s : State) (n : Nat) (b : Bool) : (s.putReady n b).ports = s.ports := rfl
@[simp] theorem State.reqs_putReady_keeps (s : State) (n : Nat) (b : Bool) : (s.putReady n b).reqs = s.reqs := rfl
@[simp] theorem State.nextTag_putReady_keeps (s : State) (n : Nat) (b : Bool) : (s.putReady n b).nextTag = s.nextTag := rfl
@[simp] theorem State.outbox_putReady_keeps (s : State) (n : Nat) (b : Bool) : (s.putReady n b).outbox = s.outbox := rfl
@[simp] theorem State.cong_putReady_keeps (s : State) (n : Nat) (b : Bool) : (s.putReady n b).cong = s.cong := rfl
@[simp] theorem State.overflow_putReady_keeps (s : State) (n : Nat) (b : Bool) : (s.putReady n b).overflow = s.overflow := rfl
@[simp] theorem State.dir_putReady_keeps (s : State) (n : Nat) (b : Bool) : (s.putReady n b).dir = s.dir := rfl
@[simp] theorem State.dirTrans_putReady_keeps (s : State) (n : Nat) (b : Bool) : (s.putReady n b).dirTrans = s.dirTrans := rfl
@[simp] theorem State.coh_putReady_keeps (s : State) (n : Nat) (b : Bool) : (s.putReady n b).coh = s.coh := rfl
@[simp] theorem State.ledger_putReady_keeps (s : State) (n : Nat) (b : Bool) : (s.putReady n b).ledger = s.ledger := rfl
@[simp] theorem State.replays_putReady_keeps (s : State) (n : Nat) (b : Bool) : (s.putReady n b).replays = s.replays := rfl
@[simp] theorem State.atomSeq_putReady_keeps (s : State) (n : Nat) (b : Bool) : (s.putReady n b).atomSeq = s.atomSeq := rfl
@[simp] theorem State.synced_putReady_keeps (s : State) (n : Nat) (b : Bool) : (s.putReady n b).synced = s.synced := rfl
@[simp] theorem State.mustSync_putReady_keeps (s : State) (n : Nat) (b : Bool) : (s.putReady n b).mustSync = s.mustSync := rfl
@[simp] theorem State.ctxs_putReady_keeps (s : State) (n : Nat) (b : Bool) : (s.putReady n b).ctxs = s.ctxs := rfl
@[simp] theorem State.draft_putReady_keeps (s : State) (n : Nat) (b : Bool) : (s.putReady n b).draft = s.draft := rfl
@[simp] theorem State.resil_putReady_keeps (s : State) (n : Nat) (b : Bool) : (s.putReady n b).resil = s.resil := rfl
@[simp] theorem State.fw_putReady_keeps (s : State) (n : Nat) (b : Bool) : (s.putReady n b).fw = s.fw := rfl
@[simp] theorem State.rings_putReady_keeps (s : State) (n : Nat) (b : Bool) : (s.putReady n b).rings = s.rings := rfl
@[simp] theorem State.hostOut_putReady_keeps (s : State) (n : Nat) (b : Bool) : (s.putReady n b).hostOut = s.hostOut := rfl
@[simp] theorem State.power_putReady_keeps (s : State) (n : Nat) (b : Bool) : (s.putReady n b).power = s.power := rfl
@[simp] theorem State.clock_putReady_keeps (s : State) (n : Nat) (b : Bool) : (s.putReady n b).clock = s.clock := rfl
@[simp] theorem State.free_putReady_keeps (s : State) (n : Nat) (b : Bool) : (s.putReady n b).free = s.free := rfl
@[simp] theorem State.pending_putReady_keeps (s : State) (n : Nat) (b : Bool) : (s.putReady n b).pending = s.pending := rfl
@[simp] theorem State.tile_putReady_keeps (s : State) (n : Nat) (b : Bool) (t' : TileId) : (s.putReady n b).tile t' = s.tile t' := rfl
@[simp] theorem State.hart_putReady_keeps (s : State) (n : Nat) (b : Bool) (h' : HartId) : (s.putReady n b).hart h' = s.hart h' := rfl
@[simp] theorem State.port_putReady_keeps (s : State) (n : Nat) (b : Bool) (p' : PortId) : (s.putReady n b).port p' = s.port p' := rfl
@[simp] theorem State.ctx_putReady_keeps (s : State) (n : Nat) (b : Bool) (c' : CtxId) : (s.putReady n b).ctx c' = s.ctx c' := rfl
@[simp] theorem State.byteAt_putReady_keeps (s : State) (n : Nat) (b : Bool) (a' : Nat) : (s.putReady n b).byteAt a' = s.byteAt a' := rfl

/-! ### s.setTile t x -/

@[simp] theorem State.mem_setTile_keeps (s : State) (t : TileId) (x : Tile) : (s.setTile t x).mem = s.mem := rfl
@[simp] theorem State.poison_setTile_keeps (s : State) (t : TileId) (x : Tile) : (s.setTile t x).poison = s.poison := rfl
@[simp] theorem State.regs_setTile_keeps (s : State) (t : TileId) (x : Tile) : (s.setTile t x).regs = s.regs := rfl
@[simp] theorem State.harts_setTile_keeps (s : State) (t : TileId) (x : Tile) : (s.setTile t x).harts = s.harts := rfl
@[simp] theorem State.running_setTile_keeps (s : State) (t : TileId) (x : Tile) : (s.setTile t x).running = s.running := rfl
@[simp] theorem State.dirty_setTile_keeps (s : State) (t : TileId) (x : Tile) : (s.setTile t x).dirty = s.dirty := rfl
@[simp] theorem State.wcb_setTile_keeps (s : State) (t : TileId) (x : Tile) : (s.setTile t x).wcb = s.wcb := rfl
@[simp] theorem State.ceCount_setTile_keeps (s : State) (t : TileId) (x : Tile) : (s.setTile t x).ceCount = s.ceCount := rfl
@[simp] theorem State.guard_setTile_keeps (s : State) (t : TileId) (x : Tile) : (s.setTile t x).guard = s.guard := rfl
@[simp] theorem State.shadow_setTile_keeps (s : State) (t : TileId) (x : Tile) : (s.setTile t x).shadow = s.shadow := rfl
@[simp] theorem State.heldWrites_setTile_keeps (s : State) (t : TileId) (x : Tile) : (s.setTile t x).heldWrites = s.heldWrites := rfl
@[simp] theorem State.poolEvent_setTile_keeps (s : State) (t : TileId) (x : Tile) : (s.setTile t x).poolEvent = s.poolEvent := rfl
@[simp] theorem State.flash_setTile_keeps (s : State) (t : TileId) (x : Tile) : (s.setTile t x).flash = s.flash := rfl
@[simp] theorem State.flashBytes_setTile_keeps (s : State) (t : TileId) (x : Tile) : (s.setTile t x).flashBytes = s.flashBytes := rfl
@[simp] theorem State.flashRegion_setTile_keeps (s : State) (t : TileId) (x : Tile) : (s.setTile t x).flashRegion = s.flashRegion := rfl
@[simp] theorem State.ports_setTile_keeps (s : State) (t : TileId) (x : Tile) : (s.setTile t x).ports = s.ports := rfl
@[simp] theorem State.reqs_setTile_keeps (s : State) (t : TileId) (x : Tile) : (s.setTile t x).reqs = s.reqs := rfl
@[simp] theorem State.nextTag_setTile_keeps (s : State) (t : TileId) (x : Tile) : (s.setTile t x).nextTag = s.nextTag := rfl
@[simp] theorem State.outbox_setTile_keeps (s : State) (t : TileId) (x : Tile) : (s.setTile t x).outbox = s.outbox := rfl
@[simp] theorem State.cong_setTile_keeps (s : State) (t : TileId) (x : Tile) : (s.setTile t x).cong = s.cong := rfl
@[simp] theorem State.overflow_setTile_keeps (s : State) (t : TileId) (x : Tile) : (s.setTile t x).overflow = s.overflow := rfl
@[simp] theorem State.dir_setTile_keeps (s : State) (t : TileId) (x : Tile) : (s.setTile t x).dir = s.dir := rfl
@[simp] theorem State.dirTrans_setTile_keeps (s : State) (t : TileId) (x : Tile) : (s.setTile t x).dirTrans = s.dirTrans := rfl
@[simp] theorem State.coh_setTile_keeps (s : State) (t : TileId) (x : Tile) : (s.setTile t x).coh = s.coh := rfl
@[simp] theorem State.ledger_setTile_keeps (s : State) (t : TileId) (x : Tile) : (s.setTile t x).ledger = s.ledger := rfl
@[simp] theorem State.replays_setTile_keeps (s : State) (t : TileId) (x : Tile) : (s.setTile t x).replays = s.replays := rfl
@[simp] theorem State.atomSeq_setTile_keeps (s : State) (t : TileId) (x : Tile) : (s.setTile t x).atomSeq = s.atomSeq := rfl
@[simp] theorem State.synced_setTile_keeps (s : State) (t : TileId) (x : Tile) : (s.setTile t x).synced = s.synced := rfl
@[simp] theorem State.mustSync_setTile_keeps (s : State) (t : TileId) (x : Tile) : (s.setTile t x).mustSync = s.mustSync := rfl
@[simp] theorem State.ctxs_setTile_keeps (s : State) (t : TileId) (x : Tile) : (s.setTile t x).ctxs = s.ctxs := rfl
@[simp] theorem State.draft_setTile_keeps (s : State) (t : TileId) (x : Tile) : (s.setTile t x).draft = s.draft := rfl
@[simp] theorem State.resil_setTile_keeps (s : State) (t : TileId) (x : Tile) : (s.setTile t x).resil = s.resil := rfl
@[simp] theorem State.fw_setTile_keeps (s : State) (t : TileId) (x : Tile) : (s.setTile t x).fw = s.fw := rfl
@[simp] theorem State.rings_setTile_keeps (s : State) (t : TileId) (x : Tile) : (s.setTile t x).rings = s.rings := rfl
@[simp] theorem State.hostOut_setTile_keeps (s : State) (t : TileId) (x : Tile) : (s.setTile t x).hostOut = s.hostOut := rfl
@[simp] theorem State.power_setTile_keeps (s : State) (t : TileId) (x : Tile) : (s.setTile t x).power = s.power := rfl
@[simp] theorem State.clock_setTile_keeps (s : State) (t : TileId) (x : Tile) : (s.setTile t x).clock = s.clock := rfl
@[simp] theorem State.free_setTile_keeps (s : State) (t : TileId) (x : Tile) : (s.setTile t x).free = s.free := rfl
@[simp] theorem State.pending_setTile_keeps (s : State) (t : TileId) (x : Tile) : (s.setTile t x).pending = s.pending := rfl
@[simp] theorem State.hart_setTile_keeps (s : State) (t : TileId) (x : Tile) (h' : HartId) : (s.setTile t x).hart h' = s.hart h' := rfl
@[simp] theorem State.port_setTile_keeps (s : State) (t : TileId) (x : Tile) (p' : PortId) : (s.setTile t x).port p' = s.port p' := rfl
@[simp] theorem State.reg_setTile_keeps (s : State) (t : TileId) (x : Tile) (o' : Nat) : (s.setTile t x).reg o' = s.reg o' := rfl
@[simp] theorem State.ctx_setTile_keeps (s : State) (t : TileId) (x : Tile) (c' : CtxId) : (s.setTile t x).ctx c' = s.ctx c' := rfl
@[simp] theorem State.fld_setTile_keeps (s : State) (t : TileId) (x : Tile) (g : Fld) : (s.setTile t x).fld g = s.fld g := rfl
@[simp] theorem State.bit_setTile_keeps (s : State) (t : TileId) (x : Tile) (g : Fld) : (s.setTile t x).bit g = s.bit g := rfl
@[simp] theorem State.ready_setTile_keeps (s : State) (t : TileId) (x : Tile) (i : Nat) : (s.setTile t x).ready i = s.ready i := rfl
@[simp] theorem State.byteAt_setTile_keeps (s : State) (t : TileId) (x : Tile) (a' : Nat) : (s.setTile t x).byteAt a' = s.byteAt a' := rfl

/-! ### s.modTile t f -/

@[simp] theorem State.mem_modTile_keeps (s : State) (t : TileId) (f : Tile → Tile) : (s.modTile t f).mem = s.mem := rfl
@[simp] theorem State.poison_modTile_keeps (s : State) (t : TileId) (f : Tile → Tile) : (s.modTile t f).poison = s.poison := rfl
@[simp] theorem State.regs_modTile_keeps (s : State) (t : TileId) (f : Tile → Tile) : (s.modTile t f).regs = s.regs := rfl
@[simp] theorem State.harts_modTile_keeps (s : State) (t : TileId) (f : Tile → Tile) : (s.modTile t f).harts = s.harts := rfl
@[simp] theorem State.running_modTile_keeps (s : State) (t : TileId) (f : Tile → Tile) : (s.modTile t f).running = s.running := rfl
@[simp] theorem State.dirty_modTile_keeps (s : State) (t : TileId) (f : Tile → Tile) : (s.modTile t f).dirty = s.dirty := rfl
@[simp] theorem State.wcb_modTile_keeps (s : State) (t : TileId) (f : Tile → Tile) : (s.modTile t f).wcb = s.wcb := rfl
@[simp] theorem State.ceCount_modTile_keeps (s : State) (t : TileId) (f : Tile → Tile) : (s.modTile t f).ceCount = s.ceCount := rfl
@[simp] theorem State.guard_modTile_keeps (s : State) (t : TileId) (f : Tile → Tile) : (s.modTile t f).guard = s.guard := rfl
@[simp] theorem State.shadow_modTile_keeps (s : State) (t : TileId) (f : Tile → Tile) : (s.modTile t f).shadow = s.shadow := rfl
@[simp] theorem State.heldWrites_modTile_keeps (s : State) (t : TileId) (f : Tile → Tile) : (s.modTile t f).heldWrites = s.heldWrites := rfl
@[simp] theorem State.poolEvent_modTile_keeps (s : State) (t : TileId) (f : Tile → Tile) : (s.modTile t f).poolEvent = s.poolEvent := rfl
@[simp] theorem State.flash_modTile_keeps (s : State) (t : TileId) (f : Tile → Tile) : (s.modTile t f).flash = s.flash := rfl
@[simp] theorem State.flashBytes_modTile_keeps (s : State) (t : TileId) (f : Tile → Tile) : (s.modTile t f).flashBytes = s.flashBytes := rfl
@[simp] theorem State.flashRegion_modTile_keeps (s : State) (t : TileId) (f : Tile → Tile) : (s.modTile t f).flashRegion = s.flashRegion := rfl
@[simp] theorem State.ports_modTile_keeps (s : State) (t : TileId) (f : Tile → Tile) : (s.modTile t f).ports = s.ports := rfl
@[simp] theorem State.reqs_modTile_keeps (s : State) (t : TileId) (f : Tile → Tile) : (s.modTile t f).reqs = s.reqs := rfl
@[simp] theorem State.nextTag_modTile_keeps (s : State) (t : TileId) (f : Tile → Tile) : (s.modTile t f).nextTag = s.nextTag := rfl
@[simp] theorem State.outbox_modTile_keeps (s : State) (t : TileId) (f : Tile → Tile) : (s.modTile t f).outbox = s.outbox := rfl
@[simp] theorem State.cong_modTile_keeps (s : State) (t : TileId) (f : Tile → Tile) : (s.modTile t f).cong = s.cong := rfl
@[simp] theorem State.overflow_modTile_keeps (s : State) (t : TileId) (f : Tile → Tile) : (s.modTile t f).overflow = s.overflow := rfl
@[simp] theorem State.dir_modTile_keeps (s : State) (t : TileId) (f : Tile → Tile) : (s.modTile t f).dir = s.dir := rfl
@[simp] theorem State.dirTrans_modTile_keeps (s : State) (t : TileId) (f : Tile → Tile) : (s.modTile t f).dirTrans = s.dirTrans := rfl
@[simp] theorem State.coh_modTile_keeps (s : State) (t : TileId) (f : Tile → Tile) : (s.modTile t f).coh = s.coh := rfl
@[simp] theorem State.ledger_modTile_keeps (s : State) (t : TileId) (f : Tile → Tile) : (s.modTile t f).ledger = s.ledger := rfl
@[simp] theorem State.replays_modTile_keeps (s : State) (t : TileId) (f : Tile → Tile) : (s.modTile t f).replays = s.replays := rfl
@[simp] theorem State.atomSeq_modTile_keeps (s : State) (t : TileId) (f : Tile → Tile) : (s.modTile t f).atomSeq = s.atomSeq := rfl
@[simp] theorem State.synced_modTile_keeps (s : State) (t : TileId) (f : Tile → Tile) : (s.modTile t f).synced = s.synced := rfl
@[simp] theorem State.mustSync_modTile_keeps (s : State) (t : TileId) (f : Tile → Tile) : (s.modTile t f).mustSync = s.mustSync := rfl
@[simp] theorem State.ctxs_modTile_keeps (s : State) (t : TileId) (f : Tile → Tile) : (s.modTile t f).ctxs = s.ctxs := rfl
@[simp] theorem State.draft_modTile_keeps (s : State) (t : TileId) (f : Tile → Tile) : (s.modTile t f).draft = s.draft := rfl
@[simp] theorem State.resil_modTile_keeps (s : State) (t : TileId) (f : Tile → Tile) : (s.modTile t f).resil = s.resil := rfl
@[simp] theorem State.fw_modTile_keeps (s : State) (t : TileId) (f : Tile → Tile) : (s.modTile t f).fw = s.fw := rfl
@[simp] theorem State.rings_modTile_keeps (s : State) (t : TileId) (f : Tile → Tile) : (s.modTile t f).rings = s.rings := rfl
@[simp] theorem State.hostOut_modTile_keeps (s : State) (t : TileId) (f : Tile → Tile) : (s.modTile t f).hostOut = s.hostOut := rfl
@[simp] theorem State.power_modTile_keeps (s : State) (t : TileId) (f : Tile → Tile) : (s.modTile t f).power = s.power := rfl
@[simp] theorem State.clock_modTile_keeps (s : State) (t : TileId) (f : Tile → Tile) : (s.modTile t f).clock = s.clock := rfl
@[simp] theorem State.free_modTile_keeps (s : State) (t : TileId) (f : Tile → Tile) : (s.modTile t f).free = s.free := rfl
@[simp] theorem State.pending_modTile_keeps (s : State) (t : TileId) (f : Tile → Tile) : (s.modTile t f).pending = s.pending := rfl
@[simp] theorem State.hart_modTile_keeps (s : State) (t : TileId) (f : Tile → Tile) (h' : HartId) : (s.modTile t f).hart h' = s.hart h' := rfl
@[simp] theorem State.port_modTile_keeps (s : State) (t : TileId) (f : Tile → Tile) (p' : PortId) : (s.modTile t f).port p' = s.port p' := rfl
@[simp] theorem State.reg_modTile_keeps (s : State) (t : TileId) (f : Tile → Tile) (o' : Nat) : (s.modTile t f).reg o' = s.reg o' := rfl
@[simp] theorem State.ctx_modTile_keeps (s : State) (t : TileId) (f : Tile → Tile) (c' : CtxId) : (s.modTile t f).ctx c' = s.ctx c' := rfl
@[simp] theorem State.fld_modTile_keeps (s : State) (t : TileId) (f : Tile → Tile) (g : Fld) : (s.modTile t f).fld g = s.fld g := rfl
@[simp] theorem State.bit_modTile_keeps (s : State) (t : TileId) (f : Tile → Tile) (g : Fld) : (s.modTile t f).bit g = s.bit g := rfl
@[simp] theorem State.ready_modTile_keeps (s : State) (t : TileId) (f : Tile → Tile) (i : Nat) : (s.modTile t f).ready i = s.ready i := rfl
@[simp] theorem State.byteAt_modTile_keeps (s : State) (t : TileId) (f : Tile → Tile) (a' : Nat) : (s.modTile t f).byteAt a' = s.byteAt a' := rfl

/-! ### s.setHart h x -/

@[simp] theorem State.mem_setHart_keeps (s : State) (h : HartId) (x : Hart) : (s.setHart h x).mem = s.mem := rfl
@[simp] theorem State.poison_setHart_keeps (s : State) (h : HartId) (x : Hart) : (s.setHart h x).poison = s.poison := rfl
@[simp] theorem State.regs_setHart_keeps (s : State) (h : HartId) (x : Hart) : (s.setHart h x).regs = s.regs := rfl
@[simp] theorem State.tiles_setHart_keeps (s : State) (h : HartId) (x : Hart) : (s.setHart h x).tiles = s.tiles := rfl
@[simp] theorem State.running_setHart_keeps (s : State) (h : HartId) (x : Hart) : (s.setHart h x).running = s.running := rfl
@[simp] theorem State.dirty_setHart_keeps (s : State) (h : HartId) (x : Hart) : (s.setHart h x).dirty = s.dirty := rfl
@[simp] theorem State.wcb_setHart_keeps (s : State) (h : HartId) (x : Hart) : (s.setHart h x).wcb = s.wcb := rfl
@[simp] theorem State.ceCount_setHart_keeps (s : State) (h : HartId) (x : Hart) : (s.setHart h x).ceCount = s.ceCount := rfl
@[simp] theorem State.guard_setHart_keeps (s : State) (h : HartId) (x : Hart) : (s.setHart h x).guard = s.guard := rfl
@[simp] theorem State.shadow_setHart_keeps (s : State) (h : HartId) (x : Hart) : (s.setHart h x).shadow = s.shadow := rfl
@[simp] theorem State.heldWrites_setHart_keeps (s : State) (h : HartId) (x : Hart) : (s.setHart h x).heldWrites = s.heldWrites := rfl
@[simp] theorem State.poolEvent_setHart_keeps (s : State) (h : HartId) (x : Hart) : (s.setHart h x).poolEvent = s.poolEvent := rfl
@[simp] theorem State.flash_setHart_keeps (s : State) (h : HartId) (x : Hart) : (s.setHart h x).flash = s.flash := rfl
@[simp] theorem State.flashBytes_setHart_keeps (s : State) (h : HartId) (x : Hart) : (s.setHart h x).flashBytes = s.flashBytes := rfl
@[simp] theorem State.flashRegion_setHart_keeps (s : State) (h : HartId) (x : Hart) : (s.setHart h x).flashRegion = s.flashRegion := rfl
@[simp] theorem State.ports_setHart_keeps (s : State) (h : HartId) (x : Hart) : (s.setHart h x).ports = s.ports := rfl
@[simp] theorem State.reqs_setHart_keeps (s : State) (h : HartId) (x : Hart) : (s.setHart h x).reqs = s.reqs := rfl
@[simp] theorem State.nextTag_setHart_keeps (s : State) (h : HartId) (x : Hart) : (s.setHart h x).nextTag = s.nextTag := rfl
@[simp] theorem State.outbox_setHart_keeps (s : State) (h : HartId) (x : Hart) : (s.setHart h x).outbox = s.outbox := rfl
@[simp] theorem State.cong_setHart_keeps (s : State) (h : HartId) (x : Hart) : (s.setHart h x).cong = s.cong := rfl
@[simp] theorem State.overflow_setHart_keeps (s : State) (h : HartId) (x : Hart) : (s.setHart h x).overflow = s.overflow := rfl
@[simp] theorem State.dir_setHart_keeps (s : State) (h : HartId) (x : Hart) : (s.setHart h x).dir = s.dir := rfl
@[simp] theorem State.dirTrans_setHart_keeps (s : State) (h : HartId) (x : Hart) : (s.setHart h x).dirTrans = s.dirTrans := rfl
@[simp] theorem State.coh_setHart_keeps (s : State) (h : HartId) (x : Hart) : (s.setHart h x).coh = s.coh := rfl
@[simp] theorem State.ledger_setHart_keeps (s : State) (h : HartId) (x : Hart) : (s.setHart h x).ledger = s.ledger := rfl
@[simp] theorem State.replays_setHart_keeps (s : State) (h : HartId) (x : Hart) : (s.setHart h x).replays = s.replays := rfl
@[simp] theorem State.atomSeq_setHart_keeps (s : State) (h : HartId) (x : Hart) : (s.setHart h x).atomSeq = s.atomSeq := rfl
@[simp] theorem State.synced_setHart_keeps (s : State) (h : HartId) (x : Hart) : (s.setHart h x).synced = s.synced := rfl
@[simp] theorem State.mustSync_setHart_keeps (s : State) (h : HartId) (x : Hart) : (s.setHart h x).mustSync = s.mustSync := rfl
@[simp] theorem State.ctxs_setHart_keeps (s : State) (h : HartId) (x : Hart) : (s.setHart h x).ctxs = s.ctxs := rfl
@[simp] theorem State.draft_setHart_keeps (s : State) (h : HartId) (x : Hart) : (s.setHart h x).draft = s.draft := rfl
@[simp] theorem State.resil_setHart_keeps (s : State) (h : HartId) (x : Hart) : (s.setHart h x).resil = s.resil := rfl
@[simp] theorem State.fw_setHart_keeps (s : State) (h : HartId) (x : Hart) : (s.setHart h x).fw = s.fw := rfl
@[simp] theorem State.rings_setHart_keeps (s : State) (h : HartId) (x : Hart) : (s.setHart h x).rings = s.rings := rfl
@[simp] theorem State.hostOut_setHart_keeps (s : State) (h : HartId) (x : Hart) : (s.setHart h x).hostOut = s.hostOut := rfl
@[simp] theorem State.power_setHart_keeps (s : State) (h : HartId) (x : Hart) : (s.setHart h x).power = s.power := rfl
@[simp] theorem State.clock_setHart_keeps (s : State) (h : HartId) (x : Hart) : (s.setHart h x).clock = s.clock := rfl
@[simp] theorem State.free_setHart_keeps (s : State) (h : HartId) (x : Hart) : (s.setHart h x).free = s.free := rfl
@[simp] theorem State.pending_setHart_keeps (s : State) (h : HartId) (x : Hart) : (s.setHart h x).pending = s.pending := rfl
@[simp] theorem State.tile_setHart_keeps (s : State) (h : HartId) (x : Hart) (t' : TileId) : (s.setHart h x).tile t' = s.tile t' := rfl
@[simp] theorem State.port_setHart_keeps (s : State) (h : HartId) (x : Hart) (p' : PortId) : (s.setHart h x).port p' = s.port p' := rfl
@[simp] theorem State.reg_setHart_keeps (s : State) (h : HartId) (x : Hart) (o' : Nat) : (s.setHart h x).reg o' = s.reg o' := rfl
@[simp] theorem State.ctx_setHart_keeps (s : State) (h : HartId) (x : Hart) (c' : CtxId) : (s.setHart h x).ctx c' = s.ctx c' := rfl
@[simp] theorem State.fld_setHart_keeps (s : State) (h : HartId) (x : Hart) (g : Fld) : (s.setHart h x).fld g = s.fld g := rfl
@[simp] theorem State.bit_setHart_keeps (s : State) (h : HartId) (x : Hart) (g : Fld) : (s.setHart h x).bit g = s.bit g := rfl
@[simp] theorem State.ready_setHart_keeps (s : State) (h : HartId) (x : Hart) (i : Nat) : (s.setHart h x).ready i = s.ready i := rfl
@[simp] theorem State.byteAt_setHart_keeps (s : State) (h : HartId) (x : Hart) (a' : Nat) : (s.setHart h x).byteAt a' = s.byteAt a' := rfl

/-! ### s.modHart h f -/

@[simp] theorem State.mem_modHart_keeps (s : State) (h : HartId) (f : Hart → Hart) : (s.modHart h f).mem = s.mem := rfl
@[simp] theorem State.poison_modHart_keeps (s : State) (h : HartId) (f : Hart → Hart) : (s.modHart h f).poison = s.poison := rfl
@[simp] theorem State.regs_modHart_keeps (s : State) (h : HartId) (f : Hart → Hart) : (s.modHart h f).regs = s.regs := rfl
@[simp] theorem State.tiles_modHart_keeps (s : State) (h : HartId) (f : Hart → Hart) : (s.modHart h f).tiles = s.tiles := rfl
@[simp] theorem State.running_modHart_keeps (s : State) (h : HartId) (f : Hart → Hart) : (s.modHart h f).running = s.running := rfl
@[simp] theorem State.dirty_modHart_keeps (s : State) (h : HartId) (f : Hart → Hart) : (s.modHart h f).dirty = s.dirty := rfl
@[simp] theorem State.wcb_modHart_keeps (s : State) (h : HartId) (f : Hart → Hart) : (s.modHart h f).wcb = s.wcb := rfl
@[simp] theorem State.ceCount_modHart_keeps (s : State) (h : HartId) (f : Hart → Hart) : (s.modHart h f).ceCount = s.ceCount := rfl
@[simp] theorem State.guard_modHart_keeps (s : State) (h : HartId) (f : Hart → Hart) : (s.modHart h f).guard = s.guard := rfl
@[simp] theorem State.shadow_modHart_keeps (s : State) (h : HartId) (f : Hart → Hart) : (s.modHart h f).shadow = s.shadow := rfl
@[simp] theorem State.heldWrites_modHart_keeps (s : State) (h : HartId) (f : Hart → Hart) : (s.modHart h f).heldWrites = s.heldWrites := rfl
@[simp] theorem State.poolEvent_modHart_keeps (s : State) (h : HartId) (f : Hart → Hart) : (s.modHart h f).poolEvent = s.poolEvent := rfl
@[simp] theorem State.flash_modHart_keeps (s : State) (h : HartId) (f : Hart → Hart) : (s.modHart h f).flash = s.flash := rfl
@[simp] theorem State.flashBytes_modHart_keeps (s : State) (h : HartId) (f : Hart → Hart) : (s.modHart h f).flashBytes = s.flashBytes := rfl
@[simp] theorem State.flashRegion_modHart_keeps (s : State) (h : HartId) (f : Hart → Hart) : (s.modHart h f).flashRegion = s.flashRegion := rfl
@[simp] theorem State.ports_modHart_keeps (s : State) (h : HartId) (f : Hart → Hart) : (s.modHart h f).ports = s.ports := rfl
@[simp] theorem State.reqs_modHart_keeps (s : State) (h : HartId) (f : Hart → Hart) : (s.modHart h f).reqs = s.reqs := rfl
@[simp] theorem State.nextTag_modHart_keeps (s : State) (h : HartId) (f : Hart → Hart) : (s.modHart h f).nextTag = s.nextTag := rfl
@[simp] theorem State.outbox_modHart_keeps (s : State) (h : HartId) (f : Hart → Hart) : (s.modHart h f).outbox = s.outbox := rfl
@[simp] theorem State.cong_modHart_keeps (s : State) (h : HartId) (f : Hart → Hart) : (s.modHart h f).cong = s.cong := rfl
@[simp] theorem State.overflow_modHart_keeps (s : State) (h : HartId) (f : Hart → Hart) : (s.modHart h f).overflow = s.overflow := rfl
@[simp] theorem State.dir_modHart_keeps (s : State) (h : HartId) (f : Hart → Hart) : (s.modHart h f).dir = s.dir := rfl
@[simp] theorem State.dirTrans_modHart_keeps (s : State) (h : HartId) (f : Hart → Hart) : (s.modHart h f).dirTrans = s.dirTrans := rfl
@[simp] theorem State.coh_modHart_keeps (s : State) (h : HartId) (f : Hart → Hart) : (s.modHart h f).coh = s.coh := rfl
@[simp] theorem State.ledger_modHart_keeps (s : State) (h : HartId) (f : Hart → Hart) : (s.modHart h f).ledger = s.ledger := rfl
@[simp] theorem State.replays_modHart_keeps (s : State) (h : HartId) (f : Hart → Hart) : (s.modHart h f).replays = s.replays := rfl
@[simp] theorem State.atomSeq_modHart_keeps (s : State) (h : HartId) (f : Hart → Hart) : (s.modHart h f).atomSeq = s.atomSeq := rfl
@[simp] theorem State.synced_modHart_keeps (s : State) (h : HartId) (f : Hart → Hart) : (s.modHart h f).synced = s.synced := rfl
@[simp] theorem State.mustSync_modHart_keeps (s : State) (h : HartId) (f : Hart → Hart) : (s.modHart h f).mustSync = s.mustSync := rfl
@[simp] theorem State.ctxs_modHart_keeps (s : State) (h : HartId) (f : Hart → Hart) : (s.modHart h f).ctxs = s.ctxs := rfl
@[simp] theorem State.draft_modHart_keeps (s : State) (h : HartId) (f : Hart → Hart) : (s.modHart h f).draft = s.draft := rfl
@[simp] theorem State.resil_modHart_keeps (s : State) (h : HartId) (f : Hart → Hart) : (s.modHart h f).resil = s.resil := rfl
@[simp] theorem State.fw_modHart_keeps (s : State) (h : HartId) (f : Hart → Hart) : (s.modHart h f).fw = s.fw := rfl
@[simp] theorem State.rings_modHart_keeps (s : State) (h : HartId) (f : Hart → Hart) : (s.modHart h f).rings = s.rings := rfl
@[simp] theorem State.hostOut_modHart_keeps (s : State) (h : HartId) (f : Hart → Hart) : (s.modHart h f).hostOut = s.hostOut := rfl
@[simp] theorem State.power_modHart_keeps (s : State) (h : HartId) (f : Hart → Hart) : (s.modHart h f).power = s.power := rfl
@[simp] theorem State.clock_modHart_keeps (s : State) (h : HartId) (f : Hart → Hart) : (s.modHart h f).clock = s.clock := rfl
@[simp] theorem State.free_modHart_keeps (s : State) (h : HartId) (f : Hart → Hart) : (s.modHart h f).free = s.free := rfl
@[simp] theorem State.pending_modHart_keeps (s : State) (h : HartId) (f : Hart → Hart) : (s.modHart h f).pending = s.pending := rfl
@[simp] theorem State.tile_modHart_keeps (s : State) (h : HartId) (f : Hart → Hart) (t' : TileId) : (s.modHart h f).tile t' = s.tile t' := rfl
@[simp] theorem State.port_modHart_keeps (s : State) (h : HartId) (f : Hart → Hart) (p' : PortId) : (s.modHart h f).port p' = s.port p' := rfl
@[simp] theorem State.reg_modHart_keeps (s : State) (h : HartId) (f : Hart → Hart) (o' : Nat) : (s.modHart h f).reg o' = s.reg o' := rfl
@[simp] theorem State.ctx_modHart_keeps (s : State) (h : HartId) (f : Hart → Hart) (c' : CtxId) : (s.modHart h f).ctx c' = s.ctx c' := rfl
@[simp] theorem State.fld_modHart_keeps (s : State) (h : HartId) (f : Hart → Hart) (g : Fld) : (s.modHart h f).fld g = s.fld g := rfl
@[simp] theorem State.bit_modHart_keeps (s : State) (h : HartId) (f : Hart → Hart) (g : Fld) : (s.modHart h f).bit g = s.bit g := rfl
@[simp] theorem State.ready_modHart_keeps (s : State) (h : HartId) (f : Hart → Hart) (i : Nat) : (s.modHart h f).ready i = s.ready i := rfl
@[simp] theorem State.byteAt_modHart_keeps (s : State) (h : HartId) (f : Hart → Hart) (a' : Nat) : (s.modHart h f).byteAt a' = s.byteAt a' := rfl

/-! ### s.setPort p x -/

@[simp] theorem State.mem_setPort_keeps (s : State) (p : PortId) (x : Port) : (s.setPort p x).mem = s.mem := rfl
@[simp] theorem State.poison_setPort_keeps (s : State) (p : PortId) (x : Port) : (s.setPort p x).poison = s.poison := rfl
@[simp] theorem State.regs_setPort_keeps (s : State) (p : PortId) (x : Port) : (s.setPort p x).regs = s.regs := rfl
@[simp] theorem State.tiles_setPort_keeps (s : State) (p : PortId) (x : Port) : (s.setPort p x).tiles = s.tiles := rfl
@[simp] theorem State.harts_setPort_keeps (s : State) (p : PortId) (x : Port) : (s.setPort p x).harts = s.harts := rfl
@[simp] theorem State.running_setPort_keeps (s : State) (p : PortId) (x : Port) : (s.setPort p x).running = s.running := rfl
@[simp] theorem State.dirty_setPort_keeps (s : State) (p : PortId) (x : Port) : (s.setPort p x).dirty = s.dirty := rfl
@[simp] theorem State.wcb_setPort_keeps (s : State) (p : PortId) (x : Port) : (s.setPort p x).wcb = s.wcb := rfl
@[simp] theorem State.ceCount_setPort_keeps (s : State) (p : PortId) (x : Port) : (s.setPort p x).ceCount = s.ceCount := rfl
@[simp] theorem State.guard_setPort_keeps (s : State) (p : PortId) (x : Port) : (s.setPort p x).guard = s.guard := rfl
@[simp] theorem State.shadow_setPort_keeps (s : State) (p : PortId) (x : Port) : (s.setPort p x).shadow = s.shadow := rfl
@[simp] theorem State.heldWrites_setPort_keeps (s : State) (p : PortId) (x : Port) : (s.setPort p x).heldWrites = s.heldWrites := rfl
@[simp] theorem State.poolEvent_setPort_keeps (s : State) (p : PortId) (x : Port) : (s.setPort p x).poolEvent = s.poolEvent := rfl
@[simp] theorem State.flash_setPort_keeps (s : State) (p : PortId) (x : Port) : (s.setPort p x).flash = s.flash := rfl
@[simp] theorem State.flashBytes_setPort_keeps (s : State) (p : PortId) (x : Port) : (s.setPort p x).flashBytes = s.flashBytes := rfl
@[simp] theorem State.flashRegion_setPort_keeps (s : State) (p : PortId) (x : Port) : (s.setPort p x).flashRegion = s.flashRegion := rfl
@[simp] theorem State.reqs_setPort_keeps (s : State) (p : PortId) (x : Port) : (s.setPort p x).reqs = s.reqs := rfl
@[simp] theorem State.nextTag_setPort_keeps (s : State) (p : PortId) (x : Port) : (s.setPort p x).nextTag = s.nextTag := rfl
@[simp] theorem State.outbox_setPort_keeps (s : State) (p : PortId) (x : Port) : (s.setPort p x).outbox = s.outbox := rfl
@[simp] theorem State.cong_setPort_keeps (s : State) (p : PortId) (x : Port) : (s.setPort p x).cong = s.cong := rfl
@[simp] theorem State.overflow_setPort_keeps (s : State) (p : PortId) (x : Port) : (s.setPort p x).overflow = s.overflow := rfl
@[simp] theorem State.dir_setPort_keeps (s : State) (p : PortId) (x : Port) : (s.setPort p x).dir = s.dir := rfl
@[simp] theorem State.dirTrans_setPort_keeps (s : State) (p : PortId) (x : Port) : (s.setPort p x).dirTrans = s.dirTrans := rfl
@[simp] theorem State.coh_setPort_keeps (s : State) (p : PortId) (x : Port) : (s.setPort p x).coh = s.coh := rfl
@[simp] theorem State.ledger_setPort_keeps (s : State) (p : PortId) (x : Port) : (s.setPort p x).ledger = s.ledger := rfl
@[simp] theorem State.replays_setPort_keeps (s : State) (p : PortId) (x : Port) : (s.setPort p x).replays = s.replays := rfl
@[simp] theorem State.atomSeq_setPort_keeps (s : State) (p : PortId) (x : Port) : (s.setPort p x).atomSeq = s.atomSeq := rfl
@[simp] theorem State.synced_setPort_keeps (s : State) (p : PortId) (x : Port) : (s.setPort p x).synced = s.synced := rfl
@[simp] theorem State.mustSync_setPort_keeps (s : State) (p : PortId) (x : Port) : (s.setPort p x).mustSync = s.mustSync := rfl
@[simp] theorem State.ctxs_setPort_keeps (s : State) (p : PortId) (x : Port) : (s.setPort p x).ctxs = s.ctxs := rfl
@[simp] theorem State.draft_setPort_keeps (s : State) (p : PortId) (x : Port) : (s.setPort p x).draft = s.draft := rfl
@[simp] theorem State.resil_setPort_keeps (s : State) (p : PortId) (x : Port) : (s.setPort p x).resil = s.resil := rfl
@[simp] theorem State.fw_setPort_keeps (s : State) (p : PortId) (x : Port) : (s.setPort p x).fw = s.fw := rfl
@[simp] theorem State.rings_setPort_keeps (s : State) (p : PortId) (x : Port) : (s.setPort p x).rings = s.rings := rfl
@[simp] theorem State.hostOut_setPort_keeps (s : State) (p : PortId) (x : Port) : (s.setPort p x).hostOut = s.hostOut := rfl
@[simp] theorem State.power_setPort_keeps (s : State) (p : PortId) (x : Port) : (s.setPort p x).power = s.power := rfl
@[simp] theorem State.clock_setPort_keeps (s : State) (p : PortId) (x : Port) : (s.setPort p x).clock = s.clock := rfl
@[simp] theorem State.free_setPort_keeps (s : State) (p : PortId) (x : Port) : (s.setPort p x).free = s.free := rfl
@[simp] theorem State.pending_setPort_keeps (s : State) (p : PortId) (x : Port) : (s.setPort p x).pending = s.pending := rfl
@[simp] theorem State.tile_setPort_keeps (s : State) (p : PortId) (x : Port) (t' : TileId) : (s.setPort p x).tile t' = s.tile t' := rfl
@[simp] theorem State.hart_setPort_keeps (s : State) (p : PortId) (x : Port) (h' : HartId) : (s.setPort p x).hart h' = s.hart h' := rfl
@[simp] theorem State.reg_setPort_keeps (s : State) (p : PortId) (x : Port) (o' : Nat) : (s.setPort p x).reg o' = s.reg o' := rfl
@[simp] theorem State.ctx_setPort_keeps (s : State) (p : PortId) (x : Port) (c' : CtxId) : (s.setPort p x).ctx c' = s.ctx c' := rfl
@[simp] theorem State.fld_setPort_keeps (s : State) (p : PortId) (x : Port) (g : Fld) : (s.setPort p x).fld g = s.fld g := rfl
@[simp] theorem State.bit_setPort_keeps (s : State) (p : PortId) (x : Port) (g : Fld) : (s.setPort p x).bit g = s.bit g := rfl
@[simp] theorem State.ready_setPort_keeps (s : State) (p : PortId) (x : Port) (i : Nat) : (s.setPort p x).ready i = s.ready i := rfl
@[simp] theorem State.byteAt_setPort_keeps (s : State) (p : PortId) (x : Port) (a' : Nat) : (s.setPort p x).byteAt a' = s.byteAt a' := rfl

/-! ### s.modPort p f -/

@[simp] theorem State.mem_modPort_keeps (s : State) (p : PortId) (f : Port → Port) : (s.modPort p f).mem = s.mem := rfl
@[simp] theorem State.poison_modPort_keeps (s : State) (p : PortId) (f : Port → Port) : (s.modPort p f).poison = s.poison := rfl
@[simp] theorem State.regs_modPort_keeps (s : State) (p : PortId) (f : Port → Port) : (s.modPort p f).regs = s.regs := rfl
@[simp] theorem State.tiles_modPort_keeps (s : State) (p : PortId) (f : Port → Port) : (s.modPort p f).tiles = s.tiles := rfl
@[simp] theorem State.harts_modPort_keeps (s : State) (p : PortId) (f : Port → Port) : (s.modPort p f).harts = s.harts := rfl
@[simp] theorem State.running_modPort_keeps (s : State) (p : PortId) (f : Port → Port) : (s.modPort p f).running = s.running := rfl
@[simp] theorem State.dirty_modPort_keeps (s : State) (p : PortId) (f : Port → Port) : (s.modPort p f).dirty = s.dirty := rfl
@[simp] theorem State.wcb_modPort_keeps (s : State) (p : PortId) (f : Port → Port) : (s.modPort p f).wcb = s.wcb := rfl
@[simp] theorem State.ceCount_modPort_keeps (s : State) (p : PortId) (f : Port → Port) : (s.modPort p f).ceCount = s.ceCount := rfl
@[simp] theorem State.guard_modPort_keeps (s : State) (p : PortId) (f : Port → Port) : (s.modPort p f).guard = s.guard := rfl
@[simp] theorem State.shadow_modPort_keeps (s : State) (p : PortId) (f : Port → Port) : (s.modPort p f).shadow = s.shadow := rfl
@[simp] theorem State.heldWrites_modPort_keeps (s : State) (p : PortId) (f : Port → Port) : (s.modPort p f).heldWrites = s.heldWrites := rfl
@[simp] theorem State.poolEvent_modPort_keeps (s : State) (p : PortId) (f : Port → Port) : (s.modPort p f).poolEvent = s.poolEvent := rfl
@[simp] theorem State.flash_modPort_keeps (s : State) (p : PortId) (f : Port → Port) : (s.modPort p f).flash = s.flash := rfl
@[simp] theorem State.flashBytes_modPort_keeps (s : State) (p : PortId) (f : Port → Port) : (s.modPort p f).flashBytes = s.flashBytes := rfl
@[simp] theorem State.flashRegion_modPort_keeps (s : State) (p : PortId) (f : Port → Port) : (s.modPort p f).flashRegion = s.flashRegion := rfl
@[simp] theorem State.reqs_modPort_keeps (s : State) (p : PortId) (f : Port → Port) : (s.modPort p f).reqs = s.reqs := rfl
@[simp] theorem State.nextTag_modPort_keeps (s : State) (p : PortId) (f : Port → Port) : (s.modPort p f).nextTag = s.nextTag := rfl
@[simp] theorem State.outbox_modPort_keeps (s : State) (p : PortId) (f : Port → Port) : (s.modPort p f).outbox = s.outbox := rfl
@[simp] theorem State.cong_modPort_keeps (s : State) (p : PortId) (f : Port → Port) : (s.modPort p f).cong = s.cong := rfl
@[simp] theorem State.overflow_modPort_keeps (s : State) (p : PortId) (f : Port → Port) : (s.modPort p f).overflow = s.overflow := rfl
@[simp] theorem State.dir_modPort_keeps (s : State) (p : PortId) (f : Port → Port) : (s.modPort p f).dir = s.dir := rfl
@[simp] theorem State.dirTrans_modPort_keeps (s : State) (p : PortId) (f : Port → Port) : (s.modPort p f).dirTrans = s.dirTrans := rfl
@[simp] theorem State.coh_modPort_keeps (s : State) (p : PortId) (f : Port → Port) : (s.modPort p f).coh = s.coh := rfl
@[simp] theorem State.ledger_modPort_keeps (s : State) (p : PortId) (f : Port → Port) : (s.modPort p f).ledger = s.ledger := rfl
@[simp] theorem State.replays_modPort_keeps (s : State) (p : PortId) (f : Port → Port) : (s.modPort p f).replays = s.replays := rfl
@[simp] theorem State.atomSeq_modPort_keeps (s : State) (p : PortId) (f : Port → Port) : (s.modPort p f).atomSeq = s.atomSeq := rfl
@[simp] theorem State.synced_modPort_keeps (s : State) (p : PortId) (f : Port → Port) : (s.modPort p f).synced = s.synced := rfl
@[simp] theorem State.mustSync_modPort_keeps (s : State) (p : PortId) (f : Port → Port) : (s.modPort p f).mustSync = s.mustSync := rfl
@[simp] theorem State.ctxs_modPort_keeps (s : State) (p : PortId) (f : Port → Port) : (s.modPort p f).ctxs = s.ctxs := rfl
@[simp] theorem State.draft_modPort_keeps (s : State) (p : PortId) (f : Port → Port) : (s.modPort p f).draft = s.draft := rfl
@[simp] theorem State.resil_modPort_keeps (s : State) (p : PortId) (f : Port → Port) : (s.modPort p f).resil = s.resil := rfl
@[simp] theorem State.fw_modPort_keeps (s : State) (p : PortId) (f : Port → Port) : (s.modPort p f).fw = s.fw := rfl
@[simp] theorem State.rings_modPort_keeps (s : State) (p : PortId) (f : Port → Port) : (s.modPort p f).rings = s.rings := rfl
@[simp] theorem State.hostOut_modPort_keeps (s : State) (p : PortId) (f : Port → Port) : (s.modPort p f).hostOut = s.hostOut := rfl
@[simp] theorem State.power_modPort_keeps (s : State) (p : PortId) (f : Port → Port) : (s.modPort p f).power = s.power := rfl
@[simp] theorem State.clock_modPort_keeps (s : State) (p : PortId) (f : Port → Port) : (s.modPort p f).clock = s.clock := rfl
@[simp] theorem State.free_modPort_keeps (s : State) (p : PortId) (f : Port → Port) : (s.modPort p f).free = s.free := rfl
@[simp] theorem State.pending_modPort_keeps (s : State) (p : PortId) (f : Port → Port) : (s.modPort p f).pending = s.pending := rfl
@[simp] theorem State.tile_modPort_keeps (s : State) (p : PortId) (f : Port → Port) (t' : TileId) : (s.modPort p f).tile t' = s.tile t' := rfl
@[simp] theorem State.hart_modPort_keeps (s : State) (p : PortId) (f : Port → Port) (h' : HartId) : (s.modPort p f).hart h' = s.hart h' := rfl
@[simp] theorem State.reg_modPort_keeps (s : State) (p : PortId) (f : Port → Port) (o' : Nat) : (s.modPort p f).reg o' = s.reg o' := rfl
@[simp] theorem State.ctx_modPort_keeps (s : State) (p : PortId) (f : Port → Port) (c' : CtxId) : (s.modPort p f).ctx c' = s.ctx c' := rfl
@[simp] theorem State.fld_modPort_keeps (s : State) (p : PortId) (f : Port → Port) (g : Fld) : (s.modPort p f).fld g = s.fld g := rfl
@[simp] theorem State.bit_modPort_keeps (s : State) (p : PortId) (f : Port → Port) (g : Fld) : (s.modPort p f).bit g = s.bit g := rfl
@[simp] theorem State.ready_modPort_keeps (s : State) (p : PortId) (f : Port → Port) (i : Nat) : (s.modPort p f).ready i = s.ready i := rfl
@[simp] theorem State.byteAt_modPort_keeps (s : State) (p : PortId) (f : Port → Port) (a' : Nat) : (s.modPort p f).byteAt a' = s.byteAt a' := rfl

/-! ### s.setCtx c x -/

@[simp] theorem State.mem_setCtx_keeps (s : State) (c : CtxId) (x : Ctx) : (s.setCtx c x).mem = s.mem := rfl
@[simp] theorem State.poison_setCtx_keeps (s : State) (c : CtxId) (x : Ctx) : (s.setCtx c x).poison = s.poison := rfl
@[simp] theorem State.regs_setCtx_keeps (s : State) (c : CtxId) (x : Ctx) : (s.setCtx c x).regs = s.regs := rfl
@[simp] theorem State.tiles_setCtx_keeps (s : State) (c : CtxId) (x : Ctx) : (s.setCtx c x).tiles = s.tiles := rfl
@[simp] theorem State.harts_setCtx_keeps (s : State) (c : CtxId) (x : Ctx) : (s.setCtx c x).harts = s.harts := rfl
@[simp] theorem State.running_setCtx_keeps (s : State) (c : CtxId) (x : Ctx) : (s.setCtx c x).running = s.running := rfl
@[simp] theorem State.dirty_setCtx_keeps (s : State) (c : CtxId) (x : Ctx) : (s.setCtx c x).dirty = s.dirty := rfl
@[simp] theorem State.wcb_setCtx_keeps (s : State) (c : CtxId) (x : Ctx) : (s.setCtx c x).wcb = s.wcb := rfl
@[simp] theorem State.ceCount_setCtx_keeps (s : State) (c : CtxId) (x : Ctx) : (s.setCtx c x).ceCount = s.ceCount := rfl
@[simp] theorem State.guard_setCtx_keeps (s : State) (c : CtxId) (x : Ctx) : (s.setCtx c x).guard = s.guard := rfl
@[simp] theorem State.shadow_setCtx_keeps (s : State) (c : CtxId) (x : Ctx) : (s.setCtx c x).shadow = s.shadow := rfl
@[simp] theorem State.heldWrites_setCtx_keeps (s : State) (c : CtxId) (x : Ctx) : (s.setCtx c x).heldWrites = s.heldWrites := rfl
@[simp] theorem State.poolEvent_setCtx_keeps (s : State) (c : CtxId) (x : Ctx) : (s.setCtx c x).poolEvent = s.poolEvent := rfl
@[simp] theorem State.flash_setCtx_keeps (s : State) (c : CtxId) (x : Ctx) : (s.setCtx c x).flash = s.flash := rfl
@[simp] theorem State.flashBytes_setCtx_keeps (s : State) (c : CtxId) (x : Ctx) : (s.setCtx c x).flashBytes = s.flashBytes := rfl
@[simp] theorem State.flashRegion_setCtx_keeps (s : State) (c : CtxId) (x : Ctx) : (s.setCtx c x).flashRegion = s.flashRegion := rfl
@[simp] theorem State.ports_setCtx_keeps (s : State) (c : CtxId) (x : Ctx) : (s.setCtx c x).ports = s.ports := rfl
@[simp] theorem State.reqs_setCtx_keeps (s : State) (c : CtxId) (x : Ctx) : (s.setCtx c x).reqs = s.reqs := rfl
@[simp] theorem State.nextTag_setCtx_keeps (s : State) (c : CtxId) (x : Ctx) : (s.setCtx c x).nextTag = s.nextTag := rfl
@[simp] theorem State.outbox_setCtx_keeps (s : State) (c : CtxId) (x : Ctx) : (s.setCtx c x).outbox = s.outbox := rfl
@[simp] theorem State.cong_setCtx_keeps (s : State) (c : CtxId) (x : Ctx) : (s.setCtx c x).cong = s.cong := rfl
@[simp] theorem State.overflow_setCtx_keeps (s : State) (c : CtxId) (x : Ctx) : (s.setCtx c x).overflow = s.overflow := rfl
@[simp] theorem State.dir_setCtx_keeps (s : State) (c : CtxId) (x : Ctx) : (s.setCtx c x).dir = s.dir := rfl
@[simp] theorem State.dirTrans_setCtx_keeps (s : State) (c : CtxId) (x : Ctx) : (s.setCtx c x).dirTrans = s.dirTrans := rfl
@[simp] theorem State.coh_setCtx_keeps (s : State) (c : CtxId) (x : Ctx) : (s.setCtx c x).coh = s.coh := rfl
@[simp] theorem State.ledger_setCtx_keeps (s : State) (c : CtxId) (x : Ctx) : (s.setCtx c x).ledger = s.ledger := rfl
@[simp] theorem State.replays_setCtx_keeps (s : State) (c : CtxId) (x : Ctx) : (s.setCtx c x).replays = s.replays := rfl
@[simp] theorem State.atomSeq_setCtx_keeps (s : State) (c : CtxId) (x : Ctx) : (s.setCtx c x).atomSeq = s.atomSeq := rfl
@[simp] theorem State.synced_setCtx_keeps (s : State) (c : CtxId) (x : Ctx) : (s.setCtx c x).synced = s.synced := rfl
@[simp] theorem State.mustSync_setCtx_keeps (s : State) (c : CtxId) (x : Ctx) : (s.setCtx c x).mustSync = s.mustSync := rfl
@[simp] theorem State.draft_setCtx_keeps (s : State) (c : CtxId) (x : Ctx) : (s.setCtx c x).draft = s.draft := rfl
@[simp] theorem State.resil_setCtx_keeps (s : State) (c : CtxId) (x : Ctx) : (s.setCtx c x).resil = s.resil := rfl
@[simp] theorem State.fw_setCtx_keeps (s : State) (c : CtxId) (x : Ctx) : (s.setCtx c x).fw = s.fw := rfl
@[simp] theorem State.rings_setCtx_keeps (s : State) (c : CtxId) (x : Ctx) : (s.setCtx c x).rings = s.rings := rfl
@[simp] theorem State.hostOut_setCtx_keeps (s : State) (c : CtxId) (x : Ctx) : (s.setCtx c x).hostOut = s.hostOut := rfl
@[simp] theorem State.power_setCtx_keeps (s : State) (c : CtxId) (x : Ctx) : (s.setCtx c x).power = s.power := rfl
@[simp] theorem State.clock_setCtx_keeps (s : State) (c : CtxId) (x : Ctx) : (s.setCtx c x).clock = s.clock := rfl
@[simp] theorem State.free_setCtx_keeps (s : State) (c : CtxId) (x : Ctx) : (s.setCtx c x).free = s.free := rfl
@[simp] theorem State.pending_setCtx_keeps (s : State) (c : CtxId) (x : Ctx) : (s.setCtx c x).pending = s.pending := rfl
@[simp] theorem State.tile_setCtx_keeps (s : State) (c : CtxId) (x : Ctx) (t' : TileId) : (s.setCtx c x).tile t' = s.tile t' := rfl
@[simp] theorem State.hart_setCtx_keeps (s : State) (c : CtxId) (x : Ctx) (h' : HartId) : (s.setCtx c x).hart h' = s.hart h' := rfl
@[simp] theorem State.port_setCtx_keeps (s : State) (c : CtxId) (x : Ctx) (p' : PortId) : (s.setCtx c x).port p' = s.port p' := rfl
@[simp] theorem State.reg_setCtx_keeps (s : State) (c : CtxId) (x : Ctx) (o' : Nat) : (s.setCtx c x).reg o' = s.reg o' := rfl
@[simp] theorem State.fld_setCtx_keeps (s : State) (c : CtxId) (x : Ctx) (g : Fld) : (s.setCtx c x).fld g = s.fld g := rfl
@[simp] theorem State.bit_setCtx_keeps (s : State) (c : CtxId) (x : Ctx) (g : Fld) : (s.setCtx c x).bit g = s.bit g := rfl
@[simp] theorem State.ready_setCtx_keeps (s : State) (c : CtxId) (x : Ctx) (i : Nat) : (s.setCtx c x).ready i = s.ready i := rfl
@[simp] theorem State.byteAt_setCtx_keeps (s : State) (c : CtxId) (x : Ctx) (a' : Nat) : (s.setCtx c x).byteAt a' = s.byteAt a' := rfl

/-! ### s.setWcb c l -/

@[simp] theorem State.mem_setWcb_keeps (s : State) (c : CtrlId) (l : List WcbEntry) : (s.setWcb c l).mem = s.mem := rfl
@[simp] theorem State.poison_setWcb_keeps (s : State) (c : CtrlId) (l : List WcbEntry) : (s.setWcb c l).poison = s.poison := rfl
@[simp] theorem State.regs_setWcb_keeps (s : State) (c : CtrlId) (l : List WcbEntry) : (s.setWcb c l).regs = s.regs := rfl
@[simp] theorem State.tiles_setWcb_keeps (s : State) (c : CtrlId) (l : List WcbEntry) : (s.setWcb c l).tiles = s.tiles := rfl
@[simp] theorem State.harts_setWcb_keeps (s : State) (c : CtrlId) (l : List WcbEntry) : (s.setWcb c l).harts = s.harts := rfl
@[simp] theorem State.running_setWcb_keeps (s : State) (c : CtrlId) (l : List WcbEntry) : (s.setWcb c l).running = s.running := rfl
@[simp] theorem State.dirty_setWcb_keeps (s : State) (c : CtrlId) (l : List WcbEntry) : (s.setWcb c l).dirty = s.dirty := rfl
@[simp] theorem State.ceCount_setWcb_keeps (s : State) (c : CtrlId) (l : List WcbEntry) : (s.setWcb c l).ceCount = s.ceCount := rfl
@[simp] theorem State.guard_setWcb_keeps (s : State) (c : CtrlId) (l : List WcbEntry) : (s.setWcb c l).guard = s.guard := rfl
@[simp] theorem State.shadow_setWcb_keeps (s : State) (c : CtrlId) (l : List WcbEntry) : (s.setWcb c l).shadow = s.shadow := rfl
@[simp] theorem State.heldWrites_setWcb_keeps (s : State) (c : CtrlId) (l : List WcbEntry) : (s.setWcb c l).heldWrites = s.heldWrites := rfl
@[simp] theorem State.poolEvent_setWcb_keeps (s : State) (c : CtrlId) (l : List WcbEntry) : (s.setWcb c l).poolEvent = s.poolEvent := rfl
@[simp] theorem State.flash_setWcb_keeps (s : State) (c : CtrlId) (l : List WcbEntry) : (s.setWcb c l).flash = s.flash := rfl
@[simp] theorem State.flashBytes_setWcb_keeps (s : State) (c : CtrlId) (l : List WcbEntry) : (s.setWcb c l).flashBytes = s.flashBytes := rfl
@[simp] theorem State.flashRegion_setWcb_keeps (s : State) (c : CtrlId) (l : List WcbEntry) : (s.setWcb c l).flashRegion = s.flashRegion := rfl
@[simp] theorem State.ports_setWcb_keeps (s : State) (c : CtrlId) (l : List WcbEntry) : (s.setWcb c l).ports = s.ports := rfl
@[simp] theorem State.reqs_setWcb_keeps (s : State) (c : CtrlId) (l : List WcbEntry) : (s.setWcb c l).reqs = s.reqs := rfl
@[simp] theorem State.nextTag_setWcb_keeps (s : State) (c : CtrlId) (l : List WcbEntry) : (s.setWcb c l).nextTag = s.nextTag := rfl
@[simp] theorem State.outbox_setWcb_keeps (s : State) (c : CtrlId) (l : List WcbEntry) : (s.setWcb c l).outbox = s.outbox := rfl
@[simp] theorem State.cong_setWcb_keeps (s : State) (c : CtrlId) (l : List WcbEntry) : (s.setWcb c l).cong = s.cong := rfl
@[simp] theorem State.overflow_setWcb_keeps (s : State) (c : CtrlId) (l : List WcbEntry) : (s.setWcb c l).overflow = s.overflow := rfl
@[simp] theorem State.dir_setWcb_keeps (s : State) (c : CtrlId) (l : List WcbEntry) : (s.setWcb c l).dir = s.dir := rfl
@[simp] theorem State.dirTrans_setWcb_keeps (s : State) (c : CtrlId) (l : List WcbEntry) : (s.setWcb c l).dirTrans = s.dirTrans := rfl
@[simp] theorem State.coh_setWcb_keeps (s : State) (c : CtrlId) (l : List WcbEntry) : (s.setWcb c l).coh = s.coh := rfl
@[simp] theorem State.ledger_setWcb_keeps (s : State) (c : CtrlId) (l : List WcbEntry) : (s.setWcb c l).ledger = s.ledger := rfl
@[simp] theorem State.replays_setWcb_keeps (s : State) (c : CtrlId) (l : List WcbEntry) : (s.setWcb c l).replays = s.replays := rfl
@[simp] theorem State.atomSeq_setWcb_keeps (s : State) (c : CtrlId) (l : List WcbEntry) : (s.setWcb c l).atomSeq = s.atomSeq := rfl
@[simp] theorem State.synced_setWcb_keeps (s : State) (c : CtrlId) (l : List WcbEntry) : (s.setWcb c l).synced = s.synced := rfl
@[simp] theorem State.mustSync_setWcb_keeps (s : State) (c : CtrlId) (l : List WcbEntry) : (s.setWcb c l).mustSync = s.mustSync := rfl
@[simp] theorem State.ctxs_setWcb_keeps (s : State) (c : CtrlId) (l : List WcbEntry) : (s.setWcb c l).ctxs = s.ctxs := rfl
@[simp] theorem State.draft_setWcb_keeps (s : State) (c : CtrlId) (l : List WcbEntry) : (s.setWcb c l).draft = s.draft := rfl
@[simp] theorem State.resil_setWcb_keeps (s : State) (c : CtrlId) (l : List WcbEntry) : (s.setWcb c l).resil = s.resil := rfl
@[simp] theorem State.fw_setWcb_keeps (s : State) (c : CtrlId) (l : List WcbEntry) : (s.setWcb c l).fw = s.fw := rfl
@[simp] theorem State.rings_setWcb_keeps (s : State) (c : CtrlId) (l : List WcbEntry) : (s.setWcb c l).rings = s.rings := rfl
@[simp] theorem State.hostOut_setWcb_keeps (s : State) (c : CtrlId) (l : List WcbEntry) : (s.setWcb c l).hostOut = s.hostOut := rfl
@[simp] theorem State.power_setWcb_keeps (s : State) (c : CtrlId) (l : List WcbEntry) : (s.setWcb c l).power = s.power := rfl
@[simp] theorem State.clock_setWcb_keeps (s : State) (c : CtrlId) (l : List WcbEntry) : (s.setWcb c l).clock = s.clock := rfl
@[simp] theorem State.free_setWcb_keeps (s : State) (c : CtrlId) (l : List WcbEntry) : (s.setWcb c l).free = s.free := rfl
@[simp] theorem State.pending_setWcb_keeps (s : State) (c : CtrlId) (l : List WcbEntry) : (s.setWcb c l).pending = s.pending := rfl
@[simp] theorem State.tile_setWcb_keeps (s : State) (c : CtrlId) (l : List WcbEntry) (t' : TileId) : (s.setWcb c l).tile t' = s.tile t' := rfl
@[simp] theorem State.hart_setWcb_keeps (s : State) (c : CtrlId) (l : List WcbEntry) (h' : HartId) : (s.setWcb c l).hart h' = s.hart h' := rfl
@[simp] theorem State.port_setWcb_keeps (s : State) (c : CtrlId) (l : List WcbEntry) (p' : PortId) : (s.setWcb c l).port p' = s.port p' := rfl
@[simp] theorem State.reg_setWcb_keeps (s : State) (c : CtrlId) (l : List WcbEntry) (o' : Nat) : (s.setWcb c l).reg o' = s.reg o' := rfl
@[simp] theorem State.ctx_setWcb_keeps (s : State) (c : CtrlId) (l : List WcbEntry) (c' : CtxId) : (s.setWcb c l).ctx c' = s.ctx c' := rfl
@[simp] theorem State.fld_setWcb_keeps (s : State) (c : CtrlId) (l : List WcbEntry) (g : Fld) : (s.setWcb c l).fld g = s.fld g := rfl
@[simp] theorem State.bit_setWcb_keeps (s : State) (c : CtrlId) (l : List WcbEntry) (g : Fld) : (s.setWcb c l).bit g = s.bit g := rfl
@[simp] theorem State.ready_setWcb_keeps (s : State) (c : CtrlId) (l : List WcbEntry) (i : Nat) : (s.setWcb c l).ready i = s.ready i := rfl

/-! ### s.send m -/

@[simp] theorem State.mem_send_keeps (s : State) (m : OutMsg) : (s.send m).mem = s.mem := rfl
@[simp] theorem State.poison_send_keeps (s : State) (m : OutMsg) : (s.send m).poison = s.poison := rfl
@[simp] theorem State.regs_send_keeps (s : State) (m : OutMsg) : (s.send m).regs = s.regs := rfl
@[simp] theorem State.tiles_send_keeps (s : State) (m : OutMsg) : (s.send m).tiles = s.tiles := rfl
@[simp] theorem State.harts_send_keeps (s : State) (m : OutMsg) : (s.send m).harts = s.harts := rfl
@[simp] theorem State.running_send_keeps (s : State) (m : OutMsg) : (s.send m).running = s.running := rfl
@[simp] theorem State.dirty_send_keeps (s : State) (m : OutMsg) : (s.send m).dirty = s.dirty := rfl
@[simp] theorem State.wcb_send_keeps (s : State) (m : OutMsg) : (s.send m).wcb = s.wcb := rfl
@[simp] theorem State.ceCount_send_keeps (s : State) (m : OutMsg) : (s.send m).ceCount = s.ceCount := rfl
@[simp] theorem State.guard_send_keeps (s : State) (m : OutMsg) : (s.send m).guard = s.guard := rfl
@[simp] theorem State.shadow_send_keeps (s : State) (m : OutMsg) : (s.send m).shadow = s.shadow := rfl
@[simp] theorem State.heldWrites_send_keeps (s : State) (m : OutMsg) : (s.send m).heldWrites = s.heldWrites := rfl
@[simp] theorem State.poolEvent_send_keeps (s : State) (m : OutMsg) : (s.send m).poolEvent = s.poolEvent := rfl
@[simp] theorem State.flash_send_keeps (s : State) (m : OutMsg) : (s.send m).flash = s.flash := rfl
@[simp] theorem State.flashBytes_send_keeps (s : State) (m : OutMsg) : (s.send m).flashBytes = s.flashBytes := rfl
@[simp] theorem State.flashRegion_send_keeps (s : State) (m : OutMsg) : (s.send m).flashRegion = s.flashRegion := rfl
@[simp] theorem State.ports_send_keeps (s : State) (m : OutMsg) : (s.send m).ports = s.ports := rfl
@[simp] theorem State.reqs_send_keeps (s : State) (m : OutMsg) : (s.send m).reqs = s.reqs := rfl
@[simp] theorem State.nextTag_send_keeps (s : State) (m : OutMsg) : (s.send m).nextTag = s.nextTag := rfl
@[simp] theorem State.cong_send_keeps (s : State) (m : OutMsg) : (s.send m).cong = s.cong := rfl
@[simp] theorem State.overflow_send_keeps (s : State) (m : OutMsg) : (s.send m).overflow = s.overflow := rfl
@[simp] theorem State.dir_send_keeps (s : State) (m : OutMsg) : (s.send m).dir = s.dir := rfl
@[simp] theorem State.dirTrans_send_keeps (s : State) (m : OutMsg) : (s.send m).dirTrans = s.dirTrans := rfl
@[simp] theorem State.coh_send_keeps (s : State) (m : OutMsg) : (s.send m).coh = s.coh := rfl
@[simp] theorem State.ledger_send_keeps (s : State) (m : OutMsg) : (s.send m).ledger = s.ledger := rfl
@[simp] theorem State.replays_send_keeps (s : State) (m : OutMsg) : (s.send m).replays = s.replays := rfl
@[simp] theorem State.atomSeq_send_keeps (s : State) (m : OutMsg) : (s.send m).atomSeq = s.atomSeq := rfl
@[simp] theorem State.synced_send_keeps (s : State) (m : OutMsg) : (s.send m).synced = s.synced := rfl
@[simp] theorem State.mustSync_send_keeps (s : State) (m : OutMsg) : (s.send m).mustSync = s.mustSync := rfl
@[simp] theorem State.ctxs_send_keeps (s : State) (m : OutMsg) : (s.send m).ctxs = s.ctxs := rfl
@[simp] theorem State.draft_send_keeps (s : State) (m : OutMsg) : (s.send m).draft = s.draft := rfl
@[simp] theorem State.resil_send_keeps (s : State) (m : OutMsg) : (s.send m).resil = s.resil := rfl
@[simp] theorem State.fw_send_keeps (s : State) (m : OutMsg) : (s.send m).fw = s.fw := rfl
@[simp] theorem State.rings_send_keeps (s : State) (m : OutMsg) : (s.send m).rings = s.rings := rfl
@[simp] theorem State.hostOut_send_keeps (s : State) (m : OutMsg) : (s.send m).hostOut = s.hostOut := rfl
@[simp] theorem State.power_send_keeps (s : State) (m : OutMsg) : (s.send m).power = s.power := rfl
@[simp] theorem State.clock_send_keeps (s : State) (m : OutMsg) : (s.send m).clock = s.clock := rfl
@[simp] theorem State.free_send_keeps (s : State) (m : OutMsg) : (s.send m).free = s.free := rfl
@[simp] theorem State.pending_send_keeps (s : State) (m : OutMsg) : (s.send m).pending = s.pending := rfl
@[simp] theorem State.tile_send_keeps (s : State) (m : OutMsg) (t' : TileId) : (s.send m).tile t' = s.tile t' := rfl
@[simp] theorem State.hart_send_keeps (s : State) (m : OutMsg) (h' : HartId) : (s.send m).hart h' = s.hart h' := rfl
@[simp] theorem State.port_send_keeps (s : State) (m : OutMsg) (p' : PortId) : (s.send m).port p' = s.port p' := rfl
@[simp] theorem State.reg_send_keeps (s : State) (m : OutMsg) (o' : Nat) : (s.send m).reg o' = s.reg o' := rfl
@[simp] theorem State.ctx_send_keeps (s : State) (m : OutMsg) (c' : CtxId) : (s.send m).ctx c' = s.ctx c' := rfl
@[simp] theorem State.fld_send_keeps (s : State) (m : OutMsg) (g : Fld) : (s.send m).fld g = s.fld g := rfl
@[simp] theorem State.bit_send_keeps (s : State) (m : OutMsg) (g : Fld) : (s.send m).bit g = s.bit g := rfl
@[simp] theorem State.ready_send_keeps (s : State) (m : OutMsg) (i : Nat) : (s.send m).ready i = s.ready i := rfl
@[simp] theorem State.byteAt_send_keeps (s : State) (m : OutMsg) (a' : Nat) : (s.send m).byteAt a' = s.byteAt a' := rfl

/-! ### s.at_ now -/

@[simp] theorem State.mem_at_keeps (s : State) (now : BitVec 64) : (s.at_ now).mem = s.mem := rfl
@[simp] theorem State.poison_at_keeps (s : State) (now : BitVec 64) : (s.at_ now).poison = s.poison := rfl
@[simp] theorem State.regs_at_keeps (s : State) (now : BitVec 64) : (s.at_ now).regs = s.regs := rfl
@[simp] theorem State.tiles_at_keeps (s : State) (now : BitVec 64) : (s.at_ now).tiles = s.tiles := rfl
@[simp] theorem State.harts_at_keeps (s : State) (now : BitVec 64) : (s.at_ now).harts = s.harts := rfl
@[simp] theorem State.running_at_keeps (s : State) (now : BitVec 64) : (s.at_ now).running = s.running := rfl
@[simp] theorem State.dirty_at_keeps (s : State) (now : BitVec 64) : (s.at_ now).dirty = s.dirty := rfl
@[simp] theorem State.wcb_at_keeps (s : State) (now : BitVec 64) : (s.at_ now).wcb = s.wcb := rfl
@[simp] theorem State.ceCount_at_keeps (s : State) (now : BitVec 64) : (s.at_ now).ceCount = s.ceCount := rfl
@[simp] theorem State.guard_at_keeps (s : State) (now : BitVec 64) : (s.at_ now).guard = s.guard := rfl
@[simp] theorem State.shadow_at_keeps (s : State) (now : BitVec 64) : (s.at_ now).shadow = s.shadow := rfl
@[simp] theorem State.heldWrites_at_keeps (s : State) (now : BitVec 64) : (s.at_ now).heldWrites = s.heldWrites := rfl
@[simp] theorem State.poolEvent_at_keeps (s : State) (now : BitVec 64) : (s.at_ now).poolEvent = s.poolEvent := rfl
@[simp] theorem State.flash_at_keeps (s : State) (now : BitVec 64) : (s.at_ now).flash = s.flash := rfl
@[simp] theorem State.flashBytes_at_keeps (s : State) (now : BitVec 64) : (s.at_ now).flashBytes = s.flashBytes := rfl
@[simp] theorem State.flashRegion_at_keeps (s : State) (now : BitVec 64) : (s.at_ now).flashRegion = s.flashRegion := rfl
@[simp] theorem State.ports_at_keeps (s : State) (now : BitVec 64) : (s.at_ now).ports = s.ports := rfl
@[simp] theorem State.reqs_at_keeps (s : State) (now : BitVec 64) : (s.at_ now).reqs = s.reqs := rfl
@[simp] theorem State.nextTag_at_keeps (s : State) (now : BitVec 64) : (s.at_ now).nextTag = s.nextTag := rfl
@[simp] theorem State.outbox_at_keeps (s : State) (now : BitVec 64) : (s.at_ now).outbox = s.outbox := rfl
@[simp] theorem State.cong_at_keeps (s : State) (now : BitVec 64) : (s.at_ now).cong = s.cong := rfl
@[simp] theorem State.overflow_at_keeps (s : State) (now : BitVec 64) : (s.at_ now).overflow = s.overflow := rfl
@[simp] theorem State.dir_at_keeps (s : State) (now : BitVec 64) : (s.at_ now).dir = s.dir := rfl
@[simp] theorem State.dirTrans_at_keeps (s : State) (now : BitVec 64) : (s.at_ now).dirTrans = s.dirTrans := rfl
@[simp] theorem State.coh_at_keeps (s : State) (now : BitVec 64) : (s.at_ now).coh = s.coh := rfl
@[simp] theorem State.ledger_at_keeps (s : State) (now : BitVec 64) : (s.at_ now).ledger = s.ledger := rfl
@[simp] theorem State.replays_at_keeps (s : State) (now : BitVec 64) : (s.at_ now).replays = s.replays := rfl
@[simp] theorem State.atomSeq_at_keeps (s : State) (now : BitVec 64) : (s.at_ now).atomSeq = s.atomSeq := rfl
@[simp] theorem State.synced_at_keeps (s : State) (now : BitVec 64) : (s.at_ now).synced = s.synced := rfl
@[simp] theorem State.mustSync_at_keeps (s : State) (now : BitVec 64) : (s.at_ now).mustSync = s.mustSync := rfl
@[simp] theorem State.ctxs_at_keeps (s : State) (now : BitVec 64) : (s.at_ now).ctxs = s.ctxs := rfl
@[simp] theorem State.draft_at_keeps (s : State) (now : BitVec 64) : (s.at_ now).draft = s.draft := rfl
@[simp] theorem State.resil_at_keeps (s : State) (now : BitVec 64) : (s.at_ now).resil = s.resil := rfl
@[simp] theorem State.fw_at_keeps (s : State) (now : BitVec 64) : (s.at_ now).fw = s.fw := rfl
@[simp] theorem State.rings_at_keeps (s : State) (now : BitVec 64) : (s.at_ now).rings = s.rings := rfl
@[simp] theorem State.hostOut_at_keeps (s : State) (now : BitVec 64) : (s.at_ now).hostOut = s.hostOut := rfl
@[simp] theorem State.power_at_keeps (s : State) (now : BitVec 64) : (s.at_ now).power = s.power := rfl
@[simp] theorem State.free_at_keeps (s : State) (now : BitVec 64) : (s.at_ now).free = s.free := rfl
@[simp] theorem State.pending_at_keeps (s : State) (now : BitVec 64) : (s.at_ now).pending = s.pending := rfl
@[simp] theorem State.tile_at_keeps (s : State) (now : BitVec 64) (t' : TileId) : (s.at_ now).tile t' = s.tile t' := rfl
@[simp] theorem State.hart_at_keeps (s : State) (now : BitVec 64) (h' : HartId) : (s.at_ now).hart h' = s.hart h' := rfl
@[simp] theorem State.port_at_keeps (s : State) (now : BitVec 64) (p' : PortId) : (s.at_ now).port p' = s.port p' := rfl
@[simp] theorem State.reg_at_keeps (s : State) (now : BitVec 64) (o' : Nat) : (s.at_ now).reg o' = s.reg o' := rfl
@[simp] theorem State.ctx_at_keeps (s : State) (now : BitVec 64) (c' : CtxId) : (s.at_ now).ctx c' = s.ctx c' := rfl
@[simp] theorem State.fld_at_keeps (s : State) (now : BitVec 64) (g : Fld) : (s.at_ now).fld g = s.fld g := rfl
@[simp] theorem State.bit_at_keeps (s : State) (now : BitVec 64) (g : Fld) : (s.at_ now).bit g = s.bit g := rfl
@[simp] theorem State.ready_at_keeps (s : State) (now : BitVec 64) (i : Nat) : (s.at_ now).ready i = s.ready i := rfl
@[simp] theorem State.byteAt_at_keeps (s : State) (now : BitVec 64) (a' : Nat) : (s.at_ now).byteAt a' = s.byteAt a' := rfl

/-! ### drawFree -/

@[simp] theorem State.mem_drawFree_keeps (s : State) : s.drawFree.2.mem = s.mem := rfl
@[simp] theorem State.poison_drawFree_keeps (s : State) : s.drawFree.2.poison = s.poison := rfl
@[simp] theorem State.regs_drawFree_keeps (s : State) : s.drawFree.2.regs = s.regs := rfl
@[simp] theorem State.tiles_drawFree_keeps (s : State) : s.drawFree.2.tiles = s.tiles := rfl
@[simp] theorem State.harts_drawFree_keeps (s : State) : s.drawFree.2.harts = s.harts := rfl
@[simp] theorem State.running_drawFree_keeps (s : State) : s.drawFree.2.running = s.running := rfl
@[simp] theorem State.dirty_drawFree_keeps (s : State) : s.drawFree.2.dirty = s.dirty := rfl
@[simp] theorem State.wcb_drawFree_keeps (s : State) : s.drawFree.2.wcb = s.wcb := rfl
@[simp] theorem State.ceCount_drawFree_keeps (s : State) : s.drawFree.2.ceCount = s.ceCount := rfl
@[simp] theorem State.guard_drawFree_keeps (s : State) : s.drawFree.2.guard = s.guard := rfl
@[simp] theorem State.shadow_drawFree_keeps (s : State) : s.drawFree.2.shadow = s.shadow := rfl
@[simp] theorem State.heldWrites_drawFree_keeps (s : State) : s.drawFree.2.heldWrites = s.heldWrites := rfl
@[simp] theorem State.poolEvent_drawFree_keeps (s : State) : s.drawFree.2.poolEvent = s.poolEvent := rfl
@[simp] theorem State.flash_drawFree_keeps (s : State) : s.drawFree.2.flash = s.flash := rfl
@[simp] theorem State.flashBytes_drawFree_keeps (s : State) : s.drawFree.2.flashBytes = s.flashBytes := rfl
@[simp] theorem State.flashRegion_drawFree_keeps (s : State) : s.drawFree.2.flashRegion = s.flashRegion := rfl
@[simp] theorem State.ports_drawFree_keeps (s : State) : s.drawFree.2.ports = s.ports := rfl
@[simp] theorem State.reqs_drawFree_keeps (s : State) : s.drawFree.2.reqs = s.reqs := rfl
@[simp] theorem State.nextTag_drawFree_keeps (s : State) : s.drawFree.2.nextTag = s.nextTag := rfl
@[simp] theorem State.outbox_drawFree_keeps (s : State) : s.drawFree.2.outbox = s.outbox := rfl
@[simp] theorem State.cong_drawFree_keeps (s : State) : s.drawFree.2.cong = s.cong := rfl
@[simp] theorem State.overflow_drawFree_keeps (s : State) : s.drawFree.2.overflow = s.overflow := rfl
@[simp] theorem State.dir_drawFree_keeps (s : State) : s.drawFree.2.dir = s.dir := rfl
@[simp] theorem State.dirTrans_drawFree_keeps (s : State) : s.drawFree.2.dirTrans = s.dirTrans := rfl
@[simp] theorem State.coh_drawFree_keeps (s : State) : s.drawFree.2.coh = s.coh := rfl
@[simp] theorem State.ledger_drawFree_keeps (s : State) : s.drawFree.2.ledger = s.ledger := rfl
@[simp] theorem State.replays_drawFree_keeps (s : State) : s.drawFree.2.replays = s.replays := rfl
@[simp] theorem State.atomSeq_drawFree_keeps (s : State) : s.drawFree.2.atomSeq = s.atomSeq := rfl
@[simp] theorem State.synced_drawFree_keeps (s : State) : s.drawFree.2.synced = s.synced := rfl
@[simp] theorem State.mustSync_drawFree_keeps (s : State) : s.drawFree.2.mustSync = s.mustSync := rfl
@[simp] theorem State.ctxs_drawFree_keeps (s : State) : s.drawFree.2.ctxs = s.ctxs := rfl
@[simp] theorem State.draft_drawFree_keeps (s : State) : s.drawFree.2.draft = s.draft := rfl
@[simp] theorem State.resil_drawFree_keeps (s : State) : s.drawFree.2.resil = s.resil := rfl
@[simp] theorem State.fw_drawFree_keeps (s : State) : s.drawFree.2.fw = s.fw := rfl
@[simp] theorem State.rings_drawFree_keeps (s : State) : s.drawFree.2.rings = s.rings := rfl
@[simp] theorem State.hostOut_drawFree_keeps (s : State) : s.drawFree.2.hostOut = s.hostOut := rfl
@[simp] theorem State.power_drawFree_keeps (s : State) : s.drawFree.2.power = s.power := rfl
@[simp] theorem State.clock_drawFree_keeps (s : State) : s.drawFree.2.clock = s.clock := rfl
@[simp] theorem State.free_drawFree (s : State) : s.drawFree.2.free = s.free + 1 := rfl
@[simp] theorem State.pending_drawFree_keeps (s : State) : s.drawFree.2.pending = s.pending := rfl

/-! ### What an indexed part reads after its own update -/

@[simp] theorem State.outbox_send (s : State) (m : OutMsg) : (s.send m).outbox = s.outbox ++ [m] := rfl
@[simp] theorem State.tile_setTile_same (s : State) (t : TileId) (x : Tile) : (s.setTile t x).tile t = x := Tab.get_set_same ..
theorem State.tile_setTile_other (s : State) (t u : TileId) (x : Tile) (h : u ≠ t) : (s.setTile t x).tile u = s.tile u :=
  Tab.get_set_ne _ _ _ _ _ (fun e => h (BitVec.eq_of_toNat_eq e))
@[simp] theorem State.tile_modTile_same (s : State) (t : TileId) (f : Tile → Tile) : (s.modTile t f).tile t = f (s.tile t) := State.tile_setTile_same ..
theorem State.tile_modTile_other (s : State) (t u : TileId) (f : Tile → Tile) (h : u ≠ t) : (s.modTile t f).tile u = s.tile u :=
  State.tile_setTile_other _ _ _ _ h
@[simp] theorem State.hart_setHart_same (s : State) (i : HartId) (x : Hart) : (s.setHart i x).hart i = x := Tab.get_set_same ..
theorem State.hart_setHart_other (s : State) (i j : HartId) (x : Hart) (h : j ≠ i) : (s.setHart i x).hart j = s.hart j :=
  Tab.get_set_ne _ _ _ _ _ (fun e => h (BitVec.eq_of_toNat_eq e))
@[simp] theorem State.hart_modHart_same (s : State) (i : HartId) (f : Hart → Hart) : (s.modHart i f).hart i = f (s.hart i) := State.hart_setHart_same ..
theorem State.hart_modHart_other (s : State) (i j : HartId) (f : Hart → Hart) (h : j ≠ i) : (s.modHart i f).hart j = s.hart j :=
  State.hart_setHart_other _ _ _ _ h
@[simp] theorem State.port_setPort_same (s : State) (p : PortId) (x : Port) : (s.setPort p x).port p = x := Tab.get_set_same ..
theorem State.port_setPort_other (s : State) (p q : PortId) (x : Port) (h : q ≠ p) : (s.setPort p x).port q = s.port q :=
  Tab.get_set_ne _ _ _ _ _ (fun e => h (Fin.ext e))
@[simp] theorem State.port_modPort_same (s : State) (p : PortId) (f : Port → Port) : (s.modPort p f).port p = f (s.port p) := State.port_setPort_same ..
theorem State.port_modPort_other (s : State) (p q : PortId) (f : Port → Port) (h : q ≠ p) : (s.modPort p f).port q = s.port q :=
  State.port_setPort_other _ _ _ _ h

end Sys2Proof.Machine
end

