-- ==== Sys2Proof/Laws/Ops.lean ====
section
/-! SUPPORT. What each shared operation can do, said once: events, FATAL, messages, register counters, readiness, and the
writes of memory, which keep the canonical form. Later proofs cite these instead of unfolding the operation. -/

namespace Sys2Proof.Machine

/-! ### Registers of harts and shuttles -/

@[simp] theorem Tile.xreg_zero (x : Tile) : x.xreg 0 = 0 := rfl
theorem Tile.xreg_setX (x : Tile) (n k : BitVec 5) (v : Word) : (x.setX n v).xreg k = if k = n ∧ n ≠ 0 then v else x.xreg k := by
  unfold Tile.setX Tile.xreg
  by_cases hk : k = 0
  · rw [if_pos hk, if_pos hk, if_neg (fun h => h.2 (h.1 ▸ hk))]
  rw [if_neg hk, if_neg hk]
  by_cases hn : n = 0
  · rw [if_pos hn, if_neg (fun h => h.2 hn)]
  rw [if_neg hn]
  by_cases e : k = n
  · rw [if_pos ⟨e, hn⟩, e]
    exact Tab.get_set_same ..
  · rw [if_neg (fun h => e h.1)]
    exact Tab.get_set_ne _ _ _ _ _ (fun h => e (BitVec.eq_of_toNat_eq h))
@[simp] theorem Hart.xreg_zero (x : Hart) : x.xreg 0 = 0 := rfl
theorem Hart.xreg_setX (x : Hart) (n k : BitVec 5) (v : BitVec 64) : (x.setX n v).xreg k = if k = n ∧ n ≠ 0 then v else x.xreg k := by
  unfold Hart.setX Hart.xreg
  by_cases hk : k = 0
  · rw [if_pos hk, if_pos hk, if_neg (fun h => h.2 (h.1 ▸ hk))]
  rw [if_neg hk, if_neg hk]
  by_cases hn : n = 0
  · rw [if_pos hn, if_neg (fun h => h.2 hn)]
  rw [if_neg hn]
  by_cases e : k = n
  · rw [if_pos ⟨e, hn⟩, e]
    exact Tab.get_set_same ..
  · rw [if_neg (fun h => e h.1)]
    exact Tab.get_set_ne _ _ _ _ _ (fun h => e (BitVec.eq_of_toNat_eq h))

/-! ### Counters and readiness -/

/-- A saturating counter never passes its greatest value. -/
theorem State.fld_count (s : State) (f : Fld) (n : Nat) (h : f.lo ≤ f.hi) (h64 : f.hi < 64) :
    (s.count f n).fld f = min (s.fld f + n) (2 ^ (f.hi - f.lo + 1) - 1) := by
  have p : 0 < 2 ^ (f.hi - f.lo + 1) := Nat.two_pow_pos _
  rw [State.count, State.fld_setFld _ _ _ h h64, Nat.mod_eq_of_lt (by omega)]

theorem State.fld_countWrap (s : State) (f : Fld) (n : Nat) (h : f.lo ≤ f.hi) (h64 : f.hi < 64) :
    (s.countWrap f n).fld f = (s.fld f + n) % 2 ^ (f.hi - f.lo + 1) := s.fld_setFld _ _ h h64

/-! ### Events -/

/-- What marking a family can change: two registers. -/
theorem State.markFamily_frame (s : State) (c : Status) :
    { s.markFamily c with regs := s.regs } = s ∧ ∀ o, o ≠ F.TIME_STAT_EV.off → o ≠ F.CKPT_STAT_ERR.off → (s.markFamily c).reg o = s.reg o := by
  unfold State.markFamily
  split
  · exact ⟨rfl, fun o h _ => State.reg_setFld_ne _ _ _ _ h⟩
  split
  · split
    · exact ⟨rfl, fun o _ h => State.reg_setFld_ne _ _ _ _ h⟩
    · exact ⟨rfl, fun o _ h => by rw [State.reg_setFld_ne _ _ _ _ h]; exact State.reg_setFld_ne _ _ _ _ h⟩
  · exact ⟨rfl, fun _ _ _ => rfl⟩

/-- What a new record can change: the rings and MBX_EVQ. -/
theorem State.putRecord_frame (s : State) (r : EventRec) :
    { s.putRecord r with regs := s.regs, rings := s.rings } = s ∧ ∀ o, o ≠ F.MBX_EVQ_DROPPED.off → (s.putRecord r).reg o = s.reg o := by
  unfold State.putRecord
  split
  · simp only []
    split
    · exact ⟨rfl, fun o h => State.reg_setFld_ne _ _ _ _ h⟩
    · exact ⟨rfl, fun _ _ => rfl⟩
  · exact ⟨rfl, fun _ _ => rfl⟩

/-- Where the record goes: the firmware ring once LPDDR5X is ready, the ring in BSC SRAM before. -/
theorem State.putRecord_rings (s : State) (r : EventRec) :
    (s.putRecord r).rings.fw = (if s.lpReady = true then pushOld 16384 s.rings.fw r else s.rings.fw) ∧
      (s.putRecord r).rings.bsc = (if s.lpReady = true then s.rings.bsc else pushOld 256 s.rings.bsc r) := by
  unfold State.putRecord
  split
  · simp only []
    split <;> exact ⟨rfl, rfl⟩
  · exact ⟨rfl, rfl⟩

/-- The offsets that raising an event can write. -/
def eventOffs : List Nat := [F.TIME_STAT_EV.off, F.CKPT_STAT_ERR.off, F.MBX_EVQ_DROPPED.off]

/-- What raising an event can change: the rings and three registers. -/
theorem State.raise_frame (s : State) (src : Nat) (c : Status) (d : List Byte) :
    { s.raise src c d with regs := s.regs, rings := s.rings } = s ∧ otherRegs eventOffs s (s.raise src c d) := by
  unfold State.raise
  have m := s.markFamily_frame c
  refine ⟨?_, fun o h => ?_⟩
  · have p := ((s.markFamily c).putRecord_frame ⟨s.stamp, BitVec.ofNat 16 src, c, s.eventPick, (d ++ zeros 14).take 14, false⟩).1
    have q := congrArg (fun t : State => { t with regs := s.regs, rings := s.rings }) p
    refine Eq.trans q ?_
    have r := congrArg (fun t : State => { t with rings := s.rings }) m.1
    exact r
  · simp only [eventOffs, List.mem_cons, List.not_mem_nil, or_false, not_or] at h
    rw [((s.markFamily c).putRecord_frame _).2 o h.2.2, m.2 o h.1 h.2.1]

/-- Readiness is what GLB_FUNC_READY holds. -/
theorem State.ready_congr (s t : State) (i : Nat) (h : t.reg (R.GLB_FUNC_READY + 8 * (i / 64)) = s.reg (R.GLB_FUNC_READY + 8 * (i / 64))) :
    t.ready i = s.ready i := by unfold State.ready; rw [h]

theorem State.lpReady_congr (s t : State) (h : t.reg R.GLB_FUNC_READY = s.reg R.GLB_FUNC_READY) : t.lpReady = s.lpReady := by
  have e : (fun i => decide (i < 32) && t.ready (32 + i)) = (fun i => decide (i < 32) && s.ready (32 + i)) := by
    funext i
    by_cases hi : i < 32
    · have : (32 + i) / 64 = 0 := by omega
      rw [State.ready_congr s t (32 + i) (by rw [this]; exact h)]
    · simp [hi]
  have a : ∀ u : State, u.lpReady = (List.range 32).all (fun i => decide (i < 32) && u.ready (32 + i)) := by
    intro u
    unfold State.lpReady
    rw [Bool.eq_iff_iff, List.all_eq_true, List.all_eq_true]
    exact ⟨fun h i hi => by simp [List.mem_range.mp hi, h i hi], fun h i hi => by have := h i hi; simp at this; exact this.2⟩
  rw [a, a, e]

theorem pushOld_getLast (n : Nat) (l : List EventRec) (r : EventRec) : (pushOld n l r).getLast? = some r := by
  unfold pushOld
  split <;> simp

/-- A raised event is the newest record. -/
theorem State.raise_raised (s : State) (src : Nat) (c : Status) (d : List Byte) : raised s (s.raise src c d) src c d false := by
  have f := (s.raise_frame src c d).2 R.GLB_FUNC_READY (by decide)
  have g := (s.markFamily_frame c).2 R.GLB_FUNC_READY (by decide) (by decide)
  unfold raised newestEvent
  rw [State.lpReady_congr _ _ f]
  have p := (s.markFamily c).putRecord_rings ⟨s.stamp, BitVec.ofNat 16 src, c, s.eventPick, (d ++ zeros 14).take 14, false⟩
  rw [State.lpReady_congr _ _ g] at p
  unfold State.raise
  split
  · next h => rw [if_pos h] at p; rw [p.1, pushOld_getLast]
  · next h => rw [if_neg h, if_neg h] at p; rw [p.2, pushOld_getLast]

/-- What FATAL can change: the messages sent. -/
theorem State.sendFatal_frame (s : State) (c : Status) : { s.sendFatal c with outbox := s.outbox } = s := by
  have go : ∀ (l : List PortId) (f : PortId → OutMsg) (t : State), { t with outbox := s.outbox } = s →
      { l.foldl (fun t p => t.send (f p)) t with outbox := s.outbox } = s := by
    intro l f
    induction l with
    | nil => exact fun t h => h
    | cons p l ih => exact fun t h => ih _ h
  unfold State.sendFatal
  split
  · split
    · exact go _ _ _ rfl
    · rfl
  · split
    · exact go _ _ _ rfl
    · rfl

/-! ### Writes of memory keep the canonical form -/

theorem State.raise_mem (s : State) (src : Nat) (c : Status) (d : List Byte) : (s.raise src c d).mem = s.mem := by
  have h := congrArg State.mem (s.raise_frame src c d).1
  exact h

/-- A fold over the state keeps what each of its steps keeps. -/
theorem foldl_keeps {α : Type} (P : State → Prop) (f : State → α → State) (h : ∀ s x, P s → P (f s x)) (l : List α) (s : State) (hs : P s) : P (l.foldl f s) := by
  induction l generalizing s with
  | nil => exact hs
  | cons x l ih => exact ih _ (h _ _ hs)

theorem State.wf_sramPiece (s : State) (a : Nat) (d : List Byte) (h : s.mem.wf = true) : (s.sramPiece a d).mem.wf = true := by
  unfold State.sramPiece
  split
  · exact Memory.wf_writeN _ _ _ h
  · split
    · rw [State.raise_mem]; exact h
    · exact Memory.wf_writeN _ _ _ h
theorem State.wf_sramPut (s : State) (a : Nat) (d : List Byte) (h : s.mem.wf = true) : (s.sramPut a d).mem.wf = true :=
  foldl_keeps (fun s => s.mem.wf = true) _ (fun s p h => s.wf_sramPiece p.1 p.2 h) _ _ h
theorem State.wf_drainSector (s : State) (c : CtrlId) (e : WcbEntry) (k : Nat) (h : s.mem.wf = true) : (s.drainSector c e k).mem.wf = true := by
  have put : ∀ (l : List (Nat × Byte)) (s : State), s.mem.wf = true →
      (l.foldl (fun s b => { s with mem := s.mem.write (e.granule * 256 + b.1) b.2 }) s).mem.wf = true := fun l s hs =>
    foldl_keeps (fun s => s.mem.wf = true) _ (fun s b h => Memory.wf_write _ _ _ h) l s hs
  unfold State.drainSector
  simp only []
  split
  · exact h
  split
  · exact put _ _ h
  split
  · rw [State.raise_mem]; exact h
  · exact put _ _ h
theorem State.wf_drainEntry (s : State) (c : CtrlId) (e : WcbEntry) (h : s.mem.wf = true) : (s.drainEntry c e).mem.wf = true :=
  foldl_keeps (fun s => s.mem.wf = true) _ (fun s k h => s.wf_drainSector c e k h) _ _ h
theorem State.wf_drainAll (s : State) (c : CtrlId) (h : s.mem.wf = true) : (s.drainAll c).mem.wf = true :=
  foldl_keeps (fun s => s.mem.wf = true) _ (fun s e h => s.wf_drainEntry c e h) _ _ h
theorem State.wf_wcbMerge (s : State) (c : CtrlId) (a : Nat) (d : List Byte) (h : s.mem.wf = true) : (s.wcbMerge c a d).mem.wf = true := by
  have first : (match (s.wcbOf c).find? (fun e : WcbEntry => e.granule == a / 256) with
      | some _ => s
      | none => match s.wcbOf c with
        | e :: r => if (e :: r).length < wcbSize c then s else (s.drainEntry c e).setWcb c r
        | [] => s).mem.wf = true := by
    split
    · exact h
    · split
      · split
        · exact h
        · exact s.wf_drainEntry c _ h
      · exact h
  unfold State.wcbMerge
  simp only []
  split
  · exact first
  · split
    · exact State.wf_drainEntry _ _ _ first
    · exact first
theorem State.wf_sectorPut (s : State) (a : Nat) (d : List Byte) (h : s.mem.wf = true) : (s.sectorPut a d).mem.wf = true := by
  unfold State.sectorPut
  simp only []
  split
  · exact Memory.wf_writeN _ _ _ h
  · exact s.wf_wcbMerge _ _ _ h
theorem State.wf_dramPut (s : State) (a : Nat) (d : List Byte) (h : s.mem.wf = true) : (s.dramPut a d).mem.wf = true :=
  foldl_keeps (fun s => s.mem.wf = true) _ (fun s p h => s.wf_sectorPut p.1 p.2 h) _ _ h
theorem State.wf_guardedPut (s : State) (a : Nat) (d : List Byte) (h : s.mem.wf = true) : (s.guardedPut a d).mem.wf = true := by
  refine foldl_keeps (fun s => s.mem.wf = true) _ (fun s p h => ?_) _ _ h
  show (if _ then _ else _ : State).mem.wf = true
  split
  · exact h
  · exact State.wf_dramPut _ _ _ h
theorem State.wf_flushLine (s : State) (line : Nat) (h : s.mem.wf = true) : (s.flushLine line).mem.wf = true := by
  unfold State.flushLine
  split
  · exact h
  · exact State.wf_guardedPut _ _ _ h
theorem State.wf_flushRange (s : State) (a n : Nat) (h : s.mem.wf = true) : (s.flushRange a n).mem.wf = true := by
  unfold State.flushRange
  split
  · exact h
  · exact foldl_keeps (fun s => s.mem.wf = true) _ (fun s i h => s.wf_flushLine _ h) _ _ h
theorem State.wf_writeBytes (s : State) (a : Nat) (d : List Byte) (h : s.mem.wf = true) : (s.writeBytes a d).mem.wf = true := by
  unfold State.writeBytes
  split
  · exact h
  split
  · exact s.wf_sramPut _ _ h
  · exact State.wf_guardedPut _ _ _ (s.wf_flushRange _ _ h)
theorem State.wf_writeUnguarded (s : State) (a : Nat) (d : List Byte) (h : s.mem.wf = true) : (s.writeUnguarded a d).mem.wf = true :=
  State.wf_dramPut _ _ _ (s.wf_flushRange _ _ h)
theorem State.wf_coreLine (s : State) (a : Nat) (d : List Byte) (h : s.mem.wf = true) : (s.coreLine a d).mem.wf = true := by
  refine foldl_keeps (fun s => s.mem.wf = true) _ (fun s p h => ?_) _ _ h
  simp only []
  split
  · exact State.wf_guardedPut _ _ _ h
  · exact h
theorem State.wf_flashPut (s : State) (lba : Nat) (d : List Byte) (h : s.flash.wf = true) : (s.flashPut lba d).flash.wf = true :=
  Memory.wf_writeN _ _ _ h

/-! ### Messages -/

/-- What sending can change: the messages sent and the stream of one port. -/
theorem State.sendOn_frame (s : State) (p : PortId) (m : OutMsg) :
    { s.sendOn p m with ports := s.ports, outbox := s.outbox } = s ∧ (s.sendOn p m).outbox = s.outbox ++ [{ m with port := some p }] ∧
      otherPorts p s (s.sendOn p m) := ⟨rfl, rfl, fun _ h => State.port_setPort_other _ _ _ _ h⟩

/-- A message goes nowhere, or out on one port. -/
theorem State.sendNow_cases (s : State) (m : OutMsg) : s.sendNow m = s ∨ ∃ p, s.sendNow m = s.sendOn p m := by
  unfold State.sendNow
  split
  · exact .inl rfl
  · split
    · exact .inr ⟨_, rfl⟩
    · exact .inl rfl

/-- A message waits for the log, goes nowhere, or out on one port. -/
theorem State.sendTo_cases (s : State) (m : OutMsg) :
    s.sendTo m = { s with resil := { s.resil with held := s.resil.held ++ [.output (s.resil.lsn - 1) m] } } ∨ s.sendTo m = s ∨
      ∃ p, s.sendTo m = s.sendOn p m := by
  unfold State.sendTo
  split
  · exact .inl rfl
  · exact .inr (s.sendNow_cases m)

/-- What a message of a virtual channel does: nothing, a counted refusal, or one message sent. -/
theorem State.tell_cases (s : State) (dst : NodeId) (vc opc : Nat) (args : List Nat) (d : List Byte) :
    s.tell dst vc opc args d = s ∨ s.tell dst vc opc args d = s.blockedOne ∨ s.tell dst vc opc args d = s.send (plainMsg none dst vc opc args d) := by
  unfold State.tell
  simp only []
  split
  · exact .inl rfl
  split
  · exact .inr (.inl rfl)
  · exact .inr (.inr rfl)

/-- Asking another node fails at the source with a status, or keeps the request and sends it. -/
theorem State.ask_cases (s : State) (o : Owner) (dst : NodeId) (vc opc addr len : Nat) (d : List Byte) :
    (∃ u, s.ask o dst vc opc addr len d = (u, St.nodeLost, s.nextTag) ∧ u = s) ∨ s.ask o dst vc opc addr len d = (s.blockedOne, St.accessBlocked, s.nextTag) ∨
      s.ask o dst vc opc addr len d = (s, St.noRoute, s.nextTag) ∨
      ∃ m r, s.ask o dst vc opc addr len d = (({ s with nextTag := s.nextTag + 1, reqs := s.reqs ++ [r] }).sendTo m, St.ok, s.nextTag) ∧
        m = request dst vc opc addr len s.nextTag d ∧ r.owner = o ∧ r.msg = m.asMsg s.srcNode := by
  unfold State.ask
  simp only []
  split
  · exact .inl ⟨_, rfl, rfl⟩
  split
  · exact .inr (.inl rfl)
  split
  · exact .inr (.inr (.inl rfl))
  · exact .inr (.inr (.inr ⟨_, _, rfl, rfl, rfl, rfl⟩))

end Sys2Proof.Machine
end

