-- ==== Sys2Proof/Laws/Restore.lean ====
section
/-! SUPPORT. Laws of flash generations: the record that three equal copies hold, and none where no copy holds. -/

namespace Sys2Proof.Machine

/-- Three copies that hold and agree give their record. -/
theorem agreedRec_copies (d : Draft) (par : Nat) (b : List Byte) (tier : (recOf b).tier = .flash) (done : (recOf b).committed = true)
    (even : (recOf b).gen % 2 = par % 2) (dig : (b.drop 48).take 32 = d.digest.take 32) : agreedRec d par [b, b, b] = some b := by
  simp [agreedRec, List.filter, tier, done, even, dig]

theorem State.flashRec_copies (s : State) (d : Draft) (par : Nat) (b : List Byte) (h : ∀ k ∈ List.range 3, s.flashCopy d par k = b)
    (some_ : s.flash.isEmpty = false) (good : recHolds b = true) (tier : (recOf b).tier = .flash) (done : (recOf b).committed = true)
    (even : (recOf b).gen % 2 = par % 2) (dig : (b.drop 48).take 32 = d.digest.take 32) : s.flashRec d par = some b := by
  have e : ((List.range 3).map (s.flashCopy d par)).filter recHolds = [b, b, b] := by
    rw [List.map_congr_left h]
    simp [List.filter, good, List.range, List.range.loop]
  rw [State.flashRec, some_, e]
  exact agreedRec_copies d par b tier done even dig

/-- Copies that do not hold give none. -/
theorem State.flashRec_none (s : State) (d : Draft) (par : Nat) (b : List Byte) (h : ∀ k ∈ List.range 3, s.flashCopy d par k = b)
    (bad : recHolds b = false) : s.flashRec d par = none := by
  have e : ((List.range 3).map (s.flashCopy d par)).filter recHolds = [] := by
    rw [List.map_congr_left h]
    simp [List.filter, bad, List.range, List.range.loop]
  rw [State.flashRec, e]
  split <;> rfl

/-- An empty NAND holds no generation. -/
theorem State.flashRec_empty (s : State) (d : Draft) (par : Nat) (h : s.flash = []) : s.flashRec d par = none := by
  rw [State.flashRec, h]
  rfl

/-- The newest of one generation. -/
theorem State.newestFlash_even (s : State) (d : Draft) (b : List Byte) (h0 : s.flashRec d 0 = some b) (h1 : s.flashRec d 1 = none) :
    s.newestFlash d = some (recOf b) := by rw [State.newestFlash, h0, h1]; rfl

theorem State.newestFlash_none (s : State) (d : Draft) (h0 : s.flashRec d 0 = none) (h1 : s.flashRec d 1 = none) : s.newestFlash d = none := by
  rw [State.newestFlash, h0, h1]; rfl

end Sys2Proof.Machine
end

