-- ==== Sys2Proof/WellFormed.lean ====
section
/-! DEFINITION. What a command's operands must be for the manual to give the command: lengths that the manual fixes and
operands that exist. The meanings are total, and a command that is not well formed is still answered. -/

namespace Sys2Proof

/-- An access to space type 01 is of 8 bytes, aligned to 8 (R9). -/
def accessOk (a : BitVec 48) (size : Nat) : Bool := size == 8 && a.toNat % 8 == 0

/-- A message that carries data carries LEN bytes of it (Table 10-3). -/
def Msg.ok (m : Msg) : Bool := m.data.isEmpty || decide (m.data.length = m.len.toNat)

/-- Are the operands of the command such that the manual gives it? -/
def Instr.wellFormed : Instr → Bool
  | .flitReceive _ f => decide (f.length = 256)
  | .readClearRegister _ a n => accessOk a n
  | .registerWrite _ a n _ => accessOk a n
  | .seqCtrlRun q t _ => (match q with | .shuttle u => u == t | _ => true)
  | .rd _ m _ => m.ok
  | .wr _ m _ => m.ok
  | .atom _ m _ => m.ok
  | .hello _ nonce key _ => decide (nonce.length = 32) && decide (key.length = 64)
  | .attest _ nonce => decide (nonce.length = 32)
  | .jobStart _ j _ => decide (j.digest.length = 64) && decide (j.mapDigest.length = 8)
  | .enroll _ key secret => decide (key.length = 64) && decide (secret.length = 32)
  | .snapshotBackgroundCopy k => decide (k < 32768)
  | .chunkWr _ _ d id => decide (d.length ≤ 65536) && decide (id.chunk < 15)
  | _ => true

end Sys2Proof
end

