-- ==== Sys2Proof/Tests/Slice0.lean ====
section
/-! SUPPORT. The model's own tests: what WellFormed refuses, single steps of the manual's own examples, and for every
statement with hypotheses concrete states that meet them (theorems named witness_<statement>). -/

set_option Elab.async false

namespace Sys2Proof.Tests

open Sys2Proof Sys2Proof.Machine

/-! ### Small states -/

/-- Sets fields of registers. -/
def sets (s : State) (l : List (Fld × Nat)) : State := l.foldl (fun s e => s.setFld e.1 e.2) s
/-- The node in P0 with every function and every port in service; the registers as `up_registers` says. -/
def up : State := { State.reset with regs := [(0x9000020, 0xFFFFFFFFFFFFFFFF), (0x9000028, 0xFFFFF)] }
theorem up_registers : up.regs = ((State.reset.putReadyRange 0 true 64).putReadyRange 64 true 20).regs := by decide +kernel
/-- The node with number 5, all ports in service, and one window that allows everything to every node; its registers as
`net_registers` says. -/
def net : State :=
  { State.reset with regs := [(0x3000000, 0x8000000000000005)] ++
    [(0x3000100, 2), (0x3000108, 2), (0x3000110, 2), (0x3000118, 2), (0x3000120, 2), (0x3000128, 2), (0x3000130, 2), (0x3000138, 2), (0x3000140, 2), (0x3000148, 2)] ++
    [(0x3001000, 0xF3FFFFF000000000), (0x3001010, 0xFFFFFFFF0000)] ++
    [(0x3400100, 2), (0x3400108, 2), (0x3400110, 2), (0x3400118, 2), (0x3400120, 2), (0x3400128, 2), (0x3400130, 2), (0x3400138, 2), (0x3400140, 2), (0x3400148, 2)] ++ up.regs }
theorem net_registers : net.regs = (sets up ((List.finRange 20).map (fun p => (pfld p F.FAB_PORT_STAT_UP, 1)) ++
    [(F.FAB_NODE_ID_NODE, 5), (F.FAB_NODE_ID_VALID, 1), (F.FAB_WIN_CTL_VALID, 1), (F.FAB_WIN_CTL_READ, 1), (F.FAB_WIN_CTL_WRITE, 1),
     (F.FAB_WIN_CTL_ATOMIC, 1), (F.FAB_WIN_CTL_VCMASK, 255), (F.FAB_WIN_CTL_NODE_HI, 16383), (F.FAB_WIN_LIMIT_LIMIT, 0xFFFFFFFF)])).regs := by decide +kernel
/-- With no tile listed every tile is as after reset. -/
theorem tile_of_none (s : State) (h : s.tiles = []) (t : TileId) : s.tile t = Tile.reset := by simp [State.tile, h, Tab.get]

/-! ### What WellFormed refuses: an ill-formed command for each check, and a well-formed one -/

theorem test_flit_of_255_bytes : (Instr.flitReceive 0 (zeros 255)).wellFormed = false ∧ (Instr.flitReceive 0 (zeros 256)).wellFormed = true := by decide +kernel
theorem test_read_of_4_bytes : (Instr.readClearRegister .host 0x9000010 4).wellFormed = false ∧ (Instr.readClearRegister .host 0x9000010 8).wellFormed = true := by decide
theorem test_write_off_8 : (Instr.registerWrite .host 0x9000012 8 1).wellFormed = false ∧ (Instr.registerWrite .host 0x9000010 8 1).wellFormed = true := by decide
theorem test_run_of_another_tile : (Instr.seqCtrlRun (.shuttle 1) 0 1).wellFormed = false ∧ (Instr.seqCtrlRun (.shuttle 1) 1 1).wellFormed = true := by decide
/-- A message whose LEN is 2 with one byte of data. -/
def shortMsg : Msg := ⟨false, 0, 0, 3, false, false, false, 0, 2, 2, 0, 0, [7]⟩
theorem test_short_messages : (Instr.rd 0 shortMsg 0).wellFormed = false ∧ (Instr.wr 0 shortMsg 0).wellFormed = false ∧ (Instr.atom 0 shortMsg 0).wellFormed = false ∧
    (Instr.wr 0 { shortMsg with len := 1 } 0).wellFormed = true ∧ (Instr.rd 0 { shortMsg with data := [] } 0).wellFormed = true := by decide
theorem test_hello : (Instr.hello ⟨0, 1, 1⟩ (zeros 31) (zeros 64) .observer).wellFormed = false ∧
    (Instr.hello ⟨0, 1, 1⟩ (zeros 32) (zeros 63) .observer).wellFormed = false ∧ (Instr.hello ⟨0, 1, 1⟩ (zeros 32) (zeros 64) .observer).wellFormed = true := by decide
theorem test_attest_nonce : (Instr.attest ⟨0, 1, 1⟩ (zeros 31)).wellFormed = false ∧ (Instr.attest ⟨0, 1, 1⟩ (zeros 32)).wellFormed = true := by decide
theorem test_job_digests : (Instr.jobStart ⟨9, 1, 1⟩ ⟨7, 0, zeros 63, zeros 8, 1, 0, []⟩ 0).wellFormed = false ∧
    (Instr.jobStart ⟨9, 1, 1⟩ ⟨7, 0, zeros 64, zeros 7, 1, 0, []⟩ 0).wellFormed = false ∧
    (Instr.jobStart ⟨9, 1, 1⟩ ⟨7, 0, zeros 64, zeros 8, 1, 0, []⟩ 0).wellFormed = true := by decide
theorem test_enroll : (Instr.enroll ⟨0, 1, 1⟩ (zeros 63) (zeros 32)).wellFormed = false ∧ (Instr.enroll ⟨0, 1, 1⟩ (zeros 64) (zeros 31)).wellFormed = false ∧
    (Instr.enroll ⟨0, 1, 1⟩ (zeros 64) (zeros 32)).wellFormed = true := by decide
theorem test_stripe_32768 : (Instr.snapshotBackgroundCopy 32768).wellFormed = false ∧ (Instr.snapshotBackgroundCopy 32767).wellFormed = true := by decide
theorem test_chunk_15 : (Instr.chunkWr 6 0 [] ⟨1, 0, 0, 15⟩).wellFormed = false ∧ (Instr.chunkWr 6 0 [] ⟨1, 0, 0, 14⟩).wellFormed = true := by decide
theorem test_chunk_of_65537_bytes : (Instr.chunkWr 6 0 (zeros 65537) ⟨1, 0, 0, 0⟩).wellFormed = false := by
  rw [Bool.eq_false_iff]
  intro h
  simp only [Instr.wellFormed, Bool.and_eq_true, decide_eq_true_eq, zeros_length] at h
  exact absurd h.1 (by decide)

/-! ### The manual's own examples -/

/-- Chapter 8: VFMA in binary32. -/
theorem test_vfma_word : fvxBits .vfma { imm := 0, resv := 0, nm := 0, sat := 0, fmt2 := 0, fmt := 2, g := 0, z := 0, pg := 0, vc := 8, vb := 3, va := 2, vd := 8 } =
    0x140000040206243F := by decide
/-- No row of the opcode table gives bits. -/
theorem test_no_word : decodeTableWord 32 0x12345678 = none := rfl
/-- Table 2-9: the sum a × b + c × d in the 128-bit accumulator, without events. -/
def sum29 : Int × Ev := accSum (0, Ev.none) [0x1800000000000000 * -0x2C00000000000000, 0x0800000000000001 * 0x1000000000000000]
theorem test_fx64_sum : wrapN 128 sum29.1 = 0xFC600000000000001000000000000000 ∧ sum29.2 = Ev.none := by decide +kernel
/-- Rounded to the exponents −56, −60 and −62, where it saturates; then into binary32. -/
theorem test_fx64_rounding : wrapN 64 (finRound sum29 (-120) (-56)).1 = 0xFC60000000000000 ∧ wrapN 64 (finRound sum29 (-120) (-60)).1 = 0xC600000000000001 ∧
    wrapN 64 (finRound sum29 (-120) (-62)).1 = 0x8000000000000000 ∧ (finRound sum29 (-120) (-62)).2.sat = true ∧ (finRound sum29 (-120) (-60)).2 = Ev.none := by decide +kernel
theorem test_fx64_to_binary32 : ∀ e ∈ [(0xFC60000000000000, (-56 : Int)), (0xC600000000000001, -60)],
    convertNum (some .fx64) .f32 0 .ieee (decodeNum .fx64 e.2 e.1) = (0xC0680000, Ev.none) := by decide +kernel
/-- Chapter 2: 65,530 (0x477F_FA00) into binary16 by RNE and RTZ, and the value just below 2^−126. -/
theorem test_convert_overflow : convertNum (some .f32) .f16 0 .ieee (decodeFloat .f32 0x477FFA00) = (0x7C00, ⟨true, false⟩) ∧
    convertNum (some .f32) .f16 0 ⟨false, false, true⟩ (decodeFloat .f32 0x477FFA00) = (0x7BFF, Ev.none) := by decide +kernel
theorem test_round_to_normal : roundFloat .f32 .ieee (.fin false (2 ^ 24 - 1) (-150)) = (0x00800000, ⟨false, true⟩) ∧
    roundFloat .f32 ⟨true, false, false⟩ (.fin false (2 ^ 24 - 1) (-150)) = (0, ⟨false, true⟩) := by decide +kernel
/-- Chapter 4: 4096 × 4096 and 127 products of 1. -/
theorem test_tensor_order : dotSum .ieee (Num.fin false (2 ^ 24) 0 :: List.replicate 127 (Num.fin false 1 0)) = (0x4B800020, Ev.none) ∧
    convertNum (some .f32) .f16 0 .ieee (decodeFloat .f32 0x4B800020) = (0x7C00, ⟨true, false⟩) ∧
    convertNum (some .f32) .f16 0 ⟨false, true, false⟩ (decodeFloat .f32 0x4B800020) = (0x7BFF, ⟨true, false⟩) := by decide +kernel
/-- Chapter 6: INT8 IADD of 100 and 50 with SAT 0 and 1; SPLAT of −∞ and 1. -/
theorem test_iadd : elem1 .iadd .i8 false .ieee 0 100 50 0 = (0x96, ⟨true, false⟩) ∧ elem1 .iadd .i8 true .ieee 0 100 50 0 = (0x7F, ⟨true, false⟩) := by decide +kernel
theorem test_splat : elem1 .splat .f32 false .ieee 0x3FE 0 0 0 = (0xFF800000, Ev.none) ∧ elem1 .splat .f32 false .ieee 0x0FE 0 0 0 = (0x3F800000, Ev.none) := by decide +kernel
/-- Chapter 7: CHOL of [[2, 1], [1, 2.5]]. -/
theorem test_chol : cholF 2 (-60) (-61) [(0, (0x2000000000000000, Ev.none)), (1, (0x1000000000000000, Ev.none)), (64, (0x1000000000000000, Ev.none)), (65, (0x2800000000000000, Ev.none))] =
    ⟨none, [[(0, (0x2D413CCCFE779921, Ev.none)), (64, (0x16A09E667F3BCC90, Ev.none)), (65, (0x2D413CCCFE779921, Ev.none))]]⟩ := by decide +kernel
/-- Chapter 3: element (37, 45) of a binary16 panel 3. -/
theorem test_panel : (⟨0, 0, 2, 64, 256⟩ : Panels).at 37 (3 * 64 + 45) = 0x715A := by decide
/-- Chapter 9: the HBM target of 0x0000_0300_1500. -/
theorem test_hbm_target : hbmTarget 0x03001500 = ⟨9, 0, 0, 0x20000⟩ := by decide
/-- Chapter 10: slot 5 reaches slot 10 by port 17, and back. -/
theorem test_span_ports : spanPorts 5 10 = [17] ∧ peerSlot 5 17 = some 10 ∧ peerSlot 10 17 = some 5 := by decide

/-! ### Registers and harts -/

theorem witness_StepRunsTheFrontCommand : State.reset.pending = [] := rfl
theorem witness_UnoccupiedOffsetsIgnoreWrites :
    regAt (BitVec.toNat (0x9010000 : BitVec 48)) = none ∧ regAt (BitVec.toNat (0xFFFFFFFFFFF8 : BitVec 48)) = none := by decide +kernel

/-- Hart 0 with an x register set, running with FVX on, in machine mode. -/
def h0 : HartId := 0
def hartIs (f : Hart → Hart) (s : State) : State := s.modHart h0 f
def goes (x : Hart) : Hart := { x with st := .running, fvctl := 1 }
def hartUp : State := hartIs goes up

theorem witness_MalformedRegisterAccesses_size :
    (4 : Nat) ≠ 8 ∧ (BitVec.toNat (4 : BitVec 48)) % 8 ≠ 0 := by decide +kernel
theorem witness_MalformedRegisterAccesses_user :
    ((hartIs (fun x => { x with machineMode := false }) up).hart h0).machineMode = false ∧ BitVec.toNat (0x10000 : BitVec 48) / 0x10000 ≠ (0 : TileId).toNat := by
  decide +kernel
theorem witness_MalformedRegisterAccesses_global :
    0x9000000 ≤ BitVec.toNat (0x900FFF8 : BitVec 48) ∧ BitVec.toNat (0x900FFF8 : BitVec 48) < 0x9010000 := by decide +kernel
theorem witness_RegisterFields : ∃ r f, regAt R.CKPT_CFG = some r ∧ f ∈ r.fields ∧ R.CKPT_CFG % 8 = 0 ∧ up.reaches (.fw 0) R.CKPT_CFG = true ∧
    Requester.fw 0 ≠ .host ∧ (blockAt R.CKPT_CFG).map Prod.fst ∈ [some Block.nand, some .eth, some .ckpt, some .sec, some .glb] ∧ f.acc = .rw := by
  refine ⟨(regAt R.CKPT_CFG).getD ⟨.ckpt, 0, 0, 0, []⟩, (((regAt R.CKPT_CFG).map (fun r => r.fields.filter (fun f => f.acc == .rw))).getD []).headD ⟨0, 0, .ro, .never, 0⟩, ?_⟩
  decide +kernel
theorem witness_RegisterFields_rc : ∃ r f, regAt R.MON_DROOP = some r ∧ f ∈ r.fields ∧ f.acc = .rc ∧ up.reaches (.fw 0) R.MON_DROOP = true := by
  refine ⟨(regAt R.MON_DROOP).getD ⟨.ckpt, 0, 0, 0, []⟩, (((regAt R.MON_DROOP).map (fun r => r.fields.filter (fun f => f.acc == .rc))).getD []).headD ⟨0, 0, .ro, .never, 0⟩, ?_⟩
  decide +kernel
theorem witness_FabricWindowWrites : 0x1000 ≤ BitVec.toNat (0x1000 : BitVec 24) % 0x400000 ∧ BitVec.toNat (0x401008 : BitVec 24) % 0x400000 < 0x1800 ∧
    (regAt 0x3001000).isSome = true ∧ (regAt 0x3401008).isSome = true ∧ 4 ≤ (4 : FwpId).val ∧ (3 : FwpId).val < 4 := by decide +kernel

/-- An FVX word on FX32 elements, group of one register. -/
def fx : FvxWord := { imm := 0, resv := 0, nm := 0, sat := 0, fmt2 := 0, fmt := 2, g := 0, z := 0, pg := 0, vc := 0, vb := 0, va := 1, vd := 3 }

theorem witness_HartsTrap : hartRuns hartUp h0 = true ∧ fvxOk .vadd { fx with resv := 1 } = false ∧
    hartRuns (hartIs (fun x => { x with st := .running }) up) h0 = true ∧ ((hartIs (fun x => { x with st := .running }) up).hart h0).fvxOn = false := by
  decide +kernel

theorem witness_FvxElementwise : ∀ op ∈ [FvxOp.vadd, .vsub, .vmul, .vfma, .vmax, .vmin, .vneg, .vabs, .vand, .vor, .vxor, .vnot, .vexp2, .vlog2, .vrcp, .vrsqrt],
    fvxRuns hartUp h0 op fx = true ∧ (op.elem (fvxFmt fx).isFloat).isSome = true := by decide +kernel
theorem witness_FvxElementwise_integer : ∀ op ∈ [FvxOp.vmulh, .vshl, .vshr, .vsra],
    fvxRuns hartUp h0 op { fx with fmt := 5 } = true ∧ (op.elem (fvxFmt { fx with fmt := 5 }).isFloat).isSome = true := by decide +kernel
theorem witness_FvxMoves : fvxRuns hartUp h0 .vcls { fx with fmt := 6 } = true ∧ (∀ op ∈ [FvxOp.vsel, .vslide, .vbcast, .vmvsx, .vcompress, .vexpand],
    fvxRuns hartUp h0 op fx = true) ∧ fvxRuns hartUp h0 .vperm { fx with fmt := 0 } = true := by decide +kernel
theorem witness_FvxWidening : fvxRuns hartUp h0 .vwmul { fx with fmt := 1, vd := 4 } = true ∧ fvxRuns hartUp h0 .vwmac { fx with fmt := 7, vd := 4 } = true ∧
    fvxRuns hartUp h0 .vdot { fx with fmt := 4 } = true ∧ fvxRuns hartUp h0 .vfxmac { fx with fmt := 8, vd := 4 } = true ∧
    fvxRuns hartUp h0 .vcvt { fx with fmt2 := 8, vd := 4 } = true ∧ fvxRuns hartUp h0 .vaccout { fx with fmt := 0, fmt2 := 8, va := 2 } = true := by decide +kernel
theorem witness_FvxPredicates : fvxRuns hartUp h0 .vcmp fx = true ∧ grp fx = 1 ∧ fvxRuns hartUp h0 .vcmp { fx with g := 1, va := 2 } = true ∧
    grp { fx with g := 1 } ≠ 1 ∧ (∀ op ∈ [FvxOp.vpand, .vpor, .vpxor, .vpnot], fvxRuns hartUp h0 op { fx with fmt := 0 } = true) ∧
    fvxRuns hartUp h0 .vpwhile fx = true := by decide +kernel
theorem witness_FvxScalars : (∀ op ∈ [FvxOp.vredsum, .vredmax, .vredmin, .vmvxs, .vpcnt], fvxRuns hartUp h0 op fx = true) ∧
    ((List.range (fvxCount fx)).filter ((hartUp.hart h0).active fx.pg.toNat (fvxFmt fx).bytes)) ≠ [] ∧ fx.imm.toNat < fvxCount fx := by decide +kernel

/-- The words of the vector accesses: 16 elements of 4 bytes from address 0. -/
def vacc (op : FvxOp) : FvxWord :=
  match op with
  | .vldx | .vstx => { fx with fmt2 := 5 }
  | .vldseg | .vstseg => { fx with vc := 2 }
  | .vldp | .vstp => { fx with fmt := 0 }
  | .vcas => { fx with fmt := 6, imm := 1 }
  | _ => fx

theorem witness_FvxLoads : ∀ op ∈ [FvxOp.vld, .vlds, .vldx, .vldseg, .vldbc],
    fvxRuns hartUp h0 op (vacc op) = true ∧ op.loads = true ∧ (hartUp.hart h0).fvxSlots op (vacc op) ≠ [] ∧
    (∀ j ∈ (hartUp.hart h0).fvxSlots op (vacc op), ((hartUp.hart h0).fvxAddr op (vacc op) (j / 16) (j % 16)).toNat % 4 = 0) ∧
    ownEls hartUp h0 (((hartUp.hart h0).fvxSlots op (vacc op)).flatMap (fun j => elParts ((hartUp.hart h0).fvxAddr op (vacc op) (j / 16) (j % 16)) 4)) = true := by
  decide +kernel
theorem witness_quiet : memoriesWf up ∧ memoriesWf hartUp ∧ cachesInDram hartUp = true ∧ memQuiet up = true := by unfold memoriesWf; decide +kernel
theorem witness_FvxStores : ∀ op ∈ [FvxOp.vst, .vsts, .vstx, .vstseg],
    fvxRuns hartUp h0 op (vacc op) = true ∧ op.stores = true ∧ (hartUp.hart h0).fvxSlots op (vacc op) ≠ [] ∧
    (∀ j ∈ (hartUp.hart h0).fvxSlots op (vacc op), ((hartUp.hart h0).fvxAddr op (vacc op) (j / 16) (j % 16)).toNat % 4 = 0) ∧
    ownEls hartUp h0 (((hartUp.hart h0).fvxSlots op (vacc op)).flatMap (fun j => elParts ((hartUp.hart h0).fvxAddr op (vacc op) (j / 16) (j % 16)) 4)) = true := by
  decide +kernel
theorem witness_FvxStores_predicate : fvxRuns hartUp h0 .vldp (vacc .vldp) = true ∧ fvxRuns hartUp h0 .vstp (vacc .vstp) = true ∧
    fvxRuns hartUp h0 .vcas (vacc .vcas) = true ∧ ownEls hartUp h0 [⟨0, 8⟩] = true ∧ ownEls hartUp h0 [⟨0, 16⟩] = true := by decide +kernel

/-- A load or store of a word at the address in x1. -/
def lw : CoreMem := { size := .w, signed := true, fp := false, reg := 5, base := 1, imm := 0, short := false }
def hartAt (a : BitVec 64) : State := hartIs (fun x => (goes x).setX 1 a) up

theorem witness_HartsTrap_misaligned : hartRuns (hartAt 2) h0 = true ∧ (((hartAt 2).hart h0).xreg 1).toNat % sizeBytes .w ≠ 0 ∧
    coreMemBad lw false = false ∧ coreMemBad { lw with size := .d } true = false := by decide +kernel
theorem witness_CoreLoadsAndStores : hartRuns (hartAt 0x8000) h0 = true ∧ coreMemBad lw false = false ∧ coreMemBad { lw with size := .h, fp := true } false = false ∧
    ownEls (hartAt 0x8000) h0 [⟨0x8000, 4⟩] = true ∧ ownEls (hartAt 0x0F0000000000) h0 [⟨0x0F0000000000, 4⟩] = true ∧
    cachesInDram (hartAt 0x8000) = true ∧ memoriesWf (hartAt 0x8000) ∧ coreMemBad lw true = false := by unfold memoriesWf; decide +kernel

def amoAdd : AmoInst := { op := .add, dword := true, rd := 5, rs1 := 1, rs2 := 2 }
def reserved : State := hartIs (fun x => { x with resv := some (0x8000, 8) }) (hartAt 0x8000)
theorem witness_CoreAtomics : hartRuns (hartAt 0x8000) h0 = true ∧ ownEls (hartAt 0x8000) h0 [⟨0x8000, 8⟩] = true ∧ localAddr 0x8000 < sramWindow ∧
    hartRuns reserved h0 = true ∧ (reserved.hart h0).resv = some (localAddr 0x8000, 8) ∧ ((hartAt 0x8000).hart h0).resv ≠ some (localAddr 0x8000, 8) ∧
    memoriesWf reserved ∧ cachesInDram reserved = true := by unfold memoriesWf; decide +kernel
/-- Thread 1 of core 0 is ready behind thread 0. -/
def twoThreads : State := hartUp.modHart 1 (fun x => { x with st := .ready })
theorem witness_ThreadsAndFence : hartRuns twoThreads h0 = true ∧ (twoThreads.hart h0).machineMode = true ∧ nextThread twoThreads h0 = some 1 ∧
    ∀ i ∈ List.range 8, i ≠ 0 → (twoThreads.hart (hartOf 0 i)).st ≠ .running := by decide +kernel
theorem witness_ThreadsAndFence_others : (∀ k, coreOf k = coreOf h0 → k ≠ h0 → (twoThreads.hart k).st ≠ .running) ∧ nextThread twoThreads h0 ≠ none := by
  decide +kernel
/-- The f registers are on. -/
def floatOn : State := hartIs (fun x => { goes x with mstatus := 0x6000 }) up
theorem witness_Float : hartRuns floatOn h0 = true ∧ (floatOn.hart h0).fpOff = false ∧ hartRuns hartUp h0 = true ∧ (hartUp.hart h0).fpOff = true := by decide +kernel
/-- With FS off an f register takes no load, and CSR 3 does not exist; with FS on fcsr keeps its eight bits. -/
theorem test_float_off : ((hartUp.coreLoad h0 { lw with fp := true }).hart h0).mcause = 2 ∧
    ((hartUp.csrAccess h0 ⟨.rw, true, 3, 0, 31⟩).hart h0).mcause = 2 ∧ ((floatOn.csrAccess h0 ⟨.rw, true, 3, 0, 31⟩).hart h0).fcsr = 31 := by decide +kernel
theorem witness_CsrAccess : hartRuns hartUp h0 = true ∧ (hartUp.hart h0).machineMode = true ∧ (hartUp.hart h0).fvxOn = true ∧
    hartRuns (hartIs (fun x => { x with st := .running, machineMode := false }) up) h0 = true ∧
    ((hartIs (fun x => { x with st := .running, machineMode := false }) up).hart h0).machineMode = false ∧
    ((hartIs (fun x => { x with st := .running, machineMode := false }) up).hart h0).fvxOn = false := by decide +kernel

/-- A global address of node 6. -/
def far6 (a : BitVec 64) : BitVec 64 := 0x0006000000000000 + a
def farHart (a : BitVec 64) : State := hartIs (fun x => (goes x).setX 1 (far6 a)) net
theorem witness_RemoteAmo : hartRuns (farHart 64) h0 = true ∧ bitsOf (far6 64) 63 62 = 0 ∧ (farHart 64).isLocal 6 = false ∧ (farHart 64).inDomain 6 = false ∧
    BitVec.ofNat 14 (bitsOf (far6 64) 61 48) = (6 : NodeId) ∧ (farHart 64).replaying = false ∧ (farHart 64).flights (coreOf h0) < 64 ∧
    canAsk (farHart 64) 6 4 3 (localAddr (far6 64)) 24 = true ∧ (far6 64).toNat % 8 = 0 ∧ (far6 65).toNat % 4 ≠ 0 ∧
    ({ farHart 64 with mustSync := false } : State).mustSync = false ∧ canAsk { farHart 64 with mustSync := false } 6 4 3 (localAddr (far6 64)) 24 = true := by
  decide +kernel

/-- Hart 0 parked on a load of x5 from node 6 whose reply has come, or has failed. -/
def parked (got : List Host.Cell) (fails : List (Nat × Nat × Status)) : State :=
  hartIs (fun x => { x.setX 1 (far6 64) with st := .parked, park := some ⟨.load lw, [], got, fails⟩ }) net
def replyCells : List Host.Cell := (List.range 4).map (fun j => (farKey 6 64 + j, 7))
theorem witness_ThreadResume : (parked replyCells []).ready 12 = true ∧ coreMemBad lw false = false ∧ (parked replyCells []).replaying = false ∧
    (parked replyCells []).isLocal 6 = false ∧ (parked replyCells []).inDomain 6 = false ∧
    (∀ j < 4, (Tab.find replyCells (farKey 6 64 + j)).isSome = true) ∧ ((parked replyCells []).hart h0).park = some ⟨.load lw, [], replyCells, []⟩ ∧
    ((parked [] [(farKey 6 64, 4, St.timeout)]).hart h0).park = some ⟨.load lw, [], [], [(farKey 6 64, 4, St.timeout)]⟩ ∧
    ((List.range 8).all (fun i => ((parked replyCells []).hart (hartOf 0 i)).st != .running && ((parked replyCells []).hart (hartOf 0 i)).st != .ready)) = true ∧
    ((hartIs (fun x => { x with st := .wfi }) up).hart h0).st = .wfi := by decide +kernel
theorem witness_GoStarts : bitN (BitVec.toNat (0x8001 : BitVec 64)) 0 = true ∧ up.ready 12 = true ∧ up.bit F.CPU_START_STARTED = false ∧
    (up.setFld F.CPU_START_STARTED 1).bit F.CPU_START_STARTED = true := by decide +kernel

/-! ### Memory -/

theorem witness_MemWrite : memQuiet up = true ∧ memoriesWf up ∧ up.wcb = [] ∧ up.memStatus 0x0F7FFFFFF8 8 = St.ok ∧ up.memStatus 0x0F0000000000 8 = St.ok ∧
    State.reset.memStatus 0 8 ≠ St.ok ∧ up.memStatus (2 ^ 48 - 8) 8 ≠ St.ok := by unfold memoriesWf; decide +kernel
/-- Memory controller 0 with a scrub period and a corrected-error count of 3 in the first second. -/
def scrubbing : State := { sets up [(cfld 0 F.MEM_SCRUB_PERIOD, 1), (cfld 0 F.MEM_SCRUB_CE_LIMIT, 2)] with ceCount := [(0, 0, 3, false)] }
theorem witness_MemoryErrors : memQuiet up = true ∧ up.memStatus 0x2000 64 = St.ok ∧ 0x2000 < sramWindow ∧ up.bit (cfld (ctrlOf 0x2000) F.MEM_ERR_ADDR_VALID) = false ∧
    up.memStatus 0x0F0000000000 8 = St.ok ∧ State.reset.memStatus 0x2000 64 ≠ St.ok ∧
    scrubbing.fld (cfld 0 F.MEM_SCRUB_PERIOD) ≠ 0 ∧ scrubbing.ready 2 = true ∧ scrubbing.memStatus 0 1 = St.ok ∧ ctrlOf 0 = 0 ∧ eccUnit 0 ∉ scrubbing.poison ∧
    Tab.find scrubbing.ceCount 0 = some (scrubbing.clock.ns.toNat / 1000000000, 3, false) ∧ scrubbing.fld (cfld 0 F.MEM_SCRUB_CE_LIMIT) < 3 ∧
    2 ≤ scrubbing.fld (cfld 0 F.MEM_SCRUB_CE_LIMIT) ∧ State.reset.lpReady = false := by decide +kernel
/-- One write-combining entry of 2 bytes at controller 0. -/
def combining : State := { up with wcb := [(0, [⟨0, [(0, 1), (5, 2)], 0⟩])] }
theorem witness_Draining : memQuiet combining = true ∧ memoriesWf combining ∧ wcbOk combining 0 ∧ combining.wcbOf 0 ≠ [] ∧ bitN (BitVec.toNat (1 : BitVec 64)) 0 = true := by
  unfold memoriesWf wcbOk; decide +kernel
def nandUp : State := up.setFld F.NAND_STAT_READY 1
theorem witness_Nand : nandUp.bit F.NAND_STAT_READY = true ∧ nandUp.flash.wf = true ∧ nandUp.flashStatus .bsc 3906249999 (ceilDiv 4096 4096) = St.ok ∧
    nandUp.fld F.NAND_WEAR_SPARE ≠ 0 ∧ nandUp.bit F.NAND_STAT_READ_ONLY = false ∧ (nandUp.setFld F.NAND_WEAR_SPARE 0).fld F.NAND_WEAR_SPARE = 0 ∧
    (nandUp.setFld F.NAND_STAT_READ_ONLY 1).bit F.NAND_STAT_READ_ONLY = true ∧ nandUp.flashStatus .bsc 3906249999 2 ≠ St.ok := by decide +kernel

/-! ### Shuttles -/

def t0 : TileId := 0
def tileIs (f : Tile → Tile) (s : State) : State := s.modTile t0 f
/-- Tile 0 with one partition of every engine; its shuttle runs, at address 0, with x1 to x3 as given. -/
def tileUp : State := tileIs (fun x => { x with parts := [⟨0, 0x800000, 255⟩] }) (sets up [(tfld t0 F.SEQ_CTRL_RUN, 1), (tfld t0 F.SEQ_CTRL_HALTED, 0)])
def regs3 (a b c : Word) (s : State) : State := tileIs (fun x => ((x.setX 1 a).setX 2 b).setX 3 c) s
def r0 : RInst := ⟨0, 5, 1, 2⟩

theorem witness_Eissue : shuttleFree (regs3 64 0 0 tileUp) t0 4 = true ∧ (regs3 64 0 0 tileUp).haltedNode = false ∧ r0.funct7.toNat < 8 ∧
    (((regs3 64 0 0 tileUp).tile t0).xreg r0.rs1).toNat = 64 ∧ ((regs3 64 0 0 tileUp).tile t0).room 0 = true ∧ ((regs3 64 0 0 tileUp).tile t0).room 7 = true ∧
    (descDg 0 ((regs3 64 0 0 tileUp).sram t0 64 64) && ((regs3 64 0 0 tileUp).tile t0).bankStall) = false := by decide +kernel
/-- The tensor queue is full. -/
def fullQueue : State := tileIs (fun x => x.setQueue 0 (List.replicate 32 ⟨0, [], false, none⟩)) tileUp
theorem witness_Eissue_full : shuttleFree fullQueue t0 4 = true ∧ (fullQueue.tile t0).room 0 = false := by decide +kernel
theorem witness_Eissue_traps : shuttleFree (regs3 0x800000 0 0 tileUp) t0 4 = true ∧ shuttleFree (regs3 0x7FFFFF 0 0 tileUp) t0 4 = true ∧
    (((regs3 0x7FFFFF 0 0 tileUp).tile t0).xreg 1).toNat % 64 ≠ 0 ∧ 0x800000 ≤ (((regs3 0x800000 0 0 tileUp).tile t0).xreg 1).toNat ∧
    (((regs3 0x800000 0 0 tileUp).tile t0).xreg 1).toNat % 64 = 0 := by decide +kernel
/-- 100 tickets of the tensor engine have been issued and number 99 has completed. -/
def issued100 : State := tileIs (fun x => { x with issued := [(0, 100)], hist := [(0, [(99, 0)])] }) tileUp
theorem witness_Ewait : shuttleFree (regs3 100 0 0 issued100) t0 4 = true ∧ ((regs3 100 0 0 issued100).tile t0).tickets 0 = 100 ∧
    ((regs3 99 0 0 issued100).tile t0).statusOf 0 99 = some 0 ∧ ((regs3 98 0 0 issued100).tile t0).statusOf 0 98 = none ∧
    (((regs3 35 0 0 issued100).tile t0).xreg 1).toNat + 64 < 100 ∧ 100 ≤ (((regs3 36 0 0 issued100).tile t0).xreg 1).toNat + 64 := by decide +kernel
def ewaiting : State := tileIs (fun x => { x with waiting := some (.ticket 0 99) }) (regs3 99 0 0 issued100)
theorem witness_Ewait_waiting : ewaiting.shuttleRuns t0 = true ∧ (ewaiting.tile t0).pc.toNat + 4 ≤ 0x10000 ∧
    (ewaiting.tile t0).waiting = some (.ticket r0.funct7 ((ewaiting.tile t0).xreg r0.rs1)) ∧ (ewaiting.tile t0).statusOf 0 99 = some 0 := by decide +kernel
theorem witness_Efence : shuttleFree (regs3 1 0 0 tileUp) t0 4 = true ∧ ((regs3 1 0 0 tileUp).tile t0).engineIdle 0 = true ∧
    shuttleFree (regs3 1 0 0 fullQueue) t0 4 = true ∧ ((regs3 1 0 0 fullQueue).tile t0).engineIdle 0 = false := by decide +kernel

/-- Event 5 (KIND 1) at 100 ns of the pick, event 7 a mark. -/
def timetable5 (s : State) : State := { s with clock := { s.clock with timetable := [⟨100, 5, 1, 0, 0⟩, ⟨200, 7, 4, 0, 0⟩] } }
/-- Pick 3 runs and the shuttle's current pick is 3. -/
def inPick3 : State := tileIs (fun x => { x with cur := some 3 }) (timetable5 (tileUp.setFld F.TIME_PICK_PICK 3))
theorem witness_ShuttleCounters : shuttleFree (regs3 63 5 0 inPick3) t0 4 = true ∧ inPick3.eventUndefined 5 = false ∧ inPick3.eventUndefined 6 = true ∧
    inPick3.eventUndefined 127 = true ∧ 0 ≤ (inPick3.arrival t0 63 - (0 : Word)).toInt ∧ (inPick3.arrival t0 63 - (5 : Word)).toInt < 0 ∧
    inPick3.targetFired ((inPick3.tile t0).eventPick 5) 5 = false := by decide +kernel
theorem witness_Twait : inPick3.shuttleRuns t0 = true ∧ (inPick3.tile t0).pc.toNat + 4 ≤ 0x10000 ∧ inPick3.drainHalts t0 5 = false ∧
    (inPick3.tile t0).waiting = none ∧ (inPick3.tile t0).eventPick 5 = some 3 ∧ inPick3.eventFired 3 5 = false ∧
    ({ inPick3 with clock := { inPick3.clock with fired := [5] } } : State).eventFired 3 5 = true ∧ tileUp.eventUndefined 0 = false ∧
    (tileUp.tile t0).eventPick 0 = none ∧ (tileUp.tile t0).waiting = none ∧ inPick3.eventUndefined 6 = true := by decide +kernel
theorem witness_Twait_released : ((tileIs (fun x => { x with waiting := some (.released 5 3) }) inPick3).tile t0).waiting = some (.released 5 3) ∧
    (tileIs (fun x => { x with waiting := some (.released 5 3) }) inPick3).drainHalts t0 5 = false := by decide +kernel

/-- A draft without parents, of one member. -/
def draft1 : Draft :=
  { jobTag := 7, total := 512, digest := List.replicate 64 0, mapDigest := List.replicate 8 0, nmembers := 1, ackTimeout := 50, source := none, root := true,
    chains := [0], session := 9, got := 514, mapGot := 2, arrived := [], forwarded := true, digestAt := some 0, outcome := none, acks := [], acked := false,
    map := [5], member := 0, loaded := true, windows := [], snapshotMap := [], ring := (0, 0), nent := 0, dids := [], key := 0, firstPick := 1,
    drainLast := none, drainAsked := 0, drainDone := [], drained := false, tearDone := [], scrub := false }
/-- Chapter 14: chunk 1 of stripe 3 of slot 5 lies at slot 4, P of the stripe at slot 1. -/
theorem test_holders : ({ draft1 with nmembers := 16, member := 5 } : Draft).holder 5 3 1 = some 4 ∧
    ({ draft1 with nmembers := 16, member := 5 } : Draft).holder 5 3 13 = some 1 := by decide
theorem witness_Twait_drain : ({ inPick3 with draft := some { draft1 with drainLast := some (3, false) } } : State).drainHalts t0 0 = true ∧
    ({ inPick3 with draft := some { draft1 with drainLast := some (3, false) } } : State).eventUndefined 0 = false := by decide +kernel

/-- A word access at the address in x1. -/
def sw : ShMem := { store := true, size := .w, signed := true, reg := 2, base := 1, imm := 0, short := false }
def latched (a : Word) : State := tileIs (fun x => { x with wlatch := some (0x100, 9), rlatch := some (0x100, 8) }) (regs3 a 0 0 tileUp)
theorem witness_ShuttleRegisters : shuttleFree (latched 0x40000104) t0 (shLen sw) = true ∧ 0x40000000 ≤ (0x40000104 : Word).toNat ∧
    (0x40000104 : Word).toNat < 0x40010000 ∧ (0x40000104 : Word).toNat % 8 = 4 ∧ ((latched 0x40000104).tile t0).wlatch = some (0x100, 9) ∧
    ((latched 0x40000104).tile t0).rlatch = some (0x100, 8) ∧ (0x4000FFF8 : Word).toNat % 8 = 0 ∧ shuttleFree (latched 0x4000FFF8) t0 (shLen sw) = true ∧
    ((latched 0x4000FFFC).tile t0).wlatch ≠ some (0xFFF8, 9) := by decide +kernel
theorem witness_ShuttleLoads : shuttleFree (regs3 0x1FFFC 0 0 tileUp) t0 (shLen sw) = true ∧ shuttleFree (regs3 0x807FFFFC 0 0 tileUp) t0 (shLen sw) = true ∧
    (0x807FFFFC : Word).toNat < 0x80800000 ∧ tileUp.sramBad t0 0x7FFFFC 4 = false ∧ memoriesWf tileUp ∧ tileUp.poison = [] ∧ cachesInDram tileUp = true ∧
    ({ tileUp with poison := [sramAddr t0 0] } : State).sramBad t0 4 4 = true ∧ ¬(0x80000000 ≤ (0x20000 : Word).toNat ∧ (0x20000 : Word).toNat < 0x80800000) := by
  unfold memoriesWf; decide +kernel
def keptRun : State := up.setFld (tfld t0 F.SEQ_CTRL_RUN) 1
theorem witness_SeqCtrl : bitN (BitVec.toNat (1 : BitVec 64)) 0 = true ∧ up.shuttleRuns t0 = false ∧ up.tileReady t0 = true ∧ State.reset.shuttleRuns t0 = false ∧
    State.reset.tileReady t0 = false ∧ bitN (BitVec.toNat (0 : BitVec 64)) 0 = false ∧ keptRun.bit (tfld t0 F.SEQ_CTRL_RUN) = true ∧ keptRun.shuttleRuns t0 = false ∧
    keptRun.tileReady t0 = true := by decide +kernel

/-! ### Engines -/

/-- A number of n bytes for each entry, in order. -/
def fields (l : List (Nat × Nat)) : List Byte := l.flatMap (fun e => leBytes e.1 e.2)
/-- Stores bytes in tile 0's SRAM. -/
def inSram (o : Nat) (d : List Byte) (s : State) : State := { s with mem := s.mem.writeN (sramAddr t0 o) d }
def queued (n : Nat) (d : List Byte) (bad : Bool) (s : State) : State := tileIs (fun x => x.setQueue n [⟨3, d, bad, none⟩]) s

/-- A copy descriptor: source, destination, LEN 64, ROWS 1, OP, IDX, arrival counter 63 of tile 0, completion counter 1. -/
def copyDesc (src dst op idx : Nat) : List Byte :=
  fields [(8, src), (8, dst), (4, 64), (2, 1), (1, op), (1, 0), (4, 64), (4, 64), (8, idx), (2, 0x8000), (1, 0), (1, 0xBF), (1, 0x81), (19, 0)]
def copying (d : List Byte) : State :=
  tileIs (fun x => { x with cq := [(0, [⟨3, d, false, .queued, St.ok, false, 0, [], [], false⟩])] }) tileUp
theorem witness_Copies : ∀ op ∈ [1, 2, 3, 4],
    let s := copying (copyDesc 0x0F0000000000 0x2000 op 0x400)
    let d := CopyDesc.of (copyDesc 0x0F0000000000 0x2000 op 0x400)
    let rows := d.allRows (if d.op = 2 ∨ d.op = 3 then s.sram t0 d.idx (8 * d.rows) else [])
    d.op = op ∧ (s.tile t0).copyQ 0 ≠ [] ∧ s.tileReady t0 = true ∧ s.replaying = false ∧ memQuiet s = true ∧ s.copyOk t0 d = true ∧ 0 < d.len ∧ 0 < d.rows ∧
    d.arrEn = true ∧ d.arrLocal = true ∧ ownRows s rows = true ∧ s.rowsStatus d rows = St.ok := by decide +kernel
theorem witness_Copies_quiet : memoriesWf (copying []) ∧ (∀ m, wcbOk (copying []) m) := by unfold memoriesWf wcbOk; decide +kernel
def routing : State :=
  sets (copying (copyDesc 0 0x100 5 0)) [(F.SEQ_ROUTE_VALID.plus (tileBase t0), 1), (F.SEQ_ROUTE_DEST_SIZE.plus (tileBase t0), 8)]
theorem witness_Copies_route : (CopyDesc.of (copyDesc 0 0x100 5 0)).op = 5 ∧ routing.copyOk t0 (CopyDesc.of (copyDesc 0 0x100 5 0)) = true ∧
    routing.memStatus (sramAddr 0 0x100) 64 = St.ok ∧ (copying (copyDesc 0 0x100 5 0)).copyOk t0 (CopyDesc.of (copyDesc 0 0x100 5 0)) = false := by decide +kernel
def copied (st : Status) : State := tileIs (fun x => { x with cq := [(0, [⟨3, copyDesc 0 0x2000 1 0, false, .moved, st, false, 0, [], [], false⟩])] }) tileUp
theorem witness_CopyComplete : (((copied St.ok).tile t0).copyQ 0).map CopyEntry.phase = [CopyPhase.moved] ∧ ((copied St.ok).tile t0).statusOf 4 3 = none ∧
    (((copied St.badDescriptor).tile t0).copyQ 0).map CopyEntry.status = [St.badDescriptor] ∧ St.badDescriptor ≠ St.ok := by decide +kernel

/-- MATMUL of one element: A at 0, B at 8,192, D at 16,384, record at 24,576, binary32. -/
def matmul1 (m : Nat) : List Byte :=
  fields [(4, 0), (4, 8192), (4, 0), (4, 16384), (2, m), (2, 1), (2, 1), (2, 1), (2, 1), (2, 0), (2, 1), (1, 0x22), (1, 0), (1, 0), (1, 0), (1, 1), (1, 0),
    (4, 24576), (8, 2 ^ 64 - 1), (8, 2 ^ 64 - 1), (5, 0), (3, 0)]
theorem witness_Tensor : (queued 0 (matmul1 1) false tileUp).engHead t0 0 = some ⟨3, matmul1 1, false, none⟩ ∧
    (queued 0 (matmul1 1) false tileUp).tensorCheck t0 (TensorDesc.of (matmul1 1)) = none ∧ memQuiet tileUp = true ∧
    (queued 0 (matmul1 8193) false tileUp).tensorCheck t0 (TensorDesc.of (matmul1 8193)) = some 0x0101 ∧
    (queued 0 (matmul1 1) true tileUp).engHead t0 0 = some ⟨3, matmul1 1, true, none⟩ := by decide +kernel
/-- One ADD stage on binary32 from T1 and T2 into T3. -/
def chain1 (op : Nat) : List Byte :=
  fields [(1, 0x11), (1, 0), (2, 1), (16, 0), (4, 24576), (4, 0), (4, 0), (4, op * 2 ^ 25 + 2 * 2 ^ 20 + 1 * 2 ^ 15 + 2 * 2 ^ 10 + 3), (28, 0)]
theorem witness_Element : (queued 1 (chain1 0x30) false tileUp).engHead t0 1 = some ⟨3, chain1 0x30, false, none⟩ ∧
    (queued 1 (chain1 0x30) false tileUp).chainCheck t0 (ChainDesc.of (chain1 0x30)) = none ∧ (ChainDesc.of (chain1 0x30)).count = 1 ∧
    (∃ g, (ChainDesc.of (chain1 0x30)).stages = [g] ∧ g.op ∉ [ElemOp.cat, .rbshr, .rmax, .rmin, .rsum, .compress, .expand, .causal] ∧ g.op = .fadd) ∧
    (ChainDesc.of (chain1 0x30)).ins = [] ∧ (ChainDesc.of (chain1 0x30)).outs = [] ∧ (ChainDesc.of (chain1 0x30)).auxKind = 0 ∧
    (ChainDesc.of (chain1 0x30)).dgEn = false ∧ memoriesWf (queued 1 (chain1 0x30) false tileUp) ∧
    (queued 1 (chain1 0x7F) false tileUp).chainCheck t0 (ChainDesc.of (chain1 0x7F)) = some St.badDescriptor := by
  refine ⟨by decide +kernel, by decide +kernel, by decide +kernel, ⟨(ChainDesc.of (chain1 0x30)).stages.headD ⟨.fadd, .f32, false, 0, 0, 0, 0, 0⟩, by decide +kernel⟩,
    by decide +kernel, by decide +kernel, by decide +kernel, by decide +kernel, by unfold memoriesWf; decide +kernel, by decide +kernel⟩

/-- A dense solver operation of size 1: S0 to S3 at 0, 8,192, 12,288 and 16,384 as far as the operation has them. -/
def dense1 (op m : Nat) : List Byte :=
  let has := fun (k : Nat) => decide (k < (if op = 1 ∨ op = 2 then 2 else if op = 3 then 4 else 3))
  fields [(4, 0), (4, 8192), (4, if has 2 then 12288 else 0), (4, if has 3 then 16384 else 0), (8, 0), (1, op), (1, 1), (1, m), (1, 0), (2, 1), (2, 0), (4, 24576), (28, 0)]
theorem witness_Solver_dense : ∀ op ∈ [1, 2, 3, 4, 5, 6],
    let d := dense1 op (if op = 4 ∨ op = 6 then 1 else 0)
    (queued 2 d false tileUp).engHead t0 2 = some ⟨3, d, false, none⟩ ∧ (SolvDesc.of d).op = op ∧ (queued 2 d false tileUp).denseCheck t0 (SolvDesc.of d) = none ∧
    (queued 2 (dense1 op 65) false tileUp).denseCheck t0 (SolvDesc.of (dense1 op 65)) ≠ none := by decide +kernel

/-- A pattern program of one supernode of one row, with one factor operation; its TAG stands as R279 gives it. -/
def patternHead : List Byte := fields [(4, 0x50415454), (2, 1), (1, 1), (1, 0)]
def patternBody : List Byte :=
  fields [(4, 264), (4, 1), (2, 1), (2, 1), (4, 1), (4, 0), (4, 0), (4, 0), (20, 0),
    (4, 128), (4, 192), (4, 256), (4, 256), (4, 256), (4, 256), (4, 256), (4, 128), (4, 0x10000), (4, 0x11000), (4, 0x12000), (4, 0x13000), (4, 64), (2, 1), (10, 0),
    (4, 0), (1, 1), (59, 0), (64, 0), (1, 1), (7, 0)]
def pattern1 : List Byte := patternHead ++ fields [(8, 15940501279138308575)] ++ patternBody
def patDesc (op crec : Nat) : List Byte :=
  fields [(4, if op = 8 then 0x14000 else 0), (20, 0), (1, op), (1, 0), (1, 0), (1, 0), (2, 1), (2, if op = 8 then 1 else 0), (4, crec), (4, 0x8000), (24, 0)]
def pat (op crec : Nat) : State := queued 2 (patDesc op crec) false (inSram 0x8000 pattern1 tileUp)
theorem witness_Solver_pattern : ∀ op ∈ [7, 8], (pat op 24576).engHead t0 2 = some ⟨3, patDesc op 24576, false, none⟩ ∧ (SolvDesc.of (patDesc op 24576)).op = op ∧
    (pat op 24576).solvFields t0 (SolvDesc.of (patDesc op 24576)) = true ∧ ((pat op 24576).tile t0).inSolver 24576 64 = true ∧
    (pat op 24576).patCheck t0 (SolvDesc.of (patDesc op 24576)) = none ∧
    (pat op 0x8000).patCheck t0 (SolvDesc.of (patDesc op 0x8000)) = some 0x0309 := by decide +kernel
theorem witness_Solver_program : patternOk (tileUp.tile t0) pattern1 = true ∧ memQuiet (pat 8 24576) = true ∧
    (pat 8 24576).sram t0 0x8000 ((pat 8 24576).sramNat t0 0x8010 4) = pattern1 := by decide +kernel
theorem witness_Solver_wf : memoriesWf (pat 8 24576) := by unfold memoriesWf; decide +kernel

/-- A running operation with its record at the top of SRAM. -/
def running (n : Nat) (st : Status) : State := tileIs (fun x => x.setRun n (some (EngRun.failed ⟨3, [], false, none⟩ st (some 0x7FFFC0)))) tileUp
theorem witness_Completions : ∀ n ∈ [0, 1, 2, 3], (((running n St.ok).tile t0).running n).map (fun r => (r.ticket, r.status)) = some (3, St.ok) ∧
    ((running n St.ok).tile t0).lateOwed = [] ∧ ((running n St.ok).tile t0).statusOf n 3 = none := by decide +kernel
theorem witness_Completions_failed : ∀ n ∈ [0, 1, 2, 3],
    (((running n St.badDescriptor).tile t0).running n).map (fun r => (r.status, r.crec)) = some (St.badDescriptor, some 0x7FFFC0) := by decide +kernel
theorem witness_Completions_none : ∀ n ∈ [0, 1, 2, 3], (tileUp.tile t0).running n = none := by decide +kernel
theorem witness_Completions_quiet : memoriesWf (running 0 St.ok) ∧ memQuiet (running 0 St.ok) = true ∧ solverErr St.badDescriptor = true := by
  unfold memoriesWf; decide +kernel

/-- Stack 0 of tile 0 with 64 KiB in HBM3 and none in LPDDR5X, and its entries. -/
def bobbin (l : List BobEntry) : State := tileIs (fun x => { x with bobStacks := [(0, l)] }) (tileUp.setFld (tfld t0 F.BOBBIN_HBM_SIZE) 1)
/-- PUSH (1), POP (2) or RESET (3) of 64 bytes with tag 7. -/
def bobDesc (op drop : Nat) : List Byte := fields [(4, 64), (4, 64), (2, 7), (1, op), (1, drop), (4, 24576), (48, 0)]
def bobOp (op drop : Nat) (l : List BobEntry) : State := queued 3 (bobDesc op drop) false (bobbin l)
theorem witness_Bobbins : (bobOp 1 0 []).engHead t0 3 = some ⟨3, bobDesc 1 0, false, none⟩ ∧
    (∀ op ∈ [1, 2, 3], (bobOp op 0 []).bobCheck t0 (BobDesc.of (bobDesc op 0)) = none ∧ (BobDesc.of (bobDesc op 0)).op = op) ∧
    (bobOp 1 1 []).bobCheck t0 (BobDesc.of (bobDesc 1 1)) = none ∧
    bobPlace ((bobOp 1 0 []).hbmShare t0) ((bobOp 1 0 []).lpShare t0) (bobOcc 64 false) [] = some 0 ∧ memQuiet (bobbin []) = true ∧ (bobbin []).wcb = [] ∧
    (bobbin []).memStatus ((bobbin []).bobAddr t0 0 0) 128 = St.ok ∧
    bobPlace ((bobOp 1 0 []).hbmShare t0) ((bobOp 1 0 []).lpShare t0) (bobOcc 64 false) [⟨65280, 256, 7, 64, false⟩] = none := by decide +kernel
theorem witness_Bobbins_pop : ((bobOp 2 0 [⟨0, 256, 7, 64, false⟩]).tile t0).bobStack 0 = [⟨0, 256, 7, 64, false⟩] ∧ (BobDesc.of (bobDesc 2 0)).tag = 7 ∧
    (BobDesc.of (bobDesc 2 0)).len = 64 ∧ (bobOp 2 0 [⟨0, 256, 7, 64, false⟩]).bobCheck t0 (BobDesc.of (bobDesc 2 0)) = none ∧
    memoriesWf (bobOp 2 0 [⟨0, 256, 7, 64, false⟩]) := by unfold memoriesWf; decide +kernel

/-- A schedule header at 0x1_0000 with one FWD entry at SRAM 0x1000, whose descriptor is for the element engine. -/
def sched : State :=
  tileIs (fun x => { x with cur := some 3, smem := x.smem.writeN 0x10000 (fields [(1, 2), (1, 1), (1, 0), (1, 1), (4, 0x1000), (8, 0), (2, 1), (46, 0)]) })
    (inSram 0x1000 (fields [(2, 0), (1, 0x11), (61, 0)] ++ chain1 0x30) tileUp)
theorem witness_Schedule : sched.shuttleRuns t0 = true ∧ (sched.tile t0).waiting = none ∧ (sched.tile t0).cur.isSome = true ∧ (sched.tile t0).schedHdr.mbcount ≠ 0 ∧
    (sched.tile t0).schedHdr.ok (2 ^ min 2 (sched.fld (tfld t0 F.BOBBIN_HBM_NSTACKS))) = true ∧ sched.haltedNode = false ∧ (sched.tile t0).sched = Sched.reset ∧
    (sched.issuePop t0 (sched.tile t0).schedHdr) = none ∧ sched.pickList t0 (sched.tile t0).schedHdr = some 0 ∧
    ∃ e, sched.schedEntry t0 (sched.tile t0).schedHdr 0 = some e ∧ sched.headReady t0 0 e = true ∧ (sched.tile t0).engRoom (sched.tile t0).schedHdr e.engine = true ∧
      (descDg e.engine e.desc && (sched.tile t0).bankStall) = false ∧ e.engine < 4 := by
  refine ⟨by decide +kernel, by decide +kernel, by decide +kernel, by decide +kernel, by decide +kernel, by decide +kernel, by decide +kernel,
    by decide +kernel, by decide +kernel, ⟨sched.prodEntry t0 0x1000, by decide +kernel⟩⟩
theorem witness_Schedule_idle : tileUp.shuttleRuns t0 = true ∧ (tileUp.tile t0).cur = none := by decide +kernel

/-! ### Time and picks -/

def clockIs (f : Clock → Clock) (s : State) : State := { s with clock := f s.clock }
/-- A job runs with 1,000 us picks from 0 ns; the first pick is 1. -/
def job : State := { sets (timetable5 tileUp) [(F.GLB_JOB_STATE, 3), (F.TIME_PICK_CFG_PERIOD_US, 1000), (F.TIME_PICK_PICK, 2 ^ 48 - 1)] with draft := some draft1 }
def job3 : State := job.setFld F.TIME_PICK_PICK 3
theorem witness_PickStart : job.draft.isSome = true ∧ job.picksRun = true ∧ job.nextPick ≠ noPick ∧ job.pick = noPick ∧
    job.pickStartNs job.nextPick.toNat = 1000000 ∧ max job.clock.ns.toNat (1000000 : BitVec 64).toNat = 1000000 := by decide +kernel
def rebased : State := sets job [(F.TIME_REBASE_AT_PENDING, 1), (F.TIME_REBASE_AT_PICK, 1), (F.TIME_REBASE_BASE_BASE, 500)]
theorem witness_PickStart_rebase : rebased.bit F.TIME_REBASE_AT_PENDING = true ∧ rebased.fld F.TIME_REBASE_AT_PICK ≤ rebased.nextPick.toNat ∧ rebased.picksRun = true ∧
    rebased.pickStartNs rebased.nextPick.toNat = 1000500 := by decide +kernel
theorem witness_Events : job3.eventKind 5 ≠ 4 ∧ (5 : BitVec 7) ≠ 0 ∧ job3.eventDue 5 = true ∧ job3.picksRun = true ∧ job3.eventNs job3.pick 5 = 3000100 ∧
    (tileIs (fun x => { x with waiting := some (.event 5 (some 3)) }) job3).eventDue 5 = true := by decide +kernel
def replay3 : State := job3.setFld F.CKPT_STAT_STATE 4
theorem witness_Events_replay : replay3.replaying = true ∧ replay3.draft.isSome = true ∧ replay3.eventDue 5 = true ∧
    ∀ k : TileId, (replay3.tile k).program = false ∨ replay3.shuttleRuns k = false ∨ (replay3.tile k).waiting = some (.event 5 (some replay3.pick)) := by
  refine ⟨by decide +kernel, by decide +kernel, by decide +kernel, fun k => Or.inl ?_⟩
  revert k; decide +kernel

/-- A closed bank of pick 2 in tile 0, whose sums are the node's only ones. -/
def handing : State := clockIs (fun c => { c with digests := [(2, [], [], false)] }) (tileIs (fun x => { x with banks := [⟨2, [(0, 5)], true, false⟩] }) job3)
theorem witness_Handoff : (handing.tile t0).handable = some ⟨2, [(0, 5)], true, false⟩ ∧ (job3.tile t0).handable = none := by decide +kernel
def ringDraft : Draft := { draft1 with ring := (lpBase, 1), nent := 1, dids := [9] }
/-- Nothing is mapped, and DIGEST_FLUSH of pick 2 has fired. -/
def recording : State :=
  { clockIs (fun c => { c with timetable := [⟨100, 5, 6, 0, 0⟩], digests := [(2, [], List.range 256, false)] }) job3 with draft := some ringDraft }
theorem witness_DigestRecord : recording.draft = some ringDraft := rfl
theorem witness_DigestRecord_due : recording.recordDue (2, [], List.range 256, false) = true := by
  unfold State.recordDue
  rw [Bool.and_eq_true, List.all_eq_true]
  refine ⟨by decide +kernel, fun t _ => ?_⟩
  have := t.isLt
  rw [Bool.or_eq_true, List.contains_iff_mem, List.mem_range]
  exact Or.inl this
theorem witness_DigestRecord_quiet : memQuiet recording = true ∧ memoriesWf recording ∧ recording.wcb = [] := by unfold memoriesWf; decide +kernel
theorem witness_DigestRecord_ring : lpBase + 64 ≤ 0x030000000000 ∧ alignUp (32 + 16 * ringDraft.nent) 64 = 64 := by decide +kernel
theorem witness_DigestRecord_head : recording.clock.digests = [(2, [], List.range 256, false)] := rfl
theorem witness_Rebase : up.fld F.GLB_JOB_STATE ≠ 3 ∧ job.fld F.GLB_JOB_STATE = 3 ∧ job.fld F.CKPT_STAT_STATE < 2 ∧
    job.startOn (job.fld F.TIME_PICK_BASE_BASE) 5 ≤ job.startOn (job.fld F.TIME_REBASE_BASE_BASE) 5 ∧
    job.clock.ns.toNat < job.startOn (job.fld F.TIME_PICK_BASE_BASE) 5 ∧ job.startOn (job.fld F.TIME_PICK_BASE_BASE) 0 ≤ job.clock.ns.toNat := by decide +kernel
def halted3 : State := job3.setFld F.CKPT_STAT_STATE 2
theorem witness_Rebase_halted : halted3.fld F.GLB_JOB_STATE = 3 ∧ 2 ≤ halted3.fld F.CKPT_STAT_STATE ∧ halted3.fld F.CKPT_STAT_STATE ≤ 4 ∧
    halted3.clock.ns.toNat + 1000000 ≤ halted3.startOn (halted3.fld F.TIME_REBASE_BASE_BASE) 1 ∧
    halted3.startOn (halted3.fld F.TIME_REBASE_BASE_BASE) 0 < halted3.clock.ns.toNat + 1000000 := by decide +kernel

/-- Node 5 with parent 4 at port 0; a root. -/
def childOf4 : State := clockIs (fun c => { c with parent := some 4 }) net
def root : State := sets up [(F.TIME_PTP_CFG_ROOT, 1), (F.TIME_PTP_CFG_PORT_EN, 3)]
theorem witness_TimeSources : childOf4.portUp 0 = true ∧ childOf4.clock.parent = some 4 ∧ childOf4.fld F.TIME_STAT_PARENT_PORT = (0 : PortId).val ∧
    root.bit F.TIME_PTP_CFG_ROOT = true ∧ bitN (root.fld F.TIME_PTP_CFG_PORT_EN) 1 = true ∧ root.fld F.TIME_STAT_PRIMARY = (0 : EthId).val ∧
    Tab.find root.clock.masters 0 = none ∧
    Tab.find (clockIs (fun c => { c with masters := [(0, (3, 7))] }) root).clock.masters 0 = some (3, 7) ∧
    up.hasSource = false ∧ up.bit F.TIME_STAT_HOLDOVER = false ∧ (up.setFld F.TIME_STAT_HOLDOVER 1).bit F.TIME_STAT_HOLDOVER = true := by decide +kernel

/-! ### The fabric -/

/-- A message from node 6 for node 5. -/
def msg (opc vc addr : Nat) (rsp : Bool) (d : List Byte) : Msg :=
  { loc := false, dst := 5, src := 6, vc := BitVec.ofNat 3 vc, rsp := rsp, cong := false, resv := false, space := 0, opc := BitVec.ofNat 8 opc,
    len := BitVec.ofNat 9 d.length, addr := BitVec.ofNat 48 addr, tag := 1, data := d }
/-- An RD names its length without carrying bytes. -/
def rdMsg (addr : Nat) : Msg := { msg 1 3 addr false [] with len := 256 }
/-- The partner of member 0 in a span of nodes 5 and 4 of a loaded draft. -/
def pair : Draft := { draft1 with nmembers := 2, map := [5, 4] }
def logged : State := { net with draft := some pair }
theorem witness_RemoteReads : takes net 3 (rdMsg 0x2000) = true ∧ canReach net 6 = true ∧ (rdMsg 0x2000).opc = 1 ∧ (rdMsg 0x2000).rsp = false ∧
    net.memStatus 0x2000 256 = St.ok ∧ net.badRead 0x2000 256 = false ∧ ({ net with poison := [0x2020] } : State).badRead 0x2000 256 = true ∧
    takes { net with poison := [0x2020] } 3 (rdMsg 0x2000) = true ∧ takes net 3 (rdMsg (2 ^ 48 - 256)) = true ∧
    net.memStatus (2 ^ 48 - 256) 256 ≠ St.ok := by decide +kernel
theorem witness_RemoteWrites : takes net 3 (msg 2 3 0x20FF false [7]) = true ∧ net.memStatus 0x20FF 1 = St.ok ∧ memQuiet net = true ∧ memoriesWf net ∧ net.wcb = [] ∧
    net.logging = false ∧ logged.logging = true ∧ logged.logTarget = some 4 ∧ takes logged 3 (msg 2 3 0x20FF false [7]) = true ∧ canReach logged 6 = true := by
  unfold memoriesWf; decide +kernel
/-- ATOM with SEQ, operation 1 and operand 3. -/
def atomMsg (seq : Nat) : Msg := msg 3 4 0x2000 false (fields [(4, seq), (1, 1), (3, 0), (8, 3), (8, 0)])
def atomKept : State := { net with ledger := [(6, 9)], replays := [⟨6, 9, leBytes 8 1, 0⟩] }
theorem witness_Atoms : takes net 3 (atomMsg 9) = true ∧ canReach net 6 = true ∧ net.logging = false ∧ bytesAt (atomMsg 9).data 4 1 = 1 ∧ bytesAt (atomMsg 9).data 5 3 = 0 ∧
    (∀ h, Tab.find net.ledger 6 = some h → 0 < ((9 : Word) - h).toInt) ∧ takes atomKept 3 (atomMsg 9) = true ∧ Tab.find atomKept.ledger 6 = some 9 ∧
    ((9 : Word) - 9).toInt ≤ 0 ∧ ((8 : Word) - 9).toInt ≤ 0 ∧ 0 < ((10 : Word) - 9).toInt ∧
    (atomKept.replays.filter (fun r => decide (0 < r.applied + 16000000))).find? (fun r => r.src == 6 && r.seq == 9) = some ⟨6, 9, leBytes 8 1, 0⟩ ∧
    (atomKept.replays.filter (fun r => decide (0 < r.applied + 16000000))).find? (fun r => r.src == 6 && r.seq == 8) = none := by
  refine ⟨by decide +kernel, by decide +kernel, by decide +kernel, by decide +kernel, by decide +kernel, fun h e => ?_, by decide +kernel⟩
  rw [show Tab.find net.ledger 6 = none by decide +kernel] at e; cases e
theorem witness_Arrive : takes net 3 (msg 4 3 0x3FFF false []) = true ∧ takes net 3 (msg 5 4 0 false []) = true := by decide +kernel

/-- An ATOM of hart 0 to node 6 without a response. -/
def atomReq : Req := ⟨{ msg 3 4 0x2000 false (zeros 24) with dst := 6, src := 5 }, 0, 1, .hart 0⟩
def waiting : State := { hartIs (fun x => { x with st := .parked, park := some ⟨.amo amoAdd, [1], [], []⟩ }) net with reqs := [atomReq] }
theorem witness_Retransmit : waiting.reqs.find? (fun r => r.msg.tag == 1 && r.msg.opc == 3) = some atomReq ∧ atomReq.msg.vc = 4 ∧
    canReach waiting atomReq.msg.dst = true ∧ atomReq.sends = 1 ∧ atomReq.sentAt + 2000000 ≤ max waiting.clock.ns.toNat (2000000 : BitVec 64).toNat ∧
    max waiting.clock.ns.toNat (2000000 : BitVec 64).toNat < atomReq.sentAt + 16000000 ∧
    atomReq.sentAt + 16000000 ≤ max waiting.clock.ns.toNat (16000000 : BitVec 64).toNat := by decide +kernel
/-- Hart 0 waits for 4 bytes of an RD, a WR of node 6. -/
def rdReq (opc : Nat) : Req := ⟨{ msg opc 3 0x2000 false [] with dst := 6, src := 5, len := 4 }, 0, 1, .hart 0⟩
def reading (opc : Nat) : State := { hartIs (fun x => { x with st := .parked, park := some ⟨.load lw, [1], [], []⟩ }) net with reqs := [rdReq opc] }
theorem witness_Responses : takes (reading 1) 3 (msg 1 3 0 true (zeros 4)) = true ∧ (reading 1).reqOf (msg 1 3 0 true (zeros 4)) = some (rdReq 1) ∧
    takes (reading 2) 3 (msg 2 3 0 true []) = true ∧ (reading 2).reqOf (msg 2 3 0 true []) = some (rdReq 2) ∧
    takes (reading 1) 3 (msg 1 3 6 true []) = true ∧ (rdReq 1).owner = .hart 0 ∧
    (reading 1).reqs.find? (fun r => r.msg.tag == 1 && (r.msg.opc == 1 || r.msg.opc == 2 || r.msg.opc == 4 || r.msg.opc == 5)) = some (rdReq 1) ∧
    ((reading 1).setFld F.FAB_TIMEOUT_REQ 10).fld F.FAB_TIMEOUT_REQ = 10 := by decide +kernel

/-- Nodes 4 to 7 form a coherence domain; the home's directory as given. -/
def home (l : Tab DirState) : State := { sets net [(F.CPU_COHDOM_SPAN0, 0), (F.CPU_COHDOM_MEMBERS, 0xF0)] with dir := l }
theorem witness_Coherence_home : ∀ opc ∈ [0x10, 0x11, 0x12],
    let m := { msg opc 1 0x2000 false (if opc = 0x12 then zeros 64 else []) with len := if opc = 0x12 then 64 else 0 }
    takes (home []) 3 m = true ∧ canReach (home []) 6 = true ∧ memQuiet (home []) = true ∧ (home []).dirTrans = [] ∧ (home []).inDomain 6 = true ∧
    (home []).memStatus 0x2000 64 = St.ok ∧ m.data.length = (if opc = 0x12 then 64 else 0) ∧ net.inDomain 6 = false ∧ takes net 3 m = true := by decide +kernel
theorem witness_Coherence_states : Tab.find (home []).dir 0x2000 = none ∧ Tab.find (home [(0x2000, .shared [7, 6])]).dir 0x2000 = some (.shared [7, 6]) ∧
    Tab.find (home [(0x2000, .shared [6])]).dir 0x2000 = some (.shared [6]) ∧ [7, 6].filter (· != (6 : NodeId)) ≠ [] ∧
    Tab.find (home [(0x2000, .owned 7)]).dir 0x2000 = some (.owned 7) ∧ Tab.find (home [(0x2000, .owned 6)]).dir 0x2000 = some (.owned 6) :=
  ⟨rfl, rfl, rfl, by decide, rfl, rfl⟩
theorem witness_Coherence_others : canReach (home []) 7 = true ∧ canReach (home []) 6 = true := by decide +kernel
theorem witness_Coherence_memory : memoriesWf (home [(0x2000, .owned 6)]) := by unfold memoriesWf; decide +kernel
/-- Node 5 owns line 0x2000 of node 6; node 7 asks for it. -/
def owning : State := { home [] with coh := [(farKey 6 0x2000, ⟨true, zeros 64⟩)] }
theorem witness_Coherence_owner : (∀ opc ∈ [0x13, 0x14, 0x15], takes owning 3 (msg opc 1 0x2000 false (leBytes 2 7 ++ leBytes 2 9)) = true) ∧
    Tab.find owning.coh (farKey 6 0x2000) = some ⟨true, zeros 64⟩ ∧ canReach owning 7 = true ∧ BitVec.ofNat 14 (bytesAt (leBytes 2 7 ++ leBytes 2 9) 0 2) = (7 : NodeId) ∧
    owning.reqs = [] := by decide +kernel
def cohReq (opc : Nat) : Req := ⟨{ msg opc 1 0x2000 false [] with dst := 6, src := 5 }, 0, 1, .coh (farKey 6 0x2000)⟩
def asking (opc : Nat) : State := { hartIs (fun x => { x with st := .parked, park := some ⟨.load lw, [1], [], []⟩ }) (home []) with reqs := [cohReq opc] }
theorem witness_Coherence_data : takes (asking 0x11) 3 (msg 0x16 1 0 true (zeros 64)) = true ∧
    (asking 0x11).reqs.find? (fun r => r.msg.tag == 1 && (r.msg.opc == 0x10 || r.msg.opc == 0x11)) = some (cohReq 0x11) ∧
    ((Tab.find (asking 0x11).harts 0).map Hart.park) = some (some ⟨.load lw, [1], [], []⟩) ∧
    takes (asking 0x12) 3 (msg 0x17 1 0 true []) = true ∧
    (asking 0x12).reqs.find? (fun r => r.msg.tag == 1 && r.msg.opc == 0x12) = some (cohReq 0x12) := by decide +kernel
def closing : State := { home [(0x2000, .owned 6)] with dirTrans := [⟨0x2000, some (.owned 7), [(6, 1)], []⟩] }
theorem witness_Coherence_ends : closing.dirTrans = [⟨0x2000, some (.owned 7), [(6, 1)], []⟩] ∧ takes closing 3 (msg 0x17 1 0 true []) = true ∧
    takes closing 3 (msg 0x16 1 0 true (zeros 64)) = true ∧ closing.memStatus 0x2000 64 = St.ok ∧ closing.reqs = [] ∧ memQuiet closing = true := by decide +kernel

/-- A flit with one message for this node, the first one that port 3 expects. -/
def flit1 : List Byte := dataFlit Port.reset 0 ((request 5 3 4 0x40 0 1 []).slots 6 ++ zeros 208)
theorem flit1_length : ((request 5 3 4 0x40 0 1 []).slots 6 ++ zeros 208).length ≤ 240 := by decide +kernel
/-- A flit whose check code is that of other contents. -/
def badFlit : List Byte := zeros 248 ++ leBytes 8 (crc64 (zeros 248) + 1).toNat
theorem badFlit_length : badFlit.length = 256 := by rw [badFlit, List.length_append, leBytes_length, zeros_length]
theorem add_one_ne (c : BitVec 64) : c + 1 ≠ c := by bv_omega
theorem crcOk_badFlit : crcOk badFlit = false := crcOk_damaged (zeros 248) _ (zeros_length 248) (add_one_ne _)
theorem witness_Flits : net.portUp 3 = true ∧ up.portUp 3 = false ∧ badFlit.length = 256 ∧ crcOk badFlit = false :=
  ⟨by decide +kernel, by decide +kernel, badFlit_length, crcOk_badFlit⟩
theorem witness_Flits_data : flit1.length = 256 ∧ crcOk flit1 = true ∧ (linkHdr flit1).type = 1 ∧ (linkHdr flit1).seq = (net.port 3).rxSeq + 1 :=
  ⟨dataFlit_length _ _ _ flit1_length, crcOk_dataFlit _ _ _ flit1_length, by decide +kernel, by decide +kernel⟩
set_option maxRecDepth 1000000 in
theorem witness_Flits_message : ((parseSlots 240 ((flit1.drop 8).take 240)).1.map (fun m => (m.src, m.opc, net.malformed m, heldOpc m.opc.toNat, m.dst == net.nodeId))) =
    [(6, 4, false, true, true)] := by decide +kernel
theorem witness_Flits_order : crcOk (dataFlit Port.reset 1 (zeros 240)) = true ∧ (linkHdr (dataFlit Port.reset 1 (zeros 240))).type = 1 ∧
    (linkHdr (dataFlit Port.reset 1 (zeros 240))).seq ≠ (net.port 3).rxSeq + 1 :=
  ⟨crcOk_dataFlit _ _ _ (by simp), by decide +kernel, by decide +kernel⟩
def portIs (f : Port → Port) (s : State) : State := s.modPort 3 f
theorem witness_Resend : (portIs (fun x => { x with unacked := [(0, zeros 240)] }) net).portUp 3 = true ∧
    ((portIs (fun x => { x with unacked := [(0, zeros 240)] }) net).port 3).unacked ≠ [] := by decide +kernel
theorem witness_PortLeaves : net.portUp 3 = true ∧ 16 ≤ ((portIs (fun x => { x with fails := 16 }) net).port 3).fails ∧
    (portIs (fun x => { x with fails := 16 }) net).portUp 3 = true ∧ ((portIs (fun x => { x with txFails := 15 }) net).port 3).txFails < 16 ∧
    (net.port 3).fails < 16 := by decide +kernel
theorem witness_PortTrained : up.portUp 3 = false ∧ up.bit (pfld 3 F.FAB_PORT_STAT_DISABLED) = false ∧ up.ready 4 = true ∧ up.power.stopped = false ∧
    ((portIs (fun x => { x with proof := true }) up).port 3).proof = true := by decide +kernel
/-- SW_ASSIGN of a span at uplink 8, NODE_ANNOUNCE at port 3; the node has no number, or number 5. -/
def local_ (opc addr : Nat) : Msg := { msg opc 7 addr false [] with loc := true }
def unnumbered : State := net.setFld F.FAB_NODE_ID_VALID 0
theorem witness_Numbers : takes unnumbered 8 (local_ 0x60 0x25) = true ∧ unnumbered.nodeValid = false ∧ optical 8 = true ∧ takes net 8 (local_ 0x60 0x05) = true ∧
    net.nodeValid = true ∧ net.nodeId.toNat / 16 = 5 % 16384 / 16 ∧ net.nodeId.toNat / 16 ≠ 0x25 % 16384 / 16 ∧ takes net 8 (local_ 0x60 0x25) = true ∧
    takes net 3 (local_ 0x61 4) = true ∧ takes net 3 (local_ 0x61 0x20) = true ∧ optical 3 = false ∧ 4 % 16384 / 16 = net.nodeId.toNat / 16 ∧
    0x20 % 16384 / 16 ≠ net.nodeId.toNat / 16 := by decide +kernel

/-! ### Collectives -/

/-- ALLREDUCE, SUM of 4 I32 elements from 0x2000 to 0x3000 in context 0, record at 0x4000. -/
def colDesc : List Byte := fields [(1, 0x11), (1, 0x50), (1, 0), (1, 0), (4, 4), (6, 0x2000), (2, 0), (6, 0x3000), (2, 0), (2, 0), (1, 0), (1, 0), (6, 0x4000), (30, 0)]
/-- Nodes 5 and 6 form group 77, context 0; its descriptor at 0x1000. -/
def ctx0 : Ctx := ⟨77, [5, 6], false, [], none, [], []⟩
def grouped (x : Ctx) : State := { net with ctxs := [(0, x)], mem := (net.mem.writeN 0x1000 colDesc).writeN 0x2000 (leBytes 4 9) }
def full : Ctx := { ctx0 with queue := List.replicate 16 ⟨0, 0x1000, colDesc⟩ }
def alone : State := { grouped ctx0 with ctxs := [] }
theorem witness_Collectives_submit : memQuiet (grouped ctx0) = true ∧ (grouped ctx0).reaches (.fw 0) R.COL_SUBMIT = true ∧ (grouped ctx0).bytes 0x1000 64 = colDesc ∧
    (grouped ctx0).memStatus 0x1000 64 = St.ok ∧ (ColDesc.of colDesc).crec = 0x4000 ∧ (grouped ctx0).memStatus 0x4000 32 = St.ok ∧ ctx0.pending < 16 ∧
    (grouped ctx0).ctxAborted 0 = false ∧ (ColDesc.of colDesc).ctx = 0 ∧ (grouped ctx0).ctx 0 = some ctx0 := by decide +kernel
theorem witness_Collectives_fail : memoriesWf alone ∧ alone.wcb = [] ∧ alone.ctx 0 = none ∧ alone.bytes 0x1000 64 = colDesc ∧ memQuiet alone = true ∧
    memoriesWf (grouped full) ∧ (grouped full).ctx 0 = some full ∧ 16 ≤ full.pending ∧ (grouped full).memStatus (2 ^ 48 - 64) 64 ≠ St.ok := by unfold memoriesWf; decide +kernel
/-- A descriptor of operation 0. -/
def badDesc : List Byte := zeros 64
theorem witness_Collectives_head : (grouped { ctx0 with queue := [⟨0, 0x1000, colDesc⟩] }).ctx 0 = some { ctx0 with queue := [⟨0, 0x1000, colDesc⟩] } ∧
    (grouped ctx0).dir = [] ∧ (grouped ctx0).dirTrans = [] ∧ (grouped ctx0).bit F.COL_STAT_REPLAY = false ∧ [5, 6].idxOf (grouped ctx0).nodeId = 0 ∧
    (ColDesc.of colDesc).sizes 2 0 = (16, 16) ∧ (grouped { ctx0 with queue := [⟨0, 0x1000, colDesc⟩] }).colChecks (ColDesc.of colDesc) 2 0 = St.ok ∧
    (grouped ctx0).windowMatch 6 2 0x20 0 0 = true ∧ (grouped ctx0).badRead 0x2000 16 = false ∧ (ColDesc.of badDesc).formBad 2 0 = true ∧
    olderSeq 0 (BitVec.ofNat 32 ((grouped ctx0).fld (ctxStat 0 F.COL_CTX_POLICY_FROM_SEQ))) = false := by decide +kernel

/-- The collective runs and waits for 4 elements of member 1; digest 5. -/
def run0 : ColRun :=
  { seq := 0, addr := 0x1000, desc := colDesc, alg := 2, prealg := 2, ddig := 5, src := leBytes 4 9 ++ zeros 12, phase := 1,
    steps := [⟨0, [], [(1, true, [(0, 4)])]⟩, ⟨1, [(1, [(0, 4)])], []⟩], got := [], sent := [], wire := [(0, 9)], st := [], expo := [], start := 0,
    status := none, nsat := 0, nflush := 0, replayed := false }
def running0 : State := grouped { ctx0 with run := some run0 }
/-- A message of group 77, SEQ 0, with a digest and the reason or place in SLOT. -/
def colMsg (opc : Nat) (ddig : Word) (phase slot : Nat) (d : List Byte) : Msg := msg opc 2 0 false (colHeader 77 0 ddig phase 0 slot ++ d)
theorem witness_ColMessages : takes running0 3 (colMsg 0x20 5 0x21 0 (zeros 8)) = true ∧ running0.ctxOfGroup 77 = some 0 ∧ running0.ctxOfGroup 78 = none ∧
    running0.ctx 0 = some { ctx0 with run := some run0 } ∧ olderSeq 0 (running0.currentSeq 0 { ctx0 with run := some run0 }) = false ∧
    olderSeq (BitVec.ofNat 32 (2 ^ 32 - 1)) (running0.currentSeq 0 { ctx0 with run := some run0 }) = true ∧ [5, 6].idxOf (6 : NodeId) = 1 ∧
    running0.bit F.COL_STAT_REPLAY = false ∧ takes (grouped ctx0) 3 (colMsg 0x21 5 0x21 0 []) = true ∧ run0.phaseByte = 0x21 ∧
    0 + ((colMsg 0x20 5 0x21 0 (zeros 8)).data.drop 16).length < rangeLen (ColDesc.of run0.desc) 1 [(0, 4)] ∧
    takes running0 3 (colMsg 0x20 6 0x21 0 (zeros 8)) = true ∧ takes running0 3 (colMsg 0x22 5 0x21 0x601 []) = true ∧
    takes (grouped ctx0) 3 (colMsg 0x22 5 0x21 0x601 []) = true := by decide +kernel
/-- The exchange has finished with four sums. -/
def finished : ColRun := { run0 with steps := [], wire := [(0, 12), (1, 1)], status := some St.ok }
def done0 : State := grouped { ctx0 with run := some finished }
theorem witness_ColEnds : done0.dir = [] ∧ done0.dirTrans = [] ∧ memQuiet done0 = true ∧ memoriesWf done0 ∧ done0.wcb = [] ∧ done0.memStatus 0x3000 16 = St.ok ∧
    ((finished.output 2 0).flatMap (fun e => leBytes (ColDesc.of colDesc).fmtOf.bytes e.1)).length = 16 ∧ done0.bytes 0x2000 16 = finished.src ∧
    done0.logging = false ∧ ({ done0 with draft := some pair } : State).logging = true ∧ ({ done0 with draft := some pair } : State).logTarget = some 4 := by
  unfold memoriesWf; decide +kernel
theorem witness_ColTimeout : running0.fld F.COL_CFG_TIMEOUT = 1000 ∧ run0.status = none := by decide +kernel

/-! ### Drafts and jobs -/

/-- The smallest image: a directory of a TIMETABLE (1,000 us, DIGEST_FLUSH at 100 ns) and a DIGEST_KEY (ring of one page
above the firmware region), for one member. Its DIGEST field is 0. -/
def imageHead : List (Nat × List Byte) :=
  [(0, fields [(8, draftMagic), (2, 1), (2, 0), (4, 0), (8, 16384), (2, 2), (2, 0), (2, 1), (2, 0), (8, 0), (8, 4096)]),
   (4096, fields [(2, 9), (2, 1), (4, 0), (8, 8192), (8, 32), (2, 0), (2, 0), (4, 0)]),
   (4128, fields [(2, 12), (2, 1), (4, 0), (8, 12288), (8, 32), (2, 0), (2, 0), (4, 0)]),
   (8192, fields [(4, 1000), (2, 1), (10, 0), (6, 100), (1, 5), (1, 6), (2, 1), (6, 0)]),
   (12288, fields [(8, 99), (8, lpBase + 0x4000000), (4, 1), (12, 0)])]
/-- The intake of one member's draft of 16,384 bytes is complete. -/
def intake : Draft := { draft1 with total := 16384, got := 16386, digestAt := none, forwarded := true, loaded := false, map := [], member := 0 }
/-- The image and the map (node 5) in the staging region. -/
def staged : Memory :=
  (imageHead.foldl (fun (m : Memory) (e : Nat × List Byte) => m.writeN (intake.base + e.1) e.2) []).writeN (intake.base + 16384) (leBytes 2 5)
def received : State := { sets net [(F.GLB_JOB_STATE, 1), (F.TIME_STAT_LOCKED, 1)] with mem := staged, draft := some intake }
/-- The cells of the image with DIGEST bytes v. -/
def imageCells (v : Nat → Byte) : Memory := staged ++ (List.range 64).map (fun i => (intake.base + 64 + i, v i))
def blank : State := { received with mem := imageCells (fun _ => 0) }
def imageSum : List Byte := shake256 (blank.bytes intake.base 64 ++ zeros 64 ++ blank.bytes (intake.base + 128) (16384 - 128)) 64
/-- The intake with its digests, and the node that has received the image with its DIGEST. -/
def intake2 : Draft := { intake with digest := imageSum, mapDigest := mapDigestOf (blank.mapBytes intake) }
def received2 : State := { received with mem := imageCells (fun i => imageSum.getD i 0), draft := some intake2 }
/-- The same draft as the checks see it. -/
def intake3 : Draft := { intake2 with map := [5], member := 0, digestAt := some 0 }
theorem base3 : intake3.base = intake.base := by decide +kernel
theorem total3 : intake3.total = 16384 := by decide +kernel
theorem total1 : intake.total = 16384 := by decide +kernel
theorem staged_keys : ∀ c ∈ staged, c.1 < intake.base + 64 ∨ intake.base + 128 ≤ c.1 := by decide +kernel
theorem staged_quiet : ∀ c ∈ staged, c.1 < intake.base + 128 ∨ intake.base + 4096 ≤ c.1 := by decide +kernel
/-- Outside DIGEST the image does not depend on it. -/
theorem image_outside (v w : Nat → Byte) (a n : Nat) (h : a + n ≤ intake.base + 64 ∨ intake.base + 128 ≤ a) :
    (imageCells v).readN a n = (imageCells w).readN a n := by
  apply Memory.readN_congr
  intro i hi
  apply Memory.read_append_congr
  rw [Memory.read_unlisted _ _ (fun c hc => ?_), Memory.read_unlisted _ _ (fun c hc => ?_)]
  all_goals
    obtain ⟨j, hj, rfl⟩ := List.mem_map.1 hc
    have := List.mem_range.1 hj
    simp only
    omega
theorem image_digest (v : Nat → Byte) (i : Nat) (h : i < 64) : (imageCells v).read (intake.base + 64 + i) = v i := by
  rw [imageCells, Memory.read_append _ _ _ (fun c hc => by have := staged_keys c hc; omega), Memory.read_run _ _ _ _ h]
theorem received2_bytes (a n : Nat) : received2.bytes a n = (imageCells (fun i => imageSum.getD i 0)).readN a n :=
  State.bytes_of_memory _ _ _ (by decide +kernel) (by decide +kernel) (by decide +kernel)
theorem blank_bytes (a n : Nat) : blank.bytes a n = (imageCells (fun _ => 0)).readN a n :=
  State.bytes_of_memory _ _ _ (by decide +kernel) (by decide +kernel) (by decide +kernel)
theorem check2 : received2.check2 intake3 = none := by
  have hz : (received2.bytes (intake3.base + 128) 3968).all (· == 0) = true := by
    rw [received2_bytes, image_outside _ (fun _ => 0) _ _ (Or.inr (by decide +kernel)), Memory.readN_unlisted]
    · rw [zeros, List.all_replicate]; rfl
    · intro c hc
      rcases List.mem_append.1 hc with h | h
      · have := staged_quiet c h
        have hb := base3
        omega
      · obtain ⟨j, hj, rfl⟩ := List.mem_map.1 h
        have := List.mem_range.1 hj
        have hb := base3
        simp only
        omega
  unfold State.check2
  rw [hz]
  decide +kernel
theorem imageSum_length : imageSum.length = 64 := shake256_length _ _
theorem digest_read : received2.bytes (intake3.base + 64) 64 = imageSum := by
  rw [received2_bytes]
  apply List.ext_getElem
  · rw [Memory.readN_length, imageSum_length]
  · intro i h1 h2
    rw [Memory.readN_length] at h1
    have := Memory.readN_getD (imageCells (fun i => imageSum.getD i 0)) (intake3.base + 64) 64 i h1
    rw [List.getD_eq_getElem _ _ (by simpa using h1)] at this
    rw [this, base3, image_digest _ _ h1, List.getD_eq_getElem _ _ h2]
theorem digest_sum : received2.imageDigest intake3 false = imageSum := by
  have hb := base3
  have ht := total3
  simp only [State.imageDigest, imageSum, Bool.false_eq_true, if_false, hb, ht, received2_bytes, blank_bytes]
  rw [image_outside _ (fun _ => 0) intake.base 64 (Or.inl (by omega)),
    image_outside _ (fun _ => 0) (intake.base + 128) _ (Or.inr (by omega))]
theorem map_read : received2.mapBytes intake3 = blank.mapBytes intake := by
  have hb := base3
  have ht := total3
  simp only [State.mapBytes, received2_bytes, blank_bytes, hb, ht, total1]
  exact image_outside _ _ _ _ (Or.inr (by omega))
theorem check3 : received2.check3 intake3 = none := by
  have hs : received2.imgSigned intake3 = false := by decide +kernel
  simp only [State.check3, hs, digest_sum, digest_read, map_read, must]
  simp [intake3, intake2]
theorem check1 : received2.check1 intake3 = none := by decide +kernel
theorem check4 : received2.check4 intake3 = none := by decide +kernel
theorem check5 : received2.check5 intake3 = none := by decide +kernel
theorem check6 : received2.check6 intake3 = none := by decide +kernel
theorem check7 : received2.check7 intake3 = none := by decide +kernel
theorem check8 : received2.check8 intake3 = none := by decide +kernel
theorem check9 : received2.check9 intake3 = none := by decide +kernel
theorem check10 : received2.check10 intake3 = none := by decide +kernel
theorem check11 : received2.check11 intake3 = none := by decide +kernel
theorem check12 : received2.check12 intake3 = none := by decide +kernel
theorem check13 : received2.check13 = none := by decide +kernel
theorem map3 : mapOfBytes (received2.mapBytes intake3) intake3.nmembers = [5] := by decide +kernel
theorem node2 : [5].idxOf received2.nodeId = 0 := by decide +kernel
theorem again3 : { intake3 with map := [5], member := 0 } = intake3 := by rw [intake3]
/-- The image passes every check of Table 13-5. -/
theorem received2_err : received2.draftErr intake3 = none :=
  received2.draftErr_none intake3 intake3 (by rw [map3, node2, again3]) check1 check2 check3 check4 check5 check6 check7 check8 check9 check10 check11 check12
    check13
theorem received2_at : received2.at_ 0 = received2 := by
  rw [State.at_, if_neg (by decide +kernel)]
theorem received2_draft : received2.draft = some intake2 := by rw [received2]
theorem witness_DraftLoads : received2.fld F.GLB_JOB_STATE = 1 ∧ intake2.complete = true ∧ intake2.outcome = none ∧
    received2.ready 0 = true ∧ received2.ready 4 = true ∧ mapOfBytes (received2.mapBytes intake2) intake2.nmembers = [5] ∧ received2.nodeId = 5 := by decide +kernel

/-- DRAFT_BEGIN of job 8, and a chunk of its first 8 bytes from node 6. -/
def beginMsg : Msg := msg 0x40 6 0 false (fields [(8, 8), (8, 16384), (64, 1), (8, 2), (2, 1), (2, 0)])
def chunk : Msg := msg 0x41 6 0 false (leBytes 8 draftMagic)
/-- The node takes in the draft of node 6; node 7 is another's source. -/
def taking (n : NodeId) : State := { net with draft := some { intake with source := some n, got := 0, mapGot := 0 } }
theorem witness_DraftIntake : takes net 3 beginMsg = true ∧ net.draft = none ∧ net.fld F.GLB_JOB_STATE = 0 ∧ net.busyNode = false ∧
    intake.jobTag ≠ BitVec.ofNat 64 (bytesAt beginMsg.data 0 8) ∧ canTell (taking 6) 0x42 6 = true ∧ takes (taking 6) 3 beginMsg = true ∧
    takes (taking 6) 3 chunk = true ∧ 0 + chunk.data.length ≤ intake.total + 2 * intake.nmembers ∧ (taking 6).memStatus intake.base 8 = St.ok ∧
    memQuiet (taking 6) = true ∧ memoriesWf (taking 6) ∧ (taking 6).wcb = [] ∧ takes (taking 7) 3 chunk = true := by unfold memoriesWf; decide +kernel
/-- An empty image fails the first check. -/
def empty : State := { received with mem := [] }
def seen : Draft := { intake with map := [0], member := 1, digestAt := some 5 }
theorem witness_DraftRejected : empty.draft = some intake ∧ empty.fld F.GLB_JOB_STATE = 1 ∧ intake.complete = true ∧ intake.outcome = none ∧ empty.ready 0 = true ∧
    empty.ready 4 = true ∧ mapOfBytes (empty.mapBytes intake) 1 = [0] ∧ [0].idxOf empty.nodeId = 1 ∧ (empty.at_ 5).clock.ns.toNat = 5 ∧
    (empty.at_ 5).draftErr seen = some (.plain St.badDescriptor 1) := by decide +kernel

/-- Nodes 5 and 6 are the members of a job; node 5 leads their span. -/
def team : Draft := { draft1 with nmembers := 2, map := [5, 6] }
def teamIs (f : Draft → Draft) (l : List (Fld × Nat)) : State := { sets net l with draft := some (f team) }
def jobMsg (opc : Nat) (d : List Byte) : Msg := msg opc 6 0 false (leBytes 8 7 ++ d)
def accepted_ : Draft → Draft := fun d => { d with outcome := some (St.ok, 0, []), digestAt := some 0 }
theorem witness_JobMessages : ∀ opc ∈ [0x42, 0x43, 0x44, 0x45, 0x46, 0x47, 0x48, 0x49], jobTakes (teamIs id []) 3 (jobMsg opc (zeros 96)) opc team := by
  unfold jobTakes; decide +kernel
theorem witness_DraftAcks : (6 : NodeId) ∈ (teamIs accepted_ []).treeKids (accepted_ team) ∧ (accepted_ team).outcome.isSome = true ∧ (accepted_ team).acked = false ∧
    (teamIs accepted_ []).ready 4 = true ∧ (accepted_ team).digestAt = some 0 ∧ (teamIs accepted_ []).unacked (accepted_ team) ≠ [] ∧
    jobTakes (teamIs accepted_ []) 3 (jobMsg 0x42 (zeros 82)) 0x42 (accepted_ team) ∧ canTell (teamIs accepted_ []) 0x42 6 = true ∧ team.outcome = none ∧
    (teamIs accepted_ []).treeKids (accepted_ team) = [6] := by unfold jobTakes; decide +kernel
theorem witness_JobGo : (teamIs id [(F.GLB_JOB_STATE, 2)]).fld F.GLB_JOB_STATE = 2 ∧ (teamIs id [(F.GLB_JOB_STATE, 2)]).resil.restored = false ∧
    jobTakes (teamIs id [(F.GLB_JOB_STATE, 2)]) 3 (jobMsg 0x44 (fields [(8, 1000000), (6, 1)])) 0x44 team ∧
    ((teamIs id []).at_ 0).clock.ns.toNat + 1000000 ≤ bytesAt (jobMsg 0x44 (fields [(8, 1000000), (6, 1)])).data 8 8 ∧
    bytesAt (jobMsg 0x44 (fields [(8, 999999), (6, 1)])).data 8 8 < ((teamIs id []).at_ 0).clock.ns.toNat + 1000000 ∧
    canTell (teamIs id []) 0x44 6 = true := by unfold jobTakes; decide +kernel
/-- Picks of 1,000 us from 0; the picks have ended with number 3 and its digests have been recorded. -/
def run3 : List (Fld × Nat) := [(F.GLB_JOB_STATE, 3), (F.TIME_PICK_CFG_PERIOD_US, 1000), (F.TIME_PICK_PICK, 3)]
def drains (d : Draft) : Draft := { d with drainLast := some (3, false), drainAsked := 3 }
theorem witness_JobDrain : jobTakes (teamIs id run3) 3 (jobMsg 0x46 (fields [(6, 4), (1, 0)])) 0x46 team ∧ (teamIs id run3).fld F.GLB_JOB_STATE = 3 ∧
    (teamIs id run3).clock.ns.toNat + 1000000 ≤ (teamIs id run3).pickStartNs 5 := by unfold jobTakes; decide +kernel
theorem witness_DrainComplete : (drains team).drainLast = some (3, false) ∧ (drains team).drained = false ∧ (teamIs drains run3).fld F.GLB_JOB_STATE = 3 ∧
    (∀ e ∈ team.drainDone, e.1 ≠ (teamIs id []).nodeId) ∧ (6 : NodeId) ≠ (teamIs id []).nodeId := by decide +kernel
theorem witness_DrainReady : ((teamIs drains run3).at_ 0).drainReady 3 false = true := by
  have h : ∀ t : TileId, (List.range 4).all (fun k => ((((teamIs drains run3).at_ 0).tile t).copyQ k).isEmpty) = true := by decide +kernel
  have r : ∀ e ∈ ((teamIs drains run3).at_ 0).regs, 0x1000000 ≤ e.1 := by decide +kernel
  have l : (((teamIs drains run3).at_ 0).tileIds.all (fun t => !((teamIs drains run3).at_ 0).shuttleRuns t &&
      (List.range 4).all (fun k => ((((teamIs drains run3).at_ 0).tile t).copyQ k).isEmpty))) = true := by
    rw [List.all_eq_true]
    intro t _
    rw [h t, State.halted_unlisted _ r t]
    rfl
  unfold State.drainReady
  rw [l]
  decide +kernel
/-- The reset at power-on has been reported. -/
def settled (l : List (Fld × Nat)) : State := { teamIs id l with power := { (teamIs id l).power with resets := [] } }
theorem witness_Teardown : (settled run3).fld F.GLB_JOB_STATE ≠ 5 ∧ team.windows = [] ∧ (settled run3).power.on = true ∧ (settled run3).power.off = none ∧
    (settled run3).power.resets = [] ∧ (settled run3).power.resetAfter = none ∧ (settled run3).fld F.PWR_STATE_CUR = 0 ∧
    jobTakes (settled run3) 3 (jobMsg 0x48 [1]) 0x48 team ∧ jobTakes (settled run3) 3 (jobMsg 0x45 []) 0x45 team := by unfold jobTakes; decide +kernel
def torn (d : Draft) : Draft := { d with tearDone := [(5, 1)] }
theorem witness_TeardownDone : (teamIs torn [(F.GLB_JOB_STATE, 5)]).fld F.GLB_JOB_STATE = 5 ∧ jobTakes (teamIs torn [(F.GLB_JOB_STATE, 5)]) 3 (jobMsg 0x49 [1, 0]) 0x49 (torn team) ∧
    (teamIs torn [(F.GLB_JOB_STATE, 5)]).treeKids (torn team) = [6] ∧ (teamIs torn []).nodeId = 5 ∧
    (let wide := { team with map := [5, 6, 7], nmembers := 3 }; (teamIs (fun _ => wide) []).treeKids wide = [6, 7]) := by unfold jobTakes; decide +kernel
/-- Ethernet port 0 is up and a draft is held. -/
def ether : State := { net.setFld F.ETH_PORT_STAT_UP 1 with draft := some draft1 }
theorem witness_Rdma : ether.bit (F.ETH_PORT_STAT_UP.plus (8 * (0 : EthId).val)) = true ∧ 0x030000000000 - alignUp (512 + 2 * 1) 65536 ≤ 0x02FFFFFFFFF0 ∧
    0x02FFFFFFFFF0 + (zeros 16).length ≤ 0x030000000000 ∧ ether.memStatus 0x02FFFFFFFFF0 16 = St.ok ∧ memQuiet ether = true ∧ memoriesWf ether ∧ ether.wcb = [] ∧
    up.bit (F.ETH_PORT_STAT_UP.plus (8 * (0 : EthId).val)) = false := by unfold memoriesWf; decide +kernel

/-! ### Resilience -/

/-- A full span in which node 5 is member 0 and coordinates; and one in which node 6 does and node 5 is member 1. -/
def crew : Draft := { draft1 with nmembers := 16, map := [5, 6, 7, 8, 9, 10, 11, 12, 13, 14, 15, 0, 1, 2, 3, 4] }
def crewOf6 : Draft := { crew with map := [6, 5, 7, 8, 9, 10, 11, 12, 13, 14, 15, 0, 1, 2, 3, 4], member := 1 }
/-- The node with a draft, its resilience area from 1 GiB into LPDDR5X, and rings of 1 GiB; the job runs in pick 3. -/
def guarded (d : Draft) (f : Resil → Resil) (l : List (Fld × Nat)) : State :=
  timetable5 { sets net (run3 ++ l) with draft := some d, resil := f { Resil.reset with area := (lpBase + 2 ^ 30, 2 ^ 40), stripes := List.replicate 16 2, logGib := 1 } }
theorem witness_Coordinators : (guarded crew id []).coordinator = some 5 ∧ (guarded crewOf6 id []).coordinator = some 6 ∧ (guarded crew id []).nodeId = 5 ∧
    crew.partner = some 6 ∧ crew.copyHolder = some 7 ∧ crew.copied = some 3 ∧ crew.copyHolderOf 6 = some 8 := by decide +kernel

/-- A mark acts and pick 3 is the mark's. -/
def marking : State := { guarded crew (fun r => { r with markHeld := true, markPick := 3, dirtySkein := [5] }) [(F.CKPT_STAT_STATE, 1)] with guard := [9] }
theorem witness_SnapshotMark : marking.resil.markHeld = true ∧ marking.ready 3 = true ∧ marking.ready 14 = true ∧ marking.fld F.CKPT_STAT_STATE = 1 ∧
    marking.markEntry = some ⟨200, 7, 4, 0, 0⟩ ∧ marking.resil.phase = .idle ∧ marking.poison = [] ∧
    (guarded crewOf6 (fun r => { r with markHeld := true, phase := .copying }) [(F.CKPT_STAT_STATE, 1)]).coordinator ≠ some 5 := by decide +kernel
theorem witness_SnapshotMark_quiet : marking.markQuiet = true := by
  have h : marking.tiles = [] := rfl
  simp only [State.markQuiet, tile_of_none _ h, List.all_eq_true]
  intro t _
  rfl
/-- A write of one byte waits for page 2. -/
def held2 : State := { guarded crew id [] with guard := [2], heldWrites := [⟨0x20005, [7]⟩] }
def pool : State := { held2 with shadow := List.replicate 262144 (1, 0) }
theorem witness_GuardCopy : 2 ∈ held2.guard ∧ (∃ w ∈ held2.heldWrites, w.addr / 65536 = 2) ∧ held2.freeSlot = some 0 ∧ held2.dirty = [] ∧ held2.poison = [] ∧
    memoriesWf held2 ∧ held2.wcb = [] ∧ 2 * 65536 + 65536 ≤ held2.areaAt crew AreaMap.shadow ∧ 2 * 65536 + 65536 ≤ lpBase + 2 ^ 30 ∧
    (∀ w ∈ held2.heldWrites, w.addr / 65536 = 2 ∧ w.addr % 65536 + w.data.length ≤ 65536) ∧ held2.poolEvent = false := by unfold memoriesWf; decide +kernel
theorem witness_GuardCopy_full : pool.freeSlot = none ∧ pool.guard = held2.guard ∧ pool.heldWrites = held2.heldWrites := by
  refine ⟨?_, rfl, rfl⟩
  have h : pool.shadow.length = 262144 := List.length_replicate
  rw [State.freeSlot, if_neg (by rw [h]; decide)]

def rec3 : CommitRec :=
  { committed := false, tier := .skein, member := 0, gen := 1, markPick := 3, markIndex := 7, commitPick := 0, cut := 0, stripes := [(1, 0, []), (1, 0, [])], refs := [] }
/-- Generation 1 of two stripes is being copied. -/
def copying3 (r : Resil) : Resil := { r with gen := 1, phase := .copying, newRec := some rec3, stripesLeft := [0, 1] }
theorem witness_Background : (copying3 Resil.reset).stripesLeft = [0, 1] ∧ rec3.stripes.length = 2 ∧ (guarded crew copying3 []).ready 3 = true ∧
    (guarded crew copying3 []).ready 14 = true ∧ (guarded crew copying3 []).poison = [] := by decide +kernel

/-- Chunk 0 of stripe 0 of generation 1 of member 0; a place in LPDDR5X. -/
def chunk0 : ChunkId := ⟨1, 0, 0, 0⟩
def spot : BitVec 48 := BitVec.ofNat 48 (lpBase + 2 ^ 30)
theorem witness_Chunks : (guarded crew id []).resil.fence = [] ∧ (guarded crew id []).memStatus spot.toNat 16 = St.ok ∧ lpBase ≤ spot.toNat ∧
    spot.toNat + 16 ≤ 0x030000000000 ∧ memQuiet (guarded crew id []) = true ∧ memoriesWf (guarded crew id []) ∧ (guarded crew id []).wcb = [] ∧
    (guarded crew id []).fld F.CKPT_STAT_STATE ≠ 3 ∧ (guarded crew id []).ready 14 = true := by unfold memoriesWf; decide +kernel
theorem witness_ChunkAck : chunk0.gen.toNat = (guarded crew copying3 []).resil.gen ∧ chunk0.member.toNat = crew.member ∧ (copying3 Resil.reset).stripesLeft ≠ [] ∧
    ({ copying3 Resil.reset with stripesLeft := [], chunksDue := [(0, 0)] }).chunksDue.erase (0, 0) = [] := by decide +kernel
/-- Where nobody is lost every member is live. -/
theorem live_all (s : State) (d : Draft) (h : s.resil.lost = []) : s.liveMembers d = d.map := by simp [State.liveMembers, State.isLost, h]
def two : Draft := { crew with nmembers := 2, map := [5, 6] }
theorem witness_Ready : (guarded crew id []).liveMembers crew = crew.map ∧ (guarded two id []).liveMembers two = [5, 6] :=
  ⟨live_all _ _ rfl, live_all _ _ rfl⟩
theorem witness_Ready_sums : 1 < crew.map.length ∧ [5, 6].length ≤ 2 ∧ (guarded two id []).ready 3 = true ∧ (guarded two id []).resil.fence = [] ∧
    (guarded two id []).windowMatch 5 5 0x36 0 0 = true ∧ (guarded two id []).windowMatch 6 5 0x36 0 0 = true ∧
    (guarded two id []).coordinator = some (guarded two id []).nodeId := by decide +kernel
theorem witness_Abandon : (guarded crewOf6 copying3 []).coordinator = some 6 ∧ (guarded crewOf6 copying3 []).resil.phase ≠ .idle ∧
    (guarded crewOf6 copying3 []).resil.gen = 1 := by decide +kernel

/-- The first byte of the ring for the partner, and of the copy of another's. -/
def ringAt : BitVec 48 := BitVec.ofNat 48 ((guarded crew id []).areaAt crew AreaMap.ring)
def copyAt : BitVec 48 := BitVec.ofNat 48 ((guarded crew id []).areaAt crew AreaMap.copy)
def ringFull (r : Resil) : Resil := { r with logRings := [⟨6, List.replicate 4194304 (0, 0, zeros 256), [], false⟩] }
theorem witness_LogAppend : (guarded crew id []).inRing ((guarded crew id []).areaAt crew AreaMap.ring) ringAt.toNat = true ∧ lpBase ≤ ringAt.toNat ∧
    ringAt.toNat + 32 ≤ 0x030000000000 ∧ ((guarded crew id []).ringOf 6).room (guarded crew id []).ringBytes 32 = true ∧ (guarded crew id []).isLost 8 = false ∧
    two.partner = some 6 ∧ two.copyHolderOf 6 = none ∧
    (guarded crew id []).inRing ((guarded crew id []).areaAt crew AreaMap.ring) copyAt.toNat = false ∧
    (guarded crew id []).inRing ((guarded crew id []).areaAt crew AreaMap.copy) copyAt.toNat = true ∧ copyAt.toNat + 32 ≤ 0x030000000000 := by decide +kernel
theorem witness_LogFull : (((guarded crew ringFull []).ringOf 6).room (guarded crew ringFull []).ringBytes 32) = false ∧ ((guarded crew ringFull []).ringOf 6).full = false := by
  have h : (guarded crew ringFull []).ringOf 6 = ⟨6, List.replicate 4194304 (0, 0, zeros 256), [], false⟩ := rfl
  have hb : (guarded crew ringFull []).ringBytes = 1073741824 := rfl
  have hz : (zeros 256).length = 256 := zeros_length 256
  rw [h, hb]
  refine ⟨?_, rfl⟩
  simp only [LogRing.room, List.map_replicate, hz, List.sum_replicate, smul_eq_mul]
  decide
/-- Entry 0 of the log waits for its acknowledgement with one response to node 6. -/
def logging0 (r : Resil) : Resil := { r with lsn := 1, held := [.respond 0 (request 6 3 1 0 0 1 [])] }
theorem witness_LogAck : (guarded crew logging0 []).logTarget = some 6 ∧ max (logging0 Resil.reset).ackedLsn (min (0 + 1) 1) = 1 ∧
    (guarded crew logging0 []).pathPorts 6 ≠ [] ∧ (guarded crew logging0 []).resil.fence = [] ∧ (request 6 3 1 0 0 1 []).fwd = none := by decide +kernel
theorem witness_Mirror : (guarded crew id [(F.CKPT_STAT_TWIN, 1)]).bit F.CKPT_STAT_TWIN = true := by decide +kernel
theorem witness_Mirror_page : (zeros 65536).length = 65536 := zeros_length 65536
/-- Node 7 was last heard at time 0. -/
def hearing (r : Resil) : Resil := { r with heard := [(7, 0)] }
theorem witness_Silence : crew.loaded = true ∧ (7 : NodeId) ∈ (spanOf crewOf6.member crewOf6.nmembers).filterMap crewOf6.node ∧
    (guarded crewOf6 hearing []).resil.heard.find? (fun e => e.1 == 7) = some (7, 0) ∧ (guarded crewOf6 hearing []).isLost 7 = false ∧
    (guarded crewOf6 hearing []).judge crewOf6 7 = some 6 ∧ (guarded crewOf6 hearing []).windowMatch 6 5 0x38 0 0 = true ∧
    (guarded crewOf6 hearing []).nodeId = 5 ∧ (guarded crewOf6 hearing []).portUp 3 = true ∧ ((guarded crewOf6 hearing []).at_ 50000000).clock.ns.toNat = 50000000 := by decide +kernel
theorem witness_Suspect : (7 : NodeId) ∈ crew.map ∧ (guarded crew id []).judge crew 7 = some 5 ∧ (guarded crew id []).resil.suspects = [] ∧
    (guarded crew (fun r => { r with suspects := [(7, 8)] }) []).resil.probing = [] ∧ (guarded crew id []).ready 3 = true := by decide +kernel
theorem witness_Probe : (guarded crew (fun r => { r with probing := [(7, 0)] }) [(F.CKPT_STAT_STATE, 1)]).resil.probing = [(7, 0)] ∧
    (guarded crew id [(F.CKPT_STAT_STATE, 1)]).fld F.CKPT_STAT_STATE = 1 ∧ (6 : NodeId) ∈ crew.map ∧ (5 : NodeId) ∉ [(7 : NodeId)] ∧
    (7 : NodeId) ≠ (guarded crew id []).nodeId := by decide +kernel

/-! ### Recovery -/

theorem witness_Halt : (guarded crewOf6 id [(F.CKPT_STAT_STATE, 1)]).fld F.CKPT_STAT_STATE = 1 ∧ (guarded crewOf6 id []).windowMatch 6 5 0x3B 0 0 = true ∧
    ((tileIs (fun x => { x with run := [(0, some ⟨0, 0, 0, 0, none, 0, 0, 0, 0, 0, 0, none, none⟩)] }) (guarded crewOf6 id [])).tile t0).running 0 ≠ none := by
  decide +kernel
theorem witness_Halt_idle : (guarded crewOf6 id []).enginesIdle = true := by
  have h : (guarded crewOf6 id []).tiles = [] := rfl
  simp only [State.enginesIdle, tile_of_none _ h, List.all_eq_true]
  intro t _ k _
  rfl
theorem witness_HaltAck : (6 : NodeId) ∈ crew.map ∧ (5 : NodeId) ∈ crew.map ∧ (guarded crew id []).liveMembers crew = crew.map ∧
    (guarded { crew with nmembers := 1, map := [5] } id []).liveMembers { crew with nmembers := 1, map := [5] } = [5] :=
  ⟨by decide, by decide, live_all _ _ rfl, live_all _ _ rfl⟩
def holding (r : Resil) : Resil := { r with holds := [⟨chunk0, lpBase + 2 ^ 30, 65536⟩] }
theorem witness_ChunkRd : (guarded crew id []).resil.holds = [] ∧ (guarded crew holding []).resil.holds = [⟨chunk0, lpBase + 2 ^ 30, 65536⟩] ∧
    (guarded crew holding []).poison = [] ∧ (guarded crew holding []).ready 14 = true := by decide +kernel
/-- SHAKE256 of nothing, as FIPS 202 gives it. -/
def dig0 : List Byte := [0x46, 0xb9, 0xdd, 0x2b, 0x0b, 0xa8, 0x8d, 0x13, 0x23, 0x3b, 0x3f, 0xeb, 0x74, 0x3e, 0xeb, 0x24]
theorem test_shake256_of_nothing : chunkDig [] = dig0 := by decide +kernel
/-- A record of two stripes whose chunks 0 are stored. -/
def rec0 : CommitRec := { rec3 with committed := true, stripes := [(1, 0, [dig0]), (1, 0, [[1]])] }
def rebuilding (d : Draft) : State := guarded d (fun r => { r with rebuildRec := some rec0 }) [(F.CKPT_STAT_STATE, 3)]
theorem witness_ChunkData : (rebuilding crew).fld F.CKPT_STAT_STATE = 3 ∧ (rebuilding crew).chunkHere 0 0 = none ∧ 1 < rec0.stripes.length ∧
    0 ∈ (rebuilding crew).wanted crew rec0 1 ∧ (rebuilding crew).chunkHere 1 0 = none ∧ chunk0.gen.toNat = rec0.gen ∧ chunk0.member.toNat = crew.member ∧
    (rec0.stripes.getD 0 (0, 0, [])).2.2.getD 0 [] = dig0 ∧ (rebuilding crew).resil.rebuildRec = some rec0 := by decide +kernel
theorem witness_ChunkData_gaps (i : Nat) : ((rebuilding crew).gaps crew rec0 i).length ≤ 1 := by
  match i with
  | 0 => decide +kernel
  | 1 => decide +kernel
  | n + 2 =>
    have h : ∀ c, rec0.stored (n + 2) c = false := by
      intro c
      have h : rec0.stripes[n + 2]? = none := rfl
      simp [CommitRec.stored, h]
    simp [State.gaps, h]
theorem witness_PickRestart : (guarded crew (fun r => { r with pickRec := some (zeros 131136) }) [(F.CKPT_STAT_STATE, 2)]).fld F.CKPT_STAT_STATE = 2 := by decide +kernel
theorem witness_Resume : (guarded crewOf6 id [(F.CKPT_STAT_STATE, 2)]).fld F.GLB_JOB_STATE = 3 ∧ (guarded crewOf6 id []).coordinator = some 6 ∧
    ((guarded crewOf6 id []).at_ 0).clock.ns.toNat + 1000000 ≤ (1000000 : BitVec 64).toNat ∧
    (guarded crew (fun r => { r with restartPick := some 9 }) [(F.CKPT_STAT_STATE, 2)]).resil.restartPick = some 9 ∧
    ((guarded crew id []).at_ 0).clock.ns.toNat + 20000000 ≤ (20000000 : BitVec 64).toNat ∧ (guarded crew id []).resil.noSpare = false := by decide +kernel

/-! ### The host -/

/-- An administrator's session 9 of an owner's node; the last number seen is 3, its response cached. -/
def session9 : Session :=
  ⟨9, true, .administrator, [1], [], [], some 3, [(3, hostReply 9 3 0x10 St.ok [] [])], true, 0, 0, 0⟩
def hosted (f : Session → Session) (d : Option Draft) (l : List (Fld × Nat)) : State :=
  { sets net l with draft := d, fw := { Firmware.reset with ownerKey := [2], ownerSecret := [3], sessions := [f session9] } }
def ask (seq : BitVec 32) : Dripol := ⟨9, seq, 1⟩
theorem witness_Served : ∀ e ∈ [(0x05, none), (0x07, some 0), (0x10, none), (0x11, none), (0x12, some 0), (0x13, none), (0x14, none), (0x15, none), (0x20, some 0),
      (0x21, some 0), (0x22, some 4), (0x23, some 4), (0x24, some 4), (0x25, some 1), (0x26, some 4), (0x27, some 4), (0x27, some 5)],
    served (hosted id none []) (ask 4) e.1 .administrator e.2 = true := by decide +kernel
theorem witness_Served_more : ∀ e ∈ [(0x28, some 4), (0x29, some 4), (0x30, some 4), (0x31, some 4), (0x32, some 4), (0x33, some 4), (0x34, some 4), (0x35, some 4),
      (0x36, some 4), (0x37, some 4), (0x40, some 3), (0x41, some 3), (0x50, some 0), (0x51, some 0), (0x52, some 0), (0x53, some 0), (0x54, some 0), (0x55, some 0),
      (0x60, some 0), (0x61, some 0), (0x62, some 0), (0x70, some 0), (0x71, some 0)],
    served (hosted id none []) (ask 4) e.1 .administrator e.2 = true := by decide +kernel
theorem witness_Hello : servedOutside (hosted id none []) ⟨0, 1, 1⟩ 1 = true ∧ (hosted id none []).enrolled = true ∧ (hosted id none []).fw.sessions.length < 8 ∧
    8 ≤ (List.replicate 8 session9).length ∧ net.enrolled = false ∧ servedOutside net ⟨0, 1, 1⟩ 1 = true ∧ servedOutside (hosted id none []) ⟨9, 1, 1⟩ 3 = true ∧
    servedOutside net ⟨0, 1, 1⟩ 6 = true := by decide +kernel
/-- The session is still being opened, with a host key that the node does not know. -/
def opening : State := hosted (fun x => { x with opened := false, high := none }) none []
theorem witness_HostProof : opening.enrolled = true ∧ opening.sessionOf 9 = some { session9 with opened := false, high := none } := by decide +kernel
theorem witness_HostProof_refused (sig : List Byte) :
    ¬(Config.slhVerify slh256s [1] (ascii "DRIPOL-HOST") [] sig = true ∧
      ([1] = opening.fw.ownerKey ∨ ∃ e ∈ opening.fw.hostKeys, e.1 = shake256 [1] e.1.length ∧ session9.role.level ≤ e.2.level)) := by
  rintro ⟨-, h | ⟨e, he, -⟩⟩
  · exact absurd h (by decide)
  · exact absurd he (by simp [opening, hosted, Firmware.reset])
theorem witness_Release (sig : List Byte) : Config.releaseSigned [2] sig = true ∨ Config.releaseSigned [2] sig = false := by
  cases Config.releaseSigned [2] sig <;> simp
theorem witness_SessionIdle : (hosted id none []).sessionOf 9 = some session9 ∧ session9.lastValid + 60000000000 ≤ ((hosted id none []).at_ 60000000000).clock.ns.toNat ∧
    ((hosted id none []).at_ 59999999999).clock.ns.toNat < session9.lastValid + 60000000000 := by decide +kernel
theorem witness_Gate : (hosted id none []).power.on = true ∧ (hosted id none []).power.stopped = false ∧ (⟨9, 4, 2⟩ : Dripol).major ≠ 1 ∧
    (hosted id none []).openSession 9 = some session9 ∧ (hosted id none []).isTaken (ask 4) 0x12 = false ∧
    session9.cached 3 = some (hostReply 9 3 0x10 St.ok [] []) ∧ session9.cached 2 = none ∧ session9.fresh 2 = false := by decide +kernel
theorem witness_Gate_role : inSession (hosted (fun x => { x with role := .observer }) none []) (ask 4) 0x12 { session9 with role := .observer } = true ∧
    Role.observer.level < Role.administrator.level ∧ inSession (hosted id none [(F.FWP_STAT_HELD, 1)]) (ask 4) 0x12 session9 = true ∧
    (hosted id none [(F.FWP_STAT_HELD, 1)]).serviceStop 0x12 (some 0) = some St.serviceHeld := by decide +kernel
def oneEvent (s : State) : State := { s with rings := { s.rings with host := [⟨0, 0, 1, 0, zeros 14, false⟩] } }
theorem witness_Notify : (oneEvent (hosted id none [])).openSession 9 = some session9 ∧ session9.subscribed = true ∧
    ((oneEvent (hosted id none [])).rings.host.drop (0 - (oneEvent (hosted id none [])).rings.first)).take 2048 ≠ [] ∧
    (hosted id none []).rings.host = [] := by decide +kernel

/-- The same at Ethernet port 0 when its link is up. -/
def linked : State := hosted id none [(F.ETH_PORT_STAT_UP, 1)]
def wire : List Byte := dripolBytes 9 4 0x10 []
theorem witness_Segments : linked.power.on = true ∧ linked.power.stopped = false ∧ linked.bit (F.ETH_PORT_STAT_UP.plus (8 * (0 : EthId).val)) = true ∧
    linked.fw.reasm = [] ∧ linked.enrolled = true ∧ linked.sessionOf 9 = some session9 ∧ session9.opened = true ∧ session9.cached 4 = none ∧ session9.fresh 4 = true ∧
    0x10 ∈ knownTypes ∧ 0x63 ∉ knownTypes ∧ linked.serviceStop 0x10 (⟨9, 4, 0x10, []⟩ : Taken).server = none ∧
    (hosted id none [(F.FWP_STAT_HELD, 1)]).serviceStop 0x12 (⟨9, 4, 0x12, []⟩ : Taken).server = some St.serviceHeld := by decide +kernel
theorem witness_Segments_tag : (kmac256 session9.key wire 16 (ascii "DRIPOL-MSG")).length = 16 := kmac256_length _ _ _ _
/-- A list in which every byte is one more is another list of its length. -/
theorem witness_Segments_wrong (l : List Byte) (h : l.length = 16) : (l.map (· + 1)).length = 16 ∧ l.map (· + 1) ≠ l := by
  refine ⟨by simpa using h, fun e => ?_⟩
  match l, h, e with
  | b :: r, _, e =>
    have : b + 1 = b := (List.cons.inj e).1
    exact absurd this (by bv_omega)

def group1 : GroupRec := ⟨77, 0, false, 0, [5, 6]⟩
def grouped1 : State := { hosted id none [] with ctxs := [(0, { ctx0 with byHost := true })] }
theorem witness_Groups : group1.members = [5, 6] ∧ (6 : BitVec 16).toNat < 16384 ∧ (hosted id none []).nodeId = 5 ∧ (hosted id none []).ctxs.isEmpty = true := by decide +kernel
theorem witness_Groups_held : grouped1.ctx 0 = some { ctx0 with byHost := true } ∧ (∀ e ∈ grouped1.ctxs, e.2.gid ≠ 78) := by decide +kernel
theorem witness_Groups_drafts : (grouped ctx0).ctx 0 = some ctx0 ∧ ctx0.byHost = false := by decide +kernel
theorem witness_Groups_members : ([5, 6] : List NodeId).Nodup ∧ ¬([5, 5] : List NodeId).Nodup ∧ (5 : NodeId) ∈ ([5, 6] : List NodeId) := by decide
theorem witness_Groups_served : served grouped1 (ask 4) 0x28 .administrator (some 4) = true := by decide +kernel
theorem witness_Plan : (2 : BitVec 8).toNat < 3 ∧ 16 ≤ (16 : BitVec 8).toNat ∧ (hosted id none []).fld F.GLB_JOB_STATE = 0 ∧
    (hosted id none [(F.GLB_JOB_STATE, 3)]).fld F.GLB_JOB_STATE ≠ 0 := by decide +kernel
def noUplinks : State := hosted id none [(pfld 8 F.FAB_PORT_STAT_UP, 0), (pfld 9 F.FAB_PORT_STAT_UP, 0), (pfld 18 F.FAB_PORT_STAT_UP, 0), (pfld 19 F.FAB_PORT_STAT_UP, 0)]
theorem witness_Ports : (∀ p ∈ noUplinks.livePorts, optical p = false) ∧ (∃ p ∈ (hosted id none []).livePorts, optical p = true) ∧
    served noUplinks (ask 4) 0x26 .administrator (some 4) = true ∧
    (hosted id none [(pfld 3 F.FAB_PORT_STAT_DISABLED, 1)]).bit (pfld 3 F.FAB_PORT_STAT_DISABLED) = true ∧
    (hosted id none []).bit (pfld 3 F.FAB_PORT_STAT_DISABLED) = false := by decide +kernel
theorem witness_JobStart : served ((hosted id none []).at_ 5) (ask 4) 0x30 .operator (some 4) = true ∧ (hosted id none []).draft = none ∧
    (hosted id none []).fld F.GLB_JOB_STATE = 0 ∧ (hosted id none []).busyNode = false ∧ canTell (hosted id none []) 0x40 6 = true ∧
    canTell (hosted id none []) 0x41 6 = true ∧ (hosted id (some team) []).draft.isSome = true := by decide +kernel
def rooted (l : List (Fld × Nat)) : State := hosted id (some team) l
theorem witness_RootJobs : team.root = true ∧ team.jobTag = 7 ∧ (7 : BitVec 64) ≠ 8 := by decide +kernel
theorem witness_RootJobs_go : (rooted [(F.GLB_JOB_STATE, 2)]).fld F.GLB_JOB_STATE = 2 := by decide +kernel
theorem witness_RootJobs_s : served ((rooted [(F.GLB_JOB_STATE, 2)]).at_ 0) (ask 4) 0x32 .operator (some 4) = true := by decide +kernel
theorem witness_RootJobs_subs : (1 : BitVec 16).toNat < team.map.length ∧ team.map.length ≤ (2 : BitVec 16).toNat := by decide +kernel
theorem witness_RootJobs_running : (∀ t ∈ [0x32, 0x34, 0x35, 0x33], served ((rooted run3).at_ 0) (ask 4) t .operator (some 4) = true) ∧
    (rooted run3).fld F.GLB_JOB_STATE = 3 ∧ (rooted run3).fld F.PWR_STATE_CUR = 0 ∧ (rooted run3).power.off = none := by decide +kernel
theorem witness_RootJobs_time : (rooted run3).clock.ns.toNat + 1000000 ≤ (rooted run3).pickStartNs 5 := by decide +kernel

/-! ### Restore -/

/-- A flash record of generation 2 of member 0 without stripes; its last 32 bytes are its RECDIG. -/
def flashRec2 : List Byte :=
  fields [(4, 0x544D4B43), (1, 2), (1, 2), (2, 0), (8, 2), (6, 3), (1, 7), (1, 0), (6, 4), (2, 0), (8, 0), (4, 0), (4, 0), (32, 0), (8, 0), (8, 0)] ++
    [26, 88, 55, 170, 199, 229, 33, 157, 29, 215, 250, 175, 50, 157, 3, 45] ++ [210, 29, 174, 124, 19, 81, 233, 147, 176, 86, 34, 193, 133, 30, 73, 244]
def flashBlock (k : Nat) : Nat := State.reset.flashRecBlock crew 2 k * 4096
/-- Three copies of the record in NAND. -/
def stored : State :=
  { hosted id (some crew) [(F.GLB_JOB_STATE, 2)] with
    flash := ((Memory.writeN [] (flashBlock 0) flashRec2).writeN (flashBlock 1) flashRec2).writeN (flashBlock 2) flashRec2 }
theorem stored_room : recRoom (stored.ownStripes crew) / 4 = 1114112 := by decide +kernel
theorem flashRec2_holds : recHolds flashRec2 = true := by decide +kernel
theorem zeros_holds : recHolds (zeros 128) = false := by decide +kernel
theorem stored_rec : stored.flashRec crew 0 = some flashRec2 :=
  State.flashRec_copies _ _ _ _ (by simp only [State.flashCopy, stored_room]; decide +kernel) (by decide +kernel) flashRec2_holds
    (by decide +kernel) (by decide +kernel) (by decide +kernel) (by decide +kernel)
theorem stored_other : stored.flashRec crew 1 = none :=
  State.flashRec_none _ _ _ (zeros 128) (by simp only [State.flashCopy, stored_room]; decide +kernel) zeros_holds
/-- Generation 2 can be restored, and its first page exported. -/
theorem witness_Restore : stored.newestFlash crew = some (recOf flashRec2) := State.newestFlash_even _ _ _ stored_rec stored_other
theorem witness_Restore_more : stored.flashGood (recOf flashRec2) = true ∧ stored.fld F.GLB_JOB_STATE = 2 ∧
    crew.loaded = true ∧ (recOf flashRec2).gen = 2 ∧ stored.resil.recs = [] ∧ served stored (ask 4) 0x40 .operator (some 3) = true ∧
    0 < ceilDiv flashRec2.length 65536 := by decide +kernel
/-- Where no record is stored there is none to restore. -/
def unstored : State := { stored with flash := [] }
theorem witness_Restore_none : unstored.newestFlash crew = none :=
  State.newestFlash_none _ _ (State.flashRec_empty _ _ _ rfl) (State.flashRec_empty _ _ _ rfl)
/-- A record whose one stored chunk has another digest than its bytes. -/
def badChunk : CommitRec := { rec3 with tier := .flash, stripes := [(1, 0, [[1]])] }
theorem witness_Restore_bad : unstored.flashGood badChunk = false := by
  have n : ∀ b : List Byte, chunkDig b ≠ [1] := fun b e => by
    have := congrArg List.length e
    rw [chunkDig, shake256_length] at this
    exact absurd this (by decide)
  unfold State.flashGood
  rw [← Bool.not_eq_true, List.all_eq_true]
  intro all
  have := all 0 (by decide)
  rw [Bool.or_eq_true, decide_eq_true_eq] at this
  rcases this with c | c
  · exact absurd c (by decide +kernel)
  · exact n _ c

/-! ### Firmware, boot and removal -/

/-- No reset is in progress. -/
def calm (s : State) : State := { s with power := { s.power with resets := [] } }
/-- An administrator's node with other firmware state and no reset in progress. -/
def flashed (f : Firmware → Firmware) (l : List (Fld × Nat)) : State := calm { hosted id none l with fw := f (hosted id none l).fw }
theorem witness_FwStage : (flashed id []).stageSlot = 1 ∧ 268435456 < 268435456 + [(0 : Byte)].length ∧ 0 + [(0 : Byte)].length ≤ 268435456 ∧
    (flashed id []).bundleErr [0] = some St.bundleInvalid := by decide +kernel
theorem witness_FwActivate : (flashed id []).bit F.SEC_STAT_RECOVERY = false ∧ (flashed id []).maint = false ∧
    (flashed id [(F.SEC_STAT_RECOVERY, 1)]).bit F.SEC_STAT_RECOVERY = true ∧ served (flashed id [(F.SEC_STAT_RECOVERY, 1)]) (ask 4) 0x51 .administrator (some 0) = true ∧
    (flashed id [(F.MBX_STAT_MAINT, 1)]).maint = true ∧ served (flashed id [(F.MBX_STAT_MAINT, 1)]) (ask 4) 0x51 .administrator (some 0) = true ∧
    (flashed id []).bit F.SEC_BUNDLE_STAGED = false ∧ powerQuiet (flashed id []) := by unfold powerQuiet; decide +kernel
/-- Maintenance state, a bundle staged, an activation waiting. -/
def waiting_ : State := flashed (fun w => { w with deferred := true }) [(F.MBX_STAT_MAINT, 1), (F.SEC_BUNDLE_STAGED, 1)]
def heated (s : State) : State := { s with power := { s.power with emergencyThermal := true } }
theorem witness_FwActivate_staged : waiting_.maint = true ∧ waiting_.bit F.SEC_BUNDLE_STAGED = true ∧ waiting_.emergency = false ∧ waiting_.fw.deferred = true ∧
    served waiting_ (ask 4) 0x51 .administrator (some 0) = true ∧ (heated waiting_).emergency = true ∧
    served (heated waiting_) (ask 4) 0x51 .administrator (some 0) = true ∧ powerQuiet waiting_ ∧ waiting_.ready 0 = true ∧
    waiting_.bit F.SEC_STAT_RECOVERY = false := by unfold powerQuiet; decide +kernel
/-- A bundle runs on trial since time 5; processor 2 restarted at time 9. -/
def trial : State := flashed (fun w => { w with trialSince := some 5, restarts := [(2, [9])] }) [(F.SEC_BUNDLE_TRIAL, 1)]
theorem witness_Trial : trial.bit F.SEC_BUNDLE_TRIAL = true ∧ trial.trialFailed = true ∧ powerQuiet trial ∧ (flashed id []).trialFailed = false ∧
    (flashed id []).fw.deferred = false ∧ (flashed id []).bit F.SEC_BUNDLE_TRIAL = false ∧ served trial (ask 4) 0x52 .administrator (some 0) = true ∧
    served trial (ask 4) 0x53 .administrator (some 0) = true := by unfold powerQuiet; decide +kernel
theorem witness_Maint : (flashed id []).fld F.GLB_JOB_STATE = 0 ∧ (flashed id [(F.GLB_JOB_STATE, 3)]).fld F.GLB_JOB_STATE ≠ 0 ∧
    served (flashed id [(F.GLB_JOB_STATE, 3)]) (ask 4) 0x54 .administrator (some 0) = true ∧ served (flashed id []) (ask 4) 0x55 .administrator (some 0) = true := by
  decide +kernel
/-- BSC is about to boot after a POR, with both slots empty. -/
def booting : State := { State.reset with power := { State.reset.power with on := true, resets := [(1, 0, 5)] } }
theorem witness_Boot : booting.power.on = true ∧ booting.power.off = none ∧ (∃ x ∈ booting.power.resets, x.1 ≤ 2) ∧ booting.bootSlot = none ∧
    (∀ x ∈ (calm up).power.resets, 2 < x.1) := by decide +kernel
/-- A watchdog of 100 ms on processor 2, kicked at time 0. -/
def watched (f : Firmware → Firmware) : State := flashed f [(fwpFld 2 F.FWP_STAT_RUNNING, 1), (fwpFld 2 F.FWP_WDT_PERIOD, 100)]
theorem witness_Watchdog : powerQuiet (watched id) ∧ (watched id).bit (fwpFld (2 : FwpId).val F.FWP_STAT_RUNNING) = true ∧
    (watched id).bit (fwpFld (2 : FwpId).val F.FWP_STAT_HELD) = false ∧
    Tab.get (fun _ => 0) (watched id).fw.kicked 2 + (watched id).fld (fwpFld 2 F.FWP_WDT_PERIOD) * 1000000 ≤ ((watched id).at_ 100000000).clock.ns.toNat ∧
    ((watched id).at_ 99999999).clock.ns.toNat < Tab.get (fun _ => 0) (watched id).fw.kicked 2 + (watched id).fld (fwpFld 2 F.FWP_WDT_PERIOD) * 1000000 ∧
    ((watched id).recentRestarts 2 100000000).length < 2 ∧
    2 ≤ ((watched (fun w => { w with restarts := [(2, [7, 8])] })).recentRestarts 2 100000000).length := by unfold powerQuiet; decide +kernel
theorem witness_Attest : (zeros 32).length = 32 ∧ net.enrolled = false ∧ servedOutside net ⟨0, 1, 1⟩ 0x60 = true ∧ servedOutside net ⟨0, 1, 1⟩ 0x62 = true := by decide +kernel
theorem witness_Removal : (flashed id []).fld F.GLB_JOB_STATE = 0 ∧ served (hosted id (some team) run3) (ask 4) 0x71 .operator (some 1) = true ∧
    (hosted id (some team) run3).fld F.GLB_JOB_STATE ≠ 0 ∧ served (hosted id none []) (ask 4) 0x71 .operator (some 1) = true := by decide +kernel
theorem witness_Reset : (∀ p : FwpId, (flashed id []).bit (fwpFld p.val F.FWP_STAT_HELD) = false ∧ ((flashed id []).recentRestarts p.val 0).length < 2) ∧
    (∀ q ∈ (flashed id []).fw.taken, q.server ≠ some 3) := by decide +kernel

/-! ### Power -/

def powered (f : Power → Power) (s : State) : State := { s with power := f s.power }
theorem witness_PwrEnRise : (powered (fun p => { p with on := false, pwrEn := false, off := none }) net).power.on = false ∧
    (∀ why ∈ [OffCause.lockout, .latched, .trip], (powered (fun p => { p with on := false, pwrEn := false, off := some why, enLowSince := some 0 }) net).power.off = some why) ∧
    32000 < BitVec.toNat (48000 : BitVec 16) - 10000 ∧ net.power.on = true ∧ 1000000000 ≤ BitVec.toNat (1000000000 : BitVec 64) - 0 := by decide +kernel
def leaving : State := flashed (fun w => { w with removing := some 0 }) []
theorem witness_PwrEnFall : leaving.power.on = true ∧ leaving.power.off = none ∧ (∃ t0, leaving.fw.removing = some t0 ∧ t0 + 200000000 ≤ BitVec.toNat (200000000 : BitVec 64)) ∧
    net.fw.removing = none ∧ (powered (fun p => { p with off := some .trip }) net).power.off = some .trip :=
  ⟨by decide +kernel, by decide +kernel, ⟨0, rfl, by decide⟩, rfl, rfl⟩
theorem witness_Resets : powerQuiet (calm net) ∧ (10 : Nat) ≤ 10 ∧ ¬(9 : Nat) ≥ 10 := by unfold powerQuiet; decide +kernel
theorem witness_Input : net.power.on = true ∧ net.power.emergencyInput = false ∧ (decide (BitVec.toNat (31999 : BitVec 16) < 32000) || decide (40000 < BitVec.toNat (31999 : BitVec 16))) = true ∧
    BitVec.toNat (29999 : BitVec 16) < 30000 ∧ 42000 < BitVec.toNat (42001 : BitVec 16) ∧ 850 < BitVec.toNat (851 : BitVec 16) := by decide +kernel
theorem witness_InputRestart : (powered (fun p => { p with on := false, off := some .lockout }) up).power.pwrEn = up.power.pwrEn ∧
    (powered (fun p => { p with pwrEn := true, off := some .lockout }) up).power.pwrEn = true ∧ 32000 < BitVec.toNat (32001 : BitVec 16) ∧ (100 : Nat) ≤ 100 := by decide +kernel
theorem witness_Trip : net.power.on = true ∧ net.power.off = none ∧ ThermSite.trip (.die 0) ≤ 1840 ∧ ¬ ThermSite.trip (.die 0) ≤ 1839 ∧ ThermSite.trip (.stack 0) ≤ 1680 := by decide +kernel
def cool : LimiterIn := ⟨[1631, 1000], [1471], 0, 850⟩
def hot : LimiterIn := ⟨[1680, 1000], [], 0, 0⟩
theorem witness_Limiter : (∀ t ∈ cool.dies, t < 102 * 16) ∧ (∀ t ∈ cool.devices, t < 92 * 16) ∧ net.power.throttling = [] ∧ net.power.emergencyThermal = false ∧
    ¬(100 * net.fld F.PWR_PLAN_CAP < cool.power ∨ 850 < cool.current) ∧ 850 < { cool with current := 851 }.current ∧ 0 < hot.dies.length ∧ 105 * 16 ≤ hot.dies.getD 0 0 := by decide +kernel
theorem witness_Droop : net.tileReady 7 = true ∧ State.reset.tileReady 7 = false := by decide +kernel

/-- In power state k, on the way to another. -/
def inState (k n : Nat) (l : List (Fld × Nat)) : State := powered (fun p => { p with resets := [], stateTarget := some n }) (sets net ((F.PWR_STATE_CUR, k) :: l))
theorem witness_StateTarget : bitsOf (4 : BitVec 64) 3 2 ≠ 0 ∧ (sets net run3).fld F.GLB_JOB_STATE ≠ 0 ∧ ¬(bitsOf (4 : BitVec 64) 3 2 ≠ 0 ∧ net.fld F.GLB_JOB_STATE ≠ 0) ∧
    bitsOf (4 : BitVec 64) 3 2 ≠ net.fld F.PWR_STATE_CUR ∧ Requester.isFw (.fw 0) = true ∧ Requester.isFw .host = false ∧ net.power.stateTarget = none := by decide +kernel
theorem witness_StateChange : ∀ e ∈ [(0, 0), (0, 1), (0, 2), (0, 3), (1, 0), (2, 0), (3, 0), (2, 3)], (inState e.1 e.2 []).power.on = true ∧ (inState e.1 e.2 []).power.off = none ∧
    (inState e.1 e.2 []).power.resets = [] ∧ (inState e.1 e.2 []).power.stateTarget = some e.2 ∧ (inState e.1 e.2 []).fld F.PWR_STATE_CUR = e.1 ∧
    (inState e.1 e.2 []).power.resetAfter = none ∧ (inState e.1 e.2 []).fld F.GLB_JOB_STATE = 0 := by decide +kernel
theorem witness_StateChange_refused : (inState 0 2 [(F.GLB_JOB_STATE, 3)]).fld F.PWR_STATE_CUR = 0 ∧ (inState 0 2 [(F.GLB_JOB_STATE, 3)]).fld F.GLB_JOB_STATE ≠ 0 := by decide +kernel
theorem witness_StateChange_memory : (∀ c : CtrlId, wcbOk (inState 0 3 []) c) ∧ memoriesWf (inState 0 3 []) ∧ memQuiet (inState 0 3 []) = true := by
  refine ⟨fun c => ⟨?_, fun e h => ?_⟩, ?_, by decide +kernel⟩
  · rw [show (inState 0 3 []).wcbOf c = [] from rfl]; exact .nil
  · rw [show (inState 0 3 []).wcbOf c = [] from rfl] at h; cases h
  · unfold memoriesWf; decide +kernel
theorem witness_PwrReset : powerQuiet (calm net) ∧ bitsOf (2 : BitVec 64) 2 0 = 2 ∧ bitsOf (3 : BitVec 64) 2 0 = 3 ∧ bitsOf (4 : BitVec 64) 2 0 = 4 ∧
    bitsOf (0x205 : BitVec 64) 2 0 = 5 ∧ bitsOf (0x205 : BitVec 64) 11 8 = 2 ∧ net.bit (fwpFld 2 F.FWP_STAT_HELD) = false ∧
    (net.recentRestarts 2 net.clock.ns.toNat).length < 2 ∧ Requester.host ≠ .fw 0 := by unfold powerQuiet; decide +kernel
def ending (c p : Nat) (s : State) : State := powered (fun x => { x with resets := [(c, p, 4)] }) s
theorem witness_ResetComplete : ∀ c ∈ [1, 2, 3, 4, 5], (ending c 2 net).power.resets = [(c, 2, 4)] ∧ (ending c 2 net).fld F.GLB_JOB_STATE ≠ 5 := by decide +kernel
theorem witness_ResetComplete_teardown : (ending 3 0 (teamIs id [(F.GLB_JOB_STATE, 5)])).fld F.GLB_JOB_STATE = 5 ∧ team.scrub = false ∧
    (6 : NodeId) ∈ (ending 3 0 (teamIs id [(F.GLB_JOB_STATE, 5)])).treeKids team ∧ (∀ e ∈ team.tearDone, e.1 ≠ 6) ∧
    (6 : NodeId) ≠ (ending 3 0 (teamIs id [(F.GLB_JOB_STATE, 5)])).nodeId := by decide +kernel
theorem witness_Jtag : (JtagOp.highz ∈ [JtagOp.extest, .extestPulse, .extestTrain, .clamp, .highz]) ∧ ¬(JtagOp.sample ∈ [JtagOp.extest, .extestPulse, .extestTrain, .clamp, .highz]) ∧
    net.bit F.MBX_STAT_MAINT = false ∧ (sets net [(F.MBX_STAT_MAINT, 1)]).bit F.MBX_STAT_MAINT = true := by decide +kernel

/-! ### Invariants -/

theorem witness_MainMemories : (State.reset.mem.wf = true ∧ State.reset.flash.wf = true) ∧ ∃ t, step State.reset = .next t := ⟨by decide, _, rfl⟩
theorem witness_TileMemories : ∀ k : TileId, (State.reset.tile k).smem.wf = true ∧ (State.reset.tile k).treg.wf = true := fun k => by
  rw [tile_of_none _ rfl]; decide

end Sys2Proof.Tests
end

section
/-! The register bus (R8 to R17): what a read and a write of a register do, by block and by access code, and the statements of
chapter 0. -/

namespace Sys2Proof.Machine

/-! ### The commands of the register bus -/

theorem exec_readClearRegister (q : Requester) (a : BitVec 48) (size : Nat) (s : State) :
    exec (.readClearRegister q a size) s = .next (if regShape a.toNat size then (s.busRead q a.toNat).2 else s) := rfl

theorem exec_registerWrite (q : Requester) (a : BitVec 48) (size : Nat) (v : BitVec 64) (s : State) :
    exec (.registerWrite q a size v) s = .next (if regShape a.toNat size && q != .host then s.busWrite q a.toNat v else s) := rfl

/-- An access is whole when it is of 8 bytes and aligned to 8 (R9). -/
theorem regShape_iff (off size : Nat) : regShape off size = true ↔ size = 8 ∧ off % 8 = 0 := by simp [regShape]

/-- A write command does what the register bus does, or nothing. -/
theorem exec_registerWrite_cases (q : Requester) (a : BitVec 48) (size : Nat) (v : BitVec 64) (s : State) :
    exec (.registerWrite q a size v) s = .next (s.busWrite q a.toNat v) ∨ exec (.registerWrite q a size v) s = .next s := by
  rw [exec_registerWrite]
  split
  · exact .inl rfl
  · exact .inr rfl

/-- A write that the register bus ignores is a command without effect. -/
theorem exec_registerWrite_ignored {q : Requester} {a : BitVec 48} {v : BitVec 64} {s : State} (size : Nat)
    (h : s.busWrite q a.toNat v = s) : exec (.registerWrite q a size v) s = .next s := by
  rw [exec_registerWrite, h, ite_self]

theorem exec_readClearRegister_aligned {q : Requester} {a : BitVec 48} {s : State} (h8 : a.toNat % 8 = 0) :
    exec (.readClearRegister q a 8) s = .next (s.busRead q a.toNat).2 := by
  rw [exec_readClearRegister, if_pos ((regShape_iff _ _).2 ⟨rfl, h8⟩)]

theorem exec_registerWrite_aligned {q : Requester} {a : BitVec 48} {v : BitVec 64} {s : State} (h8 : a.toNat % 8 = 0) (hq : q ≠ .host) :
    exec (.registerWrite q a 8 v) s = .next (s.busWrite q a.toNat v) := by
  rw [exec_registerWrite, (regShape_iff _ _).2 ⟨rfl, h8⟩, if_pos (by simpa using hq)]

/-- An access that is not whole has no effect. -/
theorem exec_malformed_access {q : Requester} {a : BitVec 48} {size : Nat} {v : BitVec 64} {s : State} (h : size ≠ 8 ∨ a.toNat % 8 ≠ 0) :
    exec (.readClearRegister q a size) s = .next s ∧ exec (.registerWrite q a size v) s = .next s := by
  have hs : regShape a.toNat size = false := by
    rw [Bool.eq_false_iff, Ne, regShape_iff]
    omega
  simp [exec_readClearRegister, exec_registerWrite, hs]

/-! ### Blocks and the registers in them -/

/-- Where an offset lies in a block, and the offset inside it (Table 17-1). -/
def Block.holds (off o : Nat) : Block → Prop
  | .tile => off < 0x1000000 ∧ o = off % 0x10000
  | .cpu => 0x1000000 ≤ off ∧ off < 0x1010000 ∧ o = off - 0x1000000
  | .mem => (0x2000000 ≤ off ∧ off < 0x20C0000 ∨ 0x2100000 ≤ off ∧ off < 0x2300000) ∧ o = off % 0x10000
  | .nand => 0x2300000 ≤ off ∧ off < 0x2310000 ∧ o = off - 0x2300000
  | .fab => 0x3000000 ≤ off ∧ off < 0x3800000 ∧ o = off % 0x400000
  | .col => 0x3800000 ≤ off ∧ off < 0x3810000 ∧ o = off - 0x3800000
  | .time => 0x4000000 ≤ off ∧ off < 0x4010000 ∧ o = off - 0x4000000
  | .eth => 0x4100000 ≤ off ∧ off < 0x4110000 ∧ o = off - 0x4100000
  | .pwr => 0x5000000 ≤ off ∧ off < 0x5010000 ∧ o = off - 0x5000000
  | .mbx => 0x6000000 ≤ off ∧ off < 0x6010000 ∧ o = off - 0x6000000
  | .ckpt => 0x7000000 ≤ off ∧ off < 0x7010000 ∧ o = off - 0x7000000
  | .sec => 0x8000000 ≤ off ∧ off < 0x8010000 ∧ o = off - 0x8000000
  | .glb => 0x9000000 ≤ off ∧ off < 0x9010000 ∧ o = off - 0x9000000

/-- The windows of the blocks do not overlap, so the first that holds an offset is its only one. -/
theorem blockAt_eq_some_iff (off o : Nat) (b : Block) : blockAt off = some (b, o) ↔ b.holds off o := by
  constructor <;> intro h
  · rw [blockAt] at h
    iterate 14
      rcases ite_eq_iff.1 h with ⟨_, e⟩ | ⟨_, h⟩
      · cases e
        unfold Block.holds
        omega
    cases h
  · cases b <;>
      (simp only [Block.holds] at h
       rw [blockAt]
       repeat rw [if_neg (by omega)])
    case mem =>
      by_cases c : off < 0x20C0000
      · rw [if_pos (by omega), h.2]
      · rw [if_neg (by omega), if_pos (by omega), h.2]
    all_goals rw [if_pos (by omega)]
    case tile => rw [h.2]
    all_goals rw [h.2.2]

theorem blockAt_mod_eight {off o : Nat} {b : Block} (h : blockAt off = some (b, o)) : o % 8 = off % 8 := by
  rw [blockAt_eq_some_iff] at h
  cases b <;> simp only [Block.holds] at h <;> omega

theorem regAt_of_blockAt {off o : Nat} {b : Block} (h : blockAt off = some (b, o)) : regAt off = (regsOf b).find? (fun r => r.hits o) := by
  simp only [regAt, h]

theorem mem_regsOf {off o : Nat} {b : Block} {r : RegDesc} (hb : blockAt off = some (b, o)) (hr : regAt off = some r) : r ∈ regsOf b := by
  rw [regAt_of_blockAt hb] at hr
  exact List.mem_of_find?_eq_some hr

/-- Every register lies in a block, among its registers. -/
theorem blockAt_of_regAt {off : Nat} {r : RegDesc} (hr : regAt off = some r) : ∃ b o, blockAt off = some (b, o) ∧ r ∈ regsOf b := by
  cases hb : blockAt off with
  | none => simp [regAt, hb] at hr
  | some p => exact ⟨p.1, p.2, rfl, mem_regsOf hb hr⟩

/-! ### Offsets that no register occupies -/

/-- Both fabric dies have the same registers. -/
theorem regAt_otherDie {off o : Nat} (h : blockAt off = some (.fab, o)) :
    regAt (if (off - 0x3000000) / 0x400000 = 0 then off + 0x400000 else off - 0x400000) = regAt off := by
  have other : blockAt (if (off - 0x3000000) / 0x400000 = 0 then off + 0x400000 else off - 0x400000) = some (.fab, o) := by
    rw [blockAt_eq_some_iff, Block.holds] at h ⊢
    split <;> omega
  rw [regAt_of_blockAt other, regAt_of_blockAt h]

section Vacant
variable {off o : Nat} {b : Block} (h : regAt off = none) (hb : blockAt off = some (b, o))
include h

theorem State.plainWrite_vacant (s : State) (q : Requester) (v : BitVec 64) : s.plainWrite q off v = s := by
  simp only [State.plainWrite, h]

theorem State.busRead_vacant (s : State) (q : Requester) : s.busRead q off = (0, s) := by
  simp only [State.busRead, h, ite_self]

include hb

/-- A vacant offset is none that a register of the block hits. -/
theorem ne_of_vacant {a : Nat} (ha : ∃ r ∈ regsOf b, r.hits a = true) : o ≠ a := by
  rintro rfl
  obtain ⟨r, hr, hits⟩ := ha
  rw [regAt_of_blockAt hb, List.find?_eq_none] at h
  exact h r hr hits

/-- A vacant aligned offset lies outside the range of a register with n indices, 8 bytes apart. -/
theorem outside_row_of_vacant (k n : Nat) (hr : ∃ r ∈ regsOf b, r.off = k ∧ r.step = 8 ∧ r.count = n) (hn : n ≠ 1)
    (hk : k % 8 = 0) (h8 : off % 8 = 0) : ¬(k ≤ o ∧ o < k + 8 * n) := by
  rintro ⟨h1, h2⟩
  obtain ⟨r, hr, rfl, hs, rfl⟩ := hr
  have h3 := blockAt_mod_eight hb
  have h4 : (o - r.off) % 8 = 0 := by omega
  exact ne_of_vacant h hb ⟨r, hr, by simp [RegDesc.hits, hn, hs, h1, h2, h4]⟩ rfl

end Vacant

section VacantBlocks
variable {off o : Nat} (h : regAt off = none) (s : State) (q : Requester) (v : BitVec 64)
include h

theorem State.fabWrite_vacant (hb : blockAt off = some (.fab, o)) : s.fabWrite q off v = s := by
  have hother := (regAt_otherDie hb).trans h
  simp only [State.fabWrite, h, State.plainWrite_vacant h, State.plainWrite_vacant hother, Option.isSome_none, Bool.and_false,
    Bool.false_and, Bool.false_eq_true, if_false, ite_self]

theorem State.colWrite_vacant (hb : blockAt off = some (.col, o)) (h8 : off % 8 = 0) : s.colWrite q o off v = s := by
  have submit : o ≠ 8 := ne_of_vacant h hb (by decide +kernel)
  have policy : ¬(0x2000 ≤ o ∧ o < 0x2800) := outside_row_of_vacant h hb 0x2000 256 (by decide +kernel) (by decide) (by decide) h8
  have ctl : ¬(0x2800 ≤ o ∧ o < 0x3000) := outside_row_of_vacant h hb 0x2800 256 (by decide +kernel) (by decide) (by decide) h8
  simp only [State.colWrite, State.writeIf, State.plainWrite_vacant h, submit, policy, ctl, if_false, ite_self]

theorem State.timeWrite_vacant (hb : blockAt off = some (.time, o)) : s.timeWrite q o off v = s := by
  have rebase : o ≠ 0x38 := ne_of_vacant h hb (by decide +kernel)
  have tail : o ≠ 0x50 := ne_of_vacant h hb (by decide +kernel)
  have config : o ≠ 0x18 := ne_of_vacant h hb (by decide +kernel)
  simp only [State.timeWrite, State.plainWrite_vacant h, rebase, tail, config, if_false]

theorem State.pwrWrite_vacant (hb : blockAt off = some (.pwr, o)) : s.pwrWrite q o off v = s := by
  have target : o ≠ 8 := ne_of_vacant h hb (by decide +kernel)
  have reset : o ≠ 0x20 := ne_of_vacant h hb (by decide +kernel)
  simp only [State.pwrWrite, State.writeIf, State.plainWrite_vacant h, target, reset, if_false, ite_self]

/-- An aligned write where no register is changes nothing: every write with an effect of its own is that of a register (R10). -/
theorem State.busWrite_vacant (h8 : off % 8 = 0) : s.busWrite q off v = s := by
  have plain := State.plainWrite_vacant h s q v
  unfold State.busWrite
  split
  · rfl
  cases hb : blockAt off with
  | none => rfl
  | some p =>
    obtain ⟨b, o⟩ := p
    cases b with
    | tile =>
      have run : o ≠ 0 := ne_of_vacant h hb (by decide +kernel)
      have arrive : ¬(0x4100 ≤ o ∧ o < 0x4300) := outside_row_of_vacant h hb 0x4100 64 (by decide +kernel) (by decide) (by decide) h8
      simp only [← and_assoc, run, arrive, false_and, if_false, plain]
    | cpu =>
      have start : o ≠ 8 := ne_of_vacant h hb (by decide +kernel)
      simp only [start, if_false, plain]
    | mem =>
      have drain : o ≠ 0x18 := ne_of_vacant h hb (by decide +kernel)
      simp only [drain, if_false, plain]
    | fab => exact State.fabWrite_vacant h s q v hb
    | col => exact State.colWrite_vacant h s q v hb h8
    | time => exact State.timeWrite_vacant h s q v hb
    | mbx =>
      have watchdog : ¬(0x1040 ≤ o ∧ o < 0x1070) := outside_row_of_vacant h hb 0x1040 6 (by decide +kernel) (by decide) (by decide) h8
      simp only [← and_assoc, watchdog, false_and, if_false, plain]
    | pwr => exact State.pwrWrite_vacant h s q v hb
    | nand => exact plain
    | eth => exact plain
    | ckpt => exact plain
    | sec => exact plain
    | glb => exact plain

end VacantBlocks

/-! ### Registers whose fields a write leaves -/

theorem State.busWrite_unreached {s : State} {q : Requester} {off : Nat} (h : s.reaches q off = false) (v : BitVec 64) :
    s.busWrite q off v = s := by simp [State.busWrite, h]

/-- A hart in user mode reaches no register (R309). -/
theorem State.reaches_hart_user {s : State} {h : HartId} (hu : (s.hart h).machineMode = false) (off : Nat) :
    s.reaches (.hart h) off = false := by simp [State.reaches, Hart.dataMachine, hu]

/-- A shuttle reaches no register outside its tile's block (R117). -/
theorem State.reaches_shuttle_other (s : State) {k : TileId} {off : Nat} (h : off / 0x10000 ≠ k.toNat) :
    s.reaches (.shuttle k) off = false := by simp [State.reaches, h]

/-- The word after a write has dealt with one field. -/
def writeField (q : Requester) (off : Nat) (new old : BitVec 64) (f : FieldDesc) : BitVec 64 :=
  if writerOk q off f.acc then
    match f.acc with
    | .rw => withBits old f.hi f.lo (bitsOf new f.hi f.lo)
    | .w1c => withBits old f.hi f.lo (bitsOf old f.hi f.lo - Nat.land (bitsOf old f.hi f.lo) (bitsOf new f.hi f.lo))
    | .w1s => withBits old f.hi f.lo (Nat.lor (bitsOf old f.hi f.lo) (bitsOf new f.hi f.lo))
    | _ => old
  else old

/-- A write deals with the fields of the register one after the other. -/
theorem writeFields_eq_foldl (q : Requester) (off : Nat) (old new : BitVec 64) (l : List FieldDesc) :
    writeFields q off old new l = l.foldl (writeField q off new) old := by
  induction l generalizing old with
  | nil => rfl
  | cons f l ih => exact ih _

/-- A write leaves a register none of whose fields is RW, W1C or W1S. -/
theorem writeFields_of_readOnly {l : List FieldDesc} (h : ∀ f ∈ l, f.acc = .ro ∨ f.acc = .rc) (q : Requester) (off : Nat) (old new : BitVec 64) :
    writeFields q off old new l = old := by
  rw [writeFields_eq_foldl]
  refine List.foldlRecOn l _ (motive := (· = old)) rfl fun v hv f hf => ?_
  rw [hv, writeField]
  rcases h f hf with ha | ha <;> simp [ha]

theorem regsGlb_readOnly : ∀ r ∈ regsGlb, ∀ f ∈ r.fields, f.acc = .ro ∨ f.acc = .rc := by decide +kernel

/-- Writing a register's own word changes no register. -/
theorem State.reg_setReg_own (s : State) (a b : Nat) : (s.setReg a (s.reg a)).reg b = s.reg b := by
  rw [State.reg_setReg]
  split
  case isTrue e => rw [e]
  case isFalse => rfl

/-- Storing a word in a register touches nothing but the registers. -/
theorem State.setReg_regs (s : State) (a : Nat) (v : BitVec 64) : { s.setReg a v with regs := s.regs } = s := rfl

/-- A write in the global block leaves every register's word (R696). -/
theorem State.busWrite_glb (s : State) (q : Requester) (v : BitVec 64) {off o : Nat} (hb : blockAt off = some (.glb, o)) :
    s.busWrite q off v = s ∨ s.busWrite q off v = s.setReg off (s.reg off) := by
  by_cases hq : s.reaches q off = true
  case neg => exact .inl (s.busWrite_unreached (by simpa using hq) v)
  have plain : s.busWrite q off v = s.plainWrite q off v := by simp [State.busWrite, hq, hb]
  rw [plain]
  cases hr : regAt off with
  | none => exact .inl (State.plainWrite_vacant hr s q v)
  | some r =>
    have keeps := writeFields_of_readOnly (regsGlb_readOnly r (mem_regsOf hb hr)) q off (s.reg off) v
    exact .inr (by simp only [State.plainWrite, hr, keeps])

/-! ### A field after a pass over all fields of its register -/

/-- A field lies in the word and has room for its reset value. -/
@[reducible] def FieldDesc.Fits (f : FieldDesc) : Prop := f.lo ≤ f.hi ∧ f.hi < 64 ∧ f.rst < 2 ^ (f.hi - f.lo + 1)

/-- Two fields share no bit. -/
@[reducible] def FieldDesc.Apart (f g : FieldDesc) : Prop := g.hi < f.lo ∨ f.hi < g.lo

theorem regsOf_fields_fit (b : Block) : ∀ r ∈ regsOf b, ∀ f ∈ r.fields, f.Fits := by
  cases b <;> decide +kernel

theorem regsOf_fields_apart (b : Block) : ∀ r ∈ regsOf b, r.fields.Pairwise FieldDesc.Apart := by
  cases b <;> decide +kernel

/-- What is done to a word for one field: the field becomes `val` of its old value, every field apart from it stays. -/
structure FieldStep (step : BitVec 64 → FieldDesc → BitVec 64) (val : FieldDesc → Nat → Nat) : Prop where
  own : ∀ v f, f.Fits → bitsOf (step v f) f.hi f.lo = val f (bitsOf v f.hi f.lo)
  other : ∀ v f g, f.Fits → g.Fits → f.Apart g → bitsOf (step v f) g.hi g.lo = bitsOf v g.hi g.lo

section
variable {step : BitVec 64 → FieldDesc → BitVec 64} {val : FieldDesc → Nat → Nat} (hs : FieldStep step val)
include hs

theorem FieldStep.foldl_other {l : List FieldDesc} {g : FieldDesc} (hg : g.Fits) (hl : ∀ f ∈ l, f.Fits) (ha : ∀ f ∈ l, f.Apart g) (v : BitVec 64) :
    bitsOf (l.foldl step v) g.hi g.lo = bitsOf v g.hi g.lo :=
  List.foldlRecOn l step (motive := fun w => bitsOf w g.hi g.lo = bitsOf v g.hi g.lo) rfl
    fun w hw f hf => (hs.other w f g (hl f hf) hg (ha f hf)).trans hw

/-- After a pass over fields that are apart, each has become `val` of its old value. -/
theorem FieldStep.foldl_own {l : List FieldDesc} (hl : ∀ f ∈ l, f.Fits) (ha : l.Pairwise FieldDesc.Apart) {f : FieldDesc} (hf : f ∈ l) (v : BitVec 64) :
    bitsOf (l.foldl step v) f.hi f.lo = val f (bitsOf v f.hi f.lo) := by
  induction l generalizing v with
  | nil => cases hf
  | cons g l ih =>
    obtain ⟨hg, htl⟩ := List.forall_mem_cons.1 hl
    obtain ⟨hgl, hal⟩ := List.pairwise_cons.1 ha
    rw [List.foldl_cons]
    rcases List.mem_cons.1 hf with rfl | hf
    · rw [hs.foldl_other hg htl (fun e he => (hgl e he).symm), hs.own v f hg]
    · rw [ih htl hal hf, hs.other v g f hg (htl f hf) (hgl f hf)]

end

/-- The value of a field after a write: RW takes the written bits, W1C and W1S clear and set (Table 0-4). -/
def writtenField (q : Requester) (off : Nat) (new : BitVec 64) (f : FieldDesc) (old : Nat) : Nat :=
  if writerOk q off f.acc then
    match f.acc with
    | .rw => bitsOf new f.hi f.lo
    | .w1c => old - Nat.land old (bitsOf new f.hi f.lo)
    | .w1s => Nat.lor old (bitsOf new f.hi f.lo)
    | _ => old
  else old

theorem fieldStep_writeField (q : Requester) (off : Nat) (new : BitVec 64) : FieldStep (writeField q off new) (writtenField q off new) where
  own v f hf := by
    obtain ⟨h, h64, -⟩ := hf
    have hn := bitsOf_lt new f.hi f.lo
    have ho := bitsOf_lt v f.hi f.lo
    unfold writeField writtenField
    split
    case isFalse => rfl
    cases f.acc with
    | rw => exact (bitsOf_withBits v _ _ _ h h64).trans (Nat.mod_eq_of_lt hn)
    | w1c => exact (bitsOf_withBits v _ _ _ h h64).trans (Nat.mod_eq_of_lt (Nat.lt_of_le_of_lt (Nat.sub_le _ _) ho))
    | w1s => exact (bitsOf_withBits v _ _ _ h h64).trans (Nat.mod_eq_of_lt (Nat.or_lt_two_pow ho hn))
    | ro => rfl
    | wo => rfl
    | rc => rfl
  other v f g hf hg ha := by
    obtain ⟨h, h64, -⟩ := hf
    have placed := fun n => bitsOf_withBits_other v f.hi f.lo n g.hi g.lo h h64 hg.1 ha
    unfold writeField
    split
    case isFalse => rfl
    cases f.acc with
    | rw => exact placed _
    | w1c => exact placed _
    | w1s => exact placed _
    | ro => rfl
    | wo => rfl
    | rc => rfl

/-- The word after a read has dealt with one field. -/
def clearField (v : BitVec 64) (f : FieldDesc) : BitVec 64 := if f.acc = .rc then withBits v f.hi f.lo f.rst else v

theorem clearRc_eq_foldl (v : BitVec 64) (l : List FieldDesc) : clearRc v l = l.foldl clearField v := by
  induction l generalizing v with
  | nil => rfl
  | cons f l ih => exact ih _

theorem fieldStep_clearField : FieldStep clearField (fun f old => if f.acc = .rc then f.rst else old) where
  own v f hf := by
    obtain ⟨h, h64, hr⟩ := hf
    unfold clearField
    split
    · exact (bitsOf_withBits v _ _ _ h h64).trans (Nat.mod_eq_of_lt hr)
    · rfl
  other v f g hf hg ha := by
    obtain ⟨h, h64, -⟩ := hf
    unfold clearField
    split
    · exact bitsOf_withBits_other v f.hi f.lo _ g.hi g.lo h h64 hg.1 ha
    · rfl

/-- A read leaves a register without RC fields. -/
theorem clearRc_of_none {l : List FieldDesc} (h : l.any (fun f => f.acc == .rc) = false) (v : BitVec 64) : clearRc v l = v := by
  rw [clearRc_eq_foldl]
  refine List.foldlRecOn l _ (motive := (· = v)) rfl fun w hw f hf => ?_
  have hf' : f.acc ≠ .rc := by simpa using List.any_eq_false.1 h f hf
  rw [clearField, if_neg hf', hw]

section
variable {off : Nat} {r : RegDesc} {f : FieldDesc} (hr : regAt off = some r) (hf : f ∈ r.fields)
include hr hf

/-- Every field of a register is written by its access code. -/
theorem bitsOf_writeFields (q : Requester) (old new : BitVec 64) :
    bitsOf (writeFields q off old new r.fields) f.hi f.lo = writtenField q off new f (bitsOf old f.hi f.lo) := by
  obtain ⟨b, o, -, hm⟩ := blockAt_of_regAt hr
  rw [writeFields_eq_foldl]
  exact (fieldStep_writeField q off new).foldl_own (regsOf_fields_fit b r hm) (regsOf_fields_apart b r hm) hf old

/-- A read puts every RC field of a register to its reset value and leaves the others. -/
theorem bitsOf_clearRc (v : BitVec 64) : bitsOf (clearRc v r.fields) f.hi f.lo = if f.acc = .rc then f.rst else bitsOf v f.hi f.lo := by
  obtain ⟨b, o, -, hm⟩ := blockAt_of_regAt hr
  rw [clearRc_eq_foldl]
  exact fieldStep_clearField.foldl_own (regsOf_fields_fit b r hm) (regsOf_fields_apart b r hm) hf v

end

/-- The NAND, Ethernet, resilience, security and global blocks: a write does what the access codes say and nothing else. -/
theorem State.busWrite_plain {s : State} {q : Requester} {off : Nat} {r : RegDesc} (hq : s.reaches q off = true) (hr : regAt off = some r)
    (hb : (blockAt off).map Prod.fst ∈ [some Block.nand, some .eth, some .ckpt, some .sec, some .glb]) (v : BitVec 64) :
    s.busWrite q off v = s.setReg off (writeFields q off (s.reg off) v r.fields) := by
  obtain ⟨b, o, e, -⟩ := blockAt_of_regAt hr
  have plain : s.plainWrite q off v = s.setReg off (writeFields q off (s.reg off) v r.fields) := by simp only [State.plainWrite, hr]
  simp only [e, Option.map_some, List.mem_cons, Option.some.injEq, List.not_mem_nil, or_false] at hb
  rcases hb with rfl | rfl | rfl | rfl | rfl <;> simp [State.busWrite, hq, e, plain]

/-- The state from which a read clears RC fields: a read of TIME_NOW latches the fraction (R499). -/
def State.latched (s : State) (off : Nat) : State := if off = R.TIME_NOW then s.setFld F.TIME_FRAC_FRAC (s.clock.frac.toNat / 65536) else s

theorem State.latched_regs (s : State) (off : Nat) : { s.latched off with regs := s.regs } = s := by
  unfold State.latched
  split <;> rfl

theorem State.reg_latched (s : State) (off : Nat) {a : Nat} (h : a ≠ R.TIME_FRAC) : (s.latched off).reg a = s.reg a := by
  unfold State.latched
  split
  · exact s.reg_setFld_ne _ _ _ h
  · rfl

theorem State.busRead_state {s : State} {q : Requester} {off : Nat} {r : RegDesc} (hq : s.reaches q off = true) (hr : regAt off = some r) :
    (s.busRead q off).2 = if r.fields.any (fun f => f.acc == .rc) then (s.latched off).setReg off (clearRc ((s.latched off).reg off) r.fields)
      else s.latched off := by
  simp only [State.busRead, hq, hr, State.latched, Bool.not_true, Bool.false_eq_true, if_false]

section
variable {s : State} {q : Requester} {off : Nat} {r : RegDesc} (hq : s.reaches q off = true) (hr : regAt off = some r)
include hq hr

theorem State.busRead_regs : { (s.busRead q off).2 with regs := s.regs } = s := by
  rw [State.busRead_state hq hr]
  split
  · exact s.latched_regs off
  · exact s.latched_regs off

theorem State.reg_busRead_other {a : Nat} (ha : a ≠ off) (hf : a ≠ R.TIME_FRAC) : (s.busRead q off).2.reg a = s.reg a := by
  rw [State.busRead_state hq hr]
  split
  · rw [State.reg_setReg_ne _ _ _ _ ha, s.reg_latched off hf]
  · exact s.reg_latched off hf

theorem State.reg_busRead_own (hf : off ≠ R.TIME_FRAC) : (s.busRead q off).2.reg off = clearRc (s.reg off) r.fields := by
  rw [State.busRead_state hq hr]
  split
  case isTrue => rw [State.reg_setReg_same, s.reg_latched off hf]
  case isFalse h => rw [s.reg_latched off hf, clearRc_of_none (by simpa using h)]

end

/-! ### The statements of chapter 0 -/

/-- Settles O4: no register occupies the offset, and every write with an effect of its own is that of a register. -/
theorem unoccupiedOffsetsIgnoreWrites : Obligations.UnoccupiedOffsetsIgnoreWrites := by
  intro q off v s h
  have hr := State.busRead_vacant h s q
  refine ⟨by rw [hr], ?_⟩
  by_cases h8 : off.toNat % 8 = 0
  · exact ⟨by rw [exec_readClearRegister_aligned h8, hr], exec_registerWrite_ignored 8 (State.busWrite_vacant h s q v h8)⟩
  · exact exec_malformed_access (.inr h8)

/-- Settles O5: the access is not whole, the requester does not reach the register, or the register has no field that a write changes. -/
theorem malformedRegisterAccessesChangeNothing : Obligations.MalformedRegisterAccessesChangeNothing := by
  intro q off n v s
  refine ⟨exec_malformed_access, ?_, ?_, fun h1 h2 => ?_⟩
  · rintro h rfl hu
    exact exec_registerWrite_ignored n (State.busWrite_unreached (State.reaches_hart_user hu _) v)
  · rintro k rfl hk
    exact exec_registerWrite_ignored n (State.busWrite_unreached (s.reaches_shuttle_other hk) v)
  · have hb : blockAt off.toNat = some (.glb, off.toNat - 0x9000000) := by
      rw [blockAt_eq_some_iff]
      exact ⟨h1, h2, rfl⟩
    have unchanged : ∃ t, exec (.registerWrite q off n v) s = .next t ∧ (t = s ∨ t = s.setReg off.toNat (s.reg off.toNat)) := by
      rcases exec_registerWrite_cases q off n v s with e | e
      · exact ⟨_, e, s.busWrite_glb q v hb⟩
      · exact ⟨_, e, .inl rfl⟩
    obtain ⟨t, ht, rfl | rfl⟩ := unchanged
    · exact ⟨_, ht, rfl, fun _ _ => rfl⟩
    · exact ⟨_, ht, s.setReg_regs _ _, fun a _ => s.reg_setReg_own _ a⟩

/-- Settles O6: fields of a register share no bit, so a pass over all of them does to each what its access code says. -/
theorem registerFieldsFollowTheirAccessCodes : Obligations.RegisterFieldsFollowTheirAccessCodes := by
  intro q off v r f s hr hf h8 hq
  refine ⟨fun hhost hb => ?_, ?_⟩
  · refine ⟨_, exec_registerWrite_aligned h8 hhost, ?_⟩
    rw [State.busWrite_plain hq hr hb v]
    refine ⟨s.setReg_regs _ _, fun a ha => s.reg_setReg_ne _ _ _ (by simpa using ha), ?_⟩
    rw [State.reg_setReg_same, bitsOf_writeFields hr hf]
    rfl
  · refine ⟨_, exec_readClearRegister_aligned h8, State.busRead_regs hq hr, fun a ha => ?_, fun hfrac => ?_⟩
    · simp only [List.mem_cons, List.not_mem_nil, or_false, not_or] at ha
      exact State.reg_busRead_other hq hr ha.1 ha.2
    · rw [State.reg_busRead_own hq hr hfrac, bitsOf_clearRc hr hf]

/-- Settles O3: the reset state lists no register, tile or hart, so each reads as its default. -/
theorem resetLeavesTheManualsValues : Obligations.ResetLeavesTheManualsValues := by
  have regs : State.reset.regs = [] := rfl
  have tiles : State.reset.tiles = [] := rfl
  have harts : ∀ h : HartId, State.reset.hart h = Hart.reset := fun _ => rfl
  refine ⟨fun _ => rfl, rfl, rfl, fun h => by rw [harts]; exact ⟨rfl, rfl⟩, fun k => ⟨?_, rfl⟩, rfl, rfl, ⟨rfl, rfl, ?_⟩, ?_⟩
  · exact State.reset.halted_unlisted (by simp [regs]) k
  · simp [tiles]
  · decide +kernel

end Sys2Proof.Machine
end

section
/-! What the operations of the memory system can change (chapter 9), and what every byte reads as after a write that has passed
the guard check (R366 to R373): the layer that the statements about picks, logs and mirrors rest on. -/

namespace Sys2Proof.Machine

/-! ### Frames -/

/-- Between s and t everything that π shows and every register in P are as before. -/
structure Keeps (π : State → State) (P : Nat → Prop) (s t : State) : Prop where
  rest : π t = π s
  regs : ∀ o, P o → t.reg o = s.reg o

namespace Keeps
variable {π ρ : State → State} {P Q : Nat → Prop} {s t u : State}

theorem refl (s : State) : Keeps π P s s := ⟨rfl, fun _ _ => rfl⟩

theorem trans (h : Keeps π P s t) (k : Keeps π P t u) : Keeps π P s u :=
  ⟨k.rest.trans h.rest, fun o ho => (k.regs o ho).trans (h.regs o ho)⟩

theorem foldl {α : Type} {f : State → α → State} (hf : ∀ s x, Keeps π P s (f s x)) (l : List α) (s : State) : Keeps π P s (l.foldl f s) :=
  foldl_keeps (Keeps π P s) f (fun _ _ h => h.trans (hf _ _)) l s (refl s)

/-- What can be read off the shown part. -/
theorem same {α : Type} (h : Keeps π P s t) (f : State → α) (hf : ∀ s, f s = f (π s)) : f t = f s := by rw [hf t, hf s, h.rest]

/-- What shows more keeps more. -/
theorem weaken (h : Keeps π P s t) (hρ : ∀ s, ρ s = ρ (π s)) (hQ : ∀ o, Q o → P o) : Keeps ρ Q s t :=
  ⟨by rw [hρ t, hρ s, h.rest], fun o ho => h.regs o (hQ o ho)⟩

theorem fld (h : Keeps π P s t) {f : Fld} (hf : P f.off) : t.fld f = s.fld f := by rw [State.fld, State.fld, h.regs _ hf]

theorem bit (h : Keeps π P s t) {f : Fld} (hf : P f.off) : t.bit f = s.bit f := by rw [State.bit, State.bit, h.fld hf]

/-- An operation that touches only what π hides, and no register. -/
theorem of_rest (h : π t = π s) (hr : t.regs = s.regs) : Keeps π P s t := ⟨h, fun o _ => by rw [State.reg, State.reg, hr]⟩

theorem setFld (s : State) {f : Fld} (n : Nat) (h : ¬P f.off) (hπ : ∀ l, π { s with regs := l } = π s) : Keeps π P s (s.setFld f n) :=
  ⟨hπ _, fun _ ho => s.reg_setFld_ne _ _ _ (fun e => h (e ▸ ho))⟩

end Keeps

/-! ### What a memory operation can change -/

/-- The registers that memory operations write: the count of dropped events, and the memory controllers' blocks. -/
def memReg (o : Nat) : Prop := o = F.MBX_EVQ_DROPPED.off ∨ 0x2000000 ≤ o ∧ o < 0x2300000

/-- The state without what a write behind the guard check can change. -/
def State.lessDram (s : State) : State := { s with mem := [], poison := [], wcb := [], regs := [], rings := ⟨[], 0, [], []⟩ }

/-- The state without what any memory operation can change. -/
def State.lessMemory (s : State) : State :=
  { s.lessDram with dirty := [], harts := [], heldWrites := [], resil := { s.resil with dirtySkein := [], dirtyFlash := [], dirtyTwin := [] } }

/-- Between s and t only writes behind the guard check have happened. -/
abbrev DramOnly : State → State → Prop := Keeps State.lessDram (fun o => ¬memReg o)

/-- Between s and t only memory operations have happened. -/
abbrev MemoryOnly : State → State → Prop := Keeps State.lessMemory (fun o => ¬memReg o)

theorem DramOnly.memoryOnly {s t : State} (h : DramOnly s t) : MemoryOnly s t := h.weaken (fun _ => rfl) (fun _ h => h)
theorem DramOnly.dirty {s t : State} (h : DramOnly s t) : t.dirty = s.dirty := h.same State.dirty (fun _ => rfl)
theorem DramOnly.heldWrites {s t : State} (h : DramOnly s t) : t.heldWrites = s.heldWrites := h.same State.heldWrites (fun _ => rfl)

namespace MemoryOnly
variable {s t : State} (h : MemoryOnly s t)
include h

theorem tiles : t.tiles = s.tiles := h.same State.tiles (fun _ => rfl)
theorem clock : t.clock = s.clock := h.same State.clock (fun _ => rfl)
theorem draft : t.draft = s.draft := h.same State.draft (fun _ => rfl)
theorem ports : t.ports = s.ports := h.same State.ports (fun _ => rfl)
theorem outbox : t.outbox = s.outbox := h.same State.outbox (fun _ => rfl)
theorem ctxs : t.ctxs = s.ctxs := h.same State.ctxs (fun _ => rfl)
theorem resil_lost : t.resil.lost = s.resil.lost := h.same (fun s => s.resil.lost) (fun _ => rfl)
theorem resil_fence : t.resil.fence = s.resil.fence := h.same (fun s => s.resil.fence) (fun _ => rfl)
theorem resil_undo : t.resil.undo = s.resil.undo := h.same (fun s => s.resil.undo) (fun _ => rfl)

end MemoryOnly

theorem memReg_cfld (c : CtrlId) {f : Fld} (h : 0x2000000 ≤ f.off ∧ f.off < 0x2010000) : memReg (cfld c f).off := by
  have hc := c.isLt
  refine .inr ?_
  simp only [cfld, Fld.plus, ctrlBase]
  split <;> omega

/-- What any event leaves. -/
theorem State.raise_keeps (s : State) (src : Nat) (c : Status) (d : List Byte) : Keeps State.lessDram (fun o => o ∉ eventOffs) s (s.raise src c d) :=
  ⟨(congrArg State.lessDram (s.raise_frame src c d).1 :), (s.raise_frame src c d).2⟩

/-- An event of a family without a status bit of its own marks nothing. -/
theorem State.raise_dramOnly (s : State) (src : Nat) {c : Status} (d : List Byte) (h7 : c.toNat / 256 ≠ 7) (h8 : c.toNat / 256 ≠ 8) :
    DramOnly s (s.raise src c d) := by
  refine ⟨(s.raise_keeps src c d).rest, fun o ho => ?_⟩
  have marks : s.markFamily c = s := by rw [State.markFamily, if_neg h7, if_neg h8]
  unfold State.raise
  rw [marks]
  exact (s.putRecord_frame _).2 o (fun e => ho (.inl e))

theorem State.setFld_dramOnly (s : State) {f : Fld} (n : Nat) (h : memReg f.off) : DramOnly s (s.setFld f n) :=
  .setFld s n (not_not_intro h) (fun _ => rfl)

theorem State.sramPiece_dramOnly (s : State) (a : Nat) (d : List Byte) : DramOnly s (s.sramPiece a d) := by
  unfold State.sramPiece
  split
  · exact ⟨rfl, fun _ _ => rfl⟩
  split
  · exact s.raise_dramOnly _ _ (by decide) (by decide)
  · exact ⟨rfl, fun _ _ => rfl⟩

theorem State.sramPut_dramOnly (s : State) (a : Nat) (d : List Byte) : DramOnly s (s.sramPut a d) :=
  .foldl (fun s (p : Nat × List Byte) => s.sramPiece_dramOnly p.1 p.2) _ s

theorem State.drainSector_dramOnly (s : State) (c : CtrlId) (e : WcbEntry) (k : Nat) : DramOnly s (s.drainSector c e k) := by
  have put : ∀ (l : List (Nat × Byte)) (s : State), DramOnly s (l.foldl (fun s b => { s with mem := s.mem.write (e.granule * 256 + b.1) b.2 }) s) :=
    .foldl (fun _ _ => ⟨rfl, fun _ _ => rfl⟩)
  unfold State.drainSector
  simp only []
  split
  · exact .refl s
  split
  · exact (put _ s).trans ⟨rfl, fun _ _ => rfl⟩
  split
  · exact (s.setFld_dramOnly 1 (memReg_cfld c (by decide))).trans (State.raise_dramOnly _ _ _ (by decide) (by decide))
  · exact (put _ s).trans (State.setFld_dramOnly _ _ (memReg_cfld c (by decide)))

theorem State.drainEntry_dramOnly (s : State) (c : CtrlId) (e : WcbEntry) : DramOnly s (s.drainEntry c e) :=
  .foldl (fun s k => s.drainSector_dramOnly c e k) _ s

theorem State.setWcb_dramOnly (s : State) (c : CtrlId) (l : List WcbEntry) : DramOnly s (s.setWcb c l) := ⟨rfl, fun _ _ => rfl⟩

/-- The bytes of an entry after a piece of length n at offset o has been merged into it. -/
def mergedBytes (o : Nat) (d : List Byte) (n : Nat) (l : List (Nat × Byte)) : List (Nat × Byte) :=
  (List.range n).foldl (fun t i => Tab.set (o + i) (d.getD i 0) t) l

/-- Room for one entry more: the oldest entry of a full buffer has been drained. -/
def State.makeRoom (s : State) (c : CtrlId) (g : Nat) : State :=
  match (s.wcbOf c).find? (fun e => e.granule == g) with
  | some _ => s
  | none =>
    match s.wcbOf c with
    | e :: r => if (e :: r).length < wcbSize c then s else (s.drainEntry c e).setWcb c r
    | [] => s

/-- The buffer after the piece d at address a has been merged. -/
def mergedBuffer (a : Nat) (d : List Byte) (born : Nat) (l : List WcbEntry) : List WcbEntry :=
  let add := fun (e : WcbEntry) => { e with bytes := mergedBytes (a % 256) d d.length e.bytes }
  if l.any (fun e => e.granule == a / 256) then l.map (fun e => if e.granule == a / 256 then add e else e)
  else l ++ [add ⟨a / 256, [], born⟩]

theorem State.wcbMerge_eq (s : State) (c : CtrlId) (a : Nat) (d : List Byte) :
    s.wcbMerge c a d =
      let u := s.makeRoom c (a / 256)
      let l := mergedBuffer a d u.clock.ns.toNat (u.wcbOf c)
      match l.find? (fun e => e.granule == a / 256) with
      | none => u.setWcb c l
      | some e => if e.bytes.length = 256 then (u.setWcb c (l.filter (fun e => e.granule != a / 256))).drainEntry c e else u.setWcb c l := rfl

theorem State.makeRoom_dramOnly (s : State) (c : CtrlId) (g : Nat) : DramOnly s (s.makeRoom c g) := by
  unfold State.makeRoom
  split
  · exact .refl s
  split
  · split
    · exact .refl s
    · exact (s.drainEntry_dramOnly c _).trans (State.setWcb_dramOnly _ _ _)
  · exact .refl s

theorem State.wcbMerge_dramOnly (s : State) (c : CtrlId) (a : Nat) (d : List Byte) : DramOnly s (s.wcbMerge c a d) := by
  rw [State.wcbMerge_eq]
  refine (s.makeRoom_dramOnly c (a / 256)).trans ?_
  simp only []
  split
  · exact State.setWcb_dramOnly _ _ _
  split
  · exact (State.setWcb_dramOnly _ _ _).trans (State.drainEntry_dramOnly _ _ _)
  · exact State.setWcb_dramOnly _ _ _

theorem State.sectorPut_dramOnly (s : State) (a : Nat) (d : List Byte) : DramOnly s (s.sectorPut a d) := by
  unfold State.sectorPut
  simp only []
  split
  · exact ⟨rfl, fun _ _ => rfl⟩
  · exact s.wcbMerge_dramOnly _ _ _

theorem State.dramPut_dramOnly (s : State) (a : Nat) (d : List Byte) : DramOnly s (s.dramPut a d) :=
  .foldl (fun s (p : Nat × List Byte) => s.sectorPut_dramOnly p.1 p.2) _ s

theorem State.guardedPut_memoryOnly (s : State) (a : Nat) (d : List Byte) : MemoryOnly s (s.guardedPut a d) := by
  refine .foldl (fun s p => ?_) _ s
  split
  · exact ⟨rfl, fun _ _ => rfl⟩
  · exact .trans (t := s.markDirty (p.1 / 65536)) ⟨rfl, fun _ _ => rfl⟩ (State.dramPut_dramOnly _ _ _).memoryOnly

theorem State.flushLine_memoryOnly (s : State) (line : Nat) : MemoryOnly s (s.flushLine line) := by
  unfold State.flushLine
  split
  · exact .refl s
  · exact .trans (t := { s with dirty := Tab.erase line s.dirty }) ⟨rfl, fun _ _ => rfl⟩ (State.guardedPut_memoryOnly _ _ _)

theorem State.flushRange_memoryOnly (s : State) (a n : Nat) : MemoryOnly s (s.flushRange a n) := by
  unfold State.flushRange
  split
  · exact .refl s
  · exact .foldl (fun s i => s.flushLine_memoryOnly _) _ s

theorem State.breakResv_memoryOnly (s : State) (a n : Nat) : MemoryOnly s (s.breakResv a n) := ⟨rfl, fun _ _ => rfl⟩

/-- A write of any requester. -/
theorem State.writeBytes_memoryOnly (s : State) (a : Nat) (d : List Byte) : MemoryOnly s (s.writeBytes a d) := by
  unfold State.writeBytes
  split
  · exact .refl s
  split
  · exact (s.sramPut_dramOnly _ _).memoryOnly
  · exact (s.flushRange_memoryOnly _ _).trans ((State.breakResv_memoryOnly _ _ _).trans (State.guardedPut_memoryOnly _ _ _))

/-- A write that passes no guard check. -/
theorem State.writeUnguarded_memoryOnly (s : State) (a : Nat) (d : List Byte) : MemoryOnly s (s.writeUnguarded a d) :=
  (s.flushRange_memoryOnly _ _).trans (State.dramPut_dramOnly _ _ _).memoryOnly

end Sys2Proof.Machine
end

section
/-! Writes that have passed the guard check: every byte then reads as the write left it (R366 to R373). -/

namespace Sys2Proof.Machine

/-! ### The bytes of a write-combining entry -/

theorem risingBelow256_cons (e : Nat × Byte) (l : List (Nat × Byte)) :
    risingBelow256 (e :: l) = true ↔ e.1 < 256 ∧ (∀ f ∈ l, e.1 < f.1) ∧ risingBelow256 l = true := by
  simp [risingBelow256, and_assoc]

theorem mem_tabSet {α : Type} {k : Nat} {v : α} {l : Tab α} {e : Nat × α} (h : e ∈ Tab.set k v l) : e = (k, v) ∨ e ∈ l := by
  induction l with
  | nil => exact .inl (by simpa [Tab.set] using h)
  | cons f l ih =>
    simp only [Tab.set] at h
    split at h
    · exact (List.mem_cons.1 h).imp_right id
    split at h
    · exact (List.mem_cons.1 h).imp_right (List.mem_cons_of_mem _)
    · rcases List.mem_cons.1 h with rfl | h
      · exact .inr (List.mem_cons_self ..)
      · exact (ih h).imp_right (List.mem_cons_of_mem _)

theorem risingBelow256_set {k : Nat} {v : Byte} {l : List (Nat × Byte)} (hk : k < 256) (h : risingBelow256 l = true) :
    risingBelow256 (Tab.set k v l) = true := by
  induction l with
  | nil => simp [Tab.set, risingBelow256, hk]
  | cons f l ih =>
    obtain ⟨hf, hl, hr⟩ := (risingBelow256_cons f l).1 h
    simp only [Tab.set]
    split
    case isTrue lt => exact (risingBelow256_cons _ _).2 ⟨hk, List.forall_mem_cons.2 ⟨lt, fun g hg => lt.trans (hl g hg)⟩, h⟩
    split
    case isTrue eq => exact (risingBelow256_cons _ _).2 ⟨hk, eq ▸ hl, hr⟩
    case isFalse ge ne =>
      refine (risingBelow256_cons _ _).2 ⟨hf, fun g hg => ?_, ih hr⟩
      rcases mem_tabSet hg with rfl | hg
      · exact show f.1 < k by omega
      · exact hl g hg

theorem find_eq_none_of_ne {α : Type} {l : Tab α} {k : Nat} (h : ∀ e ∈ l, e.1 ≠ k) : Tab.find l k = none := by
  induction l with
  | nil => rfl
  | cons f l ih =>
    obtain ⟨hf, hl⟩ := List.forall_mem_cons.1 h
    rw [Tab.find, if_neg (Ne.symm hf), ih hl]

/-- Writing the bytes of an entry of granule g into memory. -/
def Memory.putGranule (g : Nat) (m : Memory) (l : List (Nat × Byte)) : Memory := l.foldl (fun m b => m.write (g * 256 + b.1) b.2) m

theorem Memory.wf_putGranule (g : Nat) (l : List (Nat × Byte)) (m : Memory) (h : m.wf = true) : (m.putGranule g l).wf = true :=
  List.foldlRecOn l _ (motive := fun m : Memory => m.wf = true) h (fun _ hm _ _ => Memory.wf_write _ _ _ hm)

theorem Memory.read_putGranule {g : Nat} {l : List (Nat × Byte)} (hl : risingBelow256 l = true) {m : Memory} (hm : m.wf = true) (x : Nat) :
    (m.putGranule g l).read x = if x / 256 = g then (Tab.find l (x % 256)).getD (m.read x) else m.read x := by
  induction l generalizing m with
  | nil => simp [putGranule, Tab.find]
  | cons f l ih =>
    obtain ⟨hf, hlt, hr⟩ := (risingBelow256_cons f l).1 hl
    have step : m.putGranule g (f :: l) = (m.write (g * 256 + f.1) f.2).putGranule g l := rfl
    rw [step, ih hr (Memory.wf_write _ _ _ hm), Memory.read_write _ _ _ _ hm, Tab.find]
    by_cases hx : x / 256 = g
    case neg =>
      have : x ≠ g * 256 + f.1 := by omega
      simp [hx, this]
    by_cases hk : x % 256 = f.1
    · have here : x = g * 256 + f.1 := by omega
      have later : Tab.find l (x % 256) = none := find_eq_none_of_ne (fun e he => by have := hlt e he; omega)
      rw [hk] at later
      simp [hx, hk, later, ← here]
    · have : x ≠ g * 256 + f.1 := by omega
      simp [hx, hk, this]

theorem State.foldl_putGranule (g : Nat) (l : List (Nat × Byte)) (s : State) :
    l.foldl (fun (s : State) b => { s with mem := s.mem.write (g * 256 + b.1) b.2 }) s = { s with mem := s.mem.putGranule g l } := by
  induction l generalizing s with
  | nil => rfl
  | cons f l ih => exact ih _

theorem risingBelow256_filter {p : Nat × Byte → Bool} {l : List (Nat × Byte)} (h : risingBelow256 l = true) : risingBelow256 (l.filter p) = true := by
  induction l with
  | nil => rfl
  | cons f l ih =>
    obtain ⟨hf, hl, hr⟩ := (risingBelow256_cons f l).1 h
    rw [List.filter_cons]
    split
    · exact (risingBelow256_cons _ _).2 ⟨hf, fun g hg => hl g (List.mem_of_mem_filter hg), ih hr⟩
    · exact ih hr

theorem find_filter_key {α : Type} (p : Nat → Bool) (l : Tab α) (k : Nat) : Tab.find (l.filter (fun e => p e.1)) k = if p k then Tab.find l k else none := by
  induction l with
  | nil => simp [Tab.find]
  | cons f l ih =>
    by_cases hf : p f.1
    · rw [List.filter_cons_of_pos (by exact hf), Tab.find, Tab.find, ih]
      by_cases hk : k = f.1
      · simp [hk, hf]
      · simp [hk]
    · rw [List.filter_cons_of_neg (by simpa using hf), ih, Tab.find]
      by_cases hk : k = f.1
      · simp [hk, hf]
      · simp [hk]

/-! ### Draining -/

/-- Between s and t the sectors below k of an entry have been drained: nothing is poisoned, so every byte has reached memory. -/
structure DrainedBelow (k : Nat) (e : WcbEntry) (s t : State) : Prop where
  wcb : t.wcb = s.wcb
  poison : t.poison = []
  wf : t.mem.wf = true
  read : ∀ x, t.mem.read x = if x / 256 = e.granule ∧ x % 256 / 32 < k then (Tab.find e.bytes (x % 256)).getD (s.mem.read x) else s.mem.read x

theorem State.drainSector_drained {s t : State} {c : CtrlId} {e : WcbEntry} {k : Nat} (he : risingBelow256 e.bytes = true)
    (h : DrainedBelow k e s t) : DrainedBelow (k + 1) e s (t.drainSector c e k) := by
  obtain ⟨hw, hp, hm, hr⟩ := h
  let bs := e.bytes.filter (fun b => b.1 / 32 == k)
  have cases : (t.drainSector c e k).mem = t.mem.putGranule e.granule bs ∧ (t.drainSector c e k).wcb = t.wcb ∧ (t.drainSector c e k).poison = [] := by
    unfold State.drainSector
    simp only [State.foldl_putGranule, hp]
    split
    case isTrue none =>
      have : bs = [] := List.isEmpty_iff.1 none
      exact ⟨by rw [this]; rfl, rfl, hp⟩
    split
    · exact ⟨rfl, rfl, rfl⟩
    · exact ⟨rfl, rfl, rfl⟩
  obtain ⟨cm, cw, cp⟩ := cases
  refine ⟨cw.trans hw, cp, by rw [cm]; exact Memory.wf_putGranule _ _ _ hm, fun x => ?_⟩
  rw [cm, Memory.read_putGranule (risingBelow256_filter he) hm, hr, find_filter_key (fun o => o / 32 == k)]
  by_cases hg : x / 256 = e.granule
  case neg => simp [hg]
  rcases Nat.lt_trichotomy (x % 256 / 32) k with lt | eq | gt
  · have h1 : x % 256 / 32 ≠ k := by omega
    have h2 : x % 256 / 32 < k + 1 := by omega
    simp [hg, h1, lt, h2]
  · simp [hg, eq]
  · have h1 : x % 256 / 32 ≠ k := by omega
    have h2 : ¬x % 256 / 32 < k + 1 := by omega
    have h3 : ¬x % 256 / 32 < k := by omega
    simp [hg, h1, h2, h3]

/-- Draining an entry brings every byte of it to memory. -/
theorem State.drainEntry_drained {s : State} {c : CtrlId} {e : WcbEntry} (he : risingBelow256 e.bytes = true) (hp : s.poison = [])
    (hm : s.mem.wf = true) : DrainedBelow 8 e s (s.drainEntry c e) := by
  have go : ∀ k, DrainedBelow k e s ((List.range k).foldl (fun s k => s.drainSector c e k) s) := by
    intro k
    induction k with
    | zero => exact ⟨rfl, hp, hm, fun x => by simp⟩
    | succ k ih =>
      rw [List.range_succ, List.foldl_append]
      exact State.drainSector_drained he ih
  exact go 8

/-! ### Buffers in order -/

/-- The write-combining buffer of every controller lists a granule at most once, of its own DRAM and below granule `top`, with
each valid byte once; memory is in canonical form and nothing is poisoned. -/
structure WcbSound (top : Nat) (s : State) : Prop where
  wf : s.mem.wf = true
  poison : s.poison = []
  once : ∀ c, (s.wcbOf c).Pairwise (fun e f => e.granule ≠ f.granule)
  entry : ∀ c, ∀ e ∈ s.wcbOf c, ctrlOf (e.granule * 256) = c ∧ e.granule < top ∧ risingBelow256 e.bytes = true

theorem WcbSound.of_empty {s : State} (hm : s.mem.wf = true) (hp : s.poison = []) (hw : s.wcb = []) (top : Nat) : WcbSound top s := by
  have none : ∀ c, s.wcbOf c = [] := fun c => by simp [State.wcbOf, hw, Tab.get]
  exact ⟨hm, hp, fun c => by simp [none c], fun c => by simp [none c]⟩

theorem ctrlOf_granule (x : Nat) : ctrlOf (x / 256 * 256) = ctrlOf x := by
  have hb : lpBase = 256 * 4294967296 := rfl
  by_cases h : x < lpBase
  · have h' : x / 256 * 256 < lpBase := by omega
    have hg : x / 256 * 256 / 256 = x / 256 := by omega
    simp only [ctrlOf, h, h', if_true, hbmTarget, hg]
  · have h' : ¬x / 256 * 256 < lpBase := by omega
    have hg : (x / 256 * 256 - lpBase) / 256 = (x - lpBase) / 256 := by omega
    simp only [ctrlOf, h, h', if_false, lpTarget, hg]

theorem State.wcbOf_setWcb (s : State) (c d : CtrlId) (l : List WcbEntry) : (s.setWcb c l).wcbOf d = if d = c then l else s.wcbOf d := by
  simp only [State.wcbOf, State.setWcb, Tab.get_set, Fin.val_inj]

theorem wcbByte_of_mem {l : List WcbEntry} (once : l.Pairwise (fun e f => e.granule ≠ f.granule)) {e : WcbEntry} (he : e ∈ l) {x : Nat}
    (hx : x / 256 = e.granule) : wcbByte l x = Tab.find e.bytes (x % 256) := by
  have found : l.find? (fun f => f.granule == x / 256) = some e := by
    induction l with
    | nil => cases he
    | cons f l ih =>
      obtain ⟨hf, hl⟩ := List.pairwise_cons.1 once
      rcases List.mem_cons.1 he with rfl | he
      · rw [List.find?_cons_of_pos (by simp [hx])]
      · rw [List.find?_cons_of_neg (by simpa [hx] using hf e he), ih hl he]
  simp only [wcbByte, found]

theorem wcbByte_of_unlisted {l : List WcbEntry} {x : Nat} (h : ∀ e ∈ l, e.granule ≠ x / 256) : wcbByte l x = none := by
  have missed : l.find? (fun f => f.granule == x / 256) = none := List.find?_eq_none.2 (fun e he => by simpa using h e he)
  simp only [wcbByte, missed]

/-- The buffer without granule g, seen from another granule. -/
theorem wcbByte_filter_ne (l : List WcbEntry) {g x : Nat} (h : x / 256 ≠ g) : wcbByte (l.filter (fun e => e.granule != g)) x = wcbByte l x := by
  have same : (l.filter (fun e => e.granule != g)).find? (fun e => e.granule == x / 256) = l.find? (fun e => e.granule == x / 256) := by
    rw [List.find?_filter]
    congr 1
    funext e
    by_cases he : e.granule = x / 256 <;> simp [he, h]
  simp only [wcbByte, same]

/-- A byte in order is that of its entry, else that of memory. -/
theorem WcbSound.rawByte_of_mem {top : Nat} {s : State} (h : WcbSound top s) {c : CtrlId} {e : WcbEntry} (he : e ∈ s.wcbOf c) {x : Nat}
    (hx : x / 256 = e.granule) : s.rawByte x = (Tab.find e.bytes (x % 256)).getD (s.mem.read x) := by
  have hc : ctrlOf x = c := by rw [← ctrlOf_granule, hx, (h.entry c e he).1]
  simp only [State.rawByte, hc, wcbByte_of_mem (h.once c) he hx]
  cases Tab.find e.bytes (x % 256) <;> rfl

theorem State.rawByte_of_unlisted {s : State} {x : Nat} (h : ∀ e ∈ s.wcbOf (ctrlOf x), e.granule ≠ x / 256) : s.rawByte x = s.mem.read x := by
  simp only [State.rawByte, wcbByte_of_unlisted h]

/-- An entry drained and taken out of its buffer changes no byte. -/
theorem WcbSound.drainOut {top : Nat} {s t : State} (h : WcbSound top s) {c : CtrlId} {e : WcbEntry} (he : e ∈ s.wcbOf c)
    (wcb : ∀ d, t.wcbOf d = if d = c then (s.wcbOf c).filter (fun f => f.granule != e.granule) else s.wcbOf d) (poison : t.poison = [])
    (wf : t.mem.wf = true)
    (read : ∀ x, t.mem.read x = if x / 256 = e.granule then (Tab.find e.bytes (x % 256)).getD (s.mem.read x) else s.mem.read x) :
    WcbSound top t ∧ ∀ x, t.rawByte x = s.rawByte x := by
  refine ⟨⟨wf, poison, fun d => ?_, fun d f hf => ?_⟩, fun x => ?_⟩
  · rw [wcb]
    split
    · exact (h.once c).filter _
    · exact h.once d
  · rw [wcb] at hf
    split at hf
    case isTrue eq => subst eq; exact h.entry d f (List.mem_of_mem_filter hf)
    case isFalse => exact h.entry d f hf
  · by_cases hx : x / 256 = e.granule
    · have hc : ctrlOf x = c := by rw [← ctrlOf_granule, hx, (h.entry c e he).1]
      have out : ∀ f ∈ t.wcbOf (ctrlOf x), f.granule ≠ x / 256 := by
        rw [wcb, if_pos hc, hx]
        exact fun f hf => by simpa using (List.mem_filter.1 hf).2
      rw [State.rawByte_of_unlisted out, h.rawByte_of_mem he hx, read, if_pos hx]
    · have same : wcbByte (t.wcbOf (ctrlOf x)) x = wcbByte (s.wcbOf (ctrlOf x)) x := by
        rw [wcb]
        split
        case isTrue eq => rw [wcbByte_filter_ne _ hx, eq]
        case isFalse => rfl
      simp only [State.rawByte, same, read, if_neg hx]

/-! ### Merging a piece -/

theorem mergedBytes_succ (o : Nat) (d : List Byte) (n : Nat) (l : List (Nat × Byte)) :
    mergedBytes o d (n + 1) l = Tab.set (o + n) (d.getD n 0) (mergedBytes o d n l) := by
  rw [mergedBytes, List.range_succ, List.foldl_append]
  rfl

theorem rising_mergedBytes {o n : Nat} (d : List Byte) {l : List (Nat × Byte)} (h : risingBelow256 l = true) (hn : o + n ≤ 256) :
    risingBelow256 (mergedBytes o d n l) = true := by
  induction n with
  | zero => exact h
  | succ n ih =>
    rw [mergedBytes_succ]
    exact risingBelow256_set (by omega) (ih (by omega))

theorem find_mergedBytes (o n k : Nat) (d : List Byte) (l : List (Nat × Byte)) :
    Tab.find (mergedBytes o d n l) k = if o ≤ k ∧ k < o + n then some (d.getD (k - o) 0) else Tab.find l k := by
  induction n with
  | zero => rw [if_neg (by omega)]; rfl
  | succ n ih =>
    rw [mergedBytes_succ, Tab.find_set, ih]
    rcases Nat.lt_trichotomy k (o + n) with lt | rfl | gt
    · by_cases ho : o ≤ k
      · rw [if_neg (by omega), if_pos (by omega), if_pos (by omega)]
      · rw [if_neg (by omega), if_neg (by omega), if_neg (by omega)]
    · rw [if_pos rfl, if_pos (by omega), Nat.add_sub_cancel_left]
    · rw [if_neg (by omega), if_neg (by omega), if_neg (by omega)]

/-- What byte x is after d has been stored from address a upward. -/
def storedAt (a : Nat) (d : List Byte) (x : Nat) (v : Byte) : Byte := if a ≤ x ∧ x < a + d.length then d.getD (x - a) 0 else v

/-- Byte x of granule a / 256 after the merge, in terms of offsets. -/
theorem storedAt_granule {a x : Nat} {d : List Byte} (hx : x / 256 = a / 256) (v : Byte) :
    storedAt a d x v = if a % 256 ≤ x % 256 ∧ x % 256 < a % 256 + d.length then d.getD (x % 256 - a % 256) 0 else v := by
  have h1 : (a ≤ x ∧ x < a + d.length) ↔ (a % 256 ≤ x % 256 ∧ x % 256 < a % 256 + d.length) := by omega
  have h2 : x - a = x % 256 - a % 256 := by omega
  rw [storedAt, h2]
  simp only [h1]

theorem storedAt_otherGranule {a x : Nat} {d : List Byte} (ha : a % 256 + d.length ≤ 256) (hx : x / 256 ≠ a / 256) (v : Byte) :
    storedAt a d x v = v := if_neg (by omega)

theorem WcbSound.makeRoom {top : Nat} {s : State} (h : WcbSound top s) (c : CtrlId) (g : Nat) :
    WcbSound top (s.makeRoom c g) ∧ ∀ x, (s.makeRoom c g).rawByte x = s.rawByte x := by
  unfold State.makeRoom
  split
  · exact ⟨h, fun _ => rfl⟩
  split
  case h_2 => exact ⟨h, fun _ => rfl⟩
  case h_1 e r eq =>
    split
    · exact ⟨h, fun _ => rfl⟩
    have he : e ∈ s.wcbOf c := eq ▸ List.mem_cons_self ..
    obtain ⟨dw, dp, dm, dr⟩ := State.drainEntry_drained (c := c) (h.entry c e he).2.2 h.poison h.wf
    have rest : (s.wcbOf c).filter (fun f => f.granule != e.granule) = r := by
      have once := h.once c
      rw [eq] at once ⊢
      rw [List.filter_cons_of_neg (by simp), List.filter_eq_self]
      exact fun f hf => by simpa using ((List.pairwise_cons.1 once).1 f hf).symm
    refine h.drainOut he (fun d => ?_) dp dm (fun x => ?_)
    · rw [State.wcbOf_setWcb, rest]
      simp only [State.wcbOf, dw]
    · have : x % 256 / 32 < 8 := by omega
      simpa [this] using dr x

section
variable {top : Nat} {u : State} (h : WcbSound top u) {a : Nat} {d : List Byte} (ha : a % 256 + d.length ≤ 256)
include h ha

/-- The buffer with a piece merged into the entry of its granule. -/
theorem WcbSound.merge_listed (he : (u.wcbOf (ctrlOf a)).any (fun e => e.granule == a / 256) = true) (born : Nat) :
    WcbSound top (u.setWcb (ctrlOf a) (mergedBuffer a d born (u.wcbOf (ctrlOf a)))) ∧
      ∀ x, (u.setWcb (ctrlOf a) (mergedBuffer a d born (u.wcbOf (ctrlOf a)))).rawByte x = storedAt a d x (u.rawByte x) := by
  let put := fun (e : WcbEntry) => if e.granule == a / 256 then { e with bytes := mergedBytes (a % 256) d d.length e.bytes } else e
  have granule : ∀ e, (put e).granule = e.granule := fun e => by simp only [put]; split <;> rfl
  have merged : mergedBuffer a d born (u.wcbOf (ctrlOf a)) = (u.wcbOf (ctrlOf a)).map put := by rw [mergedBuffer, if_pos he]
  rw [merged]
  have sound : WcbSound top (u.setWcb (ctrlOf a) ((u.wcbOf (ctrlOf a)).map put)) := by
    refine ⟨h.wf, h.poison, fun c => ?_, fun c f hf => ?_⟩
    · rw [State.wcbOf_setWcb]
      split
      · exact List.pairwise_map.2 ((h.once _).imp (fun hne => by rwa [granule, granule]))
      · exact h.once c
    · rw [State.wcbOf_setWcb] at hf
      split at hf
      case isFalse => exact h.entry c f hf
      case isTrue eq =>
        obtain ⟨e, he, rfl⟩ := List.mem_map.1 hf
        obtain ⟨hc, ht, hr⟩ := h.entry _ e he
        refine ⟨by rw [granule, hc, eq], by rwa [granule], ?_⟩
        simp only [put]
        split
        · exact rising_mergedBytes d hr ha
        · exact hr
  refine ⟨sound, fun x => ?_⟩
  by_cases hx : x / 256 = a / 256
  · obtain ⟨e, he, hg⟩ := List.any_eq_true.1 he
    have hg : e.granule = a / 256 := by simpa using hg
    have listed : put e ∈ (u.setWcb (ctrlOf a) ((u.wcbOf (ctrlOf a)).map put)).wcbOf (ctrlOf a) := by
      rw [State.wcbOf_setWcb, if_pos rfl]
      exact List.mem_map_of_mem he
    have bytes : (put e).bytes = mergedBytes (a % 256) d d.length e.bytes := by simp [put, hg]
    rw [sound.rawByte_of_mem listed (by rw [granule, hg, hx]), h.rawByte_of_mem he (by rw [hg, hx]), bytes, find_mergedBytes,
      storedAt_granule hx]
    split <;> rfl
  · have same : wcbByte ((u.wcbOf (ctrlOf a)).map put) x = wcbByte (u.wcbOf (ctrlOf a)) x := by
      have id : ∀ e : WcbEntry, e.granule = x / 256 → put e = e := fun e he => by simp [put, he, hx]
      simp only [wcbByte, List.find?_map, Function.comp_def, granule]
      cases hf : (u.wcbOf (ctrlOf a)).find? (fun e => e.granule == x / 256) with
      | none => rfl
      | some e => simp [id e (by simpa using List.find?_some hf)]
    rw [storedAt_otherGranule ha hx]
    by_cases hc : ctrlOf x = ctrlOf a
    · simp only [State.rawByte, State.wcbOf_setWcb, hc, if_true, same]
      rfl
    · simp only [State.rawByte, State.wcbOf_setWcb, if_neg hc]
      rfl

/-- The buffer with a new entry for a piece. -/
theorem WcbSound.merge_unlisted (he : (u.wcbOf (ctrlOf a)).any (fun e => e.granule == a / 256) = false) (ht : a / 256 < top) (born : Nat) :
    WcbSound top (u.setWcb (ctrlOf a) (mergedBuffer a d born (u.wcbOf (ctrlOf a)))) ∧
      ∀ x, (u.setWcb (ctrlOf a) (mergedBuffer a d born (u.wcbOf (ctrlOf a)))).rawByte x = storedAt a d x (u.rawByte x) := by
  let e : WcbEntry := ⟨a / 256, mergedBytes (a % 256) d d.length [], born⟩
  have merged : mergedBuffer a d born (u.wcbOf (ctrlOf a)) = u.wcbOf (ctrlOf a) ++ [e] := by rw [mergedBuffer, he]; rfl
  have new : ∀ f ∈ u.wcbOf (ctrlOf a), f.granule ≠ a / 256 := fun f hf => by simpa using List.any_eq_false.1 he f hf
  rw [merged]
  have sound : WcbSound top (u.setWcb (ctrlOf a) (u.wcbOf (ctrlOf a) ++ [e])) := by
    refine ⟨h.wf, h.poison, fun c => ?_, fun c f hf => ?_⟩
    · rw [State.wcbOf_setWcb]
      split
      · exact List.pairwise_append.2 ⟨h.once _, List.pairwise_singleton .., fun f hf g hg => by
          rw [List.mem_singleton.1 hg]; exact new f hf⟩
      · exact h.once c
    · rw [State.wcbOf_setWcb] at hf
      split at hf
      case isFalse => exact h.entry c f hf
      case isTrue eq =>
        rcases List.mem_append.1 hf with hf | hf
        · exact eq ▸ h.entry _ f hf
        · rw [List.mem_singleton.1 hf]
          exact ⟨by rw [ctrlOf_granule, eq], ht, rising_mergedBytes d rfl ha⟩
  refine ⟨sound, fun x => ?_⟩
  by_cases hx : x / 256 = a / 256
  · have hc : ctrlOf x = ctrlOf a := by rw [← ctrlOf_granule, hx, ctrlOf_granule]
    have listed : e ∈ (u.setWcb (ctrlOf a) (u.wcbOf (ctrlOf a) ++ [e])).wcbOf (ctrlOf a) := by
      rw [State.wcbOf_setWcb, if_pos rfl]
      exact List.mem_append_right _ (List.mem_singleton_self e)
    rw [sound.rawByte_of_mem listed hx, find_mergedBytes, storedAt_granule hx,
      State.rawByte_of_unlisted (s := u) (by rw [hc, hx]; exact new)]
    split <;> rfl
  · have same : wcbByte (u.wcbOf (ctrlOf a) ++ [e]) x = wcbByte (u.wcbOf (ctrlOf a)) x := by
      have : ¬a / 256 = x / 256 := fun eq => hx eq.symm
      simp [wcbByte, List.find?_append, e, this]
    rw [storedAt_otherGranule ha hx]
    by_cases hc : ctrlOf x = ctrlOf a
    · simp only [State.rawByte, State.wcbOf_setWcb, hc, if_true, same]
      rfl
    · simp only [State.rawByte, State.wcbOf_setWcb, if_neg hc]
      rfl

theorem WcbSound.merge (ht : a / 256 < top) (born : Nat) :
    WcbSound top (u.setWcb (ctrlOf a) (mergedBuffer a d born (u.wcbOf (ctrlOf a)))) ∧
      ∀ x, (u.setWcb (ctrlOf a) (mergedBuffer a d born (u.wcbOf (ctrlOf a)))).rawByte x = storedAt a d x (u.rawByte x) := by
  cases he : (u.wcbOf (ctrlOf a)).any (fun e => e.granule == a / 256) with
  | true => exact h.merge_listed ha he born
  | false => exact h.merge_unlisted ha he ht born

/-- A piece within a granule that goes through the write-combining buffer (R368, R371). -/
theorem WcbSound.wcbMerge (ht : a / 256 < top) :
    WcbSound top (u.wcbMerge (ctrlOf a) a d) ∧ ∀ x, (u.wcbMerge (ctrlOf a) a d).rawByte x = storedAt a d x (u.rawByte x) := by
  obtain ⟨hv, keeps⟩ := h.makeRoom (ctrlOf a) (a / 256)
  rw [State.wcbMerge_eq]
  generalize u.makeRoom (ctrlOf a) (a / 256) = v at hv keeps
  obtain ⟨hw, stores⟩ := hv.merge ha ht v.clock.ns.toNat
  have read : ∀ x, (v.setWcb (ctrlOf a) (mergedBuffer a d v.clock.ns.toNat (v.wcbOf (ctrlOf a)))).rawByte x = storedAt a d x (u.rawByte x) :=
    fun x => by rw [stores, keeps]
  simp only []
  split
  · exact ⟨hw, read⟩
  case h_2 e hf =>
    split
    case isFalse => exact ⟨hw, read⟩
    have hg : e.granule = a / 256 := by simpa using List.find?_some hf
    have he : e ∈ (v.setWcb (ctrlOf a) (mergedBuffer a d v.clock.ns.toNat (v.wcbOf (ctrlOf a)))).wcbOf (ctrlOf a) := by
      rw [State.wcbOf_setWcb, if_pos rfl]
      exact List.mem_of_find?_eq_some hf
    generalize mergedBuffer a d v.clock.ns.toNat (v.wcbOf (ctrlOf a)) = l at *
    obtain ⟨dw, dp, dm, dr⟩ := State.drainEntry_drained (s := v.setWcb (ctrlOf a) (l.filter (fun e => e.granule != a / 256))) (c := ctrlOf a)
      (hw.entry _ e he).2.2 hv.poison hv.wf
    obtain ⟨sound, same⟩ := hw.drainOut he (t := (v.setWcb (ctrlOf a) (l.filter (fun e => e.granule != a / 256))).drainEntry (ctrlOf a) e)
      (fun c => by
        have : ∀ {s t : State}, t.wcb = s.wcb → t.wcbOf c = s.wcbOf c := fun h => by simp only [State.wcbOf, h]
        rw [this dw, hg]
        simp only [State.wcbOf_setWcb]
        split <;> simp_all) dp dm
      (fun x => by
        have : x % 256 / 32 < 8 := by omega
        simpa [this] using dr x)
    exact ⟨sound, fun x => by rw [same, read]⟩

end

/-! ### A write that has passed the guard check -/

/-- A piece within a sector (R368, R369). -/
theorem WcbSound.sectorPut {top : Nat} {u : State} (h : WcbSound top u) {a : Nat} {d : List Byte} (ha : a % 32 + d.length ≤ 32)
    (ht : a / 256 < top) : WcbSound top (u.sectorPut a d) ∧ ∀ x, (u.sectorPut a d).rawByte x = storedAt a d x (u.rawByte x) := by
  unfold State.sectorPut
  simp only []
  split
  case isFalse => exact h.wcbMerge (by omega) ht
  case isTrue direct =>
    obtain ⟨len, out⟩ := direct
    have out : ∀ e ∈ u.wcbOf (ctrlOf a), e.granule ≠ a / 256 := fun e he => by simpa using List.all_eq_true.1 out e he
    refine ⟨⟨Memory.wf_writeN _ _ _ h.wf, by simp [State.poisonDrop, h.poison], h.once, h.entry⟩, fun x => ?_⟩
    have read : ({ u with mem := u.mem.writeN a d }.poisonDrop a).rawByte x =
        match wcbByte (u.wcbOf (ctrlOf x)) x with | some b => b | none => storedAt a d x (u.mem.read x) := by
      rw [storedAt, ← Memory.read_writeN _ _ _ _ h.wf]
      rfl
    rw [read]
    by_cases hx : x / 256 = a / 256
    · have hc : ctrlOf x = ctrlOf a := by rw [← ctrlOf_granule, hx, ctrlOf_granule]
      have out : ∀ e ∈ u.wcbOf (ctrlOf x), e.granule ≠ x / 256 := by rw [hc, hx]; exact out
      rw [wcbByte_of_unlisted out, State.rawByte_of_unlisted out]
    · rw [storedAt_otherGranule (by omega) hx, storedAt_otherGranule (by omega) hx]
      rfl

/-- Storing a list is storing a first part and then the rest. -/
theorem storedAt_append (a n x : Nat) (d : List Byte) (v : Byte) :
    storedAt a d x v = storedAt (a + n) (d.drop n) x (storedAt a (d.take n) x v) := by
  simp only [storedAt, List.length_drop, List.length_take]
  by_cases h1 : a + n ≤ x ∧ x < a + n + (d.length - n)
  · rw [if_pos (by omega), if_pos h1, List.getD_eq_getElem?_getD, List.getD_eq_getElem?_getD, List.getElem?_drop,
      show n + (x - (a + n)) = x - a by omega]
  · rw [if_neg h1]
    by_cases h2 : a ≤ x ∧ x < a + min n d.length
    · rw [if_pos (by omega), if_pos h2, List.getD_eq_getElem?_getD, List.getD_eq_getElem?_getD, List.getElem?_take_of_lt (by omega)]
    · rw [if_neg (by omega), if_neg h2]

/-- A write of any length, cut at sectors. -/
theorem WcbSound.dramPut {top : Nat} {u : State} (h : WcbSound top u) {a : Nat} {d : List Byte} (ht : a + d.length ≤ top * 256) :
    WcbSound top (u.dramPut a d) ∧ ∀ x, (u.dramPut a d).rawByte x = storedAt a d x (u.rawByte x) := by
  have go : ∀ (n : Nat) (a : Nat) (d : List Byte) (u : State), WcbSound top u → d.length ≤ n → a + d.length ≤ top * 256 →
      WcbSound top ((pieces 32 n a d).foldl (fun s p => s.sectorPut p.1 p.2) u) ∧
        ∀ x, ((pieces 32 n a d).foldl (fun s p => s.sectorPut p.1 p.2) u).rawByte x = storedAt a d x (u.rawByte x) := by
    intro n
    induction n with
    | zero =>
      intro a d u h hn _
      have : d = [] := List.length_eq_zero_iff.1 (by omega)
      subst this
      exact ⟨h, fun x => (if_neg (by simp)).symm⟩
    | succ n ih =>
      intro a d u h hn ht
      cases d with
      | nil => exact ⟨h, fun x => (if_neg (by simp)).symm⟩
      | cons b r =>
        have hd : 0 < (b :: r).length := Nat.succ_pos _
        generalize b :: r = d at *
        have eq : pieces 32 (n + 1) a d = (a, d.take (32 - a % 32)) :: pieces 32 n (a + (32 - a % 32)) (d.drop (32 - a % 32)) := by
          cases d with
          | nil => simp at hd
          | cons b r => rfl
        have first := h.sectorPut (a := a) (d := d.take (32 - a % 32)) (by rw [List.length_take]; omega) (by omega)
        rw [eq, List.foldl_cons]
        rcases Nat.lt_or_ge (32 - a % 32) d.length with long | short
        · have rest := ih (a + (32 - a % 32)) (d.drop (32 - a % 32)) _ first.1 (by rw [List.length_drop]; omega) (by rw [List.length_drop]; omega)
          exact ⟨rest.1, fun x => by rw [rest.2, first.2, ← storedAt_append]⟩
        · have none : d.drop (32 - a % 32) = [] := List.drop_eq_nil_of_le short
          have rest : pieces 32 n (a + (32 - a % 32)) ([] : List Byte) = [] := by cases n <;> rfl
          rw [none, rest]
          exact ⟨first.1, fun x => by rw [List.foldl_nil, first.2, List.take_of_length_le short]⟩
  exact go d.length a d u h le_rfl ht

theorem State.flushRange_clean {s : State} (h : s.dirty = []) (a n : Nat) : s.flushRange a n = s := by
  have line : ∀ l, s.flushLine l = s := fun l => by simp [State.flushLine, h, Tab.find]
  unfold State.flushRange
  split
  · rfl
  · exact List.foldlRecOn _ _ (motive := (· = s)) rfl (fun t ht i _ => by rw [ht, line])

/-- A write that passes no guard check stores its bytes and no other. -/
theorem WcbSound.writeUnguarded {top : Nat} {u : State} (h : WcbSound top u) (hd : u.dirty = []) {a : Nat} {d : List Byte}
    (ht : a + d.length ≤ top * 256) :
    WcbSound top (u.writeUnguarded a d) ∧ ∀ x, (u.writeUnguarded a d).rawByte x = storedAt a d x (u.rawByte x) := by
  rw [State.writeUnguarded, State.flushRange_clean hd]
  exact h.dramPut ht

end Sys2Proof.Machine
end

section
/-! The input log at its keepers and the mirror (R56, R589 to R595). -/

namespace Sys2Proof.Machine

/-! ### Messages -/

/-- The state without what a message that leaves can change, but for the ports' streams. -/
def State.lessSent (s : State) : State := { s with outbox := [], regs := [] }

/-- Between s and t only messages have left, and refused ones have been counted. -/
abbrev SentOnly : State → State → Prop := Keeps State.lessSent (fun o => o ≠ F.FAB_WIN_REFUSED_BLOCKED.off)

theorem State.blockedOne_sentOnly (s : State) : SentOnly s s.blockedOne := .setFld s _ (fun h => h rfl) (fun _ => rfl)

theorem State.send_sentOnly (s : State) (m : OutMsg) : SentOnly s (s.send m) := .of_rest rfl rfl

theorem State.tell_sentOnly (s : State) (dst : NodeId) (vc opc : Nat) (args : List Nat) (d : List Byte) : SentOnly s (s.tell dst vc opc args d) := by
  rcases s.tell_cases dst vc opc args d with e | e | e <;> rw [e]
  · exact .refl s
  · exact s.blockedOne_sentOnly
  · exact s.send_sentOnly _

theorem State.tellBulk_sentOnly (s : State) (dst : NodeId) (opc : Nat) (args : List Nat) (a : Nat) (d : List Byte) :
    SentOnly s (s.tellBulk dst opc args a d) := by
  unfold State.tellBulk
  simp only []
  split
  · exact .refl s
  split
  · exact s.blockedOne_sentOnly
  · exact .foldl (fun s p => s.send_sentOnly _) _ s

/-- An answer needs no window (R433, R434). -/
theorem State.tell_logAck {s : State} {dst : NodeId} (h : s.resil.fence.contains dst = false) (args : List Nat) :
    s.tell dst 5 0x33 args [] = s.send (plainMsg none dst 5 0x33 args []) := by
  simp only [State.tell, h]
  rfl

/-- What a bulk payload sends goes to its destination with its operation. -/
theorem State.outbox_tellBulk (s : State) (dst : NodeId) (opc : Nat) (args : List Nat) (a : Nat) (d : List Byte) :
    ∃ l, (s.tellBulk dst opc args a d).outbox = s.outbox ++ l ∧ ∀ x ∈ l, x.opc = opc ∧ x.dst = dst := by
  have sends : ∀ (ps : List (Nat × List Byte)) (s : State),
      ∃ l, (ps.foldl (fun s p => s.send { plainMsg none dst 5 opc args p.2 with addr := p.1 }) s).outbox = s.outbox ++ l ∧
        ∀ x ∈ l, x.opc = opc ∧ x.dst = dst := by
    intro ps
    induction ps with
    | nil => exact fun s => ⟨[], by simp⟩
    | cons p ps ih =>
      intro s
      obtain ⟨l, hl, hx⟩ := ih (s.send { plainMsg none dst 5 opc args p.2 with addr := p.1 })
      exact ⟨{ plainMsg none dst 5 opc args p.2 with addr := p.1 } :: l, by simp [hl], List.forall_mem_cons.2 ⟨⟨rfl, rfl⟩, hx⟩⟩
  unfold State.tellBulk
  simp only []
  split
  · exact ⟨[], by simp⟩
  split
  · exact ⟨[], by simp [State.blockedOne, State.countWrap]⟩
  · exact sends _ s

/-! ### Paths rest on the fabric dies' registers -/

/-- Between s and t no register of a fabric die has changed. -/
def sameFab (s t : State) : Prop := ∀ o, 0x3000000 ≤ o → o < 0x3800000 → t.reg o = s.reg o

namespace sameFab
variable {s t : State} (h : sameFab s t)
include h

theorem fld {f : Fld} (h1 : 0x3000000 ≤ f.off) (h2 : f.off < 0x3800000) : t.fld f = s.fld f := by rw [State.fld, State.fld, h _ h1 h2]
theorem nodeId : t.nodeId = s.nodeId := by rw [State.nodeId, State.nodeId, h.fld (by decide) (by decide)]
theorem nodeValid : t.nodeValid = s.nodeValid := by rw [State.nodeValid, State.nodeValid, State.bit, State.bit, h.fld (by decide) (by decide)]
theorem srcNode : t.srcNode = s.srcNode := by rw [State.srcNode, State.srcNode, h.nodeValid, h.nodeId]

theorem portUp (p : PortId) : t.portUp p = s.portUp p := by
  have hp := p.isLt
  have hb : dieBase (p.val / 10) + 8 * (p.val % 10) < 0x500000 := by simp only [dieBase]; omega
  have ho : (pfld p F.FAB_PORT_STAT_UP).off = 0x3000100 + (dieBase (p.val / 10) + 8 * (p.val % 10)) := rfl
  rw [State.portUp, State.portUp, State.bit, State.bit, h.fld (by omega) (by omega)]

theorem livePorts : t.livePorts = s.livePorts := by rw [State.livePorts, State.livePorts, funext h.portUp]

theorem pathPorts (n : NodeId) : t.pathPorts n = s.pathPorts n := by
  unfold State.pathPorts
  rw [h.nodeId, funext h.portUp]

theorem pathTo (src dst : NodeId) (vc addr : Nat) : t.pathTo src dst vc addr = s.pathTo src dst vc addr := by
  rw [State.pathTo, State.pathTo, h.pathPorts]

theorem onItsPort (m : OutMsg) : onItsPort t m = onItsPort s m := by
  rw [Sys2Proof.onItsPort, Sys2Proof.onItsPort, h.srcNode, h.pathTo]

end sameFab

theorem State.pathTo_isSome {s : State} {dst : NodeId} (h : s.pathPorts dst ≠ []) (src : NodeId) (vc addr : Nat) :
    ∃ p, s.pathTo src dst vc addr = some p := by
  have pos : 0 < (s.pathPorts dst).length := List.length_pos_iff.2 h
  exact ⟨_, List.getElem?_eq_getElem (Nat.mod_lt _ pos)⟩

/-- A message of this node with a live path leaves on its port. -/
theorem State.sendNow_onItsPort {s : State} {m : OutMsg} (hf : s.resil.fence.contains m.dst = false) (hw : m.fwd = none)
    (hp : s.pathPorts m.dst ≠ []) : (s.sendNow m).outbox = s.outbox ++ [onItsPort s m] ∧ (s.sendNow m).mem = s.mem := by
  obtain ⟨p, e⟩ := State.pathTo_isSome hp s.srcNode m.vc m.addr
  have sent : s.sendNow m = s.sendOn p m := by
    simp only [State.sendNow, hf, hw, e]
    rfl
  rw [sent, onItsPort, e]
  exact ⟨(s.sendOn_frame p m).2.1, rfl⟩

/-! ### Stored bytes -/

theorem memQuiet_iff {s : State} : memQuiet s = true ↔ s.dirty = [] ∧ s.heldWrites = [] ∧ s.poison = [] := by
  simp [memQuiet, and_assoc]

theorem afterStores_run (a x : Nat) (b : List Byte) (v : Byte) :
    afterStores (((List.range b.length).map (fun i => a + i)).zip b) x v = storedAt a b x v := by
  induction b generalizing a v with
  | nil => exact (if_neg (by simp)).symm
  | cons c b ih =>
    have shift : (List.range b.length).map ((fun i => a + i) ∘ Nat.succ) = (List.range b.length).map (fun i => a + 1 + i) :=
      List.map_congr_left (fun i _ => by simp only [Function.comp]; omega)
    rw [List.length_cons, List.range_succ_eq_map, List.map_cons, List.map_map, shift, List.zip_cons_cons, afterStores, ih,
      storedAt_append a 1 x (c :: b)]
    congr 1
    by_cases hx : x = a
    · simp [storedAt, hx]
    · have one : ((c :: b).take 1).length = 1 := rfl
      rw [storedAt, one, if_neg (show ¬x = a + 0 from hx), if_neg (by omega)]

/-- A byte in DRAM or unmapped reads as the write-combining buffer and memory hold it, and tile SRAM has no entry there. -/
theorem WcbSound.byteAt_eq {s : State} (h : WcbSound (sramWindow / 256) s) (hd : s.dirty = []) (hh : s.heldWrites = []) (x : Nat) :
    s.byteAt x = s.rawByte x := by
  simp only [State.byteAt, hd, hh, Tab.find, heldByte]
  split
  case isFalse => rfl
  case isTrue sram =>
    have above : sramWindow ≤ x := by
      by_contra lt
      simp only [regionOf] at sram
      split at sram
      · cases sram
      split at sram
      · cases sram
      · rw [if_neg (fun w => lt w.1)] at sram; cases sram
    refine (State.rawByte_of_unlisted (fun e he => ?_)).symm
    have := (h.entry _ e he).2.1
    simp only [sramWindow] at above this
    omega

/-- A write of the resilience engine into LPDDR5X stores its bytes and no other byte of the node. -/
theorem State.memoryAfter_writeUnguarded {s : State} (hq : memQuiet s = true) (hm : memoriesWf s) (hw : s.wcb = []) {a : Nat} {b : List Byte}
    (hi : a + b.length ≤ 0x030000000000) : memoryAfter s (s.writeUnguarded a b) (storedBytes [⟨BitVec.ofNat 64 a, b.length⟩] b) := by
  obtain ⟨hd, hh, hp⟩ := memQuiet_iff.1 hq
  have sound := WcbSound.of_empty hm.1 hp hw (sramWindow / 256)
  have ht : a + b.length ≤ sramWindow / 256 * 256 := le_trans hi (by decide)
  obtain ⟨after, reads⟩ := sound.writeUnguarded hd ht
  have dram : DramOnly s (s.writeUnguarded a b) := by
    rw [State.writeUnguarded, State.flushRange_clean hd]
    exact s.dramPut_dramOnly a b
  have addr : localAddr (BitVec.ofNat 64 a) = a := by
    simp only [localAddr, bitsOf, BitVec.toNat_ofNat]
    omega
  intro x _
  rw [after.byteAt_eq (dram.dirty.trans hd) (dram.heldWrites.trans hh), sound.byteAt_eq hd hh, reads]
  simp only [storedBytes, List.flatMap_cons, List.flatMap_nil, List.append_nil, addr, afterStores_run]

/-! ### Log rings at their keepers (R589 to R592) -/

theorem State.ringOf_owner (s : State) (n : NodeId) : (s.ringOf n).owner = n := by
  unfold State.ringOf
  cases h : s.resil.logRings.find? (fun r => r.owner == n) with
  | none => rfl
  | some r => simpa using List.find?_some h

/-- What keeping an entry shows: every byte of it stored, and the entry in its owner's ring. -/
def kept (s t : State) (p : NodeId) (lsn a : Nat) (b : List Byte) : Prop :=
  memoryAfter s t (storedBytes [⟨BitVec.ofNat 64 a, b.length⟩] b) ∧ ∃ r ∈ t.resil.logRings, r.owner = p ∧ (lsn, a, b) ∈ r.entries

theorem LogRing.mem_put (r : LogRing) (lsn a : Nat) (b : List Byte) : (lsn, a, b) ∈ (r.put lsn a b).entries := by
  simp [LogRing.put]

section
variable {s : State} (hq : memQuiet s = true) (hm : memoriesWf s) (hw : s.wcb = []) {a : Nat} {b : List Byte} (hi : a + b.length ≤ 0x030000000000)
include hq hm hw hi

/-- An entry written and put into a ring of its owner is kept. -/
theorem kept_setRing {p : NodeId} {lsn : Nat} {r : LogRing} (ho : r.owner = p) (he : (lsn, a, b) ∈ r.entries) :
    kept s ((s.writeUnguarded a b).setRing r) p lsn a b :=
  ⟨State.memoryAfter_writeUnguarded hq hm hw hi, r, List.mem_append_right _ (List.mem_singleton_self r), ho, he⟩

/-- The entry of another member is written, put into the ring and acknowledged. -/
theorem kept_acknowledged {p q : NodeId} {lsn : Nat} {r : LogRing} (ho : r.owner = p) (he : (lsn, a, b) ∈ r.entries)
    (hf : s.resil.fence.contains q = false) :
    kept s (((s.writeUnguarded a b).setRing r).tell q 5 0x33 [lsn] []) p lsn a b ∧
      (((s.writeUnguarded a b).setRing r).tell q 5 0x33 [lsn] []).outbox = s.outbox ++ [plainMsg none q 5 0x33 [lsn] []] := by
  have frame := s.writeUnguarded_memoryOnly a b
  have hf' : ((s.writeUnguarded a b).setRing r).resil.fence.contains q = false := frame.resil_fence ▸ hf
  rw [State.tell_logAck hf']
  exact ⟨kept_setRing hq hm hw hi ho he, congrArg (· ++ _) frame.outbox⟩

end

section
variable {s : State} {d : Draft} {src : NodeId} {a : BitVec 48} {b : List Byte} (hd : s.draft = some d) (hf : s.resil.fence.contains src = false)
  (h14 : s.ready 14 = true)
include hd hf h14

theorem exec_logAppend_partner (hr : s.inRing (s.areaAt d AreaMap.ring) a.toNat = true) (hp : d.partner = some src) :
    exec (.logAppend src a b) s = .next (s.partnerEntry d src a.toNat b) := by
  show execLogAppend src a b s = _
  simp only [execLogAppend, hd, hf, h14, hr, hp]
  rfl

theorem exec_logAppend_copied {p : NodeId} (hr : s.inRing (s.areaAt d AreaMap.ring) a.toNat = false)
    (hc : s.inRing (s.areaAt d AreaMap.copy) a.toNat = true) (hp : d.copied = some p) :
    exec (.logAppend src a b) s = .next (((s.writeUnguarded a.toNat b).setRing ((s.ringOf p).put (bytesAt b 16 8) a.toNat b)).tell
      src 5 0x33 [bytesAt b 16 8] []) := by
  show execLogAppend src a b s = _
  simp only [execLogAppend, hd, hf, h14, hr, hc, hp]
  rfl

end

section
variable {s : State} {d : Draft} {n : NodeId} {a : Nat} {b : List Byte}

theorem State.partnerEntry_full (hr : (s.ringOf n).room s.ringBytes b.length = false) (hf : (s.ringOf n).full = false) :
    s.partnerEntry d n a b = (s.setRing { s.ringOf n with full := true }).raise ckptSrc St.logFull (leBytes 2 n.toNat) := by
  simp only [State.partnerEntry, hr, hf]
  rfl

/-- No live copy holder: the entry is acknowledged at once (R592). -/
theorem State.partnerEntry_alone (hr : (s.ringOf n).room s.ringBytes b.length = true)
    (hc : d.copyHolderOf n = none ∨ ∃ h, d.copyHolderOf n = some h ∧ s.isLost h = true) :
    s.partnerEntry d n a b = ((s.writeUnguarded a b).setRing { (s.ringOf n).put (bytesAt b 16 8) a b with full := false }).tell n 5 0x33 [bytesAt b 16 8] [] := by
  have lost : ∀ h, (s.writeUnguarded a b).isLost h = s.isLost h := fun h => by
    rw [State.isLost, State.isLost, (s.writeUnguarded_memoryOnly a b).resil_lost]
  rcases hc with hc | ⟨h, hc, hl⟩
  · simp only [State.partnerEntry, hr, hc]
    rfl
  · simp only [State.partnerEntry, hr, hc, lost, hl]
    rfl

/-- A live copy holder gets the entry, and its owner waits (R589). -/
theorem State.partnerEntry_forwarded (hr : (s.ringOf n).room s.ringBytes b.length = true) {h : NodeId} (hc : d.copyHolderOf n = some h)
    (hl : s.isLost h = false) :
    ∃ far, s.partnerEntry d n a b = ((s.writeUnguarded a b).setRing { (s.ringOf n).put (bytesAt b 16 8) a b with
      due := (s.ringOf n).due ++ [bytesAt b 16 8], full := false }).tellBulk h 0x32 [bytesAt b 16 8] far b := by
  have lost : (s.writeUnguarded a b).isLost h = s.isLost h := by
    rw [State.isLost, State.isLost, (s.writeUnguarded_memoryOnly a b).resil_lost]
  simp only [State.partnerEntry, hr, hc, lost, hl]
  exact ⟨_, rfl⟩

end

theorem State.dirty_writeUnguarded {s : State} (h : s.dirty = []) {a : Nat} {b : List Byte} : (s.writeUnguarded a b).dirty = [] := by
  rw [State.writeUnguarded, State.flushRange_clean h, (s.dramPut_dramOnly a b).dirty, h]

/-! ### Acknowledgements (R56, R590) -/

/-- The state without what a released response, effect or output can change. -/
def State.lessReleased (s : State) : State :=
  { s.lessMemory with outbox := [], ports := [], ctxs := [], resil := { s.lessMemory.resil with lastBarrier := none } }

/-- The registers that a release leaves: none of a tile's block, and none that memory operations write. -/
def releaseReg (o : Nat) : Prop := 0x1000000 ≤ o ∧ ¬memReg o

theorem State.sendNow_released (s : State) (m : OutMsg) : Keeps State.lessReleased releaseReg s (s.sendNow m) := by
  rcases s.sendNow_cases m with e | ⟨p, e⟩ <;> rw [e]
  · exact .refl s
  · exact .of_rest rfl rfl

theorem arriveFld_off_lt (t : TileId) {n : Nat} (h : n < 64) : (arriveFld t n).off < 0x1000000 := by
  have ht := t.isLt
  simp only [arriveFld, Fld.plus, tileBase, F.COPY_ARRIVE_COUNT]
  omega

theorem State.bumpArrival_released (s : State) (t : TileId) {n : Nat} (k : Nat) (h : n < 64) : Keeps State.lessReleased releaseReg s (s.bumpArrival t n k) :=
  .setFld s _ (fun hp => by have := arriveFld_off_lt t h; have := hp.1; omega) (fun _ => rfl)

theorem MemoryOnly.released {s t : State} (h : MemoryOnly s t) : Keeps State.lessReleased releaseReg s t := h.weaken (fun _ => rfl) (fun _ h => h.2)

theorem ColDesc.arrCtr_lt (d : List Byte) : (ColDesc.of d).arrCtr < 64 := by
  simp only [ColDesc.of]
  omega

theorem State.setCtx_released (s : State) (c : CtxId) (x : Ctx) : Keeps State.lessReleased releaseReg s (s.setCtx c x) := .of_rest rfl rfl

/-- The record of a collective that has ended well (R492). -/
theorem State.colRecord_released (s : State) (desc : List Byte) (gid seq : Word) (alg start nsat nflush : Nat) (replayed : Bool) :
    Keeps State.lessReleased releaseReg s (s.colRecord desc gid seq St.ok alg start nsat nflush replayed) := by
  unfold State.colRecord
  simp only [beq_self_eq_true, if_true]
  split
  · exact (State.writeBytes_memoryOnly _ _ _).released.trans (State.bumpArrival_released _ _ _ (ColDesc.arrCtr_lt _))
  · exact (State.writeBytes_memoryOnly _ _ _).released

/-- A group of every member has passed a barrier, or not. -/
def State.passBarrier (s : State) (b : Bool) : State := if b then { s with resil := { s.resil with lastBarrier := some s.eventPick } } else s

theorem State.passBarrier_released (s : State) (b : Bool) : Keeps State.lessReleased releaseReg s (s.passBarrier b) := by
  unfold State.passBarrier
  split
  · exact .of_rest rfl rfl
  · exact .refl s

/-- What the end of a collective does: nothing, or a barrier noted, its record and the context's next state. -/
theorem State.colEnd_cases (s : State) (c : CtxId) :
    s.colEnd c = s ∨ ∃ (b : Bool) (x : Word) (r : ColRun) (y : Ctx), s.colEnd c = ((s.passBarrier b).colRecord r.desc x r.seq St.ok r.alg r.start r.nsat r.nflush false).setCtx c y := by
  unfold State.colEnd
  split
  · exact .inl rfl
  split
  · exact .inl rfl
  case h_2 x _ _ r _ => exact .inr ⟨_, x.gid, r, _, rfl⟩

theorem State.colEnd_released (s : State) (c : CtxId) : Keeps State.lessReleased releaseReg s (s.colEnd c) := by
  rcases s.colEnd_cases c with e | ⟨b, x, r, y, e⟩ <;> rw [e]
  · exact .refl s
  · exact ((s.passBarrier_released b).trans (State.colRecord_released _ _ _ _ _ _ _ _ _)).trans (State.setCtx_released _ _ _)

/-- A release touches neither what still waits nor the numbers of the log. -/
theorem State.release_released (s : State) (h : Held) : Keeps State.lessReleased releaseReg s (s.release h) := by
  cases h with
  | respond k m => exact s.sendNow_released m
  | output k m => exact s.sendNow_released m
  | arrive k t c m => exact (s.bumpArrival_released t 1 c.isLt).trans (State.sendNow_released _ m)
  | colDone k c => exact s.colEnd_released c

/-- The log acknowledged below n, before anything is released. -/
def State.ackedBelow (s : State) (n : Nat) : State :=
  (({ s with resil := { s.resil with ackedLsn := n, held := s.resil.held.filter (fun h => decide (n ≤ h.lsn)) } } : State).setFld F.CKPT_LOG_LSN (n - 1)).setFld
    F.CKPT_LOG_FILL (min 100 (((s.resil.log.map (fun (e : LogEntry) => e.bytes.length)).sum * 100) / max 1 s.ringBytes))

theorem State.acknowledged_eq (s : State) (k : Nat) :
    s.acknowledged k = (s.resil.held.filter (fun h => decide (h.lsn < max s.resil.ackedLsn (min (k + 1) s.resil.lsn)))).foldl State.release
      (s.ackedBelow (max s.resil.ackedLsn (min (k + 1) s.resil.lsn))) := by
  have : ∀ n (h : Held), (!decide (h.lsn < n)) = decide (n ≤ h.lsn) := fun n h => by rw [← decide_not, decide_eq_decide]; omega
  simp only [State.acknowledged, State.ackedBelow, this]

theorem State.fld_ackedBelow (s : State) (n : Nat) : (s.ackedBelow n).fld F.CKPT_LOG_LSN = (n - 1) % 2 ^ 48 := by
  rw [State.ackedBelow, State.fld_setFld_other _ _ _ _ (by decide) (by decide) (by decide) (.inr (.inl (by decide)))]
  exact State.fld_setFld _ _ _ (by decide) (by decide)

theorem State.ackedBelow_sameFab (s : State) (n : Nat) : sameFab s (s.ackedBelow n) := by
  intro o h1 h2
  rw [State.ackedBelow, State.reg_setFld_ne _ _ _ _ (by simp only [F.CKPT_LOG_FILL]; omega),
    State.reg_setFld_ne _ _ _ _ (by simp only [F.CKPT_LOG_LSN]; omega)]
  rfl

theorem exec_logAck {s : State} {d : Draft} {src : NodeId} (hd : s.draft = some d) (hf : s.resil.fence.contains src = false)
    (ht : s.logTarget = some src) (n : BitVec 64) : exec (.logAck src n) s = .next (s.acknowledged n.toNat) := by
  show execLogAck src n s = _
  simp only [execLogAck, hd, hf, ht]
  rfl

/-! ### The mirror (R593 to R595) -/

theorem State.rawBytes_stored {s t : State} {a : Nat} {b : List Byte} (h : ∀ x, t.rawByte x = storedAt a b x (s.rawByte x)) :
    t.rawBytes a b.length = b := by
  refine List.ext_getElem (by simp [State.rawBytes]) fun i h1 h2 => ?_
  simp [State.rawBytes, h, storedAt, h2]

@[simp] theorem State.rawBytes_length (s : State) (a n : Nat) : (s.rawBytes a n).length = n := by simp [State.rawBytes]

section
variable {s : State} {d : Draft} {src : NodeId} (hd : s.draft = some d) (hf : s.resil.fence.contains src = false) (hp : d.partner = some src)
include hd hf hp

theorem exec_mirror_record {k : Nat} (hk : k < 64) (b : List Byte) :
    exec (.mirror src (.page k b)) s = .next (s.writeUnguarded (s.areaAt d AreaMap.ctl + 64 * 65536 + k * 65536) b) := by
  have taken : ¬(s.resil.fence.contains src = true ∨ d.partner ≠ some src) := by rw [hf, hp]; simp
  show execMirror src (.page k b) s = _
  simp only [execMirror, hd, if_neg taken, hk, if_true]

theorem exec_mirror_page {k : Nat} (hk : 64 ≤ k) (ht : s.bit F.CKPT_STAT_TWIN = true) (b : List Byte) :
    exec (.mirror src (.page k b)) s = .next (s.mirrorPage d k b) := by
  have taken : ¬(s.resil.fence.contains src = true ∨ d.partner ≠ some src) := by rw [hf, hp]; simp
  show execMirror src (.page k b) s = _
  simp only [execMirror, hd, if_neg taken, if_neg (Nat.not_lt.2 hk), ht, if_true]

/-- The digest that MIRROR_END must carry: of the pages mirrored since the last one. -/
def State.mirrorSum (s : State) (d : Draft) : List Byte :=
  shake256 (s.resil.undo.flatMap (fun k => s.rawBytes (s.areaAt d AreaMap.mirror + k * 65536) 65536)) 32

/-- The state after MIRROR_END, the digest aside. -/
def State.mirrorEnded (s : State) (p : Pick) : State := { s with resil := { s.resil with undo := [], mirrorPick := some p } }

/-- The partner's digest has disagreed: the event, and the coordinator halts the partition. -/
def State.mirrorBroken (s : State) (d : Draft) (p : Pick) : State :=
  let u := s.raise ckptSrc St.mirrorDiverged (leBytes 6 p.toNat)
  if u.coordinator = some u.nodeId then (u.tellMembers d 0x3A [u.pick.toNat]).haltNode d else u

theorem exec_mirror_stop (ht : s.bit F.CKPT_STAT_TWIN = true) (p : Pick) (dg : List Byte) :
    exec (.mirror src (.stop p dg)) s = .next (if s.mirrorSum d = dg then s.mirrorEnded p else (s.mirrorEnded p).mirrorBroken d p) := by
  have taken : ¬(s.resil.fence.contains src = true ∨ d.partner ≠ some src) := by rw [hf, hp]; simp
  have twin : ¬(!s.bit F.CKPT_STAT_TWIN) = true := by simp [ht]
  show execMirror src (.stop p dg) s = _
  unfold execMirror
  split
  case h_1 none => rw [hd] at none; cases none
  case h_2 e eq =>
    obtain rfl : d = e := Option.some.inj (hd.symm.trans eq)
    rw [if_neg taken]
    exact congrArg Host.Outcome.next (if_neg twin)

end

/-- The state with another resilience state. -/
def State.setResil (s : State) (r : Resil) : State := { s with resil := r }

theorem State.resil_setResil (s : State) (r : Resil) : (s.setResil r).resil = r := rfl
theorem State.bit_setResil (s : State) (r : Resil) (f : Fld) : (s.setResil r).bit f = s.bit f := rfl
theorem State.dirty_setResil (s : State) (r : Resil) : (s.setResil r).dirty = s.dirty := rfl
theorem WcbSound.setResil {top : Nat} {s : State} (h : WcbSound top s) (r : Resil) : WcbSound top (s.setResil r) := ⟨h.wf, h.poison, h.once, h.entry⟩

/-- The old contents of a mirrored page, in the next slot of the undo buffer. -/
def State.savePage (s : State) (d : Draft) (k : Nat) : State :=
  (s.writeUnguarded (s.undoAddr d s.resil.undo.length) (s.rawBytes (s.mirrorAddr d k) 65536)).setResil { s.resil with undo := s.resil.undo ++ [k] }

/-- The state in which a mirrored page is written: its old contents have been saved once. -/
def State.pageSaved (s : State) (d : Draft) (k : Nat) : State := if s.resil.undo.contains k then s else s.savePage d k

theorem State.mirrorPage_eq (s : State) (d : Draft) (k : Nat) (b : List Byte) :
    s.mirrorPage d k b = (s.pageSaved d k).writeUnguarded ((s.pageSaved d k).mirrorAddr d k) b := rfl

/-- Where the mirror lies rests on the resilience state and CKPT_STAT. -/
theorem State.mirrorAddr_savePage (s : State) (d : Draft) (k j : Nat) : (s.savePage d k).mirrorAddr d j = s.mirrorAddr d j := by
  have twin : (s.savePage d k).bit F.CKPT_STAT_TWIN = s.bit F.CKPT_STAT_TWIN := by
    rw [State.savePage, State.bit_setResil, (s.writeUnguarded_memoryOnly _ _).bit (f := F.CKPT_STAT_TWIN) (by unfold memReg; decide)]
  have resil : (s.savePage d k).resil = { s.resil with undo := s.resil.undo ++ [k] } := State.resil_setResil _ _
  simp only [State.mirrorAddr, State.areaAt, twin, resil]

section
variable {top : Nat} {s : State} (h : WcbSound top s) (hc : s.dirty = []) (d : Draft) (k : Nat)
include h hc

theorem WcbSound.savePage (ht : s.undoAddr d s.resil.undo.length + 65536 ≤ top * 256) :
    WcbSound top (s.savePage d k) ∧ (s.savePage d k).dirty = [] := by
  have after := (h.writeUnguarded hc (a := s.undoAddr d s.resil.undo.length) (d := s.rawBytes (s.mirrorAddr d k) 65536)
    (by rwa [State.rawBytes_length])).1
  rw [State.savePage]
  exact ⟨after.setResil _, by rw [State.dirty_setResil, State.dirty_writeUnguarded hc]⟩

theorem WcbSound.pageSaved (ht : s.undoAddr d s.resil.undo.length + 65536 ≤ top * 256) :
    WcbSound top (s.pageSaved d k) ∧ (s.pageSaved d k).dirty = [] := by
  unfold State.pageSaved
  split
  · exact ⟨h, hc⟩
  · exact h.savePage hc d k ht

/-- A page of the mirror is stored at its place (R594). -/
theorem WcbSound.mirrorPage (ht : s.undoAddr d s.resil.undo.length + 65536 ≤ top * 256) {b : List Byte}
    (hb : s.mirrorAddr d k + b.length ≤ top * 256) : (s.mirrorPage d k b).rawBytes (s.mirrorAddr d k) b.length = b := by
  have addr : (s.pageSaved d k).mirrorAddr d k = s.mirrorAddr d k := by
    unfold State.pageSaved
    split
    · rfl
    · exact s.mirrorAddr_savePage d k k
  obtain ⟨sound, clean⟩ := h.pageSaved hc d k ht
  rw [State.mirrorPage_eq, addr]
  exact State.rawBytes_stored (sound.writeUnguarded clean hb).2

end

/-- A page's old contents are kept once. -/
theorem State.undo_mirrorPage (s : State) (d : Draft) (k : Nat) (b : List Byte) :
    (s.mirrorPage d k b).resil.undo = if k ∈ s.resil.undo then s.resil.undo else s.resil.undo ++ [k] := by
  rw [State.mirrorPage_eq, (State.writeUnguarded_memoryOnly _ _ _).resil_undo, State.pageSaved]
  by_cases hk : k ∈ s.resil.undo
  · rw [if_pos hk, if_pos (List.contains_iff_mem.2 hk)]
  · rw [if_neg hk, if_neg (fun h => hk (List.contains_iff_mem.1 h))]
    rfl

/-! ### MIRROR_END -/

/-- The state without what a halt of this member and the messages about it can change. -/
def State.lessHalt (s : State) : State :=
  { s.lessSent with resil := { s.resil with haltAcked := false, markHeld := false, haltAcks := [], restartPick := none } }

/-- The registers that a halt leaves. -/
def haltReg (o : Nat) : Prop := o ≠ F.CKPT_STAT_STATE.off ∧ o ≠ F.FAB_WIN_REFUSED_BLOCKED.off

theorem SentOnly.halt {s t : State} (h : SentOnly s t) : Keeps State.lessHalt haltReg s t := h.weaken (fun _ => rfl) (fun _ h => h.2)

theorem State.tellMembers_sentOnly (s : State) (d : Draft) (opc : Nat) (args : List Nat) : SentOnly s (s.tellMembers d opc args) :=
  .foldl (fun s n => s.tell_sentOnly n 5 opc args []) _ s

theorem State.takeHaltAck_halt (s : State) (d : Draft) (n : NodeId) (p q : Pick) : Keeps State.lessHalt haltReg s (s.takeHaltAck d n p q) := by
  unfold State.takeHaltAck State.tryRestartPick
  split
  · exact .of_rest rfl rfl
  · exact .of_rest rfl rfl

/-- The command HALT has reached a running member. -/
def State.halting (s : State) : State :=
  if s.fld F.CKPT_STAT_STATE = 1 then { s.setFld F.CKPT_STAT_STATE 2 with resil := { s.resil with haltAcked := false, markHeld := false } } else s

/-- A halted member whose engines are idle answers. -/
def State.answerHalt (s : State) (d : Draft) : State :=
  match s.coordinator with
  | none => s
  | some n => if n = s.nodeId then s.takeHaltAck d n s.pick (s.resil.lastBarrier.getD noPick)
      else s.tell n 5 0x3B [s.pick.toNat, (s.resil.lastBarrier.getD noPick).toNat] []

theorem State.haltNode_eq (s : State) (d : Draft) :
    s.haltNode d = if s.halting.fld F.CKPT_STAT_STATE ≠ 2 ∨ s.halting.resil.haltAcked = true ∨ s.halting.enginesIdle = false then s.halting
      else (s.halting.setResil { s.halting.resil with haltAcked := true }).answerHalt d := rfl

theorem State.answerHalt_halt (s : State) (d : Draft) : Keeps State.lessHalt haltReg s (s.answerHalt d) := by
  unfold State.answerHalt
  split
  · exact .refl s
  split
  · exact s.takeHaltAck_halt _ _ _ _
  · exact (s.tell_sentOnly _ _ _ _ _).halt

theorem State.haltNode_halt (s : State) (d : Draft) : Keeps State.lessHalt haltReg s (s.haltNode d) := by
  have halting : Keeps State.lessHalt haltReg s s.halting := by
    unfold State.halting
    split
    · exact ⟨rfl, fun o ho => s.reg_setFld_ne _ _ _ ho.1⟩
    · exact .refl s
  rw [State.haltNode_eq]
  split
  · exact halting
  · refine Keeps.trans ?_ (State.answerHalt_halt _ d)
    exact halting.trans (.of_rest rfl rfl)

/-- After a broken mirror only a halt may have followed the event. -/
theorem State.mirrorBroken_halt (s : State) (d : Draft) (p : Pick) :
    Keeps State.lessHalt haltReg (s.raise ckptSrc St.mirrorDiverged (leBytes 6 p.toNat)) (s.mirrorBroken d p) := by
  unfold State.mirrorBroken
  simp only []
  split
  · exact (State.tellMembers_sentOnly _ _ _ _).halt.trans (State.haltNode_halt _ _)
  · exact .refl _

/-- The newest event rests on the rings and on the readiness of LPDDR5X. -/
theorem raised_of_rings {s t u : State} {src : Nat} {c : Status} {d : List Byte} {f : Bool} (h : raised s t src c d f) (hr : u.rings = t.rings)
    (hg : u.reg R.GLB_FUNC_READY = t.reg R.GLB_FUNC_READY) : raised s u src c d f := by
  unfold raised newestEvent at h ⊢
  rw [State.lpReady_congr _ _ hg, hr, h]

theorem State.mirrorBroken_raises (s : State) (d : Draft) (p : Pick) :
    raised s (s.mirrorBroken d p) ckptSrc St.mirrorDiverged (leBytes 6 p.toNat) false :=
  raised_of_rings (s.raise_raised _ _ _) ((s.mirrorBroken_halt d p).same State.rings (fun _ => rfl))
    ((s.mirrorBroken_halt d p).regs _ (by unfold haltReg; decide))

/-! ### The statement -/

theorem raised_setRing (s t : State) (r : LogRing) (n : Nat) (c : Status) (b : List Byte) (f : Bool) :
    raised (s.setRing r) t n c b f = raised s t n c b f := rfl

section
variable {s : State} {d : Draft} {src : NodeId} (hd : s.draft = some d) (hf : s.resil.fence.contains src = false) (hq : memQuiet s = true)
  (hm : memoriesWf s) (hw : s.wcb = [])
include hd hf hq hm hw

/-- An entry of the partner (R589, R591, R592). -/
theorem logAppend_partner {a : BitVec 48} {b : List Byte} (h14 : s.ready 14 = true) (hi : a.toNat + b.length ≤ 0x030000000000)
    (hr : s.inRing (s.areaAt d AreaMap.ring) a.toNat = true) (hp : d.partner = some src) :
    ((s.ringOf src).room s.ringBytes b.length = true →
      (d.copyHolderOf src = none ∨ (∃ h, d.copyHolderOf src = some h ∧ s.isLost h = true) →
        ∃ t, exec (.logAppend src a b) s = .next t ∧ kept s t src (bytesAt b 16 8) a.toNat b ∧
          t.outbox = s.outbox ++ [plainMsg none src 5 0x33 [bytesAt b 16 8] []]) ∧
      (∀ h, d.copyHolderOf src = some h → s.isLost h = false →
        ∃ t, exec (.logAppend src a b) s = .next t ∧ kept s t src (bytesAt b 16 8) a.toNat b ∧
          (∃ r ∈ t.resil.logRings, r.owner = src ∧ bytesAt b 16 8 ∈ r.due) ∧ ∀ x ∈ t.outbox.drop s.outbox.length, x.opc = 0x32 ∧ x.dst = h)) ∧
    ((s.ringOf src).room s.ringBytes b.length = false → (s.ringOf src).full = false →
      ∃ t, exec (.logAppend src a b) s = .next t ∧ t.mem = s.mem ∧ t.outbox = s.outbox ∧
        raised s t 0x700 St.logFull (leBytes 2 src.toNat) false) := by
  have run := exec_logAppend_partner (b := b) hd hf h14 hr hp
  have owner := s.ringOf_owner src
  have entry := (s.ringOf src).mem_put (bytesAt b 16 8) a.toNat b
  refine ⟨fun room => ⟨fun alone => ?_, fun h hc hl => ?_⟩, fun room full => ?_⟩
  · exact ⟨_, run.trans (congrArg _ (State.partnerEntry_alone room alone)), kept_acknowledged hq hm hw hi owner entry hf⟩
  · obtain ⟨far, e⟩ := State.partnerEntry_forwarded (a := a.toNat) room hc hl
    let r : LogRing := { (s.ringOf src).put (bytesAt b 16 8) a.toNat b with due := (s.ringOf src).due ++ [bytesAt b 16 8], full := false }
    let u := (s.writeUnguarded a.toNat b).setRing r
    have sent : SentOnly u (u.tellBulk h 0x32 [bytesAt b 16 8] far b) := u.tellBulk_sentOnly _ _ _ _ _
    have rings : (u.tellBulk h 0x32 [bytesAt b 16 8] far b).resil.logRings = u.resil.logRings := sent.same (fun s => s.resil.logRings) (fun _ => rfl)
    have listed : r ∈ (u.tellBulk h 0x32 [bytesAt b 16 8] far b).resil.logRings := rings ▸ List.mem_append_right _ (List.mem_singleton_self r)
    have outbox : u.outbox = s.outbox := (s.writeUnguarded_memoryOnly a.toNat b).outbox
    obtain ⟨l, hl, hx⟩ := u.outbox_tellBulk h 0x32 [bytesAt b 16 8] far b
    refine ⟨_, run.trans (congrArg _ e), ⟨fun x hx => ?_, r, listed, owner, entry⟩, ⟨r, listed, owner, ?_⟩, ?_⟩
    · rw [sent.same (fun s => s.byteAt x) (fun _ => rfl)]
      exact State.memoryAfter_writeUnguarded hq hm hw hi x hx
    · exact List.mem_append_right _ (List.mem_singleton_self _)
    · rw [hl, outbox, List.drop_left]
      exact hx
  · refine ⟨_, run.trans (congrArg _ (State.partnerEntry_full room full)), State.raise_mem _ _ _ _, ?_, ?_⟩
    · exact (State.raise_keeps _ _ _ _).same State.outbox (fun _ => rfl)
    · rw [← raised_setRing]
      exact State.raise_raised _ _ _ _

end

/-- LOG_ACK (R56, R590). -/
theorem logAck_releases {s : State} {d : Draft} {src : NodeId} (hd : s.draft = some d) (hf : s.resil.fence.contains src = false)
    (ht : s.logTarget = some src) (n : BitVec 64) :
    let acked := max s.resil.ackedLsn (min (n.toNat + 1) s.resil.lsn)
    ∃ t, exec (.logAck src n) s = .next t ∧ t.resil.ackedLsn = acked ∧ t.fld F.CKPT_LOG_LSN = (acked - 1) % 2 ^ 48 ∧
      t.resil.held = s.resil.held.filter (fun h => decide (acked ≤ h.lsn)) ∧
      (∀ k m, s.resil.held = [.respond k m] → k < acked → m.fwd = none → s.resil.fence.contains m.dst = false → s.pathPorts m.dst ≠ [] →
        t.outbox = s.outbox ++ [onItsPort s m] ∧ t.mem = s.mem) ∧
      ((∀ h ∈ s.resil.held, acked ≤ h.lsn) → t.outbox = s.outbox ∧ t.mem = s.mem ∧ t.tiles = s.tiles) := by
  intro acked
  have run := exec_logAck hd hf ht n
  rw [State.acknowledged_eq] at run
  let u := s.ackedBelow acked
  have frame : Keeps State.lessReleased releaseReg u ((s.resil.held.filter (fun h => decide (h.lsn < acked))).foldl State.release u) :=
    .foldl State.release_released _ u
  refine ⟨_, run, frame.same (fun s => s.resil.ackedLsn) (fun _ => rfl), ?_, frame.same (fun s => s.resil.held) (fun _ => rfl), ?_, ?_⟩
  · rw [frame.fld (f := F.CKPT_LOG_LSN) (by unfold releaseReg memReg; decide)]
    exact s.fld_ackedBelow acked
  · intro k m held hk hw hfence hp
    have fab := s.ackedBelow_sameFab acked
    have go : s.resil.held.filter (fun h => decide (h.lsn < acked)) = [.respond k m] := by
      rw [held, List.filter_eq_self]
      exact fun h hh => List.mem_singleton.1 hh ▸ decide_eq_true hk
    rw [go]
    have sent := State.sendNow_onItsPort (s := u) (m := m) hfence hw (by rw [fab.pathPorts]; exact hp)
    rw [fab.onItsPort] at sent
    exact sent
  · intro none
    have go : s.resil.held.filter (fun h => decide (h.lsn < acked)) = [] :=
      List.filter_eq_nil_iff.2 (fun h hh => by have := none h hh; simpa using this)
    rw [go]
    exact ⟨rfl, rfl, rfl⟩

/-- Settles O51: an entry is written behind the guard check and put into its ring; a release touches nothing that still waits; a
page of the mirror is written last. -/
theorem logsAndMirrors : Obligations.LogsAndMirrors := by
  intro src d s hd hf hq hm hw
  obtain ⟨clean, -, good⟩ := memQuiet_iff.1 hq
  have sound := WcbSound.of_empty hm.1 good hw
  refine ⟨fun a b h14 _ hi => ⟨fun hr hp => ?_, fun p hr hc hp => ?_⟩, fun n ht => logAck_releases hd hf ht n, fun hp => ⟨fun k b hb => ⟨fun hk => ?_, fun hk ht => ?_⟩,
    fun p dg ht => ?_⟩⟩
  · obtain ⟨room, full⟩ := logAppend_partner hd hf hq hm hw h14 hi hr hp
    refine ⟨fun hroom => ⟨fun alone => ?_, fun h hc hl => ?_⟩, full⟩
    · obtain ⟨t, run, ⟨stored, ring⟩, ack⟩ := (room hroom).1 alone
      exact ⟨t, ⟨run, stored, ring⟩, ack⟩
    · obtain ⟨t, run, ⟨stored, ring⟩, due⟩ := (room hroom).2 h hc hl
      exact ⟨t, ⟨run, stored, ring⟩, due⟩
  · obtain ⟨⟨stored, ring⟩, ack⟩ := kept_acknowledged hq hm hw hi (r := (s.ringOf p).put (bytesAt b 16 8) a.toNat b) (s.ringOf_owner p) ((s.ringOf p).mem_put (bytesAt b 16 8) a.toNat b) hf
    exact ⟨_, ⟨exec_logAppend_copied hd hf h14 hr hc hp, stored, ring⟩, ack⟩
  · refine ⟨_, exec_mirror_record hd hf hp hk b, ?_, (s.writeUnguarded_memoryOnly _ _).resil_undo⟩
    have := State.rawBytes_stored ((sound (s.areaAt d AreaMap.ctl + 64 * 65536 + k * 65536 + b.length)).writeUnguarded clean
      (a := s.areaAt d AreaMap.ctl + 64 * 65536 + k * 65536) (d := b) (by omega)).2
    rwa [hb] at this
  · refine ⟨_, exec_mirror_page hd hf hp hk ht b, ?_, s.undo_mirrorPage d k b⟩
    have := (sound (s.undoAddr d s.resil.undo.length + 65536 + (s.mirrorAddr d k + b.length))).mirrorPage clean d k (b := b) (by omega) (by omega)
    rwa [hb] at this
  · refine ⟨_, exec_mirror_stop hd hf hp ht p dg, ?_⟩
    by_cases agrees : s.mirrorSum d = dg
    · rw [if_pos agrees]
      exact ⟨rfl, rfl, rfl, fun _ => rfl, fun ne => absurd agrees ne⟩
    · have halted := (s.mirrorEnded p).mirrorBroken_halt d p
      have event := (s.mirrorEnded p).raise_keeps ckptSrc St.mirrorDiverged (leBytes 6 p.toNat)
      rw [if_neg agrees]
      refine ⟨?_, ?_, ?_, fun eq => absurd eq agrees, fun _ => (s.mirrorEnded p).mirrorBroken_raises d p⟩
      · exact (halted.same (fun s => s.resil.undo) (fun _ => rfl)).trans (event.same (fun s => s.resil.undo) (fun _ => rfl))
      · exact (halted.same (fun s => s.resil.mirrorPick) (fun _ => rfl)).trans (event.same (fun s => s.resil.mirrorPick) (fun _ => rfl))
      · exact (halted.same State.mem (fun _ => rfl)).trans (State.raise_mem _ _ _ _)

end Sys2Proof.Machine
end

section
/-! Picks start and events fire (R53, R511 to R516, R294, R605): what a pick start and an event change, and what they leave. -/

namespace Sys2Proof.Machine

/-! ### The time counter -/

theorem State.ns_at (s : State) (now : BitVec 64) : (s.at_ now).clock.ns.toNat = max s.clock.ns.toNat now.toNat := by
  show (if s.clock.ns < now then now else s.clock.ns).toNat = _
  split
  case isTrue h => exact (max_eq_right (le_of_lt (BitVec.lt_def.1 h))).symm
  case isFalse h => exact (max_eq_left (BitVec.not_lt.1 h)).symm

/-! ### Logged inputs that a position applies -/

/-- The state without what the inputs of a position can change. -/
def State.lessInputs (s : State) : State := { s.lessMemory with resil := { s.lessMemory.resil with reapply := [] } }

/-- The timebase's registers of picks: TIME_PICK to TIME_REBASE_BASE. -/
def timeReg (o : Nat) : Prop := 0x4000020 ≤ o ∧ o < 0x4000048

/-- The same, and the registers of the tiles' blocks. -/
def pickReg (o : Nat) : Prop := timeReg o ∨ o < 0x1000000

theorem not_memReg_of_pickReg {o : Nat} (h : pickReg o) : ¬memReg o := by
  simp only [pickReg, timeReg, memReg, F.MBX_EVQ_DROPPED] at *
  omega

theorem MemoryOnly.inputs {s t : State} (h : MemoryOnly s t) : Keeps State.lessInputs pickReg s t :=
  h.weaken (fun _ => rfl) (fun _ => not_memReg_of_pickReg)

theorem State.applyWrite_inputs (s : State) (e : LogEntry) : Keeps State.lessInputs pickReg s (s.applyWrite e) := by
  unfold State.applyWrite
  split
  · exact (s.writeBytes_memoryOnly _ _).inputs
  · exact .refl s

/-- The state that has taken up the kept entries of a position. -/
def State.takeReapply (s : State) (i : Nat) : State :=
  { s with resil := { s.resil with reapply := s.resil.reapply.filter (fun e => !(e.type == Lt.external && e.pos == i)) } }

theorem State.reapplyAt_inputs (s : State) (i : Nat) : Keeps State.lessInputs pickReg s (s.reapplyAt i) :=
  .trans (t := s.takeReapply i) (.of_rest rfl rfl) (.foldl State.applyWrite_inputs _ _)

/-- The inputs that replay applies at position i of pick p. -/
def LogEntry.isInput (p : Pick) (i : Nat) (e : LogEntry) : Bool :=
  e.pick == p && e.pos == i && (e.type == Lt.write || e.type == Lt.arrive || e.type == Lt.external)

/-- The state whose log lacks the inputs of a position. -/
def State.takeInputs (s : State) (p : Pick) (i : Nat) : State :=
  { s with resil := { s.resil with log := s.resil.log.filter (fun e => !e.isInput p i) } }

theorem State.replayInputs_inputs (s : State) (p : Pick) (i : Nat) : Keeps State.lessInputs timeReg (s.takeInputs p i) (s.replayInputs p i) := by
  refine .foldl (fun s e => ?_) _ _
  split
  · refine .setFld s _ (fun h => ?_) (fun _ => rfl)
    have := arriveFld_off_lt (BitVec.ofNat 8 (e.key / 256)) (n := e.key % 64) (Nat.mod_lt _ (by decide))
    have := h.1
    omega
  · exact (s.applyWrite_inputs e).weaken (fun _ => rfl) (fun _ => .inl)

/-! ### What a pick start does for resilience -/

/-- The state without what the commits, the interval and the records of a pick start can change. -/
def State.lessCommit (s : State) : State :=
  { s.lessMemory with outbox := [], flash := [], flashBytes := 0, free := 0, resil := Resil.reset, clock := { s.clock with everyPending := none } }

theorem MemoryOnly.commit {s t : State} (h : MemoryOnly s t) : Keeps State.lessCommit pickReg s t :=
  h.weaken (fun _ => rfl) (fun _ => not_memReg_of_pickReg)

theorem SentOnly.commit {s t : State} (h : SentOnly s t) : Keeps State.lessCommit pickReg s t :=
  h.weaken (fun _ => rfl) (fun o ho e => by subst e; revert ho; unfold pickReg timeReg; decide)

theorem State.setFld_commit (s : State) {f : Fld} (n : Nat) (h : 0x2000000 ≤ f.off ∧ f.off < 0x4000000 ∨ 0x5000000 ≤ f.off) :
    Keeps State.lessCommit pickReg s (s.setFld f n) := by
  refine .setFld s n (fun hp => ?_) (fun _ => rfl)
  simp only [pickReg, timeReg] at hp
  omega

/-- The state with these flash blocks. -/
def State.setFlash (s : State) (m : Memory) (n : Nat) : State := { s with flash := m, flashBytes := n }

theorem State.setFlash_commit (s : State) (m : Memory) (n : Nat) : Keeps State.lessCommit pickReg s (s.setFlash m n) := .of_rest rfl rfl

theorem State.flashPut_commit (s : State) (lba : Nat) (d : List Byte) : Keeps State.lessCommit pickReg s (s.flashPut lba d) :=
  (s.setFlash_commit _ _).trans (State.setFld_commit _ (f := F.NAND_WEAR_HOST_WRITTEN) _ (by decide))

theorem State.setResil_commit (s : State) (r : Resil) : Keeps State.lessCommit pickReg s (s.setResil r) := .of_rest rfl rfl

theorem State.putRec_commit (s : State) (d : Draft) (r : CommitRec) : Keeps State.lessCommit pickReg s (s.putRec d r) :=
  (s.writeUnguarded_memoryOnly _ _).commit.trans (.foldl (fun s _ => (s.tellBulk_sentOnly _ _ _ _ _).commit) _ _)

theorem State.drawFree_commit (s : State) : Keeps State.lessCommit pickReg s s.drawFree.2 := .of_rest rfl rfl

theorem State.newInterval_eq (s : State) : ∃ r, s.newInterval = s.drawFree.2.drawFree.2.setResil r := ⟨_, rfl⟩

theorem State.newInterval_commit (s : State) : Keeps State.lessCommit pickReg s s.newInterval := by
  obtain ⟨r, hr⟩ := s.newInterval_eq
  rw [hr]
  exact s.drawFree_commit.trans ((State.drawFree_commit _).trans (State.setResil_commit _ _))

/-- The registers of a skein commit, and its record at its places. -/
def State.skeinCommitted (s : State) (d : Draft) (r : CommitRec) (cost stall : Nat) : State :=
  (((((s.setFld F.CKPT_GEN_COMMITTED r.gen).setFld F.CKPT_GEN_WRITING 0).setFld F.CKPT_STAT_DEGRADED 0).setFld F.CKPT_COST_COST cost).setFld
    F.CKPT_COST_STALL stall).putRec d r

theorem State.skeinCommitted_commit (s : State) (d : Draft) (r : CommitRec) (cost stall : Nat) :
    Keeps State.lessCommit pickReg s (s.skeinCommitted d r cost stall) :=
  (State.setFld_commit _ (f := F.CKPT_GEN_COMMITTED) _ (by decide)).trans <|
    (State.setFld_commit _ (f := F.CKPT_GEN_WRITING) _ (by decide)).trans <|
    (State.setFld_commit _ (f := F.CKPT_STAT_DEGRADED) _ (by decide)).trans <|
    (State.setFld_commit _ (f := F.CKPT_COST_COST) _ (by decide)).trans <|
    (State.setFld_commit _ (f := F.CKPT_COST_STALL) _ (by decide)).trans (State.putRec_commit _ _ _)

/-- What a COMMIT does at a pick start: nothing, a flash record in its three copies, or a skein record with its registers and, at
the coordinator, the next interval. -/
theorem State.applyCommit_cases (s : State) (d : Draft) (c : CommitMsg) :
    s.applyCommit d c = s ∨ (∃ r rec, s.applyCommit d c = (s.setResil r).putFlashRec d rec) ∨
      ∃ r r' rec cost stall v, (v = (s.setResil r).skeinCommitted d rec cost stall ∨ v = ((s.setResil r).skeinCommitted d rec cost stall).newInterval) ∧
        s.applyCommit d c = v.setResil r' := by
  unfold State.applyCommit
  cases c.tier with
  | flash =>
    cases s.resil.newFlash with
    | none => exact .inl rfl
    | some r =>
      by_cases h : r.gen ≠ c.gen.toNat
      · exact .inl (if_pos h)
      · exact .inr (.inl ⟨_, _, if_neg h⟩)
  | skein =>
    cases s.resil.newRec with
    | none => exact .inl rfl
    | some r =>
      by_cases h : r.gen ≠ c.gen.toNat
      · exact .inl (if_pos h)
      · refine .inr (.inr ⟨_, _, _, _, _, _, ite_eq_or_eq _ _ _ |>.symm, if_neg h⟩)

theorem State.applyCommit_commit (s : State) (d : Draft) (c : CommitMsg) : Keeps State.lessCommit pickReg s (s.applyCommit d c) := by
  obtain h | ⟨r, rec, h⟩ | ⟨r, r', rec, cost, stall, v, hv, h⟩ := s.applyCommit_cases d c
  · rw [h]
    exact .refl s
  · rw [h]
    exact (s.setResil_commit r).trans (.foldl (fun s _ => s.flashPut_commit _ _) _ _)
  · rw [h]
    refine .trans (t := v) ?_ (State.setResil_commit _ _)
    have committed := (s.setResil_commit r).trans (State.skeinCommitted_commit _ d rec cost stall)
    obtain rfl | rfl := hv
    · exact committed
    · exact committed.trans (State.newInterval_commit _)

/-- The state without a pending interval. -/
def State.dropEvery (s : State) : State := { s with clock := { s.clock with everyPending := none } }

theorem State.dropEvery_commit (s : State) : Keeps State.lessCommit pickReg s s.dropEvery := .of_rest rfl rfl

/-- The state after an interval that pick n reaches. -/
def State.takeEvery (s : State) (n : Pick) : State :=
  match s.clock.everyPending with
  | some (e, f) => if f ≤ n then ((s.setFld F.CKPT_INTERVAL_EVERY e).setFld F.CKPT_INTERVAL_FROM_PICK f.toNat).dropEvery else s
  | none => s

theorem State.takeEvery_commit (s : State) (n : Pick) : Keeps State.lessCommit pickReg s (s.takeEvery n) := by
  unfold State.takeEvery
  split
  · split
    · exact (State.setFld_commit _ (f := F.CKPT_INTERVAL_EVERY) _ (by decide)).trans <|
        (State.setFld_commit _ (f := F.CKPT_INTERVAL_FROM_PICK) _ (by decide)).trans (State.dropEvery_commit _)
    · exact .refl s
  · exact .refl s

theorem State.mirrorOut_eq (s : State) (p : NodeId) (n : Pick) : ∃ (l : List (Nat × List Byte)) (d : List Byte) (r : Resil),
    s.mirrorOut p n = ((l.foldl (fun s e => s.tellBulk p 0x3F [e.1] (e.1 * 65536) e.2) s).tell p 5 0x3F [n.toNat] d).setResil r := ⟨_, _, _, rfl⟩

theorem State.mirrorOut_commit (s : State) (p : NodeId) (n : Pick) : Keeps State.lessCommit pickReg s (s.mirrorOut p n) := by
  obtain ⟨l, d, r, h⟩ := s.mirrorOut_eq p n
  rw [h]
  exact .trans (.foldl (fun s _ => (s.tellBulk_sentOnly _ _ _ _ _).commit) l s) ((State.tell_sentOnly _ _ _ _ _ _).commit.trans (State.setResil_commit _ _))

/-- The state with a pick-start record at its place. -/
def State.keepPickRec (s : State) (d : Draft) (b : List Byte) : State :=
  (s.writeUnguarded (s.areaAt d AreaMap.ctl) b).setResil { s.resil with pickRec := some b }

theorem State.keepPickRec_commit (s : State) (d : Draft) (b : List Byte) : Keeps State.lessCommit pickReg s (s.keepPickRec d b) :=
  (s.writeUnguarded_memoryOnly _ _).commit.trans (State.setResil_commit _ _)

theorem State.pickRecord_cases (s : State) (d : Draft) (n : Pick) :
    let b := s.controlRecord 0 0 false
    let u := s.keepPickRec d b
    s.pickRecord d n = u ∨ ∃ p, s.pickRecord d n = u.tellBulk p 0x3F [0] 0 b ∨ s.pickRecord d n = (u.tellBulk p 0x3F [0] 0 b).mirrorOut p n := by
  unfold State.pickRecord
  cases d.partner with
  | none => exact .inl rfl
  | some p =>
    exact (ite_eq_or_eq _ _ _).imp id (fun h => ⟨p, (ite_eq_or_eq _ _ _).symm.imp (Eq.trans h) (Eq.trans h)⟩)

theorem State.pickRecord_commit (s : State) (d : Draft) (n : Pick) : Keeps State.lessCommit pickReg s (s.pickRecord d n) := by
  have stored := s.keepPickRec_commit d (s.controlRecord 0 0 false)
  obtain h | ⟨p, h | h⟩ := s.pickRecord_cases d n
  · exact h ▸ stored
  · exact h ▸ stored.trans (State.tellBulk_sentOnly _ _ _ _ _ _).commit
  · exact h ▸ stored.trans ((State.tellBulk_sentOnly _ _ _ _ _ _).commit.trans (State.mirrorOut_commit _ _ _))

/-- The state after the commits that fall due at a pick start. -/
def State.takeCommits (s : State) (d : Draft) (due rest : List CommitMsg) : State :=
  if (s.setResil { s.resil with commits := rest }).ready 3 then due.foldl (fun s c => s.applyCommit d c) (s.setResil { s.resil with commits := rest })
  else (s.setResil { s.resil with commits := rest }).setResil { s.resil with commits := due ++ rest }

theorem State.takeCommits_commit (s : State) (d : Draft) (due rest : List CommitMsg) : Keeps State.lessCommit pickReg s (s.takeCommits d due rest) := by
  unfold State.takeCommits
  split
  · exact (s.setResil_commit _).trans (.foldl (fun s c => s.applyCommit_commit d c) _ _)
  · exact (s.setResil_commit _).trans (State.setResil_commit _ _)

theorem State.pickResil_eq (s : State) (d : Draft) (n : Pick) :
    s.pickResil d n = ((s.takeCommits d (s.resil.commits.filter (fun c => decide (c.commitPick ≤ n)))
      (s.resil.commits.filter (fun c => !decide (c.commitPick ≤ n)))).takeEvery n).pickRecord d n := rfl

/-- Resilience changes nothing that the pick start has set. -/
theorem State.pickResil_commit (s : State) (d : Draft) (n : Pick) : Keeps State.lessCommit pickReg s (s.pickResil d n) := by
  rw [s.pickResil_eq]
  exact (s.takeCommits_commit _ _ _).trans ((State.takeEvery_commit _ _).trans (State.pickRecord_commit _ _ _))

end Sys2Proof.Machine
end

section
/-! The start of a pick and the firing of its events at the tiles (R53, R294, R511, R516). -/

namespace Sys2Proof.Machine

/-! ### Folds over the tiles -/

/-- One element of a list makes Q of R, which the others keep; every element keeps Q. -/
theorem foldl_turns {α : Type} {f : State → α → State} {k : α} {R Q : State → Prop} (hQ : ∀ s x, Q s → Q (f s x))
    (hR : ∀ s x, x ≠ k → R s → R (f s x)) (hk : ∀ s, R s → Q (f s k)) (l : List α) (s : State) (hl : k ∈ l) (hs : R s) :
    Q (l.foldl f s) := by
  induction l generalizing s with
  | nil => exact absurd hl List.not_mem_nil
  | cons x l ih =>
    by_cases e : x = k
    · subst e
      exact foldl_keeps Q f hQ l _ (hk s hs)
    · exact ih _ ((List.mem_cons.1 hl).resolve_left (Ne.symm e)) (hR s x e hs)

theorem State.mem_tileIds {s : State} {k : TileId} (h : (Tab.find s.tiles k.toNat).isSome = true) : k ∈ s.tileIds :=
  List.mem_filter.2 ⟨List.mem_map.2 ⟨k.toNat, List.mem_range.2 k.isLt, by simp⟩, by rw [h, Bool.true_or]⟩

/-- A tile whose shuttle waits is listed. -/
theorem State.listed_of_waiting {s : State} {k : TileId} {w : Wait} (h : (s.tile k).waiting = some w) : (Tab.find s.tiles k.toNat).isSome = true := by
  rw [State.tile, Tab.get_eq_find] at h
  cases e : Tab.find s.tiles k.toNat with
  | some x => rfl
  | none =>
    rw [e] at h
    exact absurd h (by simp [Tile.reset])

/-! ### The start of a pick -/

/-- The state after a rebase that pick n reaches. -/
def State.rebased (s : State) (n : Pick) : State :=
  if s.bit F.TIME_REBASE_AT_PENDING && decide (s.fld F.TIME_REBASE_AT_PICK ≤ n.toNat) then
    { (s.setFld F.TIME_PICK_BASE_BASE (s.fld F.TIME_REBASE_BASE_BASE)).setFld F.TIME_REBASE_AT_PENDING 0 with
      clock := { s.clock with rebaseForced := false } }
  else s

/-- The state with a place for pick n in the digest log and no event fired. -/
def State.openPick (s : State) (n : Pick) : State :=
  { s with clock := { s.clock with fired := [], digests := s.clock.digests ++ [(n, [], [], false)] } }

/-- SOLVER_SEQ of a tile starts again at 0 (R294). -/
def State.clearSeq (s : State) (t : TileId) : State :=
  if s.fld (tfld t F.SOLVER_SEQ_SEQ) = 0 then s else s.setFld (tfld t F.SOLVER_SEQ_SEQ) 0

/-- Pick n reaches the waits of a tile. -/
def Tile.meetPick (n : Pick) (x : Tile) : Tile :=
  { x with waiting := x.waiting.map (Wait.fire 0 n), lateSeen := x.lateSeen.filter (fun e => decide (n.toNat ≤ e.1.toNat + 1)) }

/-- Pick n reaches one tile. -/
def State.startTile (n : Pick) (s : State) (t : TileId) : State := ((s.clearSeq t).oweLate t 0 n).modTile t (Tile.meetPick n)

section
variable (s : State) (t : TileId) (n : Pick)

theorem State.tile_clearSeq (k : TileId) : (s.clearSeq t).tile k = s.tile k := by
  unfold State.clearSeq
  split <;> rfl

theorem State.fld_clearSeq : (s.clearSeq t).fld (tfld t F.SOLVER_SEQ_SEQ) = 0 := by
  unfold State.clearSeq
  split
  case isTrue h => exact h
  case isFalse => exact (s.fld_setFld (tfld t F.SOLVER_SEQ_SEQ) 0 (Nat.zero_le _) (by simp [tfld, Fld.plus, F.SOLVER_SEQ_SEQ])).trans (Nat.zero_mod _)

/-- What a tile owes to its late units changes nothing of its shuttle. -/
theorem State.oweLate_cases (i : Nat) : s.oweLate t i n = s ∨ ∃ seen owed, s.oweLate t i n = s.modTile t (fun x => { x with lateSeen := seen, lateOwed := owed }) := by
  unfold State.oweLate
  simp only []
  split
  · exact .inr ⟨_, _, rfl⟩
  · exact .inl rfl

end

theorem tfld_seq_inj {t k : TileId} (h : (tfld k F.SOLVER_SEQ_SEQ).off = (tfld t F.SOLVER_SEQ_SEQ).off) : k = t := by
  simp only [tfld, Fld.plus, tileBase, F.SOLVER_SEQ_SEQ] at h
  exact BitVec.eq_of_toNat_eq (by omega)

theorem State.tile_modTile (s : State) (t k : TileId) (f : Tile → Tile) : (s.modTile t f).tile k = if k = t then f (s.tile k) else s.tile k := by
  split
  case isTrue h => rw [h, State.tile_modTile_same]
  case isFalse h => exact s.tile_modTile_other t k f h

/-- What a change of a tile leaves of it, it leaves of every tile. -/
theorem State.tile_modTile_keeps {α : Type} (g : Tile → α) {f : Tile → Tile} (h : ∀ x, g (f x) = g x) (s : State) (t k : TileId) :
    g ((s.modTile t f).tile k) = g (s.tile k) := by
  rw [s.tile_modTile]
  split
  · exact h _
  · rfl

section
variable {α : Type} (g : Tile → α)

/-- g shows neither the late units that a tile has reported nor those that it owes. -/
def hidesLate : Prop := ∀ (x : Tile) seen owed, g { x with lateSeen := seen, lateOwed := owed } = g x

variable {g}

theorem State.tile_oweLate_keeps (h : hidesLate g) (s : State) (t k : TileId) (i : Nat) (n : Pick) :
    g ((s.oweLate t i n).tile k) = g (s.tile k) := by
  obtain e | ⟨seen, owed, e⟩ := s.oweLate_cases t n i
  · rw [e]
  · rw [e]
    exact State.tile_modTile_keeps g (fun x => h x seen owed) s t k

/-- What the start of a pick leaves of every tile. -/
theorem State.tile_startTile_keeps (h : hidesLate g) (hw : ∀ n x, g (Tile.meetPick n x) = g x) (s : State) (t k : TileId) (n : Pick) :
    g ((s.startTile n t).tile k) = g (s.tile k) := by
  rw [State.startTile, State.tile_modTile_keeps g (hw n), State.tile_oweLate_keeps h, State.tile_clearSeq]

end

theorem State.waiting_startTile (s : State) (t k : TileId) (n : Pick) :
    ((s.startTile n t).tile k).waiting = if k = t then (s.tile k).waiting.map (Wait.fire 0 n) else (s.tile k).waiting := by
  have owe : (((s.clearSeq t).oweLate t 0 n).tile k).waiting = (s.tile k).waiting := by
    rw [State.tile_oweLate_keeps (g := Tile.waiting) (fun _ _ _ => rfl), State.tile_clearSeq]
  rw [State.startTile, State.tile_modTile, ← owe]
  split <;> rfl

/-- The state without the tiles, and without its registers. -/
def State.lessTiles (s : State) : State := { s with tiles := [], regs := [] }

theorem State.modTile_tilesOnly (P : Nat → Prop) (s : State) (t : TileId) (f : Tile → Tile) : Keeps State.lessTiles P s (s.modTile t f) := .of_rest rfl rfl

theorem State.oweLate_tilesOnly (P : Nat → Prop) (s : State) (t : TileId) (i : Nat) (n : Pick) : Keeps State.lessTiles P s (s.oweLate t i n) := by
  obtain e | ⟨seen, owed, e⟩ := s.oweLate_cases t n i
  · rw [e]
    exact .refl s
  · rw [e]
    exact s.modTile_tilesOnly P t _

theorem State.clearSeq_tilesOnly {P : Nat → Prop} (t : TileId) (h : ¬P (tfld t F.SOLVER_SEQ_SEQ).off) (s : State) :
    Keeps State.lessTiles P s (s.clearSeq t) := by
  unfold State.clearSeq
  split
  · exact .refl s
  · exact .setFld s _ h (fun _ => rfl)

/-- Beyond a tile and its SOLVER_SEQ, the start of a pick changes nothing there. -/
theorem State.startTile_tilesOnly {P : Nat → Prop} (t : TileId) (h : ¬P (tfld t F.SOLVER_SEQ_SEQ).off) (s : State) (n : Pick) :
    Keeps State.lessTiles P s (s.startTile n t) :=
  (State.clearSeq_tilesOnly t h s).trans ((State.oweLate_tilesOnly P _ _ _ _).trans (State.modTile_tilesOnly P _ _ _))

theorem State.fld_startTile_seq (s : State) (t k : TileId) (n : Pick) :
    (s.startTile n t).fld (tfld k F.SOLVER_SEQ_SEQ) = if k = t then 0 else s.fld (tfld k F.SOLVER_SEQ_SEQ) := by
  split
  case isTrue h =>
    have later := (State.oweLate_tilesOnly (fun _ => True) (s.clearSeq t) t 0 n).trans (State.modTile_tilesOnly _ _ t (Tile.meetPick n))
    rw [h]
    exact (later.fld trivial).trans (s.fld_clearSeq t)
  case isFalse h =>
    exact (State.startTile_tilesOnly (P := fun o => o ≠ (tfld t F.SOLVER_SEQ_SEQ).off) t (fun f => f rfl) s n).fld (fun e => h (tfld_seq_inj e))

theorem not_timeReg_seq (t : TileId) : ¬timeReg (tfld t F.SOLVER_SEQ_SEQ).off := by
  have := t.isLt
  simp only [timeReg, tfld, Fld.plus, tileBase, F.SOLVER_SEQ_SEQ]
  omega

/-! ### What has changed once a pick has started -/

section
variable (s : State) (n : Pick)

theorem State.rebased_eq_of_due (h : s.bit F.TIME_REBASE_AT_PENDING = true ∧ s.fld F.TIME_REBASE_AT_PICK ≤ n.toNat) :
    (s.rebased n).regs = ((s.setFld F.TIME_PICK_BASE_BASE (s.fld F.TIME_REBASE_BASE_BASE)).setFld F.TIME_REBASE_AT_PENDING 0).regs := by
  rw [State.rebased, if_pos (by simp [h])]

theorem State.tiles_rebased : (s.rebased n).tiles = s.tiles := by
  unfold State.rebased
  split <;> rfl

theorem State.clock_rebased : (s.rebased n).clock.ns = s.clock.ns ∧ (s.rebased n).clock.digests = s.clock.digests := by
  unfold State.rebased
  split <;> exact ⟨rfl, rfl⟩

theorem State.fld_rebased (h : s.bit F.TIME_REBASE_AT_PENDING = true ∧ s.fld F.TIME_REBASE_AT_PICK ≤ n.toNat) :
    (s.rebased n).fld F.TIME_PICK_BASE_BASE = s.fld F.TIME_REBASE_BASE_BASE ∧ (s.rebased n).bit F.TIME_REBASE_AT_PENDING = false := by
  have regs := s.rebased_eq_of_due n h
  have base := s.fld_setFld F.TIME_PICK_BASE_BASE (s.fld F.TIME_REBASE_BASE_BASE) (by decide) (by decide)
  have pending := (s.setFld F.TIME_PICK_BASE_BASE (s.fld F.TIME_REBASE_BASE_BASE)).fld_setFld F.TIME_REBASE_AT_PENDING 0 (by decide) (by decide)
  constructor
  · rw [State.fld, State.reg, regs]
    refine ((State.fld_setFld_other _ F.TIME_REBASE_AT_PENDING F.TIME_PICK_BASE_BASE 0 (by decide) (by decide) (by decide) (by decide)).trans base).trans ?_
    exact Nat.mod_eq_of_lt (bitsOf_lt _ _ _)
  · rw [State.bit, State.fld, State.reg, regs]
    exact congrArg (· != 0) pending

/-- What the state is when the tiles learn that pick n starts. -/
def State.pickOpened : State := (((s.rebased n).setFld F.TIME_PICK_PICK n.toNat).reapplyAt 0).openPick n

theorem State.startPick_foldl : s.startPick n = (s.pickOpened n).tileIds.foldl (State.startTile n) (s.pickOpened n) := rfl

theorem State.reapplied : Keeps State.lessInputs pickReg ((s.rebased n).setFld F.TIME_PICK_PICK n.toNat) (((s.rebased n).setFld F.TIME_PICK_PICK n.toNat).reapplyAt 0) :=
  State.reapplyAt_inputs _ 0

theorem State.tiles_pickOpened : (s.pickOpened n).tiles = s.tiles :=
  ((s.reapplied n).same State.tiles (fun _ => rfl)).trans (s.tiles_rebased n)

theorem State.clock_pickOpened :
    (s.pickOpened n).clock.ns = s.clock.ns ∧ (s.pickOpened n).clock.fired = [] ∧ (s.pickOpened n).clock.digests = s.clock.digests ++ [(n, [], [], false)] := by
  have clock := (s.reapplied n).same State.clock (fun _ => rfl)
  obtain ⟨ns, digests⟩ := s.clock_rebased n
  refine ⟨(congrArg Clock.ns clock).trans ns, rfl, ?_⟩
  exact congrArg (· ++ [(n, [], [], false)]) ((congrArg Clock.digests clock).trans digests)

theorem State.pick_pickOpened : (s.pickOpened n).pick = n := by
  have pick : (s.pickOpened n).fld F.TIME_PICK_PICK = n.toNat := by
    refine ((s.reapplied n).fld (f := F.TIME_PICK_PICK) (.inl (by unfold timeReg; decide))).trans ?_
    rw [State.fld_setFld _ _ _ (by decide) (by decide)]
    exact Nat.mod_eq_of_lt n.isLt
  rw [State.pick, pick, BitVec.ofNat_toNat, BitVec.setWidth_eq]

theorem State.fld_pickOpened {f : Fld} (h : timeReg f.off) (d : f.off ≠ F.TIME_PICK_PICK.off) : (s.pickOpened n).fld f = (s.rebased n).fld f := by
  refine ((s.reapplied n).fld (.inl h)).trans ?_
  rw [State.fld, State.reg_setFld_ne _ _ _ _ d, State.fld]

end

/-- What the start of pick n changes, as far as the statement about it asks. -/
structure PickStarted (n : Pick) (s t : State) : Prop where
  ns : t.clock.ns = s.clock.ns
  fired : t.clock.fired = []
  digests : t.clock.digests = s.clock.digests ++ [(n, [], [], false)]
  pick : t.pick = n
  seq : ∀ k : TileId, (Tab.find s.tiles k.toNat).isSome = true → t.fld (tfld k F.SOLVER_SEQ_SEQ) = 0
  waits : ∀ k : TileId, (s.tile k).waiting = some (.event 0 none) → (t.tile k).waiting = some (.released 0 n)
  shuttle : ∀ k : TileId, (t.tile k).pc = (s.tile k).pc ∧ (t.tile k).x = (s.tile k).x
  base : s.bit F.TIME_REBASE_AT_PENDING = true ∧ s.fld F.TIME_REBASE_AT_PICK ≤ n.toNat →
    t.fld F.TIME_PICK_BASE_BASE = s.fld F.TIME_REBASE_BASE_BASE ∧ t.bit F.TIME_REBASE_AT_PENDING = false

theorem State.pick_congr {s t : State} (h : t.fld F.TIME_PICK_PICK = s.fld F.TIME_PICK_PICK) : t.pick = s.pick := by rw [State.pick, State.pick, h]

theorem State.tile_congr {s t : State} (h : t.tiles = s.tiles) (k : TileId) : t.tile k = s.tile k := by rw [State.tile, State.tile, h]

theorem State.startPick_started (s : State) (n : Pick) : PickStarted n s (s.startPick n) := by
  rw [s.startPick_foldl]
  have frame : Keeps State.lessTiles timeReg (s.pickOpened n) ((s.pickOpened n).tileIds.foldl (State.startTile n) (s.pickOpened n)) :=
    .foldl (fun s t => State.startTile_tilesOnly t (not_timeReg_seq t) s n) _ _
  have clock := frame.same State.clock (fun _ => rfl)
  have tiles := s.tiles_pickOpened n
  have listed : ∀ {k : TileId}, (Tab.find s.tiles k.toNat).isSome = true → k ∈ (s.pickOpened n).tileIds := fun h => State.mem_tileIds (tiles ▸ h)
  obtain ⟨ns, fired, digests⟩ := s.clock_pickOpened n
  refine ⟨by rw [clock, ns], by rw [clock, fired], by rw [clock, digests], ?_, fun k hk => ?_, fun k hw => ?_, fun k => ?_, fun due => ?_⟩
  · exact (State.pick_congr (frame.fld (f := F.TIME_PICK_PICK) (by unfold timeReg; decide))).trans (s.pick_pickOpened n)
  · refine foldl_turns (R := fun _ => True) (Q := fun u => u.fld (tfld k F.SOLVER_SEQ_SEQ) = 0) (fun u x h => ?_) (fun _ _ _ _ => trivial)
      (fun u _ => ?_) _ _ (listed hk) trivial
    · rw [State.fld_startTile_seq, h, ite_self]
    · rw [State.fld_startTile_seq, if_pos rfl]
  · refine foldl_turns (R := fun u => (u.tile k).waiting = some (.event 0 none)) (Q := fun u => (u.tile k).waiting = some (.released 0 n))
      (fun u x h => ?_) (fun u x hx h => ?_) (fun u h => ?_) _ _ (listed (State.listed_of_waiting hw)) (by rw [State.tile_congr tiles, hw])
    · rw [State.waiting_startTile, h]
      exact ite_self _
    · rw [State.waiting_startTile, if_neg (Ne.symm hx), h]
    · rw [State.waiting_startTile, if_pos rfl, h]
      rfl
  · refine foldl_keeps (fun u => (u.tile k).pc = (s.tile k).pc ∧ (u.tile k).x = (s.tile k).x) _ (fun u x h => ?_) _ _ (by rw [State.tile_congr tiles]; exact ⟨rfl, rfl⟩)
    exact ⟨(State.tile_startTile_keeps (g := Tile.pc) (fun _ _ _ => rfl) (fun _ _ => rfl) u x k n).trans h.1,
      (State.tile_startTile_keeps (g := Tile.x) (fun _ _ _ => rfl) (fun _ _ => rfl) u x k n).trans h.2⟩
  · obtain ⟨base, pending⟩ := s.fld_rebased n due
    have time : ∀ f : Fld, timeReg f.off → f.off ≠ F.TIME_PICK_PICK.off → (s.pickOpened n).fld f = (s.rebased n).fld f := fun f => s.fld_pickOpened n
    refine ⟨(frame.fld (by unfold timeReg; decide)).trans ((time F.TIME_PICK_BASE_BASE (by unfold timeReg; decide) (by decide)).trans base), ?_⟩
    rw [State.bit, frame.fld (by unfold timeReg; decide), time F.TIME_REBASE_AT_PENDING (by unfold timeReg; decide) (by decide)]
    exact pending

end Sys2Proof.Machine
end

section
/-! Timetable and replay events (R53, R516, R605): what firing an event changes, and the statement about picks and events. -/

namespace Sys2Proof.Machine

/-! ### An event at the tiles -/

/-- Between s and t the clock, the pick and the input log are as before. -/
structure SameTimes (s t : State) : Prop where
  clock : t.clock = s.clock
  pick : t.fld F.TIME_PICK_PICK = s.fld F.TIME_PICK_PICK
  log : t.resil.log = s.resil.log

/-- What every shuttle waits for too. -/
structure SameWaits (s t : State) : Prop extends SameTimes s t where
  waits : ∀ k : TileId, (t.tile k).waiting = (s.tile k).waiting

theorem SameTimes.refl (s : State) : SameTimes s s := ⟨rfl, rfl, rfl⟩

theorem SameTimes.trans {s t u : State} (h : SameTimes s t) (k : SameTimes t u) : SameTimes s u :=
  ⟨k.clock.trans h.clock, k.pick.trans h.pick, k.log.trans h.log⟩

theorem SameWaits.refl (s : State) : SameWaits s s := ⟨.refl s, fun _ => rfl⟩

theorem SameWaits.trans {s t u : State} (h : SameWaits s t) (k : SameWaits t u) : SameWaits s u :=
  ⟨h.toSameTimes.trans k.toSameTimes, fun i => (k.waits i).trans (h.waits i)⟩

theorem State.modTile_sameTimes (s : State) (t : TileId) (f : Tile → Tile) : SameTimes s (s.modTile t f) := ⟨rfl, rfl, rfl⟩

theorem State.modTile_sameWaits (s : State) (t : TileId) {f : Tile → Tile} (h : ∀ x, (f x).waiting = x.waiting) : SameWaits s (s.modTile t f) :=
  ⟨s.modTile_sameTimes t f, State.tile_modTile_keeps Tile.waiting h s t⟩

theorem State.setFld_sameWaits (s : State) (f : Fld) (n : Nat) (h : f.lo ≤ f.hi) (h64 : f.hi < 64)
    (d : F.TIME_PICK_PICK.off ≠ f.off ∨ F.TIME_PICK_PICK.hi < f.lo ∨ f.hi < F.TIME_PICK_PICK.lo) : SameWaits s (s.setFld f n) :=
  ⟨⟨rfl, s.fld_setFld_other f _ n h h64 (by decide) d, rfl⟩, fun _ => rfl⟩

theorem State.count_sameWaits (s : State) (f : Fld) (n : Nat) (h : f.lo ≤ f.hi) (h64 : f.hi < 64)
    (d : F.TIME_PICK_PICK.off ≠ f.off ∨ F.TIME_PICK_PICK.hi < f.lo ∨ f.hi < F.TIME_PICK_PICK.lo) : SameWaits s (s.count f n) :=
  s.setFld_sameWaits f _ h h64 d

theorem State.raise_sameWaits (s : State) (src : Nat) (c : Status) (d : List Byte) : SameWaits s (s.raise src c d) := by
  have raised := s.raise_keeps src c d
  refine ⟨⟨raised.same State.clock (fun _ => rfl), raised.fld (f := F.TIME_PICK_PICK) (by decide), raised.same (fun s => s.resil.log) (fun _ => rfl)⟩, fun k => ?_⟩
  rw [State.tile_congr (raised.same State.tiles (fun _ => rfl))]

theorem State.costLate_sameWaits (s : State) (n : Nat) : SameWaits s (s.costLate n) := by
  unfold State.costLate
  split
  · exact .refl s
  · exact ⟨⟨rfl, rfl, rfl⟩, fun _ => rfl⟩

/-- A late event that the tile has reported. -/
def Tile.noteLate (p : Pick) (i : Nat) (x : Tile) : Tile := { x with lateSeen := (p, i) :: x.lateSeen }

theorem State.lateEvent_cases (s : State) (t : TileId) (p : Pick) (i : Nat) : s.lateEvent t p i = s ∨ ∃ n d,
    s.lateEvent t p i = (((s.costLate n).modTile t (Tile.noteLate p i)).raise (tileSrc t) 0x0701 d).count F.TIME_PICK_LATE 1 :=
  (ite_eq_or_eq _ _ _).imp id (fun h => ⟨_, _, h⟩)

theorem State.lateEvent_sameWaits (s : State) (t : TileId) (p : Pick) (i : Nat) : SameWaits s (s.lateEvent t p i) := by
  obtain h | ⟨n, d, h⟩ := s.lateEvent_cases t p i
  · rw [h]
    exact .refl s
  · rw [h]
    exact (s.costLate_sameWaits n).trans <| (State.modTile_sameWaits _ t (f := Tile.noteLate p i) (fun _ => rfl)).trans <| (State.raise_sameWaits _ _ _ _).trans <|
      State.count_sameWaits _ F.TIME_PICK_LATE _ (by decide) (by decide) (by decide)

/-- A bank of the tile that has closed. -/
def Tile.shutBank (p : Pick) (late : Bool) (x : Tile) : Tile :=
  { x with banks :=
      if x.banks.any (fun b => b.pick == p) then x.banks.map (fun b => if b.pick = p then { b with closed := true, late := late } else b)
      else x.banks ++ [⟨p, [], true, late⟩] }

/-- The tile's closed bank is late (R527). -/
def State.lateBank (s : State) (t : TileId) (p : Pick) : State :=
  (s.count ((F.DIGEST_STAT_LATE).plus (tileBase t)) 1).lateEvent t p (((s.flushEvent).map TtEntry.index).getD 0)

theorem State.closeBank_cases (s : State) (t : TileId) (p : Pick) (onTime : Bool) :
    let shut := s.modTile t (fun x => { x with shut := some p })
    s.closeBank t p onTime = s ∨ s.closeBank t p onTime = shut ∨ ∃ late,
      s.closeBank t p onTime = shut.modTile t (Tile.shutBank p late) ∨ s.closeBank t p onTime = (shut.modTile t (Tile.shutBank p late)).lateBank t p := by
  unfold State.closeBank
  by_cases h : (s.tile t).bankShut p = true
  · exact .inl (if_pos h)
  · rw [if_neg h]
    refine .inr ((ite_eq_or_eq _ _ _).symm.imp id (fun h => ⟨_, (ite_eq_or_eq _ _ _).symm.imp (Eq.trans h) (Eq.trans h)⟩))

theorem State.lateBank_sameWaits (s : State) (t : TileId) (p : Pick) : SameWaits s (s.lateBank t p) := by
  have far : F.TIME_PICK_PICK.off ≠ (F.DIGEST_STAT_LATE.plus (tileBase t)).off := by
    have := t.isLt
    simp only [F.TIME_PICK_PICK, F.DIGEST_STAT_LATE, Fld.plus, tileBase]
    omega
  exact (s.count_sameWaits _ _ (by simp [Fld.plus, F.DIGEST_STAT_LATE]) (by simp [Fld.plus, F.DIGEST_STAT_LATE]) (.inl far)).trans (State.lateEvent_sameWaits _ _ _ _)

theorem State.closeBank_sameWaits (s : State) (t : TileId) (p : Pick) (onTime : Bool) : SameWaits s (s.closeBank t p onTime) := by
  have shut := s.modTile_sameWaits t (f := fun x => { x with shut := some p }) (fun _ => rfl)
  have closed : ∀ late, SameWaits s ((s.modTile t (fun x => { x with shut := some p })).modTile t (Tile.shutBank p late)) :=
    fun late => shut.trans (State.modTile_sameWaits _ t (f := Tile.shutBank p _) (fun _ => rfl))
  obtain h | h | ⟨late, h | h⟩ := s.closeBank_cases t p onTime
  · rw [h]
    exact .refl s
  · exact h ▸ shut
  · exact h ▸ closed late
  · exact h ▸ (closed late).trans (State.lateBank_sameWaits _ t p)

theorem State.oweLate_sameWaits (s : State) (t : TileId) (i : Nat) (p : Pick) : SameWaits s (s.oweLate t i p) :=
  have frame := s.oweLate_tilesOnly (fun _ => True) t i p
  ⟨⟨frame.same State.clock (fun _ => rfl), frame.fld trivial, frame.same (fun s => s.resil.log) (fun _ => rfl)⟩,
    fun k => State.tile_oweLate_keeps (g := Tile.waiting) (fun _ _ _ => rfl) s t k i p⟩

/-- The wait of a tile's shuttle after event i of pick p. -/
def Tile.meetEvent (i : Nat) (p : Pick) (x : Tile) : Tile := { x with waiting := x.waiting.map (Wait.fire i p) }

/-- Event i of pick p at one tile reaches that tile's wait and nothing else of all that. -/
theorem State.fireTile_waits (s : State) (t : TileId) (i : Nat) (p : Pick) : SameWaits (s.modTile t (Tile.meetEvent i p)) (s.fireTile t i p) := by
  have owed := s.oweLate_sameWaits t i p
  have met : SameWaits (s.modTile t (Tile.meetEvent i p)) ((s.oweLate t i p).modTile t (Tile.meetEvent i p)) := by
    refine ⟨⟨owed.clock, owed.pick, owed.log⟩, fun k => ?_⟩
    rw [State.tile_modTile, State.tile_modTile]
    split
    · exact congrArg (Option.map (Wait.fire i p)) (owed.waits k)
    · exact owed.waits k
  refine met.trans ?_
  unfold State.fireTile
  simp only []
  split
  · exact State.closeBank_sameWaits _ t p true
  · exact .refl _

theorem State.fireTile_sameTimes (s : State) (t : TileId) (i : Nat) (p : Pick) : SameTimes s (s.fireTile t i p) :=
  (s.modTile_sameTimes t _).trans (s.fireTile_waits t i p).toSameTimes

theorem State.waiting_fireTile (s : State) (t k : TileId) (i : Nat) (p : Pick) :
    ((s.fireTile t i p).tile k).waiting = if k = t then (s.tile k).waiting.map (Wait.fire i p) else (s.tile k).waiting := by
  rw [(s.fireTile_waits t i p).waits, State.tile_modTile]
  split <;> rfl

/-! ### Firing an event that no mark acts in -/

/-- The state in which event i counts as fired. -/
def State.markFired (s : State) (i : Nat) : State := { s with clock := { s.clock with fired := i :: s.clock.fired } }

/-- The tiles' passing of an event leaves the pick whose event it is. -/
theorem foldl_fireTile (i : Nat) (l : List TileId) (u : State) :
    l.foldl (fun u t => u.fireTile t i u.pick) u = l.foldl (fun v t => v.fireTile t i u.pick) u := by
  suffices ∀ (v : State) (p : Pick), v.pick = p → l.foldl (fun u t => u.fireTile t i u.pick) v = l.foldl (fun v t => v.fireTile t i p) v from this u _ rfl
  induction l with
  | nil => exact fun _ _ _ => rfl
  | cons t l ih =>
    intro v p hv
    rw [List.foldl_cons, List.foldl_cons, hv]
    exact ih _ p ((State.pick_congr (v.fireTile_sameTimes t i p).pick).trans hv)

theorem State.fireEvent_eq {s : State} {i : Nat} (h : s.eventKind i ≠ 4) : s.fireEvent i =
    ((s.reapplyAt i).markFired i).tileIds.foldl (fun u t => u.fireTile t i ((s.reapplyAt i).markFired i).pick) ((s.reapplyAt i).markFired i) := by
  have clock : (s.reapplyAt i).clock = s.clock := (s.reapplyAt_inputs i).same State.clock (fun _ => rfl)
  have mark : (!(s.reapplyAt i).resil.markHeld && ((s.reapplyAt i).ttEntry i).any (fun e => (s.reapplyAt i).markActs e (s.reapplyAt i).pick)) = false := by
    rw [State.ttEntry, clock]
    unfold State.eventKind State.ttEntry at h
    cases e : s.clock.timetable.find? (fun e => e.index == i) with
    | none => exact Bool.and_false _
    | some e' =>
      have kind : (e'.kind == 4) = false := by
        rw [e] at h
        exact beq_false_of_ne h
      rw [Option.any_some, State.markActs, kind]
      simp
  have fires := foldl_fireTile i ((s.reapplyAt i).markFired i).tileIds ((s.reapplyAt i).markFired i)
  exact (if_neg (ne_true_of_eq_false mark)).trans fires

/-- What firing event i of the current pick changes. -/
structure EventFired (i : BitVec 7) (s t : State) : Prop where
  fired : t.clock.fired = i.toNat :: s.clock.fired
  ns : t.clock.ns = s.clock.ns
  pick : t.pick = s.pick
  log : t.resil.log = s.resil.log
  releases : ∀ k : TileId, (s.tile k).waiting = some (.event i (some s.pick)) → (t.tile k).waiting = some (.released i s.pick)
  keeps : ∀ (k : TileId) (j : BitVec 7) (p : Pick), j ≠ i ∨ p ≠ s.pick → (s.tile k).waiting = some (.event j (some p)) →
    (t.tile k).waiting = some (.event j (some p))

/-- A wait for another event or another pick stays. -/
theorem Wait.fire_other {i j : BitVec 7} {p q : Pick} (h : j ≠ i ∨ q ≠ p) : Wait.fire i.toNat p (.event j (some q)) = .event j (some q) :=
  if_neg (fun e => h.elim (fun f => f (BitVec.eq_of_toNat_eq e.1)) (fun f => f e.2))

theorem State.fireEvent_fired {s : State} {i : BitVec 7} (h : s.eventKind i.toNat ≠ 4) : EventFired i s (s.fireEvent i.toNat) := by
  have again := s.reapplyAt_inputs i.toNat
  have pick : ((s.reapplyAt i.toNat).markFired i.toNat).pick = s.pick := State.pick_congr (again.fld (f := F.TIME_PICK_PICK) (.inl (by unfold timeReg; decide)))
  have clock : (s.reapplyAt i.toNat).clock = s.clock := again.same State.clock (fun _ => rfl)
  have tiles : ((s.reapplyAt i.toNat).markFired i.toNat).tiles = s.tiles := again.same State.tiles (fun _ => rfl)
  rw [State.fireEvent_eq h, pick]
  obtain ⟨fc, fp, fl⟩ := foldl_keeps (SameTimes ((s.reapplyAt i.toNat).markFired i.toNat)) (fun u t => u.fireTile t i.toNat s.pick)
    (fun u t h => h.trans (u.fireTile_sameTimes t _ _)) ((s.reapplyAt i.toNat).markFired i.toNat).tileIds _ (.refl _)
  refine ⟨?_, ?_, ?_, ?_, fun k hk => ?_, fun k j p hj hk => ?_⟩
  · rw [fc]
    exact congrArg (i.toNat :: ·.fired) clock
  · rw [fc]
    exact (congrArg Clock.ns clock :)
  · exact (State.pick_congr fp).trans pick
  · exact fl.trans (again.same (fun s => s.resil.log) (fun _ => rfl))
  · refine foldl_turns (R := fun u => (u.tile k).waiting = some (.event i (some s.pick))) (Q := fun u => (u.tile k).waiting = some (.released i s.pick))
      (fun u x e => ?_) (fun u x hx e => ?_) (fun u e => ?_) _ _ (State.mem_tileIds (tiles ▸ State.listed_of_waiting hk)) (by rw [State.tile_congr tiles, hk])
    · rw [State.waiting_fireTile, e]
      exact ite_self _
    · rw [State.waiting_fireTile, if_neg (Ne.symm hx), e]
    · rw [State.waiting_fireTile, if_pos rfl, e]
      exact congrArg some (if_pos ⟨rfl, rfl⟩)
  · refine foldl_keeps (fun u => (u.tile k).waiting = some (.event j (some p))) _ (fun u x e => ?_) _ _ (by rw [State.tile_congr tiles, hk])
    rw [State.waiting_fireTile, e, Option.map_some, Wait.fire_other hj, ite_self]

/-! ### The statement -/

theorem LogEntry.isInput_iff {p : Pick} {i : Nat} {e : LogEntry} :
    e.isInput p i = true ↔ e.pick = p ∧ e.pos = i ∧ (e.type = Lt.write ∨ e.type = Lt.arrive ∨ e.type = Lt.external) := by
  simp [LogEntry.isInput, and_assoc, or_assoc]

section
variable {s : State} {now : BitVec 64} {d : Draft}

/-- May the next pick start but for its time? -/
def State.pickOver (s : State) : Bool := s.pick == noPick || s.clock.rebaseForced || s.clock.timetable.all (fun e => s.clock.fired.contains e.index)

theorem State.pickOver_iff : s.pickOver = true ↔ s.pick = noPick ∨ s.clock.rebaseForced = true ∨ ∀ e ∈ s.clock.timetable, e.index ∈ s.clock.fired := by
  simp [State.pickOver, or_assoc]

/-- PICK_START of a job with a draft. -/
theorem exec_pickStart (hd : s.draft = some d) (hr : s.picksRun = true) (hn : s.nextPick ≠ noPick) (he : s.pickOver = true) :
    exec (.pickStart now) s = .next (if s.pickStartNs s.nextPick.toNat ≤ max s.clock.ns.toNat now.toNat then
      ((s.at_ now).startPick s.nextPick).pickResil d s.nextPick else s.at_ now) := by
  have guard : ((s.at_ now).picksRun && (s.at_ now).nextPick != noPick && (s.at_ now).pickOver) = true := by
    rw [Bool.and_eq_true, Bool.and_eq_true]
    exact ⟨⟨hr, bne_iff_ne.2 hn⟩, he⟩
  show execPickStart now s = _
  simp only [execPickStart, show (s.at_ now).draft = some d from hd]
  refine congrArg Host.Outcome.next (if_congr ?_ rfl rfl)
  rw [Bool.and_eq_true, decide_eq_true_iff, s.ns_at]
  exact and_iff_right guard

/-- A pick that has started stands, whatever resilience does then. -/
theorem PickStarted.pickResil {n : Pick} {t : State} (h : PickStarted n s t) (d : Draft) : PickStarted n s (t.pickResil d n) := by
  have frame := t.pickResil_commit d n
  have tile := State.tile_congr (frame.same State.tiles (fun _ => rfl))
  have time : ∀ {f : Fld}, timeReg f.off → (t.pickResil d n).fld f = t.fld f := fun hf => frame.fld (.inl hf)
  refine ⟨?_, ?_, ?_, ?_, fun k hk => ?_, fun k hk => ?_, fun k => ?_, fun due => ?_⟩
  · exact (frame.same (fun s => s.clock.ns) (fun _ => rfl)).trans h.ns
  · exact (frame.same (fun s => s.clock.fired) (fun _ => rfl)).trans h.fired
  · exact (frame.same (fun s => s.clock.digests) (fun _ => rfl)).trans h.digests
  · exact (State.pick_congr (time (f := F.TIME_PICK_PICK) (by unfold timeReg; decide))).trans h.pick
  · refine (frame.fld (.inr ?_)).trans (h.seq k hk)
    have := k.isLt
    simp only [tfld, Fld.plus, tileBase, F.SOLVER_SEQ_SEQ]
    omega
  · exact (congrArg Tile.waiting (tile k)).trans (h.waits k hk)
  · rw [tile k]
    exact h.shuttle k
  · rw [time (f := F.TIME_PICK_BASE_BASE) (by unfold timeReg; decide), State.bit, time (f := F.TIME_REBASE_AT_PENDING) (by unfold timeReg; decide)]
    exact h.base due

/-- TIMETABLE_EVENT_FIRE of a due event. -/
theorem exec_timetableEventFire {i : BitVec 7} (hr : s.picksRun = true) (he : s.eventDue i.toNat = true) :
    exec (.timetableEventFire i now) s = .next (if s.eventNs s.pick i.toNat ≤ max s.clock.ns.toNat now.toNat then (s.at_ now).fireEvent i.toNat else s.at_ now) := by
  have guard : ((s.at_ now).picksRun && (s.at_ now).eventDue i.toNat) = true := Bool.and_eq_true _ _ ▸ ⟨hr, he⟩
  show execTimetableEventFire i now s = _
  unfold execTimetableEventFire
  refine congrArg Host.Outcome.next (if_congr ?_ rfl rfl)
  rw [Bool.and_eq_true, decide_eq_true_iff, s.ns_at]
  exact and_iff_right guard

/-- Does every shuttle stand at event i, or at a later one? -/
def State.still (s : State) (i : Nat) : Bool :=
  s.tileIds.all (fun t => !(s.tile t).program || !s.shuttleRuns t ||
    (match (s.tile t).waiting with | some w => s.waitsFor i s.pick w | none => false))

theorem State.still_of_waits {i : BitVec 7}
    (h : ∀ k : TileId, (s.tile k).program = false ∨ s.shuttleRuns k = false ∨ (s.tile k).waiting = some (.event i (some s.pick))) : s.still i.toNat = true := by
  refine List.all_eq_true.2 (fun k _ => ?_)
  obtain h | h | h := h k
  · simp [h]
  · simp [h]
  · simp [h, State.waitsFor, State.atOrAfter]

/-- REPLAY_EVENT_FIRE of an event that all shuttles wait for. -/
theorem exec_replayEventFire {i : BitVec 7} (hi : i ≠ 0) (hd : s.draft.isSome = true) (hr : s.replaying = true) (he : s.eventDue i.toNat = true)
    (hs : s.still i.toNat = true) : exec (.replayEventFire i) s = .next ((s.replayInputs s.pick i.toNat).fireEvent i.toNat) := by
  have h0 : i.toNat ≠ 0 := fun e => hi (BitVec.eq_of_toNat_eq e)
  obtain ⟨d, hd⟩ := Option.isSome_iff_exists.1 hd
  show execReplayEventFire i s = _
  unfold execReplayEventFire
  simp only [if_neg h0, hd]
  have stands : (!s.replaying || !s.still i.toNat || !s.eventDue i.toNat) = false := by rw [hr, hs, he]; rfl
  refine congrArg Host.Outcome.next ((if_neg (ne_true_of_eq_false stands)).trans ((if_neg (fun h => h0 h.1)).trans rfl))

/-- PICK_START once the time of the next pick has come. -/
theorem pickStart_starts (hd : s.draft = some d) (hr : s.picksRun = true) (hn : s.nextPick ≠ noPick) (he : s.pickOver = true)
    (ht : s.pickStartNs s.nextPick.toNat ≤ max s.clock.ns.toNat now.toNat) :
    ∃ t, exec (.pickStart now) s = .next t ∧ PickStarted s.nextPick (s.at_ now) t :=
  ⟨_, (exec_pickStart hd hr hn he).trans (congrArg _ (if_pos ht)), ((s.at_ now).startPick_started s.nextPick).pickResil d⟩

/-- Firing an event in replay: the logged inputs of its position first, which leave the log. -/
theorem replayed_fired {i : BitVec 7} (hk : s.eventKind i.toNat ≠ 4) :
    EventFired i (s.takeInputs s.pick i.toNat) ((s.replayInputs s.pick i.toNat).fireEvent i.toNat) := by
  have inputs := s.replayInputs_inputs s.pick i.toNat
  have clock : (s.replayInputs s.pick i.toNat).clock = s.clock := inputs.same State.clock (fun _ => rfl)
  have pick : (s.replayInputs s.pick i.toNat).pick = s.pick := State.pick_congr (inputs.fld (by unfold timeReg; decide))
  have tile := State.tile_congr (inputs.same State.tiles (fun _ => rfl))
  have kind : (s.replayInputs s.pick i.toNat).eventKind i.toNat = s.eventKind i.toNat := by
    rw [State.eventKind, State.ttEntry, clock, State.eventKind, State.ttEntry]
  have f := State.fireEvent_fired (s := s.replayInputs s.pick i.toNat) (i := i) (kind ▸ hk)
  refine ⟨?_, ?_, ?_, ?_, fun k hw => ?_, fun k j p hj hw => ?_⟩
  · exact f.fired.trans (congrArg (fun c : Clock => i.toNat :: c.fired) clock)
  · exact f.ns.trans (congrArg Clock.ns clock)
  · exact f.pick.trans pick
  · exact f.log.trans (inputs.same (fun s => s.resil.log) (fun _ => rfl))
  · refine (f.releases k ?_).trans (congrArg (fun p => some (Wait.released i p)) pick)
    rw [tile, pick, hw]
    rfl
  · refine f.keeps k j p (hj.imp id (fun h e => h (e.trans pick))) ?_
    rw [tile, hw]

end

/-- Settles O37: a pick start and an event reach the tiles one by one, each of them the wait of its own tile only. -/
theorem picksStartAndEventsFire : Obligations.PicksStartAndEventsFire := by
  intro now s
  refine ⟨fun hd hr hn he => ?_, fun i hk hi he => ⟨fun hr ht => ?_, fun hr ht => ?_, fun hr hd hw => ?_⟩⟩
  · obtain ⟨d, hd⟩ := Option.isSome_iff_exists.1 hd
    refine ⟨fun ht => ?_, fun ht => ?_⟩
    · obtain ⟨t, ht, h⟩ := pickStart_starts hd hr hn (State.pickOver_iff.2 he) ht
      exact ⟨t, ht, (congrArg BitVec.toNat h.ns).trans (s.ns_at now), h.pick, h.fired, h.digests, h.seq, h.waits, h.shuttle, h.base⟩
    · rw [exec_pickStart hd hr hn (State.pickOver_iff.2 he), if_neg (by omega)]
  · have f := State.fireEvent_fired (s := s.at_ now) (i := i) hk
    exact ⟨_, (exec_timetableEventFire hr he).trans (congrArg _ (if_pos ht)), ⟨f.fired, f.pick, f.releases, f.keeps⟩,
      (congrArg BitVec.toNat f.ns).trans (s.ns_at now)⟩
  · rw [exec_timetableEventFire hr he, if_neg (by omega)]
  · have f := replayed_fired hk
    refine ⟨_, exec_replayEventFire hi hd hr he (State.still_of_waits hw), ⟨f.fired, f.pick, f.releases, f.keeps⟩, fun e he => ?_⟩
    rw [f.log] at he
    exact fun h => absurd (LogEntry.isInput_iff.2 h) (by simpa using (List.mem_filter.1 he).2)

end Sys2Proof.Machine
end

section
/-! Flits at a port (R403 to R410): what an intact, a damaged and an out-of-order flit leave of the port, and what no flit changes. -/

namespace Sys2Proof.Machine

/-! ### The rest of a port's receive side -/

/-- Between x and y a port's receive side is as before. -/
structure SameIntake (x y : Port) : Prop where
  rxSeq : y.rxSeq = x.rxSeq
  rxMsgs : y.rxMsgs = x.rxMsgs
  rxSlots : y.rxSlots = x.rxSlots
  fails : y.fails = x.fails
  nak : y.nak = x.nak
  retrains : y.retrains = x.retrains

namespace SameIntake
variable {x y z : Port}

theorem refl (x : Port) : SameIntake x x := ⟨rfl, rfl, rfl, rfl, rfl, rfl⟩

theorem trans (h : SameIntake x y) (k : SameIntake y z) : SameIntake x z :=
  ⟨k.rxSeq.trans h.rxSeq, k.rxMsgs.trans h.rxMsgs, k.rxSlots.trans h.rxSlots, k.fails.trans h.fails, k.nak.trans h.nak, k.retrains.trans h.retrains⟩

end SameIntake

/-- A port that has cut one DATA flit from its waiting slots. -/
def Port.cutOne (x : Port) : Port :=
  { x with backlog := x.backlog.drop 240, txSeq := x.txSeq + 1, unacked := x.unacked ++ [(x.txSeq, x.backlog.take 240)],
           tx := x.tx ++ [dataFlit x x.txSeq (x.backlog.take 240)] }

theorem Port.cutOne_sameIntake (x : Port) : SameIntake x x.cutOne := ⟨rfl, rfl, rfl, rfl, rfl, rfl⟩

/-- A port whose waiting slots are these. -/
def Port.withBacklog (x : Port) (b : List Byte) : Port := { x with backlog := b }

theorem Port.withBacklog_sameIntake (x : Port) (b : List Byte) : SameIntake x (x.withBacklog b) := ⟨rfl, rfl, rfl, rfl, rfl, rfl⟩

theorem Port.pump_sameIntake (cap n : Nat) (x : Port) : SameIntake x (x.pump cap n) := by
  induction n generalizing x with
  | zero => exact .refl x
  | succ n ih =>
    unfold Port.pump
    split
    · exact .refl x
    · exact x.cutOne_sameIntake.trans (ih _)

theorem Port.acked_sameIntake (x : Port) (n : BitVec 16) : SameIntake x (x.acked n) := by
  unfold Port.acked
  split
  · exact .refl x
  · exact ⟨rfl, rfl, rfl, rfl, rfl, rfl⟩

theorem Port.resend_sameIntake (x : Port) : SameIntake x x.resend := by
  unfold Port.resend
  split
  · exact .refl x
  · exact ⟨rfl, rfl, rfl, rfl, rfl, rfl⟩

theorem Port.put_sameIntake (x : Port) (cap : Nat) (d : List Byte) : SameIntake x (x.put cap d) :=
  (x.withBacklog_sameIntake _).trans (Port.pump_sameIntake _ _ _)

/-! ### What a port's business leaves of the node -/

/-- The state without its ports, and without its registers. -/
def State.lessPorts (s : State) : State := { s with ports := [], regs := [] }

/-- The registers but that of a port's errors. -/
def notErrors (p : PortId) (o : Nat) : Prop := o ≠ (pfld p F.FAB_PORT_ERR_RETRIES).off

/-- Between s and t only port p and the register of its errors have changed. -/
structure PortOnly (p : PortId) (s t : State) : Prop extends Keeps State.lessPorts (notErrors p) s t where
  others : otherPorts p s t

namespace PortOnly
variable {p : PortId} {s t u : State}

theorem refl (s : State) : PortOnly p s s := ⟨.refl s, fun _ _ => rfl⟩

theorem trans (h : PortOnly p s t) (k : PortOnly p t u) : PortOnly p s u :=
  ⟨h.toKeeps.trans k.toKeeps, fun j hj => (k.others j hj).trans (h.others j hj)⟩

theorem frame (h : PortOnly p s t) : { t with ports := s.ports, regs := s.regs } = s := congrArg (fun u : State => { u with ports := s.ports, regs := s.regs }) h.rest

theorem malformed (h : PortOnly p s t) (m : Msg) : t.malformed m = s.malformed m := h.same (fun s => s.malformed m) (fun _ => rfl)

theorem fence (h : PortOnly p s t) : t.resil.fence = s.resil.fence := h.same (fun s => s.resil.fence) (fun _ => rfl)

theorem off_ne_node (p : PortId) : notErrors p F.FAB_NODE_ID_NODE.off := by
  simp only [notErrors, pfld, Fld.plus, F.FAB_NODE_ID_NODE, F.FAB_PORT_ERR_RETRIES]
  omega

theorem nodeValid (h : PortOnly p s t) : t.nodeValid = s.nodeValid := by rw [State.nodeValid, State.nodeValid, h.bit (f := F.FAB_NODE_ID_VALID) (off_ne_node p)]

theorem nodeId (h : PortOnly p s t) : t.nodeId = s.nodeId := by rw [State.nodeId, State.nodeId, h.fld (off_ne_node p)]

end PortOnly

theorem State.modPort_portOnly (s : State) (p : PortId) (f : Port → Port) : PortOnly p s (s.modPort p f) :=
  ⟨.of_rest rfl rfl, fun q h => s.port_modPort_other p q f h⟩

theorem State.countRetry_portOnly (s : State) (p : PortId) (n : Nat) : PortOnly p s (s.count (pfld p F.FAB_PORT_ERR_RETRIES) n) :=
  ⟨.setFld s _ (fun h => h rfl) (fun _ => rfl), fun _ _ => rfl⟩

theorem State.resendPort_portOnly (s : State) (p : PortId) : PortOnly p s (s.resendPort p) := by
  unfold State.resendPort
  split
  · exact .refl s
  · exact (s.modPort_portOnly p _).trans (State.countRetry_portOnly _ p 1)

/-! ### Header and data -/

/-- The port after a header's acknowledgement and credits. -/
def Port.takeAck (h : LinkHdr) (x : Port) : Port :=
  { x.acked h.ack with credits := Tab.set h.credit (Tab.get (fun _ => 0) x.credits h.credit + h.count) x.credits }

theorem Port.takeAck_sameIntake (h : LinkHdr) (x : Port) : SameIntake x (x.takeAck h) := .trans (x.acked_sameIntake h.ack) ⟨rfl, rfl, rfl, rfl, rfl, rfl⟩

theorem State.resendPort_sameIntake (s : State) (p : PortId) : SameIntake (s.port p) ((s.resendPort p).port p) := by
  unfold State.resendPort
  split
  · exact .refl _
  · rw [State.count, State.port_setFld_keeps, State.port_modPort_same]
    exact Port.resend_sameIntake _

/-- The state after a header's acknowledgement, before waiting slots take the freed space. -/
def State.takeAck (s : State) (p : PortId) (h : LinkHdr) : State := if h.nak then (s.modPort p (Port.takeAck h)).resendPort p else s.modPort p (Port.takeAck h)

theorem State.takeHeader_eq (s : State) (p : PortId) (h : LinkHdr) :
    s.takeHeader p h = (s.takeAck p h).modPort p (fun x => x.pump (retryFlits p) x.backlog.length) := rfl

theorem State.takeHeader_portOnly (s : State) (p : PortId) (h : LinkHdr) : PortOnly p s (s.takeHeader p h) := by
  rw [s.takeHeader_eq]
  refine .trans ?_ (State.modPort_portOnly _ p _)
  unfold State.takeAck
  split
  · exact (s.modPort_portOnly p _).trans (State.resendPort_portOnly _ p)
  · exact s.modPort_portOnly p _

theorem State.takeHeader_sameIntake (s : State) (p : PortId) (h : LinkHdr) : SameIntake (s.port p) ((s.takeHeader p h).port p) := by
  rw [s.takeHeader_eq, State.port_modPort_same]
  refine .trans ?_ (Port.pump_sameIntake _ _ _)
  have heard : SameIntake (s.port p) ((s.modPort p (Port.takeAck h)).port p) := by
    rw [State.port_modPort_same]
    exact Port.takeAck_sameIntake h _
  unfold State.takeAck
  split
  · exact heard.trans (State.resendPort_sameIntake _ p)
  · exact heard

/-- A message that the port delivers joins those that it has delivered. -/
theorem State.delivered_held {s : State} {p : PortId} {m : Msg} (hf : s.resil.fence.contains m.src = false) (hm : s.malformed m = false)
    (hh : heldOpc m.opc.toNat = true) (hl : m.loc = true ∨ s.nodeValid = false ∨ m.dst = s.nodeId) :
    s.delivered p m = s.modPort p (fun x => { x with rxMsgs := x.rxMsgs ++ [m] }) := by
  have mine : ¬((!m.loc && s.nodeValid && m.dst != s.nodeId) = true) := by
    obtain h | h | h := hl <;> simp [h]
  rw [State.delivered, if_neg (by rw [hf]; decide), if_neg (by rw [hm]; decide), if_neg mine, if_pos hh]

/-- Does the port keep a message for its unit? -/
def State.keepsMsg (s : State) (m : Msg) : Prop :=
  s.resil.fence.contains m.src = false ∧ s.malformed m = false ∧ heldOpc m.opc.toNat = true ∧ (m.loc = true ∨ s.nodeValid = false ∨ m.dst = s.nodeId)

theorem PortOnly.keepsMsg {p : PortId} {s t : State} (h : PortOnly p s t) {m : Msg} (k : s.keepsMsg m) : t.keepsMsg m := by
  rw [State.keepsMsg, h.fence, h.malformed, h.nodeValid, h.nodeId]
  exact k

/-- A port with messages delivered. -/
def Port.withMsgs (l : List Msg) (x : Port) : Port := { x with rxMsgs := x.rxMsgs ++ l }

/-- Messages that the port keeps join those that it has delivered, in order, and change nothing else. -/
theorem foldl_delivered {p : PortId} (l : List Msg) {s : State} (h : ∀ m ∈ l, s.keepsMsg m) :
    PortOnly p s (l.foldl (fun s m => s.delivered p m) s) ∧ (l.foldl (fun s m => s.delivered p m) s).port p = (s.port p).withMsgs l := by
  induction l generalizing s with
  | nil => exact ⟨.refl s, congrArg (fun l => { s.port p with rxMsgs := l }) (List.append_nil _).symm⟩
  | cons m l ih =>
    obtain ⟨hf, hm, hh, hl⟩ := h m List.mem_cons_self
    have kept := s.modPort_portOnly p (Port.withMsgs [m])
    rw [List.foldl_cons, show s.delivered p m = s.modPort p (Port.withMsgs [m]) from State.delivered_held hf hm hh hl]
    obtain ⟨only, port⟩ := ih (fun n hn => kept.keepsMsg (h n (List.mem_cons_of_mem m hn)))
    refine ⟨kept.trans only, port.trans ?_⟩
    rw [State.port_modPort_same]
    exact congrArg (fun l => { s.port p with rxMsgs := l }) (List.append_assoc _ _ _)

/-- The port as it takes a DATA flit in order, before its messages are delivered. -/
def Port.inOrder (x : Port) (h : LinkHdr) (rest : List Byte) : Port := { x with rxSeq := h.seq, nak := false, fails := 0, rxSlots := rest }

/-- A DATA flit in order whose messages the port keeps. -/
theorem State.takeData_kept {s : State} {p : PortId} {h : LinkHdr} {d : List Byte}
    (hk : ∀ m ∈ (parseSlots ((s.port p).rxSlots ++ d).length ((s.port p).rxSlots ++ d)).1, s.keepsMsg m) :
    let r := parseSlots ((s.port p).rxSlots ++ d).length ((s.port p).rxSlots ++ d)
    PortOnly p s (s.takeData p h d) ∧ (s.takeData p h d).port p = (((s.port p).inOrder h r.2).idle).withMsgs r.1 := by
  rw [List.length_append] at hk ⊢
  have acked := s.modPort_portOnly p (fun x => (x.inOrder h (parseSlots ((s.port p).rxSlots.length + d.length) ((s.port p).rxSlots ++ d)).2).idle)
  obtain ⟨only, port⟩ := foldl_delivered _ (fun m hm => acked.keepsMsg (hk m hm))
  exact ⟨acked.trans only, port.trans (congrArg (Port.withMsgs _) (State.port_modPort_same _ _ _))⟩

/-! ### The flit that arrives -/

section
variable {s : State} {p : PortId} {flit : List Byte}

theorem exec_flitReceive_down (hl : flit.length = 256) (hu : s.portUp p = false) : exec (.flitReceive p flit) s = .next s := by
  show execFlitReceive p flit s = _
  rw [execFlitReceive, if_neg (not_not_intro hl), hu]
  rfl

theorem exec_flitReceive_damaged (hl : flit.length = 256) (hu : s.portUp p = true) (hc : crcOk flit = false) :
    exec (.flitReceive p flit) s = .next (s.modPort p (fun x => x.refuse true)) := by
  show execFlitReceive p flit s = _
  rw [execFlitReceive, if_neg (not_not_intro hl), hu, hc]
  rfl

/-- An intact DATA flit. -/
theorem exec_flitReceive_data (hl : flit.length = 256) (hu : s.portUp p = true) (hc : crcOk flit = true) (ht : (linkHdr flit).type = 1) :
    exec (.flitReceive p flit) s = .next (if (linkHdr flit).seq = (s.port p).rxSeq + 1 then
      (s.takeHeader p (linkHdr flit)).takeData p (linkHdr flit) ((flit.drop 8).take 240)
      else (s.takeHeader p (linkHdr flit)).modPort p (fun x => x.refuse false)) := by
  show execFlitReceive p flit s = _
  rw [execFlitReceive, if_neg (not_not_intro hl), hu, hc]
  simp only [ht, (s.takeHeader_sameIntake p (linkHdr flit)).rxSeq]
  rfl

end

/-- What a refused flit leaves. -/
theorem State.refused {s t : State} {p : PortId} (only : PortOnly p s t) (same : SameIntake (s.port p) (t.port p)) (damaged : Bool) :
    let u := t.modPort p (fun x => x.refuse damaged)
    (u.port p).nak = true ∧ (u.port p).rxSeq = (s.port p).rxSeq ∧ (u.port p).rxMsgs = (s.port p).rxMsgs ∧ (u.port p).rxSlots = (s.port p).rxSlots ∧
      (∃ y, (u.port p).tx.getLast? = some (idleFlit y) ∧ y.nak = true) ∧ otherPorts p s u ∧ { u with ports := s.ports, regs := s.regs } = s := by
  have all := only.trans (t.modPort_portOnly p (fun x => x.refuse damaged))
  simp only [State.port_modPort_same]
  exact ⟨rfl, same.rxSeq, same.rxMsgs, same.rxSlots, ⟨_, List.getLast?_concat, rfl⟩, all.others, all.frame⟩

/-- The flits at a port (R403 to R410). -/
theorem flitReceive_result (p : PortId) (flit : List Byte) (s : State) (hl : flit.length = 256) :
    let x := s.port p
    let h := linkHdr flit
    let refused := fun (t : State) => exec (.flitReceive p flit) s = .next t ∧ (t.port p).nak = true ∧ (t.port p).rxSeq = x.rxSeq ∧
      (t.port p).rxMsgs = x.rxMsgs ∧ (t.port p).rxSlots = x.rxSlots ∧ (∃ y, (t.port p).tx.getLast? = some (idleFlit y) ∧ y.nak = true) ∧
      otherPorts p s t ∧ { t with ports := s.ports, regs := s.regs } = s
    (s.portUp p = false → exec (.flitReceive p flit) s = .next s) ∧
      (s.portUp p = true →
        (crcOk flit = false → ∃ t, refused t ∧ (t.port p).fails = x.fails + 1 ∧ t.regs = s.regs) ∧
        (crcOk flit = true → h.type = 1 → h.seq ≠ x.rxSeq + 1 → ∃ t, refused t) ∧
        (crcOk flit = true → h.type = 1 → h.seq = x.rxSeq + 1 →
          let d := x.rxSlots ++ (flit.drop 8).take 240
          let r := parseSlots d.length d
          (∀ m ∈ r.1, s.keepsMsg m) →
          ∃ t, exec (.flitReceive p flit) s = .next t ∧ (t.port p).rxSeq = h.seq ∧ (t.port p).nak = false ∧ (t.port p).fails = 0 ∧
            (t.port p).rxMsgs = x.rxMsgs ++ r.1 ∧ (t.port p).rxSlots = r.2 ∧
            (∃ y, (t.port p).tx.getLast? = some (idleFlit y) ∧ y.nak = false ∧ y.rxSeq = h.seq) ∧
            otherPorts p s t ∧ { t with ports := s.ports, regs := s.regs } = s)) := by
  have header := s.takeHeader_portOnly p (linkHdr flit)
  have same := s.takeHeader_sameIntake p (linkHdr flit)
  refine ⟨exec_flitReceive_down hl, fun hu => ⟨fun hc => ?_, fun hc ht hs => ?_, fun hc ht hs hk => ?_⟩⟩
  · refine ⟨_, ⟨exec_flitReceive_damaged hl hu hc, State.refused (.refl s) (.refl _) true⟩, ?_, rfl⟩
    rw [State.port_modPort_same]
    rfl
  · exact ⟨_, (exec_flitReceive_data hl hu hc ht).trans (congrArg _ (if_neg hs)), State.refused header same false⟩
  · have keeps := State.takeData_kept (s := s.takeHeader p (linkHdr flit)) (p := p) (h := linkHdr flit) (d := (flit.drop 8).take 240)
    rw [same.rxSlots] at keeps
    obtain ⟨only, port⟩ := keeps (fun m hm => header.keepsMsg (hk m hm))
    have all := header.trans only
    refine ⟨_, (exec_flitReceive_data hl hu hc ht).trans (congrArg _ (if_pos hs)), ?_⟩
    rw [port]
    exact ⟨rfl, rfl, rfl, congrArg (· ++ _) same.rxMsgs, rfl, ⟨_, List.getLast?_concat, rfl, rfl⟩, all.others, all.frame⟩

/-! ### Resending -/

/-- ACK_TIMEOUT_RESEND with flits to acknowledge (R406). -/
theorem ackTimeoutResend (p : PortId) (s : State) (hu : s.portUp p = true) (hn : (s.port p).unacked ≠ []) :
    ∃ t, exec (.ackTimeoutResend p) s = .next t ∧ (t.port p).tx = (s.port p).tx ++ (s.port p).unacked.map (fun e => dataFlit (s.port p) e.1 e.2) ∧
      (t.port p).unacked = (s.port p).unacked ∧ otherPorts p s t ∧ otherRegs [R.FAB_PORT_ERR + dieBase (p.val / 10) + 8 * (p.val % 10)] s t ∧
      t.fld (pfld p F.FAB_PORT_ERR_RETRIES) = min (s.fld (pfld p F.FAB_PORT_ERR_RETRIES) + 1)
        (2 ^ (F.FAB_PORT_ERR_RETRIES.hi - F.FAB_PORT_ERR_RETRIES.lo + 1) - 1) := by
  have some_ : (s.port p).unacked.isEmpty ≠ true := by simpa using hn
  have off : (pfld p F.FAB_PORT_ERR_RETRIES).off = R.FAB_PORT_ERR + dieBase (p.val / 10) + 8 * (p.val % 10) := by
    rw [Nat.add_assoc]
    rfl
  have port : ((s.resendPort p).port p) = { s.port p with
      tx := (s.port p).tx ++ (s.port p).unacked.map (fun e => dataFlit (s.port p) e.1 e.2), txFails := (s.port p).txFails + 1 } := by
    rw [State.resendPort, if_neg some_, State.count, State.port_setFld_keeps, State.port_modPort_same, Port.resend, if_neg some_]
  have only := s.resendPort_portOnly p
  refine ⟨s.resendPort p, congrArg Host.Outcome.next (if_pos hu), by rw [port], by rw [port], only.others, fun o ho => ?_, ?_⟩
  · exact only.regs o (fun e => ho (List.mem_singleton.2 (e.trans off)))
  · rw [State.resendPort, if_neg some_]
    exact State.fld_count _ _ 1 (by simp [pfld, Fld.plus, F.FAB_PORT_ERR_RETRIES]) (by simp [pfld, Fld.plus, F.FAB_PORT_ERR_RETRIES])

end Sys2Proof.Machine
end

section
/-! Readiness bits, the fields of a port's registers, and the die-to-die links (R37, R38, Table 16-7). -/

namespace Sys2Proof.Machine

/-! ### Readiness bits -/

/-- The field that holds a readiness bit. -/
def readyFld (i : Nat) : Fld := ⟨R.GLB_FUNC_READY + 8 * (i / 64), i % 64, i % 64⟩

theorem State.ready_eq_bit (s : State) (i : Nat) : s.ready i = s.bit (readyFld i) := by
  have bit : s.bit (readyFld i) = ((s.reg (R.GLB_FUNC_READY + 8 * (i / 64))).toNat / 2 ^ (i % 64) % 2 ^ (i % 64 - i % 64 + 1) != 0) := rfl
  rw [bit, State.ready, bitN, Nat.sub_self, Nat.zero_add, Nat.pow_one]
  obtain h | h := Nat.mod_two_eq_zero_or_one ((s.reg (R.GLB_FUNC_READY + 8 * (i / 64))).toNat / 2 ^ (i % 64))
  · rw [h]; rfl
  · rw [h]; rfl

theorem State.bit_setFld {f : Fld} (s : State) (b : Bool) (h : f.lo = f.hi) (h64 : f.hi < 64) : (s.setFld f (natOf b)).bit f = b := by
  rw [State.bit, s.fld_setFld _ _ h.le h64, h, Nat.sub_self]
  cases b <;> rfl

section
variable (s : State) (b : Bool)

theorem State.ready_putReady (i j : Nat) : (s.putReady j b).ready i = if i = j then b else s.ready i := by
  rw [State.ready_eq_bit, s.ready_eq_bit]
  split
  case isTrue h =>
    rw [h]
    exact s.bit_setFld (f := readyFld j) b rfl (Nat.mod_lt _ (by decide))
  case isFalse h =>
    rw [State.bit, State.bit]
    refine congrArg (· != 0) (s.fld_setFld_other (readyFld j) (readyFld i) _ le_rfl (Nat.mod_lt _ (by decide)) le_rfl ?_)
    simp only [readyFld]
    omega

theorem State.ready_putReadyRange (lo n i : Nat) : (s.putReadyRange lo b n).ready i = if lo ≤ i ∧ i < lo + n then b else s.ready i := by
  induction n generalizing s lo with
  | zero => rw [if_neg (by omega)]; rfl
  | succ n ih =>
    rw [State.putReadyRange, ih, State.ready_putReady]
    split
    · rw [if_pos (by omega)]
    · split
      · rw [if_pos (by omega)]
      · rw [if_neg (by omega)]

theorem State.reg_putReady {o j : Nat} (h : o ≠ R.GLB_FUNC_READY + 8 * (j / 64)) : (s.putReady j b).reg o = s.reg o := s.reg_setFld_ne _ _ _ h

theorem State.putReady_keeps {π : State → State} {P : Nat → Prop} (j : Nat) (h : ¬P (R.GLB_FUNC_READY + 8 * (j / 64)))
    (hπ : ∀ l, π { s with regs := l } = π s) : Keeps π P s (s.putReady j b) := .setFld s _ h hπ

theorem State.putReadyRange_keeps {π : State → State} {P : Nat → Prop} (lo n : Nat) (h : ∀ j, j < lo + n → ¬P (R.GLB_FUNC_READY + 8 * (j / 64)))
    (hπ : ∀ s l, π { s with regs := l } = π s) : Keeps π P s (s.putReadyRange lo b n) := by
  induction n generalizing s lo with
  | zero => exact .refl s
  | succ n ih => exact (s.putReady_keeps b lo (h lo (by omega)) (hπ s)).trans (ih _ (lo + 1) (fun j hj => h j (by omega)))

end

/-! ### Fields of a port's registers -/

section
variable (s : State) (p : PortId) {f g : Fld} (n : Nat)

theorem pfld_hi : (pfld p f).hi = f.hi := by cases f; rfl
theorem pfld_lo : (pfld p f).lo = f.lo := by cases f; rfl

theorem pfld_lo_le (h : f.lo ≤ f.hi) : (pfld p f).lo ≤ (pfld p f).hi := by rwa [pfld_lo, pfld_hi]

theorem pfld_hi_lt (h : f.hi < 64) : (pfld p f).hi < 64 := by rwa [pfld_hi]

theorem State.fld_setPfld (h : f.lo ≤ f.hi) (h64 : f.hi < 64) : (s.setFld (pfld p f) n).fld (pfld p f) = n % 2 ^ (f.hi - f.lo + 1) := by
  rw [s.fld_setFld (pfld p f) n (pfld_lo_le p h) (pfld_hi_lt p h64), pfld_hi, pfld_lo]

theorem State.fld_setPfld_field (h : f.lo ≤ f.hi) (h64 : f.hi < 64) (h' : g.lo ≤ g.hi) (d : g.hi < f.lo ∨ f.hi < g.lo) :
    (s.setFld (pfld p f) n).fld (pfld p g) = s.fld (pfld p g) :=
  s.fld_setFld_other (pfld p f) (pfld p g) n (pfld_lo_le p h) (pfld_hi_lt p h64) (pfld_lo_le p h') (.inr (by rw [pfld_hi, pfld_lo, pfld_hi, pfld_lo]; exact d))

theorem State.bit_setPfld_field (h : f.lo ≤ f.hi) (h64 : f.hi < 64) (h' : g.lo ≤ g.hi) (d : g.hi < f.lo ∨ f.hi < g.lo) :
    (s.setFld (pfld p f) n).bit (pfld p g) = s.bit (pfld p g) := congrArg (· != 0) (s.fld_setPfld_field p n h h64 h' d)

theorem pfld_off_ne {p q : PortId} (h : q ≠ p) (e : g.off = f.off) : (pfld q g).off ≠ (pfld p f).off := by
  intro k
  refine h (Fin.ext ?_)
  simp only [pfld, Fld.plus, dieBase] at k
  omega

theorem State.portUp_setPfld {q : PortId} (h : q ≠ p) (e : F.FAB_PORT_STAT_UP.off = f.off) : (s.setFld (pfld p f) n).portUp q = s.portUp q := by
  rw [State.portUp, State.portUp, State.bit, State.bit, State.fld, State.fld, s.reg_setFld_ne _ _ _ (pfld_off_ne h e)]

theorem State.fld_putReady_pfld (j : Nat) (b : Bool) (h : f.off < 0x3400000) : (s.putReady j b).fld (pfld p f) = s.fld (pfld p f) := by
  rw [State.fld, State.fld, State.reg_putReady]
  simp only [pfld, Fld.plus, dieBase, R.GLB_FUNC_READY]
  omega

theorem State.portUp_putReady (j : Nat) (b : Bool) : (s.putReady j b).portUp p = s.portUp p :=
  congrArg (· != 0) (s.fld_putReady_pfld p j b (by decide))

theorem State.ready_setPfld (i : Nat) (h : f.off < 0x3400000) : (s.setFld (pfld p f) n).ready i = s.ready i := by
  refine State.ready_congr _ _ i (s.reg_setFld_ne _ _ _ ?_)
  simp only [pfld, Fld.plus, dieBase, R.GLB_FUNC_READY]
  omega

theorem State.setPfld_keeps {π : State → State} {P : Nat → Prop} (h : ¬P (pfld p f).off) (hπ : ∀ l, π { s with regs := l } = π s) :
    Keeps π P s (s.setFld (pfld p f) n) := .setFld s n h hπ

end

/-! ### Ports out of service -/

/-- The registers that no port's state and no port's readiness stands in. -/
def offPorts (o : Nat) : Prop := (o < 0x3000100 ∨ 0x3000180 ≤ o ∧ o < 0x3400100 ∨ 0x3400180 ≤ o) ∧ o ≠ R.GLB_FUNC_READY + 8

theorem not_offPorts_stat (p : PortId) : ¬offPorts (pfld p F.FAB_PORT_STAT_UP).off := by
  simp only [offPorts, pfld, Fld.plus, F.FAB_PORT_STAT_UP, dieBase]
  omega

section
variable (s : State) (p : PortId)

theorem State.portOff_keeps {π : State → State} (hπ : ∀ s l, π { s with regs := l } = π s) : Keeps π offPorts s (s.portOff p) :=
  (s.setPfld_keeps p (f := F.FAB_PORT_STAT_UP) 0 (not_offPorts_stat p) (hπ s)).trans <|
    (State.setPfld_keeps _ p (f := F.FAB_PORT_STAT_PEER_VALID) 0 (not_offPorts_stat p) (hπ _)).trans <|
    State.putReady_keeps _ _ _ (fun h => h.2 (by have := p.isLt; omega)) (hπ _)

theorem State.portUp_portOff (q : PortId) : (s.portOff p).portUp q = if q = p then false else s.portUp q := by
  rw [State.portOff, State.portUp_putReady]
  split
  case isTrue h =>
    rw [h, State.portUp, State.bit_setPfld_field _ _ _ (by decide) (by decide) (by decide) (by decide)]
    exact s.bit_setFld (f := pfld p F.FAB_PORT_STAT_UP) false rfl (by simp [pfld, Fld.plus, F.FAB_PORT_STAT_UP])
  case isFalse h => rw [State.portUp_setPfld (f := F.FAB_PORT_STAT_PEER_VALID) _ _ _ h rfl, State.portUp_setPfld (f := F.FAB_PORT_STAT_UP) _ _ _ h rfl]

theorem State.ready_portOff (i : Nat) : (s.portOff p).ready i = if i = 64 + p.val then false else s.ready i := by
  rw [State.portOff, State.ready_putReady, State.ready_setPfld _ _ _ _ (by decide), State.ready_setPfld _ _ _ _ (by decide)]

theorem State.portsOff_keeps {π : State → State} (hπ : ∀ s l, π { s with regs := l } = π s) : Keeps π offPorts s s.portsOff :=
  .foldl (fun s p => s.portOff_keeps p hπ) _ s

theorem State.portUp_portsOff : s.portsOff.portUp p = false := by
  refine foldl_turns (R := fun _ => True) (Q := fun u => u.portUp p = false) (fun u q h => ?_) (fun _ _ _ _ => trivial) (fun u _ => ?_) _ s (List.mem_finRange p) trivial
  · rw [State.portUp_portOff, h, ite_self]
  · rw [State.portUp_portOff, if_pos rfl]

end

/-! ### A fatal event -/

/-- What events, FATAL and the end of service change. -/
def State.lessFatal (s : State) : State := { s with regs := [], rings := ⟨[], 0, [], []⟩, outbox := [], free := 0 }

theorem newestEvent_putRecord (s : State) (r : EventRec) : newestEvent (s.putRecord r) = some r := by
  have rings := s.putRecord_rings r
  have lp := State.lpReady_congr s (s.putRecord r) ((s.putRecord_frame r).2 _ (by decide))
  rw [newestEvent, lp]
  split
  case isTrue h => rw [rings.1, if_pos h, pushOld_getLast]
  case isFalse h => rw [rings.2, if_neg h, pushOld_getLast]

theorem newestEvent_congr {s t : State} (h : t.rings = s.rings) (hr : t.reg R.GLB_FUNC_READY = s.reg R.GLB_FUNC_READY) : newestEvent t = newestEvent s := by
  rw [newestEvent, newestEvent, State.lpReady_congr s t hr, h]

/-- The registers that an event record is made of. -/
def stampReg (o : Nat) : Prop := o = R.GLB_FUNC_READY ∨ o = F.GLB_JOB_STATE.off ∨ o = F.TIME_PICK_PICK.off

theorem Keeps.stamp {π : State → State} {P : Nat → Prop} {s t : State} (h : Keeps π P s t) (hP : ∀ o, stampReg o → P o) (hπ : ∀ s, s.clock.ns = (π s).clock.ns) :
    t.stamp = s.stamp ∧ t.eventPick = s.eventPick := by
  have ready := State.ready_congr s t 9 (h.regs _ (hP _ (.inl rfl)))
  constructor
  · rw [State.stamp, State.stamp, ready, h.same (fun s => s.clock.ns) hπ]
  · rw [State.eventPick, State.eventPick, State.inPick, State.inPick, h.fld (f := F.GLB_JOB_STATE) (hP _ (.inr (.inl rfl))),
      h.fld (f := F.TIME_PICK_PICK) (hP _ (.inr (.inr rfl)))]

/-- GLB_FATAL keeps the first code. -/
def State.keepFatal (s : State) (c : Status) : State :=
  if s.bit F.GLB_FATAL_VALID then s else (s.setFld F.GLB_FATAL_CODE c.toNat).setFld F.GLB_FATAL_VALID 1

theorem State.raiseFatal_eq (s : State) (src : Nat) (c : Status) (d : List Byte) :
    let u := s.keepFatal c
    s.raiseFatal src c d = ((u.markFamily c).putRecord ⟨u.stamp, BitVec.ofNat 16 src, c, u.eventPick, (d ++ zeros 14).take 14, true⟩).sendFatal c := rfl

/-- The registers that a fatal event leaves. -/
def calmReg (o : Nat) : Prop := o ∉ eventOffs ∧ o ≠ F.GLB_FATAL_VALID.off

section
variable (s : State) (c : Status)

theorem State.keepFatal_keeps : Keeps State.lessFatal calmReg s (s.keepFatal c) := by
  unfold State.keepFatal
  split
  · exact .refl s
  · exact (Keeps.setFld s (f := F.GLB_FATAL_CODE) _ (fun h => h.2 rfl) (fun _ => rfl)).trans (.setFld _ _ (fun h => h.2 rfl) (fun _ => rfl))

theorem State.bit_keepFatal : (s.keepFatal c).bit F.GLB_FATAL_VALID = true := by
  unfold State.keepFatal
  split
  case isTrue h => exact h
  case isFalse => exact State.bit_setFld _ true rfl (by decide)

theorem State.markFamily_fatal : Keeps State.lessFatal (fun o => o ∉ eventOffs) s (s.markFamily c) := by
  have frame := s.markFamily_frame c
  refine ⟨(congrArg State.lessFatal frame.1 :), fun o h => frame.2 o ?_ ?_⟩ <;> exact fun e => h (e ▸ by decide)

theorem State.putRecord_fatal (r : EventRec) : Keeps State.lessFatal (fun o => o ∉ eventOffs) s (s.putRecord r) := by
  have frame := s.putRecord_frame r
  exact ⟨(congrArg State.lessFatal frame.1 :), fun o h => frame.2 o (fun e => h (e ▸ by decide))⟩

theorem State.sendFatal_keeps : Keeps State.lessFatal (fun _ => True) s (s.sendFatal c) ∧ (s.sendFatal c).rings = s.rings := by
  have frame := s.sendFatal_frame c
  exact ⟨⟨(congrArg State.lessFatal frame :), fun o _ => (congrArg (fun u : State => u.reg o) frame :)⟩, (congrArg State.rings frame :)⟩

theorem State.raiseFatal_keeps (src : Nat) (d : List Byte) : Keeps State.lessFatal calmReg s (s.raiseFatal src c d) := by
  rw [s.raiseFatal_eq]
  exact (s.keepFatal_keeps c).trans <| ((State.markFamily_fatal _ c).weaken (fun _ => rfl) (fun _ h => h.1)).trans <|
    ((State.putRecord_fatal _ _).weaken (fun _ => rfl) (fun _ h => h.1)).trans ((State.sendFatal_keeps _ c).1.weaken (fun _ => rfl) (fun _ _ => trivial))

theorem State.bit_raiseFatal (src : Nat) (d : List Byte) : (s.raiseFatal src c d).bit F.GLB_FATAL_VALID = true := by
  rw [s.raiseFatal_eq]
  have later := (State.markFamily_fatal (s.keepFatal c) c).trans ((State.putRecord_fatal _ ⟨(s.keepFatal c).stamp, BitVec.ofNat 16 src, c, (s.keepFatal c).eventPick, (d ++ zeros 14).take 14, true⟩).trans
    ((State.sendFatal_keeps _ c).1.weaken (fun _ => rfl) (fun _ _ => trivial)))
  exact (later.bit (f := F.GLB_FATAL_VALID) (by decide)).trans (s.bit_keepFatal c)

theorem calmReg_of_stampReg {o : Nat} (h : stampReg o) : calmReg o := by
  unfold calmReg
  obtain rfl | rfl | rfl := h <;> decide

theorem newestEvent_raiseFatal (src : Nat) (d : List Byte) : newestEvent (s.raiseFatal src c d) =
    some ⟨(s.keepFatal c).stamp, BitVec.ofNat 16 src, c, (s.keepFatal c).eventPick, (d ++ zeros 14).take 14, true⟩ := by
  have sent := State.sendFatal_keeps
    (((s.keepFatal c).markFamily c).putRecord ⟨(s.keepFatal c).stamp, BitVec.ofNat 16 src, c, (s.keepFatal c).eventPick, (d ++ zeros 14).take 14, true⟩) c
  exact (newestEvent_congr sent.2 (sent.1.regs _ trivial)).trans (newestEvent_putRecord _ _)

theorem State.raiseFatal_raised (src : Nat) (d : List Byte) : raised s (s.raiseFatal src c d) src c d true := by
  obtain ⟨stamp, pick⟩ := (s.keepFatal_keeps c).stamp (fun _ => calmReg_of_stampReg) (fun _ => rfl)
  rw [raised, newestEvent_raiseFatal, stamp, pick]

end

/-! ### The node stops -/

/-- The node's parts but the ports out of service. -/
def State.partsOff (s : State) : State := (s.putReadyRange 12 false 3).putReadyRange 16 false 4

/-- The node that has stopped, as to its power. -/
def State.powerStopped (s : State) (w : Power) : State := { s with power := { w with stopped := true, thermtripN := true } }

theorem State.stopNode_eq (s : State) : s.stopNode = s.partsOff.portsOff.powerStopped s.partsOff.power := rfl

/-- The registers that a node that stops leaves. -/
def stopReg (o : Nat) : Prop := offPorts o ∧ o ≠ R.GLB_FUNC_READY

/-- What a node that stops changes besides. -/
def State.lessPower (s : State) : State := { s with regs := [], power := { s.power with stopped := false, thermtripN := false } }

section
variable (s : State)

theorem State.partsOff_keeps : Keeps State.lessPower stopReg s s.partsOff := by
  have both : ∀ j, j < 16 + 4 → ¬stopReg (R.GLB_FUNC_READY + 8 * (j / 64)) := fun j hj h => h.2 (by omega)
  exact (s.putReadyRange_keeps false 12 3 (fun j hj => both j (by omega)) (fun _ _ => rfl)).trans (State.putReadyRange_keeps _ false 16 4 both (fun _ _ => rfl))

theorem State.power_portsOff : s.portsOff.power = s.power :=
  (s.portsOff_keeps (π := fun s => { s with regs := [] }) (fun _ _ => rfl)).same State.power (fun _ => rfl)

theorem State.powerStopped_keeps {w : Power} (h : s.power = w) : Keeps State.lessPower stopReg s (s.powerStopped w) := by
  subst h
  exact .of_rest rfl rfl

theorem State.portsOff_stop : Keeps State.lessPower stopReg s s.portsOff :=
  (s.portsOff_keeps (π := State.lessPower) (fun _ _ => rfl)).weaken (fun _ => rfl) (fun _ h => h.1)

theorem State.stopNode_keeps : Keeps State.lessPower stopReg s s.stopNode := by
  rw [s.stopNode_eq]
  exact s.partsOff_keeps.trans (s.partsOff.portsOff_stop.trans (State.powerStopped_keeps _ (State.power_portsOff _)))

theorem State.portUp_powerStopped (w : Power) (p : PortId) : (s.powerStopped w).portUp p = s.portUp p := rfl
theorem State.ready_powerStopped (w : Power) (i : Nat) : (s.powerStopped w).ready i = s.ready i := rfl

theorem State.livePorts_stopNode : s.stopNode.livePorts = [] := by
  refine List.filter_eq_nil_iff.2 (fun p _ => ne_true_of_eq_false ?_)
  rw [s.stopNode_eq, State.portUp_powerStopped, State.portUp_portsOff]

/-- A port's end of service leaves the readiness of the node's parts. -/
theorem State.ready_portsOff {i : Nat} (h : i < 64) : s.portsOff.ready i = s.ready i := by
  refine State.ready_congr _ _ i ((s.portsOff_keeps (π := State.lessPower) (fun _ _ => rfl)).regs _ ?_)
  rw [Nat.div_eq_of_lt h]
  unfold offPorts
  decide

theorem State.ready_stopNode {i : Nat} (h : i < 64) : s.stopNode.ready i = if 12 ≤ i ∧ i < 15 ∨ 16 ≤ i ∧ i < 20 then false else s.ready i := by
  rw [s.stopNode_eq, State.ready_powerStopped, State.ready_portsOff _ h, State.partsOff, State.ready_putReadyRange, State.ready_putReadyRange]
  split
  · rw [if_pos (by omega)]
  · split
    · rw [if_pos (by omega)]
    · rw [if_neg (by omega)]

theorem State.lpReady_stopNode : s.stopNode.lpReady = s.lpReady := by
  rw [Bool.eq_iff_iff, State.lpReady, State.lpReady, List.all_eq_true, List.all_eq_true]
  refine forall₂_congr (fun i hi => ?_)
  have hi := List.mem_range.1 hi
  rw [s.ready_stopNode (by omega), if_neg (by omega)]

end

/-! ### The sixteenth retry in a row -/

/-- A field of a die-to-die link's errors. -/
def d2dFld (k : LinkId) (f : Fld) : Fld := f.plus (8 * k.val)

/-- The node in which a link is given up. -/
def State.linkFailed (s : State) (k : LinkId) : State := ((s.count (d2dFld k F.GLB_D2D_ERR_RETRIES) 1).setFld (d2dFld k F.GLB_D2D_ERR_FAILED) 1).drawFree.2

section
variable (k : LinkId) (s : State)

theorem d2dFld_off_lt : 0x9000100 ≤ (d2dFld k F.GLB_D2D_ERR_RETRIES).off ∧ (d2dFld k F.GLB_D2D_ERR_RETRIES).off < 0x9000148 := by
  have := k.isLt
  simp only [d2dFld, Fld.plus, F.GLB_D2D_ERR_RETRIES]
  omega

/-- The registers below those of the die-to-die links. -/
def belowLinks (o : Nat) : Prop := o < 0x9000100

theorem State.drawFree_keeps : Keeps State.lessFatal belowLinks s s.drawFree.2 := .of_rest rfl rfl

theorem State.setD2d_keeps {f : Fld} (n : Nat) (h : f.off = F.GLB_D2D_ERR_RETRIES.off) : Keeps State.lessFatal belowLinks s (s.setFld (d2dFld k f) n) := by
  refine .setFld s n (Nat.not_lt.2 ?_) (fun _ => rfl)
  rw [d2dFld, Fld.plus, h]
  exact Nat.le_add_right _ _

theorem State.linkFailed_keeps : Keeps State.lessFatal belowLinks s (s.linkFailed k) :=
  (s.setD2d_keeps k _ (f := F.GLB_D2D_ERR_RETRIES) rfl).trans ((State.setD2d_keeps k _ (f := F.GLB_D2D_ERR_FAILED) 1 rfl).trans (State.drawFree_keeps _))

theorem State.fld_drawFree (f : Fld) : s.drawFree.2.fld f = s.fld f := rfl

theorem State.bit_drawFree (f : Fld) : s.drawFree.2.bit f = s.bit f := rfl

theorem State.fld_countD2d : (s.count (d2dFld k F.GLB_D2D_ERR_RETRIES) 1).fld (d2dFld k F.GLB_D2D_ERR_RETRIES) =
    min (s.fld (d2dFld k F.GLB_D2D_ERR_RETRIES) + 1) (2 ^ (F.GLB_D2D_ERR_RETRIES.hi - F.GLB_D2D_ERR_RETRIES.lo + 1) - 1) :=
  s.fld_count (d2dFld k F.GLB_D2D_ERR_RETRIES) 1 (by simp [d2dFld, Fld.plus, F.GLB_D2D_ERR_RETRIES]) (by simp [d2dFld, Fld.plus, F.GLB_D2D_ERR_RETRIES])

theorem State.fld_linkFailed : (s.linkFailed k).fld (d2dFld k F.GLB_D2D_ERR_RETRIES) =
    min (s.fld (d2dFld k F.GLB_D2D_ERR_RETRIES) + 1) (2 ^ (F.GLB_D2D_ERR_RETRIES.hi - F.GLB_D2D_ERR_RETRIES.lo + 1) - 1) := by
  rw [State.linkFailed, State.fld_drawFree, State.fld_setFld_other, State.fld_countD2d]
  all_goals simp [d2dFld, Fld.plus, F.GLB_D2D_ERR_FAILED, F.GLB_D2D_ERR_RETRIES]

theorem State.bit_linkFailed : (s.linkFailed k).bit (d2dFld k F.GLB_D2D_ERR_FAILED) = true := by
  rw [State.linkFailed, State.bit_drawFree]
  exact State.bit_setFld (f := d2dFld k F.GLB_D2D_ERR_FAILED) _ true rfl (by simp [d2dFld, Fld.plus, F.GLB_D2D_ERR_FAILED])

theorem exec_d2dFlitRetry (n : Nat) : exec (.d2dFlitRetry k n) s = .next (if n < 16 then s.count (d2dFld k F.GLB_D2D_ERR_RETRIES) 1
    else ((s.linkFailed k).raiseFatal 0x0900 (BitVec.ofNat 16 (Config.freeValue s.free).toNat) []).stopNode) := rfl

/-- D2D_FLIT_RETRY (R37, R38). -/
theorem d2dFlitRetry (n : Nat) :
    let f := fun (f : Fld) => f.plus (8 * k.val)
    let counts := fun (t : State) => exec (.d2dFlitRetry k n) s = .next t ∧ t.fld (f F.GLB_D2D_ERR_RETRIES) =
      min (s.fld (f F.GLB_D2D_ERR_RETRIES) + 1) (2 ^ (F.GLB_D2D_ERR_RETRIES.hi - F.GLB_D2D_ERR_RETRIES.lo + 1) - 1)
    (n < 16 → ∃ t, counts t ∧ { t with regs := s.regs } = s ∧ otherRegs [(f F.GLB_D2D_ERR_RETRIES).off] s t) ∧
    (16 ≤ n → ∃ t code, counts t ∧ t.bit (f F.GLB_D2D_ERR_FAILED) = true ∧ t.power.stopped = true ∧ t.power.thermtripN = true ∧
      t.bit F.GLB_FATAL_VALID = true ∧ t.livePorts = [] ∧ (∀ i ∈ [12, 13, 14, 16, 17, 18, 19], t.ready i = false) ∧
      raised s t 0x0900 code [] true ∧ t.mem = s.mem) := by
  refine ⟨fun hn => ?_, fun hn => ?_⟩
  · refine ⟨_, ⟨(exec_d2dFlitRetry k s n).trans (congrArg _ (if_pos hn)), s.fld_countD2d k⟩, rfl, fun o ho => ?_⟩
    exact s.reg_setFld_ne _ _ _ (fun e => ho (List.mem_singleton.2 e))
  · generalize hc : (BitVec.ofNat 16 (Config.freeValue s.free).toNat : Status) = code
    have run := exec_d2dFlitRetry k s n
    rw [if_neg (by omega), hc] at run
    have failed := s.linkFailed_keeps k
    have fatal := (s.linkFailed k).raiseFatal_keeps code 0x0900 []
    have stop := State.stopNode_keeps ((s.linkFailed k).raiseFatal 0x0900 code [])
    have links : ∀ {o}, 0x9000100 ≤ o → o < 0x9000148 → stopReg o ∧ calmReg o := by
      intro o h1 h2
      simp only [stopReg, offPorts, calmReg, eventOffs, R.GLB_FUNC_READY, F.TIME_STAT_EV, F.CKPT_STAT_ERR, F.MBX_EVQ_DROPPED, F.GLB_FATAL_VALID,
        List.mem_cons, List.not_mem_nil, or_false]
      omega
    have off := links (d2dFld_off_lt k).1 (d2dFld_off_lt k).2
    refine ⟨_, code, ⟨run, ?_⟩, ?_, rfl, rfl, ?_, State.livePorts_stopNode _, ?_, ?_, ?_⟩
    · exact (stop.fld off.1).trans ((fatal.fld off.2).trans (s.fld_linkFailed k))
    · exact (stop.bit (f := d2dFld k F.GLB_D2D_ERR_FAILED) off.1).trans ((fatal.bit (f := d2dFld k F.GLB_D2D_ERR_FAILED) off.2).trans (s.bit_linkFailed k))
    · refine (stop.bit (f := F.GLB_FATAL_VALID) ?_).trans (State.bit_raiseFatal _ _ _ _)
      unfold stopReg offPorts
      decide
    · intro i hi
      simp only [List.mem_cons, List.not_mem_nil, or_false] at hi
      rw [State.ready_stopNode _ (by omega), if_pos (by omega)]
    · have newest := (s.linkFailed k).raiseFatal_raised code 0x0900 []
      obtain ⟨stamp, pick⟩ := failed.stamp (by unfold belowLinks; rintro o (rfl | rfl | rfl) <;> decide) (fun _ => rfl)
      rw [raised, stamp, pick] at newest
      have rings : ((s.linkFailed k).raiseFatal 0x0900 code []).stopNode.rings = ((s.linkFailed k).raiseFatal 0x0900 code []).rings := stop.same State.rings (fun _ => rfl)
      rw [raised, ← newest, newestEvent, newestEvent, State.lpReady_stopNode, rings]
    · exact (stop.same State.mem (fun _ => rfl)).trans ((fatal.same State.mem (fun _ => rfl)).trans (failed.same State.mem (fun _ => rfl)))

end

end Sys2Proof.Machine
end

section
/-! Ports that leave service (R408, R409, R425): the registers of the port, its retry buffer, and the event records. -/

namespace Sys2Proof.Machine

/-! ### Records -/

/-- A ring to which the record r has been added, and no more than one after it. -/
theorem pushOld_pushOld {n m : Nat} (hm : 1 < m) (ring : List EventRec) (r q : EventRec) : ∃ l k, pushOld m (pushOld n ring r) q = ring.drop l ++ k ∧ r ∈ k := by
  have once : ∃ l, pushOld n ring r = ring.drop l ++ [r] := by
    unfold pushOld
    split
    · exact ⟨0, rfl⟩
    · exact ⟨1, rfl⟩
  obtain ⟨l, hl⟩ := once
  rw [hl]
  unfold pushOld
  split
  case isTrue => exact ⟨l, [r, q], by rw [List.append_assoc]; rfl, List.mem_cons_self⟩
  case isFalse h =>
    rw [List.length_append, List.length_singleton] at h
    refine ⟨l + 1, [r, q], ?_, List.mem_cons_self⟩
    rw [List.drop_append_of_le_length (by omega), List.drop_drop, List.append_assoc]
    rfl

theorem pushOld_drop (n : Nat) (ring : List EventRec) (r : EventRec) : ∃ l k, pushOld n ring r = ring.drop l ++ k ∧ r ∈ k := by
  unfold pushOld
  split
  · exact ⟨0, [r], rfl, List.mem_singleton_self r⟩
  · exact ⟨1, [r], rfl, List.mem_singleton_self r⟩

theorem eventRing_congr {s t : State} (h : t.rings = s.rings) (hr : t.reg R.GLB_FUNC_READY = s.reg R.GLB_FUNC_READY) : eventRing t = eventRing s := by
  rw [eventRing, eventRing, State.lpReady_congr s t hr, h]

theorem eventRing_putRecord (s : State) (r : EventRec) : ∃ n, 1 < n ∧ eventRing (s.putRecord r) = pushOld n (eventRing s) r := by
  have rings := s.putRecord_rings r
  have lp := State.lpReady_congr s (s.putRecord r) ((s.putRecord_frame r).2 _ (by decide))
  rw [eventRing, eventRing, lp, rings.1, rings.2]
  split
  · exact ⟨16384, by decide, rfl⟩
  · exact ⟨256, by decide, rfl⟩

/-- An event adds its record to the ring. -/
theorem State.eventRing_raise (s : State) (src : Nat) (c : Status) (d : List Byte) : ∃ n, 1 < n ∧
    eventRing (s.raise src c d) = pushOld n (eventRing s) ⟨s.stamp, BitVec.ofNat 16 src, c, s.eventPick, (d ++ zeros 14).take 14, false⟩ := by
  have marked := s.markFamily_frame c
  obtain ⟨n, hn, ring⟩ := eventRing_putRecord (s.markFamily c) ⟨s.stamp, BitVec.ofNat 16 src, c, s.eventPick, (d ++ zeros 14).take 14, false⟩
  refine ⟨n, hn, ring.trans (congrArg (pushOld n · _) ?_)⟩
  exact eventRing_congr (congrArg State.rings marked.1 :) (marked.2 _ (by decide) (by decide))

/-! ### What the end of service of a port changes -/

/-- The state without what an event or another parent can change. -/
def State.lessParent (s : State) : State :=
  { s with regs := [], rings := ⟨[], 0, [], []⟩, free := 0, clock := { s.clock with parent := none, parentRoot := false } }

/-- The same, without what happens on the links can change. -/
def State.lessLinks (s : State) : State := { s.lessParent with ports := [], outbox := [] }

/-- The registers that no event writes. -/
def quietReg (o : Nat) : Prop := o ∉ eventOffs

section
variable (s : State)

theorem Keeps.links {P : Nat → Prop} {s t : State} (h : Keeps State.lessParent P s t) : Keeps State.lessLinks P s t := h.weaken (fun _ => rfl) (fun _ k => k)

theorem State.raise_parent (src : Nat) (c : Status) (d : List Byte) : Keeps State.lessParent quietReg s (s.raise src c d) :=
  ⟨(congrArg State.lessParent (s.raise_frame src c d).1 :), (s.raise_frame src c d).2⟩

theorem State.sendOn_links (p : PortId) (m : OutMsg) : Keeps State.lessLinks (fun _ => True) s (s.sendOn p m) := .of_rest rfl rfl

theorem State.modPort_links (p : PortId) (f : Port → Port) : Keeps State.lessLinks (fun _ => True) s (s.modPort p f) := .of_rest rfl rfl

/-- A path leads over a port in service. -/
theorem State.portUp_of_pathTo {src dst : NodeId} {vc addr : Nat} {p : PortId} (h : s.pathTo src dst vc addr = some p) : s.portUp p = true := by
  have mem := List.mem_of_getElem? h
  unfold State.pathPorts at mem
  simp only [] at mem
  split at mem
  · exact (List.mem_filter.1 mem).2
  split at mem
  · exact (List.mem_filter.1 mem).2
  split at mem
  · split at mem
    · exact (List.mem_filter.1 mem).2
    · exact absurd mem List.not_mem_nil
  · exact (List.mem_filter.1 mem).2

/-- A message on its way goes nowhere, or out on a port in service. -/
theorem State.forward_cases (m : Msg) : s.forward m = s ∨ ∃ p m', s.portUp p = true ∧ s.forward m = s.sendOn p m' := by
  have now : s.forward m = s.sendNow { msgOut m with fwd := some m.src } := rfl
  rw [now, State.sendNow]
  split
  · exact .inl rfl
  split
  case h_1 p hp => exact .inr ⟨p, _, s.portUp_of_pathTo hp, rfl⟩
  case h_2 => exact .inl rfl

/-! ### The retry buffer -/

/-- One message of a retry buffer on its new path. -/
def State.moveOne (p : PortId) (s : State) (m : Msg) : State :=
  if m.loc then s
  else
    match s.pathTo m.src m.dst m.vc.toNat m.addr.toNat with
    | some _ => s.forward m
    | none => s.modPort p (fun x => { x with backlog := x.backlog ++ msgSlots m })

/-- A port whose retry buffer is empty. -/
def Port.emptied (x : Port) : Port := { x with unacked := [], txPart := [], backlog := [], rxSlots := [], nak := false, fails := 0, txFails := 0 }

theorem State.moveUnsent_eq (p : PortId) : s.moveUnsent p = (s.port p).unsent.foldl (State.moveOne p) (s.modPort p Port.emptied) := rfl

theorem State.moveOne_cases (p : PortId) (m : Msg) : State.moveOne p s m = s ∨ State.moveOne p s m = s.forward m ∨
    State.moveOne p s m = s.modPort p (fun x => { x with backlog := x.backlog ++ msgSlots m }) := by
  unfold State.moveOne
  split
  · exact .inl rfl
  split
  · exact .inr (.inl rfl)
  · exact .inr (.inr rfl)

theorem State.moveOne_links (p : PortId) (m : Msg) : Keeps State.lessLinks (fun _ => True) s (State.moveOne p s m) ∧ (State.moveOne p s m).rings = s.rings := by
  obtain h | h | h := s.moveOne_cases p m
  · rw [h]
    exact ⟨.refl s, rfl⟩
  · rw [h]
    obtain f | ⟨q, m', -, f⟩ := s.forward_cases m
    · rw [f]
      exact ⟨.refl s, rfl⟩
    · rw [f]
      exact ⟨s.sendOn_links q m', rfl⟩
  · rw [h]
    exact ⟨s.modPort_links p _, rfl⟩

theorem State.moveUnsent_links (p : PortId) : Keeps State.lessLinks (fun _ => True) s (s.moveUnsent p) := by
  rw [s.moveUnsent_eq]
  exact (s.modPort_links p _).trans (.foldl (fun s m => (s.moveOne_links p m).1) _ _)

theorem State.rings_moveUnsent (p : PortId) : (s.moveUnsent p).rings = s.rings := by
  rw [s.moveUnsent_eq]
  exact foldl_keeps (fun u => u.rings = s.rings) _ (fun u m h => (u.moveOne_links p m).2.trans h) _ _ rfl

/-- Over a port out of service nothing more is sent: its retry buffer stays empty. -/
theorem State.unacked_moveUnsent (p : PortId) (h : s.portUp p = false) : ((s.moveUnsent p).port p).unacked = [] := by
  rw [s.moveUnsent_eq]
  refine (foldl_keeps (fun u => u.portUp p = false ∧ (u.port p).unacked = []) _ (fun u m hu => ?_) _ (s.modPort p Port.emptied) ⟨h, ?_⟩).2
  · refine ⟨((u.moveOne_links p m).1.bit (f := pfld p F.FAB_PORT_STAT_UP) trivial).trans hu.1, ?_⟩
    obtain e | e | e := u.moveOne_cases p m
    · rw [e, hu.2]
    · obtain f | ⟨q, m', up, f⟩ := u.forward_cases m
      · rw [e, f, hu.2]
      · have other : p ≠ q := fun k => absurd up (by rw [← k, hu.1]; decide)
        rw [e, f, (u.sendOn_frame q m').2.2 p other, hu.2]
    · rw [e, State.port_modPort_same]
      exact hu.2
  · rw [State.port_modPort_same]
    rfl

/-! ### The new parent -/

/-- The state with another parent. -/
def State.setParent (s : State) (n : Option NodeId) (r : Bool) : State := { s with clock := { s.clock with parent := n, parentRoot := r } }

theorem State.setParent_parent (n : Option NodeId) (r : Bool) : Keeps State.lessParent quietReg s (s.setParent n r) := .of_rest rfl rfl

theorem State.setTimeStat_parent (f : Fld) (n : Nat) (h : f.off = F.TIME_STAT_EV.off) : Keeps State.lessParent quietReg s (s.setFld f n) :=
  .setFld s n (not_not_intro (h ▸ by decide)) (fun _ => rfl)

theorem State.drawFree_parent : Keeps State.lessParent quietReg s s.drawFree.2 := .of_rest rfl rfl

/-- FBC0's choice of a parent changes TIME_STAT and the clock's parent, and may then raise TIME_SOURCE_CHANGE. -/
theorem State.assignParent_cases : ∃ v, Keeps State.lessParent quietReg s v ∧ v.rings = s.rings ∧
    (s.assignParent = v ∨ s.assignParent = v.raise timeSrc 0x0704 []) := by
  have port : ∀ (u : State) n, Keeps State.lessParent quietReg u (u.setFld F.TIME_STAT_PARENT_PORT n) := fun u n => u.setTimeStat_parent _ n rfl
  have source : ∀ (u : State) n, Keeps State.lessParent quietReg u (u.setFld F.TIME_STAT_SOURCE n) := fun u n => u.setTimeStat_parent _ n rfl
  unfold State.assignParent
  split
  · exact ⟨_, (port s _).trans ((source _ (s.fld F.TIME_STAT_PRIMARY)).trans (State.setParent_parent _ none false)), rfl, .inl rfl⟩
  simp only []
  split
  · exact ⟨_, s.drawFree_parent.trans ((source _ 3).trans (State.setParent_parent _ none false)), rfl, .inl rfl⟩
  · next c _ =>
    exact ⟨_, s.drawFree_parent.trans ((port _ c.2.val).trans ((source _ 2).trans (State.setParent_parent _ (some c.1) (Config.peerTime s.free c.1 == 1)))), rfl,
      (ite_eq_or_eq _ _ _).symm⟩

theorem State.assignParent_parent : Keeps State.lessParent quietReg s s.assignParent := by
  obtain ⟨v, frame, -, h | h⟩ := s.assignParent_cases
  · exact h ▸ frame
  · exact h ▸ frame.trans (v.raise_parent _ _ _)

theorem ready_quiet {π : State → State} {s t : State} (h : Keeps π quietReg s t) : t.reg R.GLB_FUNC_READY = s.reg R.GLB_FUNC_READY :=
  h.regs _ (by unfold quietReg; decide)

theorem State.eventRing_assignParent : eventRing s.assignParent = eventRing s ∨ ∃ n q, 1 < n ∧ eventRing s.assignParent = pushOld n (eventRing s) q := by
  obtain ⟨v, frame, rings, h⟩ := s.assignParent_cases
  have ring := eventRing_congr rings (ready_quiet frame)
  obtain h | h := h
  · exact .inl (h ▸ ring)
  · obtain ⟨n, hn, e⟩ := v.eventRing_raise timeSrc 0x0704 []
    rw [ring] at e
    exact .inr ⟨n, _, hn, h ▸ e⟩

end

/-! ### A port out of service -/

/-- The registers of a port that leaves service, before its event. -/
def State.portDown (s : State) (p : PortId) : State :=
  let u := ((s.portOff p).setFld (pfld p F.FAB_PORT_STAT_AUTH) 0).setFld (pfld p F.FAB_PORT_STAT_DOWN_EV) 1
  u.setFld (pfld p F.FAB_PORT_STAT_TRAINING) (natOf (u.ready (4 + p.val / 10)))

theorem State.portLeaves_eq {s : State} {p : PortId} (h : s.portUp p = true) :
    s.portLeaves p = (((s.portDown p).raise (fabSrc p) St.linkDown (leBytes 1 p.val)).moveUnsent p).assignParent := by
  unfold State.portLeaves
  exact if_neg (by rw [h]; decide)

section
variable (s : State) (p : PortId)

theorem State.portDown_keeps {π : State → State} (hπ : ∀ s l, π { s with regs := l } = π s) : Keeps π offPorts s (s.portDown p) :=
  (s.portOff_keeps p hπ).trans <|
    (State.setPfld_keeps _ p (f := F.FAB_PORT_STAT_AUTH) 0 (not_offPorts_stat p) (hπ _)).trans <|
    (State.setPfld_keeps _ p (f := F.FAB_PORT_STAT_DOWN_EV) 1 (not_offPorts_stat p) (hπ _)).trans <|
    State.setPfld_keeps _ p (f := F.FAB_PORT_STAT_TRAINING) _ (not_offPorts_stat p) (hπ _)

theorem State.ready_portDown (i : Nat) : (s.portDown p).ready i = if i = 64 + p.val then false else s.ready i := by
  rw [State.portDown, State.ready_setPfld _ _ _ _ (by decide), State.ready_setPfld _ _ _ _ (by decide), State.ready_setPfld _ _ _ _ (by decide), State.ready_portOff]

theorem State.portUp_portDown (q : PortId) : (s.portDown p).portUp q = if q = p then false else s.portUp q := by
  rw [← s.portUp_portOff p q]
  by_cases h : q = p
  · rw [h, State.portUp, State.portUp, State.portDown]
    rw [State.bit_setPfld_field _ _ _ (by decide) (by decide) (by decide) (by decide), State.bit_setPfld_field _ _ _ (by decide) (by decide) (by decide) (by decide),
      State.bit_setPfld_field _ _ _ (by decide) (by decide) (by decide) (by decide)]
  · rw [State.portDown]
    rw [State.portUp_setPfld (f := F.FAB_PORT_STAT_TRAINING) _ _ _ h rfl, State.portUp_setPfld (f := F.FAB_PORT_STAT_DOWN_EV) _ _ _ h rfl,
      State.portUp_setPfld (f := F.FAB_PORT_STAT_AUTH) _ _ _ h rfl]

theorem State.bit_setPfld {f : Fld} (b : Bool) (h : f.lo = f.hi) (h64 : f.hi < 64) : (s.setFld (pfld p f) (natOf b)).bit (pfld p f) = b :=
  s.bit_setFld b (by rw [pfld_lo, pfld_hi, h]) (pfld_hi_lt p h64)

theorem State.bit_portDown_training : (s.portDown p).bit (pfld p F.FAB_PORT_STAT_TRAINING) = s.ready (4 + p.val / 10) := by
  have := p.isLt
  rw [State.portDown]
  rw [State.bit_setPfld _ _ _ rfl (by decide), State.ready_setPfld _ _ _ _ (by decide), State.ready_setPfld _ _ _ _ (by decide), State.ready_portOff, if_neg (by omega)]

theorem State.bit_portDown_downEv : (s.portDown p).bit (pfld p F.FAB_PORT_STAT_DOWN_EV) = true := by
  rw [State.portDown]
  rw [State.bit_setPfld_field _ _ _ (by decide) (by decide) (by decide) (by decide)]
  exact State.bit_setPfld _ p true rfl (by decide)

theorem State.bit_portDown_auth : (s.portDown p).bit (pfld p F.FAB_PORT_STAT_AUTH) = false := by
  rw [State.portDown]
  rw [State.bit_setPfld_field _ _ _ (by decide) (by decide) (by decide) (by decide), State.bit_setPfld_field _ _ _ (by decide) (by decide) (by decide) (by decide)]
  exact State.bit_setPfld _ p false rfl (by decide)

theorem State.bit_portDown_peerValid : (s.portDown p).bit (pfld p F.FAB_PORT_STAT_PEER_VALID) = false := by
  rw [State.portDown, State.portOff]
  rw [State.bit_setPfld_field _ _ _ (by decide) (by decide) (by decide) (by decide), State.bit_setPfld_field _ _ _ (by decide) (by decide) (by decide) (by decide),
    State.bit_setPfld_field _ _ _ (by decide) (by decide) (by decide) (by decide), State.bit, State.fld_putReady_pfld _ _ _ _ (by decide)]
  exact State.bit_setPfld _ p false rfl (by decide)

end

/-- What a port that leaves service leaves behind (R408). -/
structure PortLeft (p : PortId) (s t : State) : Prop where
  frame : Keeps State.lessLinks (fun o => offPorts o ∧ quietReg o) s t
  up : ∀ q, t.portUp q = if q = p then false else s.portUp q
  auth : t.bit (pfld p F.FAB_PORT_STAT_AUTH) = false
  downEv : t.bit (pfld p F.FAB_PORT_STAT_DOWN_EV) = true
  peerValid : t.bit (pfld p F.FAB_PORT_STAT_PEER_VALID) = false
  training : t.bit (pfld p F.FAB_PORT_STAT_TRAINING) = s.ready (4 + p.val / 10)
  ready : t.ready (64 + p.val) = false
  unacked : (t.port p).unacked = []
  recorded : recorded s t (fabSrc p) St.linkDown (leBytes 1 p.val) false

/-- Neither a port's state nor readiness is an event's register. -/
theorem quietReg_pfld (p : PortId) {f : Fld} (h : 0x3000000 ≤ f.off ∧ f.off < 0x3400000) : quietReg (pfld p f).off := by
  have := p.isLt
  simp only [quietReg, eventOffs, pfld, Fld.plus, dieBase, F.TIME_STAT_EV, F.CKPT_STAT_ERR, F.MBX_EVQ_DROPPED, List.mem_cons, List.not_mem_nil, or_false]
  omega

theorem stampReg_links {o : Nat} (h : stampReg o) : offPorts o ∧ quietReg o := by
  unfold offPorts quietReg
  obtain rfl | rfl | rfl := h <;> decide

theorem State.portLeaves_left {s : State} {p : PortId} (h : s.portUp p = true) : PortLeft p s (s.portLeaves p) := by
  have hp := p.isLt
  have down := s.portDown_keeps p (π := State.lessLinks) (fun _ _ => rfl)
  have event := ((s.portDown p).raise_parent (fabSrc p) St.linkDown (leBytes 1 p.val))
  have moved := State.moveUnsent_links ((s.portDown p).raise (fabSrc p) St.linkDown (leBytes 1 p.val)) p
  have parent := State.assignParent_parent (((s.portDown p).raise (fabSrc p) St.linkDown (leBytes 1 p.val)).moveUnsent p)
  have later := event.links.trans ((moved.weaken (fun _ => rfl) (fun _ _ => trivial)).trans parent.links)
  rw [State.portLeaves_eq h]
  have stat : ∀ (q : PortId) {f : Fld}, (0x3000000 ≤ f.off ∧ f.off < 0x3400000) → _ := fun q f hf => later.bit (f := pfld q f) (quietReg_pfld q hf)
  refine ⟨(down.weaken (fun _ => rfl) (fun _ k => k.1)).trans (later.weaken (fun _ => rfl) (fun _ k => k.2)), fun q => ?_, ?_, ?_, ?_, ?_, ?_, ?_, ?_⟩
  · exact (stat q (f := F.FAB_PORT_STAT_UP) (by decide)).trans (s.portUp_portDown p q)
  · exact (stat p (f := F.FAB_PORT_STAT_AUTH) (by decide)).trans (s.bit_portDown_auth p)
  · exact (stat p (f := F.FAB_PORT_STAT_DOWN_EV) (by decide)).trans (s.bit_portDown_downEv p)
  · exact (stat p (f := F.FAB_PORT_STAT_PEER_VALID) (by decide)).trans (s.bit_portDown_peerValid p)
  · exact (stat p (f := F.FAB_PORT_STAT_TRAINING) (by decide)).trans (s.bit_portDown_training p)
  · refine (State.ready_congr _ _ (64 + p.val) (later.regs _ ?_)).trans ((s.ready_portDown p _).trans (if_pos rfl))
    rw [show (64 + p.val) / 64 = 1 by omega]
    unfold quietReg
    decide
  · rw [State.port, parent.same State.ports (fun _ => rfl)]
    refine State.unacked_moveUnsent _ p ?_
    exact (event.bit (f := pfld p F.FAB_PORT_STAT_UP) (quietReg_pfld p (by decide))).trans ((s.portUp_portDown p p).trans (if_pos rfl))
  · obtain ⟨stamp, pick⟩ := down.stamp (fun _ k => (stampReg_links k).1) (fun _ => rfl)
    obtain ⟨n, hn, ring⟩ := (s.portDown p).eventRing_raise (fabSrc p) St.linkDown (leBytes 1 p.val)
    rw [stamp, pick, eventRing_congr (s := s) (t := s.portDown p) rfl (down.regs _ (stampReg_links (.inl rfl)).1)] at ring
    have kept : eventRing (((s.portDown p).raise (fabSrc p) St.linkDown (leBytes 1 p.val)).moveUnsent p) = _ :=
      (eventRing_congr (State.rings_moveUnsent _ p) (moved.regs _ trivial)).trans ring
    unfold recorded
    obtain e | ⟨m, q, hm, e⟩ := State.eventRing_assignParent (((s.portDown p).raise (fabSrc p) St.linkDown (leBytes 1 p.val)).moveUnsent p)
    · rw [e, kept]
      exact pushOld_drop _ _ _
    · rw [e, kept]
      exact pushOld_pushOld hm _ _ _

end Sys2Proof.Machine
end

section
/-! The end of service, the link exchange and training of a port (R408, R409, R639). -/

namespace Sys2Proof.Machine

/-! ### The end of service -/

theorem exec_portLeavesService_leaves {p : PortId} {why : DownCause} {s : State} (h : why = .failures → 16 ≤ (s.port p).fails ∨ 16 ≤ (s.port p).txFails)
    (now : BitVec 64) : exec (.portLeavesService p why now) s = .next ((s.at_ now).portLeaves p) := by
  cases why with
  | failures => exact congrArg Host.Outcome.next (if_pos (h rfl))
  | lockLoss => rfl
  | firmware => rfl

theorem exec_portLeavesService_stays {p : PortId} {s : State} (h : (s.port p).fails < 16) (h' : (s.port p).txFails < 16) (now : BitVec 64) :
    exec (.portLeavesService p .failures now) s = .next (s.at_ now) :=
  congrArg Host.Outcome.next (if_neg (fun k => k.elim (Nat.not_le.2 h) (Nat.not_le.2 h')))

/-- PORT_LEAVES_SERVICE at a port in service (R408). -/
theorem portLeavesService_left {p : PortId} {why : DownCause} {s : State} (hu : s.portUp p = true)
    (hw : why = .failures → 16 ≤ (s.port p).fails ∨ 16 ≤ (s.port p).txFails) (now : BitVec 64) :
    ∃ t, exec (.portLeavesService p why now) s = .next t ∧ PortLeft p (s.at_ now) t :=
  ⟨_, exec_portLeavesService_leaves hw now, State.portLeaves_left (s := s.at_ now) hu⟩

/-! ### The link exchange -/

/-- Do the peer's signatures verify, and does it stand where the wiring says? -/
def State.linkOk (s : State) (p : PortId) (x : LinkProof) : Bool :=
  Config.slhVerify slh256s s.vendorKey (ascii (if x.switch then "FVN-SWITCH" else "FVN-IDENT")) x.cert x.certSig &&
    Config.slhVerify slh256f x.key (ascii "FVN-LINK")
      (linkText x.nonce ((Config.random s.fw.draws).take 32) x.position.toNat x.port.toNat s.position p.val) x.sig && s.placeOk p x

/-- The state after the node's own proof m has left on the port. -/
def State.exchanged (s : State) (p : PortId) (x : LinkProof) (m : OutMsg) : State :=
  (State.send { s with fw := { s.fw with draws := s.fw.draws + 1 } } m).modPort p (fun y => { y with proof := s.linkOk p x, peerSwitch := x.switch })

theorem exec_linkExchange (p : PortId) (x : LinkProof) (s : State) : ∃ m, exec (.linkExchange p x) s =
    .next (if s.linkOk p x then s.exchanged p x m else (s.exchanged p x m).raise (fabSrc p) St.linkAuthFailed (leBytes 1 p.val)) := ⟨_, rfl⟩

theorem State.linkOk_iff (s : State) (p : PortId) (x : LinkProof) : s.linkOk p x = true ↔
    Config.slhVerify slh256s s.vendorKey (ascii (if x.switch then "FVN-SWITCH" else "FVN-IDENT")) x.cert x.certSig = true ∧
      Config.slhVerify slh256f x.key (ascii "FVN-LINK")
        (x.nonce ++ (Config.random s.fw.draws).take 32 ++ leBytes 2 x.position.toNat ++ leBytes 1 x.port.toNat ++ leBytes 2 s.position ++ leBytes 1 p.val) x.sig = true ∧
      s.placeOk p x = true := by
  rw [State.linkOk, Bool.and_eq_true, Bool.and_eq_true, and_assoc]
  rfl

/-- What the link exchange leaves, its outcome and its event. -/
theorem linkExchange_result (p : PortId) (x : LinkProof) (s : State) :
    ∃ t, exec (.linkExchange p x) s = .next t ∧ ((t.port p).proof = true ↔ s.linkOk p x = true) ∧ (t.port p).peerSwitch = x.switch ∧
      (¬s.linkOk p x = true → raised s t (fabSrc p) St.linkAuthFailed (leBytes 1 p.val) false) ∧ (s.linkOk p x = true → t.rings = s.rings) ∧
      otherPorts p s t ∧ t.fw.draws = s.fw.draws + 1 ∧ t.mem = s.mem := by
  obtain ⟨m, run⟩ := exec_linkExchange p x s
  have port : (s.exchanged p x m).port p = { s.port p with proof := s.linkOk p x, peerSwitch := x.switch } := State.port_modPort_same _ _ _
  have others : otherPorts p s (s.exchanged p x m) := fun q h => State.port_modPort_other _ p q _ h
  by_cases ok : s.linkOk p x = true
  · rw [if_pos ok] at run
    exact ⟨_, run, by rw [port], by rw [port], fun h => absurd ok h, fun _ => rfl, others, rfl, rfl⟩
  · rw [if_neg ok] at run
    have event := (s.exchanged p x m).raise_parent (fabSrc p) St.linkAuthFailed (leBytes 1 p.val)
    have ports : ∀ q, ((s.exchanged p x m).raise (fabSrc p) St.linkAuthFailed (leBytes 1 p.val)).port q = (s.exchanged p x m).port q :=
      fun q => event.same (fun s => s.port q) (fun _ => rfl)
    refine ⟨_, run, by rw [ports, port], by rw [ports, port], fun _ => (s.exchanged p x m).raise_raised _ _ _, fun h => absurd h ok, fun q h => (ports q).trans (others q h),
      event.same (fun s => s.fw.draws) (fun _ => rfl), event.same State.mem (fun _ => rfl)⟩

/-! ### Training -/

/-- The state in which a retraining of the port has been counted. -/
def State.retrainCounted (s : State) (p : PortId) : State := if s.bit (pfld p F.FAB_PORT_STAT_TRAINING) then s.count (pfld p F.FAB_PORT_ERR_RETRAINS) 1 else s

/-- The registers of a port that has entered service. -/
def State.portIn (s : State) (p : PortId) (n : Nat) : State :=
  ((((s.setFld (pfld p F.FAB_PORT_STAT_TRAINING) 0).setFld (pfld p F.FAB_PORT_STAT_AUTH) 1).setFld (pfld p F.FAB_PORT_STAT_UP) 1).setFld
    (pfld p F.FAB_PORT_STAT_PEER_PORT) n).putReady (64 + p.val) true

/-- A port that enters service. -/
def Port.enter (p : PortId) (x : Port) : Port := { x.trained p with retrains := [] }

/-- The failures of a port's training that count: those of the last 10 s, and this one. -/
def State.failures (s : State) (p : PortId) : List Nat :=
  (s.port p).retrains.filter (fun n => decide (s.clock.ns.toNat < n + 10000000000)) ++ [s.clock.ns.toNat]

/-- The state after a failure of training. -/
def State.trainFailed (s : State) (p : PortId) (l : List Nat) : State :=
  let u := s.modPort p (fun x => { x with retrains := l })
  if 3 ≤ l.length then (u.setFld (pfld p F.FAB_PORT_STAT_TRAINING) 0).setFld (pfld p F.FAB_PORT_STAT_DISABLED) 1
  else u.setFld (pfld p F.FAB_PORT_STAT_TRAINING) 1

/-- May the port train: out of service, not disabled, its die in service, the node not stopped? -/
def State.trains (s : State) (p : PortId) : Prop :=
  s.portUp p = false ∧ s.bit (pfld p F.FAB_PORT_STAT_DISABLED) = false ∧ s.ready (4 + p.val / 10) = true ∧ s.power.stopped = false

section
variable {s : State} {p : PortId} {n : BitVec 5} {now : BitVec 64}

theorem exec_portTrained_idle (h : s.trains p) : ¬((s.at_ now).portUp p = true ∨ (s.at_ now).bit (pfld p F.FAB_PORT_STAT_DISABLED) = true ∨
    (s.at_ now).ready (4 + p.val / 10) = false ∨ (s.at_ now).power.stopped = true) := by
  obtain ⟨hu, hd, hr, hs⟩ := h
  rintro (k | k | k | k)
  · exact absurd (k.symm.trans hu) (by decide)
  · exact absurd (k.symm.trans hd) (by decide)
  · exact absurd (k.symm.trans hr) (by decide)
  · exact absurd (k.symm.trans hs) (by decide)

theorem State.retrainCounted_keeps {π : State → State} {P : Nat → Prop} (s : State) (p : PortId) (h : ¬P (pfld p F.FAB_PORT_ERR_RETRAINS).off)
    (hπ : ∀ s l, π { s with regs := l } = π s) : Keeps π P s (s.retrainCounted p) := by
  unfold State.retrainCounted
  split
  · exact .setFld s _ h (hπ s)
  · exact .refl s

theorem exec_portTrained_proof (h : s.trains p) (hp : (s.port p).proof = true) :
    exec (.portTrained p n true now) s = .next (let u := (((s.at_ now).retrainCounted p).portIn p n.toNat).modPort p (Port.enter p)
      if u.nodeValid && !optical p then u.announceOn p else u) := by
  have proof : (((s.at_ now).retrainCounted p).port p).proof = true :=
    ((State.retrainCounted_keeps (π := fun s => { s with regs := [] }) (P := fun _ => False) (s.at_ now) p id (fun _ _ => rfl)).same
      (fun s => (s.port p).proof) (fun _ => rfl)).trans hp
  show execPortTrained p n true now s = _
  unfold execPortTrained
  refine congrArg Host.Outcome.next ((if_neg (exec_portTrained_idle h)).trans ((if_pos rfl).trans (if_pos ?_)))
  exact proof

theorem exec_portTrained_failed (h : s.trains p) :
    exec (.portTrained p n false now) s = .next (((s.at_ now).retrainCounted p).trainFailed p (((s.at_ now).retrainCounted p).failures p)) := by
  show execPortTrained p n false now s = _
  unfold execPortTrained
  exact congrArg Host.Outcome.next ((if_neg (exec_portTrained_idle h)).trans (if_neg (by decide)))

end

section
variable (s : State) (p : PortId) (n : Nat)

theorem State.portUp_portIn : (s.portIn p n).portUp p = true := by
  rw [State.portIn, State.portUp_putReady, State.portUp, State.bit_setPfld_field _ _ _ (by decide) (by decide) (by decide) (by decide)]
  exact State.bit_setPfld _ p true rfl (by decide)

theorem State.bit_portIn_auth : (s.portIn p n).bit (pfld p F.FAB_PORT_STAT_AUTH) = true := by
  rw [State.portIn, State.bit, State.fld_putReady_pfld _ _ _ _ (by decide)]
  refine (State.bit_setPfld_field (g := F.FAB_PORT_STAT_AUTH) _ _ _ (by decide) (by decide) (by decide) (by decide)).trans ?_
  rw [State.bit_setPfld_field _ _ _ (by decide) (by decide) (by decide) (by decide)]
  exact State.bit_setPfld _ p true rfl (by decide)

theorem State.bit_portIn_training : (s.portIn p n).bit (pfld p F.FAB_PORT_STAT_TRAINING) = false := by
  rw [State.portIn, State.bit, State.fld_putReady_pfld _ _ _ _ (by decide)]
  refine (State.bit_setPfld_field (g := F.FAB_PORT_STAT_TRAINING) _ _ _ (by decide) (by decide) (by decide) (by decide)).trans ?_
  rw [State.bit_setPfld_field _ _ _ (by decide) (by decide) (by decide) (by decide), State.bit_setPfld_field _ _ _ (by decide) (by decide) (by decide) (by decide)]
  exact State.bit_setPfld _ p false rfl (by decide)

theorem State.fld_portIn_peerPort : (s.portIn p n).fld (pfld p F.FAB_PORT_STAT_PEER_PORT) = n % 2 ^ 5 := by
  rw [State.portIn, State.fld_putReady_pfld _ _ _ _ (by decide)]
  exact State.fld_setPfld _ p n (by decide) (by decide)

theorem State.ready_portIn : (s.portIn p n).ready (64 + p.val) = true := by
  rw [State.portIn, State.ready_putReady, if_pos rfl]

theorem Port.enter_intake (x : Port) : (x.enter p).rxSeq = 0xFFFF ∧ (x.enter p).nak = false ∧ (x.enter p).retrains = [] := by
  have same := Port.pump_sameIntake (retryFlits p) x.backlog.length
    { x with txSeq := 0, rxSeq := BitVec.allOnes 16, nak := false, unacked := [], txPart := [], rxSlots := [], credits := [], fails := 0, txFails := 0, proof := false }
  exact ⟨same.rxSeq, same.nak, rfl⟩

end

theorem State.sendOn_sameIntake (s : State) (p : PortId) (m : OutMsg) : SameIntake (s.port p) ((s.sendOn p m).port p) := by
  unfold State.sendOn
  rw [State.port_send_keeps, State.port_modPort_same]
  exact Port.put_sameIntake _ _ _

/-- What the announcement on a port leaves. -/
theorem State.announceOn_links (s : State) (p : PortId) : Keeps State.lessLinks (fun _ => True) s (s.announceOn p) ∧ otherPorts p s (s.announceOn p) ∧
    SameIntake (s.port p) ((s.announceOn p).port p) := ⟨s.sendOn_links p _, (s.sendOn_frame p _).2.2, s.sendOn_sameIntake p _⟩

/-- Training with the proof of the link exchange (R408, R409). -/
theorem portTrained_enters {s : State} {p : PortId} (h : s.trains p) (hp : (s.port p).proof = true) (n : BitVec 5) (now : BitVec 64) :
    ∃ t, exec (.portTrained p n true now) s = .next t ∧ t.portUp p = true ∧ t.bit (pfld p F.FAB_PORT_STAT_AUTH) = true ∧
      t.bit (pfld p F.FAB_PORT_STAT_TRAINING) = false ∧ t.fld (pfld p F.FAB_PORT_STAT_PEER_PORT) = n.toNat ∧ t.ready (64 + p.val) = true ∧
      (t.port p).rxSeq = 0xFFFF ∧ (t.port p).nak = false ∧ (t.port p).retrains = [] ∧ otherPorts p s t ∧ t.mem = s.mem := by
  have run := exec_portTrained_proof (n := n) (now := now) h hp
  generalize hv : ((s.at_ now).retrainCounted p).portIn p n.toNat = v at run
  have counted := State.retrainCounted_keeps (π := fun s => { s with regs := [] }) (P := fun _ => False) (s.at_ now) p id (fun _ _ => rfl)
  have ports : v.ports = s.ports := by
    rw [← hv]
    exact counted.same State.ports (fun _ => rfl)
  have mem : v.mem = s.mem := by
    rw [← hv]
    exact counted.same State.mem (fun _ => rfl)
  have others : otherPorts p s (v.modPort p (Port.enter p)) := fun q hq => (State.port_modPort_other _ p q _ hq).trans (by rw [State.port, ports]; rfl)
  obtain ⟨seq, nak, retrains⟩ := Port.enter_intake p (v.port p)
  have last : ∃ t, exec (.portTrained p n true now) s = .next t ∧ Keeps State.lessLinks (fun _ => True) v t ∧ otherPorts p s t ∧ SameIntake ((v.port p).enter p) (t.port p) := by
    rw [run]
    have entered := v.modPort_links p (Port.enter p)
    by_cases ha : ((v.modPort p (Port.enter p)).nodeValid && !optical p) = true
    · obtain ⟨frame, other, same⟩ := (v.modPort p (Port.enter p)).announceOn_links p
      rw [State.port_modPort_same] at same
      exact ⟨_, congrArg Host.Outcome.next (if_pos ha), entered.trans frame, fun q hq => (other q hq).trans (others q hq), same⟩
    · refine ⟨_, congrArg Host.Outcome.next (if_neg ha), entered, others, ?_⟩
      rw [State.port_modPort_same]
      exact .refl _
  obtain ⟨t, ht, frame, other, same⟩ := last
  subst hv
  refine ⟨t, ht, ?_, ?_, ?_, ?_, ?_, same.rxSeq.trans seq, same.nak.trans nak, same.retrains.trans retrains, other, (frame.same State.mem (fun _ => rfl)).trans mem⟩
  · exact (frame.bit (f := pfld p F.FAB_PORT_STAT_UP) trivial).trans (State.portUp_portIn _ p n.toNat)
  · exact (frame.bit (f := pfld p F.FAB_PORT_STAT_AUTH) trivial).trans (State.bit_portIn_auth _ p n.toNat)
  · exact (frame.bit (f := pfld p F.FAB_PORT_STAT_TRAINING) trivial).trans (State.bit_portIn_training _ p n.toNat)
  · exact (frame.fld trivial).trans ((State.fld_portIn_peerPort _ p n.toNat).trans (Nat.mod_eq_of_lt n.isLt))
  · exact (State.ready_congr _ _ _ (frame.regs _ trivial)).trans (State.ready_portIn _ p n.toNat)

section
variable (s : State) (p : PortId) (l : List Nat)

theorem State.trainFailed_keeps {π : State → State} (hπ : ∀ s l q, π { s with regs := l, ports := q } = π s) : Keeps π (fun _ => False) s (s.trainFailed p l) := by
  refine ⟨?_, fun _ h => h.elim⟩
  unfold State.trainFailed
  simp only []
  split <;> exact hπ s _ _

theorem State.port_trainFailed (q : PortId) : (s.trainFailed p l).port q = if q = p then { s.port p with retrains := l } else s.port q := by
  have port : (s.trainFailed p l).port q = (s.modPort p (fun x => { x with retrains := l })).port q := by
    unfold State.trainFailed
    simp only []
    split <;> rfl
  rw [port]
  split
  case isTrue h => rw [h, State.port_modPort_same]
  case isFalse h => rw [State.port_modPort_other _ p q _ h]

theorem State.portUp_trainFailed : (s.trainFailed p l).portUp p = s.portUp p := by
  unfold State.trainFailed
  simp only []
  split
  · rw [State.portUp, State.bit_setPfld_field _ _ _ (by decide) (by decide) (by decide) (by decide), State.bit_setPfld_field _ _ _ (by decide) (by decide) (by decide) (by decide)]
    rfl
  · rw [State.portUp, State.bit_setPfld_field _ _ _ (by decide) (by decide) (by decide) (by decide)]
    rfl

theorem State.bit_trainFailed_disabled (h : s.bit (pfld p F.FAB_PORT_STAT_DISABLED) = false) :
    (s.trainFailed p l).bit (pfld p F.FAB_PORT_STAT_DISABLED) = decide (3 ≤ l.length) := by
  unfold State.trainFailed
  simp only []
  split
  case isTrue hl =>
    rw [decide_eq_true hl]
    exact State.bit_setPfld _ p true rfl (by decide)
  case isFalse hl =>
    rw [decide_eq_false hl, State.bit_setPfld_field _ _ _ (by decide) (by decide) (by decide) (by decide)]
    exact h

theorem State.bit_trainFailed_training : (s.trainFailed p l).bit (pfld p F.FAB_PORT_STAT_TRAINING) = decide (l.length < 3) := by
  unfold State.trainFailed
  simp only []
  split
  case isTrue hl =>
    rw [decide_eq_false (by omega), State.bit_setPfld_field _ _ _ (by decide) (by decide) (by decide) (by decide)]
    exact State.bit_setPfld _ p false rfl (by decide)
  case isFalse hl =>
    rw [decide_eq_true (by omega)]
    exact State.bit_setPfld _ p true rfl (by decide)

end

/-- A failure of training (R408, R409). -/
theorem portTrained_fails {s : State} {p : PortId} (h : s.trains p) (n : BitVec 5) (now : BitVec 64) :
    let near := (s.port p).retrains.filter (fun a => decide (max s.clock.ns.toNat now.toNat < a + 10000000000))
    ∃ t, exec (.portTrained p n false now) s = .next t ∧ t.portUp p = false ∧
      t.bit (pfld p F.FAB_PORT_STAT_DISABLED) = decide (2 ≤ near.length) ∧ t.bit (pfld p F.FAB_PORT_STAT_TRAINING) = decide (near.length < 2) ∧
      (t.port p).retrains = near ++ [max s.clock.ns.toNat now.toNat] ∧ otherPorts p s t ∧ t.mem = s.mem := by
  have run := exec_portTrained_failed (n := n) (now := now) h
  obtain ⟨hu, hd, -, -⟩ := h
  have counted := State.retrainCounted_keeps (π := fun s => { s with regs := [] }) (P := fun o => o ≠ (pfld p F.FAB_PORT_ERR_RETRAINS).off) (s.at_ now) p
    (fun k => k rfl) (fun _ _ => rfl)
  have off : ∀ {f : Fld}, f.off = F.FAB_PORT_STAT_UP.off → (pfld p f).off ≠ (pfld p F.FAB_PORT_ERR_RETRAINS).off := by
    intro f hf
    simp only [pfld, Fld.plus, hf, F.FAB_PORT_STAT_UP, F.FAB_PORT_ERR_RETRAINS]
    omega
  have port : ∀ q, ((s.at_ now).retrainCounted p).port q = s.port q := fun q => counted.same (fun s => s.port q) (fun _ => rfl)
  have failures : ((s.at_ now).retrainCounted p).failures p =
      (s.port p).retrains.filter (fun a => decide (max s.clock.ns.toNat now.toNat < a + 10000000000)) ++ [max s.clock.ns.toNat now.toNat] := by
    rw [State.failures, port, counted.same (fun s => s.clock.ns) (fun _ => rfl), s.ns_at]
  have up := (State.portUp_trainFailed _ p (((s.at_ now).retrainCounted p).failures p)).trans ((counted.bit (f := pfld p F.FAB_PORT_STAT_UP) (off rfl)).trans hu)
  have disabled := State.bit_trainFailed_disabled _ p (((s.at_ now).retrainCounted p).failures p) ((counted.bit (f := pfld p F.FAB_PORT_STAT_DISABLED) (off rfl)).trans hd)
  have training := State.bit_trainFailed_training ((s.at_ now).retrainCounted p) p (((s.at_ now).retrainCounted p).failures p)
  refine ⟨_, run, up, disabled.trans ?_, training.trans ?_, ?_, fun q hq => ?_, ?_⟩
  · rw [failures, List.length_append, List.length_singleton]
    exact decide_eq_decide.2 (by omega)
  · rw [failures, List.length_append, List.length_singleton]
    exact decide_eq_decide.2 (by omega)
  · rw [State.port_trainFailed, if_pos rfl]
    exact failures
  · rw [State.port_trainFailed, if_neg hq, port]
  · exact ((State.trainFailed_keeps _ p _ (π := fun s => { s with regs := [], ports := [] }) (fun _ _ _ => rfl)).same State.mem (fun _ => rfl)).trans
      (counted.same State.mem (fun _ => rfl))

end Sys2Proof.Machine
end

section
/-! Node numbers (R409, R420): SW_ASSIGN and NODE_ANNOUNCE, and ports that are put out of service. -/

namespace Sys2Proof.Machine

/-! ### The node's number on both fabric dies -/

/-- FAB_NODE_ID as the register table has it. -/
def nodeIdReg : RegDesc := ⟨.fab, 0x0, 0, 1, [⟨63, 63, .rw, .pkg, 0⟩, ⟨62, 14, .ro, .pkg, 0⟩, ⟨13, 0, .rw, .pkg, 0⟩]⟩

theorem regAt_nodeId : regAt R.FAB_NODE_ID = some nodeIdReg ∧ regAt (R.FAB_NODE_ID + 0x400000) = some nodeIdReg := by decide +kernel

/-- A field of FAB_NODE_ID that FBC0 writes holds what it has written. -/
theorem fld_nodeIdWrite (s : State) (v : BitVec 64) {f : FieldDesc} (hf : f ∈ nodeIdReg.fields) (ha : f.acc = .rw) {a : Nat}
    (hr : regAt a = some nodeIdReg) (hw : writerOk (.fw 4) a .rw = true) :
    (s.plainWrite (.fw 4) a v).fld ⟨a, f.hi, f.lo⟩ = bitsOf v f.hi f.lo := by
  have written := bitsOf_writeFields hr hf (.fw 4) (s.reg a) v
  rw [writtenField, ha, hw] at written
  rw [State.plainWrite, hr, State.fld]
  simp only []
  rw [State.reg_setReg_same, written]
  rfl

theorem State.busWrite_nodeId (s : State) (v : BitVec 64) :
    s.busWrite (.fw 4) R.FAB_NODE_ID v = (s.plainWrite (.fw 4) R.FAB_NODE_ID v).plainWrite (.fw 4) (R.FAB_NODE_ID + 0x400000) v := rfl

theorem State.plainWrite_keeps {π : State → State} {P : Nat → Prop} (s : State) (q : Requester) {a : Nat} (v : BitVec 64) (h : ¬P a)
    (hπ : ∀ l, π { s with regs := l } = π s) : Keeps π P s (s.plainWrite q a v) := by
  unfold State.plainWrite
  split
  · exact .refl s
  · exact ⟨hπ _, fun o ho => s.reg_setReg_ne _ _ _ (fun e => h (e ▸ ho))⟩

/-- The state whose two fabric dies hold n as the node's number. -/
def State.numbered (s : State) (n : Nat) : State := s.busWrite (.fw 4) R.FAB_NODE_ID (BitVec.ofNat 64 (2 ^ 63 + n))

/-- The registers that do not hold the node's number. -/
def notNumber (o : Nat) : Prop := o ≠ R.FAB_NODE_ID ∧ o ≠ R.FAB_NODE_ID + 0x400000

theorem State.numbered_keeps {π : State → State} (s : State) (n : Nat) (hπ : ∀ s l, π { s with regs := l } = π s) : Keeps π notNumber s (s.numbered n) := by
  rw [State.numbered, s.busWrite_nodeId]
  exact (s.plainWrite_keeps _ _ (fun h => h.1 rfl) (hπ s)).trans (State.plainWrite_keeps _ _ _ (fun h => h.2 rfl) (hπ _))

theorem numberWord {n : Nat} (h : n < 16384) : bitsOf (BitVec.ofNat 64 (2 ^ 63 + n)) 63 63 = 1 ∧ bitsOf (BitVec.ofNat 64 (2 ^ 63 + n)) 13 0 = n := by
  have word : (BitVec.ofNat 64 (2 ^ 63 + n)).toNat = 2 ^ 63 + n := Nat.mod_eq_of_lt (by omega)
  rw [bitsOf, bitsOf, word]
  omega

theorem State.fld_numbered (s : State) {n : Nat} (h : n < 16384) : (s.numbered n).nodeValid = true ∧ (s.numbered n).nodeId.toNat = n ∧
    (s.numbered n).fld (F.FAB_NODE_ID_NODE.plus 0x400000) = n := by
  obtain ⟨valid, node⟩ := numberWord h
  obtain ⟨first, second⟩ := regAt_nodeId
  have own : ∀ {f : FieldDesc}, f ∈ nodeIdReg.fields → f.acc = .rw →
      (s.numbered n).fld ⟨R.FAB_NODE_ID, f.hi, f.lo⟩ = bitsOf (BitVec.ofNat 64 (2 ^ 63 + n)) f.hi f.lo := by
    intro f hf ha
    have other := State.plainWrite_keeps (π := fun _ => s) (P := fun o => o = R.FAB_NODE_ID) (s.plainWrite (.fw 4) R.FAB_NODE_ID (BitVec.ofNat 64 (2 ^ 63 + n)))
      (.fw 4) (a := R.FAB_NODE_ID + 0x400000) (BitVec.ofNat 64 (2 ^ 63 + n)) (by decide) (fun _ => rfl)
    rw [State.numbered, s.busWrite_nodeId]
    exact (other.fld rfl).trans (fld_nodeIdWrite s _ hf ha first (by decide))
  refine ⟨?_, ?_, ?_⟩
  · exact congrArg (· != 0) ((own (f := ⟨63, 63, .rw, .pkg, 0⟩) (by decide) rfl).trans valid)
  · have fld : (s.numbered n).fld F.FAB_NODE_ID_NODE = n := (own (f := ⟨13, 0, .rw, .pkg, 0⟩) (by decide) rfl).trans node
    rw [State.nodeId, fld]
    exact Nat.mod_eq_of_lt h
  · rw [State.numbered, s.busWrite_nodeId]
    exact (fld_nodeIdWrite _ _ (f := ⟨13, 0, .rw, .pkg, 0⟩) (by decide) rfl second (by decide)).trans node

/-! ### Ports put out of service -/

/-- The registers that neither a port's state nor an event has. -/
def linkReg (o : Nat) : Prop := offPorts o ∧ quietReg o

section
variable (s : State) (p : PortId)

theorem State.portLeaves_links : Keeps State.lessLinks linkReg s (s.portLeaves p) ∧ ∀ q, q ≠ p → (s.portLeaves p).portUp q = s.portUp q := by
  by_cases h : s.portUp p = true
  · have left := State.portLeaves_left h
    exact ⟨left.frame, fun q hq => (left.up q).trans (if_neg hq)⟩
  · have stays : s.portLeaves p = s := if_pos (by simpa using h)
    rw [stays]
    exact ⟨.refl s, fun _ _ => rfl⟩

theorem State.raise_portUp (src : Nat) (c : Status) (d : List Byte) (q : PortId) : (s.raise src c d).portUp q = s.portUp q :=
  (s.raise_parent src c d).bit (f := pfld q F.FAB_PORT_STAT_UP) (quietReg_pfld q (by decide))

theorem State.portDenied_links : Keeps State.lessLinks linkReg s (s.portDenied p) ∧ ∀ q, q ≠ p → (s.portDenied p).portUp q = s.portUp q := by
  obtain ⟨frame, up⟩ := s.portLeaves_links p
  refine ⟨frame.trans ((State.raise_parent _ _ _ _).links.weaken (fun _ => rfl) (fun _ h => h.2)), fun q hq => ?_⟩
  exact (State.raise_portUp _ _ _ _ q).trans (up q hq)

theorem linkReg_nodeId : linkReg F.FAB_NODE_ID_NODE.off ∧ linkReg (F.FAB_NODE_ID_NODE.plus 0x400000).off := by
  unfold linkReg offPorts quietReg
  decide

theorem Keeps.nodeNumber {s t : State} (h : Keeps State.lessLinks linkReg s t) : t.nodeId = s.nodeId ∧ t.nodeValid = s.nodeValid ∧
    t.fld (F.FAB_NODE_ID_NODE.plus 0x400000) = s.fld (F.FAB_NODE_ID_NODE.plus 0x400000) := by
  refine ⟨?_, h.bit (f := F.FAB_NODE_ID_VALID) linkReg_nodeId.1, h.fld linkReg_nodeId.2⟩
  rw [State.nodeId, State.nodeId, h.fld linkReg_nodeId.1]

/-- A port in service that is put out of service (R409, R420). -/
theorem State.portDenied_result (h : s.portUp p = true) : (s.portDenied p).portUp p = false ∧
    raised s (s.portDenied p) (fabSrc p) St.linkAuthFailed (leBytes 1 p.val) false ∧ (s.portDenied p).nodeId = s.nodeId ∧
    ∀ q, q ≠ p → (s.portDenied p).portUp q = s.portUp q := by
  have left := State.portLeaves_left h
  obtain ⟨stamp, pick⟩ := left.frame.stamp (fun _ k => stampReg_links k) (fun _ => rfl)
  obtain ⟨frame, up⟩ := s.portDenied_links p
  have event := (s.portLeaves p).raise_raised (fabSrc p) St.linkAuthFailed (leBytes 1 p.val)
  rw [raised, stamp, pick] at event
  refine ⟨?_, event, frame.nodeNumber.1, up⟩
  exact (State.raise_portUp _ _ _ _ p).trans ((left.up p).trans (if_pos rfl))

end

/-! ### The message that brings a number -/

/-- The state that has taken a message from a port. -/
def State.taken (s : State) (p : PortId) (m : Msg) : State := (s.modPort p (fun x => { x with rxMsgs := x.rxMsgs.erase m })).hear m.src

theorem State.intake_takes {s : State} {p : PortId} {m : Msg} (h : takes s p m = true) : s.portUp p = true ∧ s.intake p m = (s.taken p m, true) := by
  simp only [takes, Bool.and_eq_true, Bool.not_eq_true', Bool.or_eq_true, beq_iff_eq] at h
  obtain ⟨⟨⟨up, fence⟩, malformed⟩, mine⟩ := h
  refine ⟨up, ?_⟩
  have stays : ¬((!s.portUp p || s.resil.fence.contains m.src) = true) := by rw [up, fence]; decide
  have whole : ¬(s.malformed m = true) := by rw [malformed]; decide
  have here : ¬((!m.loc && s.nodeValid && m.dst != s.nodeId) = true) := by
    obtain (h | h) | h := mine <;> simp [h]
  exact (if_neg stays).trans ((if_neg whole).trans (if_neg here))

section
variable {s : State} {p : PortId} {m : Msg} (h : takes s p m = true)
include h

theorem exec_swAssign (ho : optical p = true) : exec (.swAssign p m) s = .next (
    if !s.nodeValid then (s.taken p m).assignNumber (m.addr.toNat % 16384 / 16)
    else if s.nodeId.toNat / 16 ≠ m.addr.toNat % 16384 / 16 then (s.taken p m).portDenied p else s.taken p m) := by
  have take := (State.intake_takes h).2
  show execSwAssign p m s = _
  unfold execSwAssign
  rw [take, ho]
  rfl

theorem exec_nodeAnnounce (ho : optical p = false) : exec (.nodeAnnounce p m) s = .next (
    if s.nodeValid = true ∧ m.addr.toNat % 16384 / 16 ≠ s.nodeId.toNat / 16 then (s.taken p m).portDenied p
    else (((s.taken p m).setFld (pfld p F.FAB_PORT_STAT_PEER) (m.addr.toNat % 16384)).setFld (pfld p F.FAB_PORT_STAT_PEER_VALID) 1).assignParent) := by
  have take := (State.intake_takes h).2
  show execNodeAnnounce p m s = _
  unfold execNodeAnnounce
  rw [take, ho]
  rfl

end

/-! ### The first number -/

/-- A copper port whose peer stands in another span is put out of service. -/
def State.denyAlien (s : State) (p : PortId) : State := if s.alienPeer p then s.portDenied p else s

theorem State.assignNumber_eq (s : State) (k : Nat) :
    let u := s.numbered (k % 1024 * 16 + s.power.slotId.toNat % 16)
    let copper := u.livePorts.filter (fun p => !optical p)
    let v := copper.foldl State.denyAlien u
    s.assignNumber k = ((copper.filter v.portUp).foldl State.announceOn v).assignParent := rfl

/-- Denying copper ports leaves an uplink in service. -/
theorem foldl_denyAlien {p : PortId} (ho : optical p = true) (l : List PortId) (s : State) (hl : ∀ q ∈ l, optical q = false) :
    Keeps State.lessLinks linkReg s (l.foldl State.denyAlien s) ∧ (l.foldl State.denyAlien s).portUp p = s.portUp p := by
  induction l generalizing s with
  | nil => exact ⟨.refl s, rfl⟩
  | cons q l ih =>
    have other : p ≠ q := fun e => absurd (hl q List.mem_cons_self) (by rw [← e, ho]; decide)
    have step : Keeps State.lessLinks linkReg s (s.denyAlien q) ∧ (s.denyAlien q).portUp p = s.portUp p := by
      unfold State.denyAlien
      split
      · exact ⟨(s.portDenied_links q).1, (s.portDenied_links q).2 p other⟩
      · exact ⟨.refl s, rfl⟩
    obtain ⟨frame, up⟩ := ih (s.denyAlien q) (fun r hr => hl r (List.mem_cons_of_mem q hr))
    exact ⟨step.1.trans frame, up.trans step.2⟩

/-- Announcements and the choice of a parent leave every port's service. -/
theorem State.assignParent_announced (s : State) (l : List PortId) : Keeps State.lessLinks quietReg s (l.foldl State.announceOn s).assignParent :=
  .trans (.foldl (fun s p => (s.announceOn_links p).1.weaken (fun _ => rfl) (fun _ _ => trivial)) l s) (State.assignParent_parent _).links

/-- What the node's first number leaves: an uplink stays in service, and nothing of the memory changes. -/
theorem State.assignNumber_result (s : State) {k : Nat} (hk : k < 1024) {p : PortId} (hu : s.portUp p = true) (ho : optical p = true) :
    let n := k * 16 + s.power.slotId.toNat % 16
    (s.assignNumber k).nodeValid = true ∧ (s.assignNumber k).nodeId.toNat = n ∧ (s.assignNumber k).fld (F.FAB_NODE_ID_NODE.plus 0x400000) = n ∧
      (s.assignNumber k).portUp p = true ∧ (s.assignNumber k).mem = s.mem := by
  have run := s.assignNumber_eq k
  rw [Nat.mod_eq_of_lt hk] at run
  have number := s.numbered_keeps (π := State.lessLinks) (k * 16 + s.power.slotId.toNat % 16) (fun _ _ => rfl)
  obtain ⟨valid, node, node1⟩ := s.fld_numbered (n := k * 16 + s.power.slotId.toNat % 16) (by omega)
  generalize s.numbered (k * 16 + s.power.slotId.toNat % 16) = u at run number valid node node1
  obtain ⟨denied, up⟩ := foldl_denyAlien ho (u.livePorts.filter (fun p => !optical p)) u (fun q hq => by simpa using (List.mem_filter.1 hq).2)
  have told := State.assignParent_announced ((u.livePorts.filter (fun p => !optical p)).foldl State.denyAlien u)
    ((u.livePorts.filter (fun p => !optical p)).filter ((u.livePorts.filter (fun p => !optical p)).foldl State.denyAlien u).portUp)
  have frame : Keeps State.lessLinks linkReg u (s.assignNumber k) := run ▸ denied.trans (told.weaken (fun _ => rfl) (fun _ h => h.2))
  have service : (s.assignNumber k).portUp p = s.portUp p := by
    refine (run ▸ told.bit (f := pfld p F.FAB_PORT_STAT_UP) (quietReg_pfld p (by decide)) :).trans (up.trans ?_)
    refine number.bit (f := pfld p F.FAB_PORT_STAT_UP) ?_
    simp only [notNumber, pfld, Fld.plus, dieBase, F.FAB_PORT_STAT_UP, R.FAB_NODE_ID]
    omega
  obtain ⟨sameId, sameValid, sameId1⟩ := frame.nodeNumber
  exact ⟨sameValid.trans valid, (congrArg BitVec.toNat sameId).trans node, sameId1.trans node1, service.trans hu,
    (frame.same State.mem (fun _ => rfl)).trans (number.same State.mem (fun _ => rfl))⟩

/-! ### The statement -/

section
variable {s : State} {p : PortId} {m : Msg} (h : takes s p m = true)
include h

/-- A port in service whose message names another span is put out of service. -/
theorem State.taken_denied : ((s.taken p m).portDenied p).portUp p = false ∧
    raised s ((s.taken p m).portDenied p) (fabSrc p) St.linkAuthFailed (leBytes 1 p.val) false ∧ ((s.taken p m).portDenied p).nodeId = s.nodeId ∧
    ∀ q, q ≠ p → ((s.taken p m).portDenied p).portUp q = s.portUp q :=
  (s.taken p m).portDenied_result p (State.intake_takes h).1

/-- NODE_ANNOUNCE that is recorded (R420). -/
theorem nodeAnnounce_recorded (ho : optical p = false) (hn : s.nodeValid = false ∨ m.addr.toNat % 16384 / 16 = s.nodeId.toNat / 16) :
    ∃ t, exec (.nodeAnnounce p m) s = .next t ∧ t.fld (pfld p F.FAB_PORT_STAT_PEER) = m.addr.toNat % 16384 ∧
      t.bit (pfld p F.FAB_PORT_STAT_PEER_VALID) = true ∧ t.portUp p = true ∧ t.nodeId = s.nodeId ∧ t.mem = s.mem := by
  have mine : ¬(s.nodeValid = true ∧ m.addr.toNat % 16384 / 16 ≠ s.nodeId.toNat / 16) := fun k => hn.elim (fun e => absurd k.1 (by rw [e]; decide)) k.2
  have run := exec_nodeAnnounce h ho
  rw [if_neg mine] at run
  have peer : ∀ (u : State) {f : Fld} n, f.off = F.FAB_PORT_STAT_UP.off → Keeps State.lessLinks linkReg u (u.setFld (pfld p f) n) := by
    intro u f n hf
    refine u.setPfld_keeps p n (fun k => not_offPorts_stat p ?_) (fun _ => rfl)
    have e : (pfld p f).off = (pfld p F.FAB_PORT_STAT_UP).off := by rw [pfld, pfld, Fld.plus, Fld.plus, hf]
    exact e ▸ k.1
  have told := (peer (s.taken p m) (f := F.FAB_PORT_STAT_PEER) (m.addr.toNat % 16384) rfl).trans (peer _ (f := F.FAB_PORT_STAT_PEER_VALID) 1 rfl)
  have parent := State.assignParent_parent (((s.taken p m).setFld (pfld p F.FAB_PORT_STAT_PEER) (m.addr.toNat % 16384)).setFld (pfld p F.FAB_PORT_STAT_PEER_VALID) 1)
  have stat : ∀ {f : Fld}, (0x3000000 ≤ f.off ∧ f.off < 0x3400000) → _ := fun {f} hf => parent.fld (f := pfld p f) (quietReg_pfld p hf)
  refine ⟨_, run, ?_, ?_, ?_, ?_, ?_⟩
  · refine (stat (f := F.FAB_PORT_STAT_PEER) (by decide)).trans ?_
    rw [State.fld_setPfld_field _ _ _ (by decide) (by decide) (by decide) (by decide), State.fld_setPfld _ _ _ (by decide) (by decide)]
    exact Nat.mod_mod _ _
  · rw [State.bit, stat (f := F.FAB_PORT_STAT_PEER_VALID) (by decide)]
    exact State.bit_setPfld _ p true rfl (by decide)
  · rw [State.portUp, State.bit, stat (f := F.FAB_PORT_STAT_UP) (by decide), State.fld_setPfld_field _ _ _ (by decide) (by decide) (by decide) (by decide),
      State.fld_setPfld_field _ _ _ (by decide) (by decide) (by decide) (by decide)]
    exact (State.intake_takes h).1
  · exact (told.trans (parent.links.weaken (fun _ => rfl) (fun _ k => k.2))).nodeNumber.1
  · exact (parent.same State.mem (fun _ => rfl)).trans (told.same State.mem (fun _ => rfl))

end

/-- Settles O45: each operation at a port changes that port, its registers and what it has sent; the parts of the statement are the
results above. -/
theorem linksAndPorts : Obligations.LinksAndPorts := by
  refine ⟨fun p flit s => ⟨flitReceive_result p flit s, ackTimeoutResend p s, fun k n => d2dFlitRetry k s n⟩, fun p why now s => ⟨fun hu hw => ?_, fun hf ht => ?_, fun x => ?_,
    fun n hu hd hr hs => ⟨fun hp => ?_, ?_⟩⟩, fun p m s ht => ⟨fun ho => ⟨fun hv => ?_, fun hv hn => ?_, fun hv hn => ?_⟩, fun ho => ⟨fun hn => ?_, fun hv hn => ?_⟩⟩⟩
  · obtain ⟨t, run, left⟩ := portLeavesService_left hu hw now
    exact ⟨t, run, (left.up p).trans (if_pos rfl), left.auth, left.downEv, left.peerValid, left.training, left.ready, left.unacked, left.recorded,
      fun q hq => (left.up q).trans (if_neg hq), left.frame.same State.mem (fun _ => rfl), left.frame.same State.tiles (fun _ => rfl)⟩
  · exact exec_portLeavesService_stays hf ht now
  · obtain ⟨t, run, ok, switch, failed, passed, rest⟩ := linkExchange_result p x s
    rw [s.linkOk_iff p x] at ok failed passed
    exact ⟨t, run, ok, switch, failed, passed, rest⟩
  · exact portTrained_enters ⟨hu, hd, hr, hs⟩ hp n now
  · exact portTrained_fails ⟨hu, hd, hr, hs⟩ n now
  · have span : m.addr.toNat % 16384 / 16 < 1024 := by omega
    have run := exec_swAssign ht ho
    rw [hv] at run
    obtain ⟨valid, node, node1, up, mem⟩ := (s.taken p m).assignNumber_result span (p := p) (State.intake_takes ht).1 ho
    exact ⟨_, run, valid, node, node1, up, mem⟩
  · have run := exec_swAssign ht ho
    rw [hv, if_neg (by decide), if_neg (not_not_intro hn)] at run
    exact ⟨_, run, rfl, rfl, rfl, rfl⟩
  · have run := exec_swAssign ht ho
    rw [hv, if_neg (by decide), if_pos hn] at run
    exact ⟨_, run, State.taken_denied ht⟩
  · exact nodeAnnounce_recorded ht ho hn
  · have run := exec_nodeAnnounce ht ho
    rw [if_pos ⟨hv, hn⟩] at run
    exact ⟨_, run, State.taken_denied ht⟩

end Sys2Proof.Machine
end

section
/-! The form of the tiles (R117, R219): what every operation of the model leaves of the shuttle memories and the tile registers. An
operation that writes neither gets an equivalence, so that the form carries over in both directions; one that can write them, or
calls what can, gets an implication. The lemmas stand in the order of the definitions. -/

namespace Sys2Proof.Machine

/-- The tiles of a table are in canonical form: the shuttle memory and the tile registers of each. -/
structure TilesCanonical (l : Tab Tile) : Prop where
  smem : ∀ k : TileId, (Tab.get (fun _ => Tile.reset) l k.toNat).smem.wf = true
  treg : ∀ k : TileId, (Tab.get (fun _ => Tile.reset) l k.toNat).treg.wf = true

/-- The tiles of a state are in canonical form. -/
def State.Canonical (s : State) : Prop := TilesCanonical s.tiles

@[simp] theorem State.tilesCanonical_tiles (s : State) : TilesCanonical s.tiles ↔ s.Canonical := Iff.rfl

/-- Only the tiles matter. -/
@[simp] theorem State.canonical_mk {mem poison regs tiles harts running dirty wcb ceCount guard shadow heldWrites poolEvent flash flashBytes flashRegion ports
    reqs nextTag outbox cong overflow dir dirTrans coh ledger replays atomSeq synced mustSync ctxs draft resil fw rings hostOut power clock free pending} :
    (State.mk mem poison regs tiles harts running dirty wcb ceCount guard shadow heldWrites poolEvent flash flashBytes flashRegion ports
    reqs nextTag outbox cong overflow dir dirTrans coh ledger replays atomSeq synced mustSync ctxs draft resil fw rings hostOut power clock free pending).Canonical
      ↔ TilesCanonical tiles := Iff.rfl

@[simp] theorem State.canonical_ite (c : Prop) [Decidable c] (s t : State) : (if c then s else t).Canonical ↔ if c then s.Canonical else t.Canonical := by
  split <;> rfl

/-- A fold leaves the tiles when each of its steps does; π shows the state in what is folded. -/
theorem canonical_foldl_of {α β : Type} (π : β → State) {f : β → α → β} (hf : ∀ b x, (π (f b x)).Canonical ↔ (π b).Canonical) (l : List α) (b : β) :
    (π (l.foldl f b)).Canonical ↔ (π b).Canonical := by
  induction l generalizing b with
  | nil => exact Iff.rfl
  | cons x l ih => rw [List.foldl_cons, ih, hf]

@[simp] theorem State.canonical_foldl {α : Type} {f : State → α → State} (hf : ∀ s x, (f s x).Canonical ↔ s.Canonical) (l : List α) (s : State) :
    (l.foldl f s).Canonical ↔ s.Canonical := canonical_foldl_of id hf l s

@[simp] theorem State.canonical_foldl_fst {α β : Type} {f : State × β → α → State × β} (hf : ∀ r x, (f r x).1.Canonical ↔ r.1.Canonical) (l : List α)
    (r : State × β) : (l.foldl f r).1.Canonical ↔ r.1.Canonical := canonical_foldl_of Prod.fst hf l r

/-! ### Registers -/

@[simp] theorem State.canonical_setReg (s : State) (off : Nat) (v : BitVec 64) : (s.setReg off v).Canonical ↔ s.Canonical := by simp [State.setReg]

@[simp] theorem State.canonical_setFld (s : State) (f : Fld) (n : Nat) : (s.setFld f n).Canonical ↔ s.Canonical := by simp [State.setFld]

@[simp] theorem State.canonical_count (s : State) (f : Fld) (n : Nat) : (s.count f n).Canonical ↔ s.Canonical := by simp [State.count]

@[simp] theorem State.canonical_countWrap (s : State) (f : Fld) (n : Nat) : (s.countWrap f n).Canonical ↔ s.Canonical := by simp [State.countWrap]

/-! ### The shared operations -/

@[simp] theorem Tile.smem_setX (x : Tile) (n : BitVec 5) (v : Word) : (x.setX n v).smem = x.smem := by
  unfold Tile.setX
  split <;> rfl
@[simp] theorem Tile.treg_setX (x : Tile) (n : BitVec 5) (v : Word) : (x.setX n v).treg = x.treg := by
  unfold Tile.setX
  split <;> rfl
@[simp] theorem Tile.smem_setQueue (x : Tile) (k : Nat) (l : List QEntry) : (x.setQueue k l).smem = x.smem := by simp only [Tile.setQueue]
@[simp] theorem Tile.treg_setQueue (x : Tile) (k : Nat) (l : List QEntry) : (x.setQueue k l).treg = x.treg := by simp only [Tile.setQueue]
@[simp] theorem Tile.smem_setRun (x : Tile) (k : Nat) (r : Option EngRun) : (x.setRun k r).smem = x.smem := by simp only [Tile.setRun]
@[simp] theorem Tile.treg_setRun (x : Tile) (k : Nat) (r : Option EngRun) : (x.setRun k r).treg = x.treg := by simp only [Tile.setRun]
@[simp] theorem Tile.smem_putStatus (x : Tile) (k : Nat) (n : Word) (st : Status) : (x.putStatus k n st).smem = x.smem := by simp only [Tile.putStatus]
@[simp] theorem Tile.treg_putStatus (x : Tile) (k : Nat) (n : Word) (st : Status) : (x.putStatus k n st).treg = x.treg := by simp only [Tile.putStatus]
@[simp] theorem Tile.smem_namePick (x : Tile) (p : Pick) : (x.namePick p).smem = x.smem := by simp only [Tile.namePick]
@[simp] theorem Tile.treg_namePick (x : Tile) (p : Pick) : (x.namePick p).treg = x.treg := by simp only [Tile.namePick]

theorem State.tile_setTile (s : State) (t : TileId) (x : Tile) (k : TileId) : (s.setTile t x).tile k = if k = t then x else s.tile k := by
  split
  · next e => rw [e, State.tile_setTile_same]
  · next e => exact State.tile_setTile_other s t k x e

/-- A tile with the memory and the registers it had leaves the form of all tiles. -/
theorem State.canonical_setTile {s : State} {t : TileId} {x : Tile} (hm : x.smem = (s.tile t).smem) (hr : x.treg = (s.tile t).treg) :
    (s.setTile t x).Canonical ↔ s.Canonical := by
  have same : ∀ k, ((s.setTile t x).tile k).smem = (s.tile k).smem ∧ ((s.setTile t x).tile k).treg = (s.tile k).treg := by
    intro k
    rw [State.tile_setTile]
    split
    · next e => rw [e]; exact ⟨hm, hr⟩
    · exact ⟨rfl, rfl⟩
  constructor <;> intro h <;> refine ⟨fun k => ?_, fun k => ?_⟩
  · exact (same k).1 ▸ h.smem k
  · exact (same k).2 ▸ h.treg k
  · exact ((same k).1.symm ▸ h.smem k :)
  · exact ((same k).2.symm ▸ h.treg k :)

@[simp] theorem State.Canonical.setTile {s : State} (h : s.Canonical) {t : TileId} {x : Tile} (hm : x.smem.wf = true) (hr : x.treg.wf = true) :
    (s.setTile t x).Canonical := by
  have same : ∀ k, (s.setTile t x).tile k = if k = t then x else s.tile k := State.tile_setTile s t x
  refine ⟨fun k => ?_, fun k => ?_⟩
  · show ((s.setTile t x).tile k).smem.wf = true
    rw [same]
    split
    · exact hm
    · exact h.smem k
  · show ((s.setTile t x).tile k).treg.wf = true
    rw [same]
    split
    · exact hr
    · exact h.treg k

@[simp] theorem State.canonical_modTile {s : State} {t : TileId} {f : Tile → Tile} (hm : ∀ x, (f x).smem = x.smem) (hr : ∀ x, (f x).treg = x.treg) :
    (s.modTile t f).Canonical ↔ s.Canonical := State.canonical_setTile (hm _) (hr _)

@[simp] theorem State.canonical_setHart (s : State) (h : HartId) (x : Hart) : (s.setHart h x).Canonical ↔ s.Canonical := by simp [State.setHart]

@[simp] theorem State.canonical_modHart (s : State) (h : HartId) (f : Hart → Hart) : (s.modHart h f).Canonical ↔ s.Canonical := by simp [State.modHart]

@[simp] theorem State.canonical_setPort (s : State) (p : PortId) (x : Port) : (s.setPort p x).Canonical ↔ s.Canonical := by simp [State.setPort]

@[simp] theorem State.canonical_modPort (s : State) (p : PortId) (f : Port → Port) : (s.modPort p f).Canonical ↔ s.Canonical := by simp [State.modPort]

@[simp] theorem State.canonical_drawFree (s : State) : s.drawFree.2.Canonical ↔ s.Canonical := by simp [State.drawFree]

@[simp] theorem State.canonical_drawBytes (s : State) (n : Nat) : (s.drawBytes n).2.Canonical ↔ s.Canonical := by
  induction n generalizing s with
  | zero => rfl
  | succ n ih => simp [State.drawBytes, ih]

@[simp] theorem State.canonical_putReady (s : State) (n : Nat) (b : Bool) : (s.putReady n b).Canonical ↔ s.Canonical := by simp [State.putReady]

@[simp] theorem State.canonical_putReadyRange (s : State) (lo : Nat) (b : Bool) (n : Nat) : (s.putReadyRange lo b n).Canonical ↔ s.Canonical := by
  induction n generalizing s lo with
  | zero => rfl
  | succ n ih => simp [State.putReadyRange, ih]

@[simp] theorem State.canonical_putRecord (s : State) (r : EventRec) : (s.putRecord r).Canonical ↔ s.Canonical := by simp [State.putRecord]

@[simp] theorem State.canonical_settleRings (s : State) : s.settleRings.Canonical ↔ s.Canonical := by simp [State.settleRings]

@[simp] theorem State.canonical_markFamily (s : State) (code : Status) : (s.markFamily code).Canonical ↔ s.Canonical := by simp [State.markFamily]

@[simp] theorem State.canonical_raise (s : State) (src : Nat) (code : Status) (detail : List Byte) :
    (s.raise src code detail).Canonical ↔ s.Canonical := by simp [State.raise]

@[simp] theorem State.canonical_send (s : State) (m : OutMsg) : (s.send m).Canonical ↔ s.Canonical := by simp [State.send]

@[simp] theorem State.canonical_sendFatal (s : State) (code : Status) : (s.sendFatal code).Canonical ↔ s.Canonical := by simp [State.sendFatal]

@[simp] theorem State.canonical_raiseFatal (s : State) (src : Nat) (code : Status) (detail : List Byte) :
    (s.raiseFatal src code detail).Canonical ↔ s.Canonical := by simp [State.raiseFatal]

@[simp] theorem State.canonical_at_ (s : State) (now : BitVec 64) : (s.at_ now).Canonical ↔ s.Canonical := by simp [State.at_]

/-! ### The memory system -/

@[simp] theorem State.canonical_noteRead (s : State) (a n : Nat) : (s.noteRead a n).Canonical ↔ s.Canonical := by simp [State.noteRead]

@[simp] theorem State.canonical_poisonAdd (s : State) (u : Nat) : (s.poisonAdd u).Canonical ↔ s.Canonical := by simp [State.poisonAdd]

@[simp] theorem State.canonical_poisonDrop (s : State) (u : Nat) : (s.poisonDrop u).Canonical ↔ s.Canonical := by simp [State.poisonDrop]

@[simp] theorem State.canonical_sramPiece (s : State) (a : Nat) (d : List Byte) : (s.sramPiece a d).Canonical ↔ s.Canonical := by simp [State.sramPiece]

@[simp] theorem State.canonical_sramPut (s : State) (a : Nat) (d : List Byte) : (s.sramPut a d).Canonical ↔ s.Canonical := by simp [State.sramPut]

@[simp] theorem State.canonical_drainSector (s : State) (c : CtrlId) (e : WcbEntry) (k : Nat) :
    (s.drainSector c e k).Canonical ↔ s.Canonical := by simp [State.drainSector]

@[simp] theorem State.canonical_drainEntry (s : State) (c : CtrlId) (e : WcbEntry) : (s.drainEntry c e).Canonical ↔ s.Canonical := by simp [State.drainEntry]

@[simp] theorem State.canonical_setWcb (s : State) (c : CtrlId) (l : List WcbEntry) : (s.setWcb c l).Canonical ↔ s.Canonical := by simp [State.setWcb]

@[simp] theorem State.canonical_drainAll (s : State) (c : CtrlId) : (s.drainAll c).Canonical ↔ s.Canonical := by simp [State.drainAll]

@[simp] theorem State.canonical_wcbMerge (s : State) (c : CtrlId) (a : Nat) (d : List Byte) : (s.wcbMerge c a d).Canonical ↔ s.Canonical := by
  unfold State.wcbMerge
  simp only []
  (repeat' split) <;> simp

@[simp] theorem State.canonical_sectorPut (s : State) (a : Nat) (d : List Byte) : (s.sectorPut a d).Canonical ↔ s.Canonical := by simp [State.sectorPut]

@[simp] theorem State.canonical_dramPut (s : State) (a : Nat) (d : List Byte) : (s.dramPut a d).Canonical ↔ s.Canonical := by simp [State.dramPut]

@[simp] theorem State.canonical_markDirty (s : State) (page : Nat) : (s.markDirty page).Canonical ↔ s.Canonical := by simp [State.markDirty]

@[simp] theorem State.canonical_breakResv (s : State) (a n : Nat) : (s.breakResv a n).Canonical ↔ s.Canonical := by simp [State.breakResv]

@[simp] theorem State.canonical_guardedPut (s : State) (a : Nat) (d : List Byte) : (s.guardedPut a d).Canonical ↔ s.Canonical := by simp [State.guardedPut]

@[simp] theorem State.canonical_flushLine (s : State) (line : Nat) : (s.flushLine line).Canonical ↔ s.Canonical := by
  unfold State.flushLine
  split <;> simp

@[simp] theorem State.canonical_flushRange (s : State) (a n : Nat) : (s.flushRange a n).Canonical ↔ s.Canonical := by simp [State.flushRange]

@[simp] theorem State.canonical_writeBytes (s : State) (a : Nat) (d : List Byte) : (s.writeBytes a d).Canonical ↔ s.Canonical := by simp [State.writeBytes]

@[simp] theorem State.canonical_writeUnguarded (s : State) (a : Nat) (d : List Byte) :
    (s.writeUnguarded a d).Canonical ↔ s.Canonical := by simp [State.writeUnguarded]

@[simp] theorem State.canonical_coreLine (s : State) (a : Nat) (d : List Byte) : (s.coreLine a d).Canonical ↔ s.Canonical := by simp [State.coreLine]

@[simp] theorem State.canonical_recordErr (s : State) (c : CtrlId) (sector : Nat) (unc : Bool) :
    (s.recordErr c sector unc).Canonical ↔ s.Canonical := by simp [State.recordErr]

@[simp] theorem State.canonical_ceNote (s : State) (c : CtrlId) : (s.ceNote c).Canonical ↔ s.Canonical := by simp [State.ceNote]

@[simp] theorem State.canonical_sectorObs (s : State) (a : Nat) (obs : EccObs) : (s.sectorObs a obs).Canonical ↔ s.Canonical := by
  unfold State.sectorObs
  split <;> simp

@[simp] theorem State.canonical_wordObs (s : State) (a : Nat) (obs : EccObs) : (s.wordObs a obs).Canonical ↔ s.Canonical := by
  unfold State.wordObs
  split <;> simp

@[simp] theorem State.canonical_readObs (s : State) (a n : Nat) (obs : EccObs) : (s.readObs a n obs).Canonical ↔ s.Canonical := by simp [State.readObs]

@[simp] theorem State.canonical_drainWrite (s : State) (c : CtrlId) (v : BitVec 64) : (s.drainWrite c v).Canonical ↔ s.Canonical := by simp [State.drainWrite]

@[simp] theorem State.canonical_flashPut (s : State) (lba : Nat) (d : List Byte) : (s.flashPut lba d).Canonical ↔ s.Canonical := by simp [State.flashPut]

/-! ### The engines -/

@[simp] theorem State.canonical_bankAdd (s : State) (t : TileId) (p : Pick) (slot : Nat) (els : List (Nat × Nat)) :
    (s.bankAdd t p slot els).Canonical ↔ s.Canonical := by
  unfold State.bankAdd
  split
  · rfl
  · exact State.canonical_setTile rfl rfl

@[simp] theorem State.canonical_sramWrite (s : State) (t : TileId) (a : Nat) (d : List Byte) :
    (s.sramWrite t a d).Canonical ↔ s.Canonical := by simp [State.sramWrite]

@[simp] theorem State.canonical_startEng (s : State) (t : TileId) (k : Nat) (r : EngRun) : (s.startEng t k r).Canonical ↔ s.Canonical := by simp [State.startEng]

@[simp] theorem State.canonical_engError (s : State) (t : TileId) (k : Nat) (st : Status) (detail : List Byte) :
    (s.engError t k st detail).Canonical ↔ s.Canonical := by simp [State.engError]

@[simp] theorem State.canonical_numAdd (s : State) (t : TileId) (nsat nflush : Nat) : (s.numAdd t nsat nflush).Canonical ↔ s.Canonical := by simp [State.numAdd]

@[simp] theorem State.canonical_costLate (s : State) (ns : Nat) : (s.costLate ns).Canonical ↔ s.Canonical := by simp [State.costLate]

@[simp] theorem State.canonical_payLate (s : State) (t : TileId) : (s.payLate t).Canonical ↔ s.Canonical := by simp [State.payLate]

@[simp] theorem State.canonical_endEng (s : State) (t : TileId) (k : Nat) (r : EngRun) (err : Bool) (detail : List Byte) :
    (s.endEng t k r err detail).Canonical ↔ s.Canonical := by simp [State.endEng]

/-! ### Bobbins -/

@[simp] theorem State.canonical_setStack (s : State) (t : TileId) (k : Nat) (l : List BobEntry) :
    (s.setStack t k l).Canonical ↔ s.Canonical := by simp [State.setStack]

@[simp] theorem State.canonical_startBob (s : State) (t : TileId) (e : QEntry) (st : Status) (crec : Option Nat) (stack tag len flags : Nat) :
    (s.startBob t e st crec stack tag len flags).Canonical ↔ s.Canonical := by simp [State.startBob]

@[simp] theorem State.canonical_bobFault (s : State) (t : TileId) : (s.bobFault t).Canonical ↔ s.Canonical := by simp [State.bobFault]

@[simp] theorem State.canonical_bobPush (s : State) (t : TileId) (e : QEntry) (x : BobDesc) : (s.bobPush t e x).Canonical ↔ s.Canonical := by
  unfold State.bobPush
  simp only []
  split <;> simp

@[simp] theorem State.canonical_bobPop (s : State) (t : TileId) (e : QEntry) (x : BobDesc) : (s.bobPop t e x).Canonical ↔ s.Canonical := by
  unfold State.bobPop
  split <;> simp

@[simp] theorem State.canonical_bobClear (s : State) (t : TileId) (e : QEntry) (x : BobDesc) : (s.bobClear t e x).Canonical ↔ s.Canonical := by simp [State.bobClear]

@[simp] theorem State.canonical_bobRun (s : State) (t : TileId) (op : Nat) : (s.bobRun t op).Canonical ↔ s.Canonical := by
  unfold State.bobRun
  simp only []
  (repeat' split) <;> simp

@[simp] theorem State.canonical_bobEnd (s : State) (t : TileId) (r : EngRun) : (s.bobEnd t r).Canonical ↔ s.Canonical := by
  unfold State.bobEnd
  split <;> simp

end Sys2Proof.Machine
end

section
/-! The form of the tiles: messages, logs, picks and the sequencers. -/

namespace Sys2Proof.Machine

/-! ### Messages -/

@[simp] theorem State.canonical_sendOn (s : State) (p : PortId) (m : OutMsg) : (s.sendOn p m).Canonical ↔ s.Canonical := by simp [State.sendOn]

@[simp] theorem State.canonical_sendNow (s : State) (m : OutMsg) : (s.sendNow m).Canonical ↔ s.Canonical := by
  rcases s.sendNow_cases m with e | ⟨p, e⟩ <;> simp [e]

@[simp] theorem State.canonical_sendTo (s : State) (m : OutMsg) : (s.sendTo m).Canonical ↔ s.Canonical := by simp [State.sendTo]

@[simp] theorem State.canonical_blockedOne (s : State) : s.blockedOne.Canonical ↔ s.Canonical := by simp [State.blockedOne]

@[simp] theorem State.canonical_tell (s : State) (dst : NodeId) (vc opc : Nat) (args : List Nat) (d : List Byte) :
    (s.tell dst vc opc args d).Canonical ↔ s.Canonical := by simp [State.tell]

@[simp] theorem State.canonical_tellBulk (s : State) (dst : NodeId) (opc : Nat) (args : List Nat) (addr : Nat) (d : List Byte) :
    (s.tellBulk dst opc args addr d).Canonical ↔ s.Canonical := by simp [State.tellBulk]

@[simp] theorem State.canonical_ask (s : State) (o : Owner) (dst : NodeId) (vc opc addr len : Nat) (d : List Byte) :
    (s.ask o dst vc opc addr len d).1.Canonical ↔ s.Canonical := by
  unfold State.ask
  simp only []
  (repeat' split) <;> simp

@[simp] theorem State.canonical_noteMalformed (s : State) (p : PortId) (m : Msg) : (s.noteMalformed p m).Canonical ↔ s.Canonical := by simp [State.noteMalformed]

@[simp] theorem State.canonical_forward (s : State) (m : Msg) : (s.forward m).Canonical ↔ s.Canonical := by simp [State.forward]

@[simp] theorem State.canonical_hear (s : State) (n : NodeId) : (s.hear n).Canonical ↔ s.Canonical := by simp [State.hear]

@[simp] theorem State.canonical_intake (s : State) (p : PortId) (m : Msg) : (s.intake p m).1.Canonical ↔ s.Canonical := by
  unfold State.intake
  simp only []
  (repeat' split) <;> simp

@[simp] theorem State.canonical_setDir (s : State) (line : Nat) (z2 : Option DirState) : (s.setDir line z2).Canonical ↔ s.Canonical := by
  unfold State.setDir
  split <;> simp

@[simp] theorem State.canonical_openDir (s : State) (line opc : Nat) (dsts : List NodeId) (body : List Byte) (next : Option DirState)
    (waiting : List (PortId × Msg)) : (s.openDir line opc dsts body next waiting).Canonical ↔ s.Canonical := by
  simp [State.openDir]

theorem State.canonical_recallLine {s t : State} {line : Nat} {write : Bool} {waiting : List (PortId × Msg)} (h : s.recallLine line write waiting = some t) :
    t.Canonical ↔ s.Canonical := by
  unfold State.recallLine at h
  simp only [] at h
  repeat' split at h
  all_goals cases h <;> simp

theorem State.canonical_recall {s t : State} {a n : Nat} {write : Bool} {waiting : List (PortId × Msg)} (h : s.recall a n write waiting = some t) :
    t.Canonical ↔ s.Canonical := by
  unfold State.recall at h
  split at h
  · cases h
  · obtain ⟨_, _, e⟩ := List.exists_of_findSome?_eq_some h
    exact State.canonical_recallLine e

/-! ### The logs -/

@[simp] theorem State.canonical_appendAt (s : State) (n : NodeId) (pos lsn : Nat) (b : List Byte) :
    (s.appendAt n pos lsn b).Canonical ↔ s.Canonical := by simp [State.appendAt]

@[simp] theorem State.canonical_logInput (s : State) (type key : Nat) (payload : List Byte) : (s.logInput type key payload).1.Canonical ↔ s.Canonical := by
  unfold State.logInput
  simp only []
  (repeat' split) <;> simp

@[simp] theorem State.canonical_logNote (s : State) (type key : Nat) (payload : List Byte) :
    (s.logNote type key payload).Canonical ↔ s.Canonical := by simp [State.logNote]

@[simp] theorem State.canonical_logTake (s : State) (type key : Nat) : (s.logTake type key).1.Canonical ↔ s.Canonical := by
  unfold State.logTake
  split <;> simp

@[simp] theorem State.canonical_logRead (s : State) (key a : Nat) : (s.logRead key a).1.Canonical ↔ s.Canonical := by
  unfold State.logRead
  split <;> simp

@[simp] theorem State.canonical_applyWrite (s : State) (e : LogEntry) : (s.applyWrite e).Canonical ↔ s.Canonical := by simp [State.applyWrite]

@[simp] theorem State.canonical_reapplyAt (s : State) (i : Nat) : (s.reapplyAt i).Canonical ↔ s.Canonical := by simp [State.reapplyAt]

@[simp] theorem State.canonical_resendLog (s : State) : s.resendLog.Canonical ↔ s.Canonical := by
  unfold State.resendLog
  split <;> simp

@[simp] theorem State.canonical_replayBroken (s : State) : s.replayBroken.Canonical ↔ s.Canonical := by simp [State.replayBroken]

/-! ### Picks -/

@[simp] theorem State.canonical_lateEvent (s : State) (t : TileId) (p : Pick) (i : Nat) : (s.lateEvent t p i).Canonical ↔ s.Canonical := by simp [State.lateEvent]

@[simp] theorem State.canonical_closeBank (s : State) (t : TileId) (p : Pick) (onTime : Bool) :
    (s.closeBank t p onTime).Canonical ↔ s.Canonical := by simp [State.closeBank]

@[simp] theorem State.canonical_closeBefore (s : State) (t : TileId) (p : Pick) : (s.closeBefore t p).Canonical ↔ s.Canonical := by simp [State.closeBefore]

@[simp] theorem State.canonical_makeCurrent (s : State) (t : TileId) (p : Pick) (i : Nat) (onTime : Bool) :
    (s.makeCurrent t p i onTime).Canonical ↔ s.Canonical := by
  unfold State.makeCurrent
  extract_lets closed u
  have shut : closed.Canonical ↔ s.Canonical := by
    unfold closed
    split <;> simp
  have named : u.Canonical ↔ s.Canonical := by
    unfold u
    split
    · rfl
    · simp [shut]
  split
  · split <;> simp [named]
  · exact named

@[simp] theorem State.canonical_closeHalted (s : State) (t : TileId) : (s.closeHalted t).Canonical ↔ s.Canonical := by
  unfold State.closeHalted
  split <;> simp

@[simp] theorem State.canonical_oweLate (s : State) (t : TileId) (i : Nat) (p : Pick) : (s.oweLate t i p).Canonical ↔ s.Canonical := by
  unfold State.oweLate
  simp only []
  split
  · exact State.canonical_setTile rfl rfl
  · rfl

@[simp] theorem State.canonical_fireTile (s : State) (t : TileId) (i : Nat) (p : Pick) : (s.fireTile t i p).Canonical ↔ s.Canonical := by
  unfold State.fireTile
  simp only []
  split <;> simp

@[simp] theorem State.canonical_fireEvent (s : State) (i : Nat) : (s.fireEvent i).Canonical ↔ s.Canonical := by simp [State.fireEvent]

@[simp] theorem State.canonical_startPick (s : State) (n : Pick) : (s.startPick n).Canonical ↔ s.Canonical := by simp [State.startPick]

@[simp] theorem State.canonical_handBank (s : State) (t : TileId) (b : Bank) : (s.handBank t b).Canonical ↔ s.Canonical := by simp [State.handBank]

@[simp] theorem State.canonical_putDigest (s : State) (x : Draft) (d : Pick × Tab (Nat × Nat) × List Nat × Bool) :
    (s.putDigest x d).Canonical ↔ s.Canonical := by simp [State.putDigest]

/-! ### The sequencers -/

@[simp] theorem State.canonical_retire (s : State) (t : TileId) (n : Word) : (s.retire t n).Canonical ↔ s.Canonical := by simp [State.retire]

@[simp] theorem State.canonical_retireRd (s : State) (t : TileId) (rd : BitVec 5) (v : Word) :
    (s.retireRd t rd v).Canonical ↔ s.Canonical := by simp [State.retireRd]

@[simp] theorem State.canonical_await (s : State) (t : TileId) (w : Wait) : (s.await t w).Canonical ↔ s.Canonical := by simp [State.await]

@[simp] theorem State.canonical_haltShuttle (s : State) (t : TileId) : (s.haltShuttle t).Canonical ↔ s.Canonical := by simp [State.haltShuttle]

@[simp] theorem State.canonical_trapShuttle (s : State) (t : TileId) (cause tval : Nat) :
    (s.trapShuttle t cause tval).Canonical ↔ s.Canonical := by simp [State.trapShuttle]

@[simp] theorem State.canonical_setArrival (s : State) (t : TileId) (n : Nat) (v : Word) : (s.setArrival t n v).Canonical ↔ s.Canonical := by simp [State.setArrival]

@[simp] theorem State.canonical_bumpArrival (s : State) (t : TileId) (n k : Nat) : (s.bumpArrival t n k).Canonical ↔ s.Canonical := by simp [State.bumpArrival]

@[simp] theorem State.canonical_startShuttle (s : State) (t : TileId) : (s.startShuttle t).Canonical ↔ s.Canonical := by simp [State.startShuttle]

@[simp] theorem State.canonical_seqCtrlWrite (s : State) (t : TileId) (v : BitVec 64) : (s.seqCtrlWrite t v).Canonical ↔ s.Canonical := by simp [State.seqCtrlWrite]

@[simp] theorem State.canonical_arriveWrite (s : State) (t : TileId) (n : Nat) (v : BitVec 64) (same : Nat) :
    (s.arriveWrite t n v same).Canonical ↔ s.Canonical := by simp [State.arriveWrite]

@[simp] theorem State.canonical_enqueue (s : State) (t : TileId) (code : Nat) (d : List Byte) (bad : Bool) :
    (s.enqueue t code d bad).1.Canonical ↔ s.Canonical := by
  unfold State.enqueue
  simp only []
  split
  · exact State.canonical_setTile rfl rfl
  · exact (State.canonical_setFld ..).trans (State.canonical_setTile rfl rfl)

end Sys2Proof.Machine
end

section
/-! The form of the tiles: collectives and the tensor engines. -/

namespace Sys2Proof.Machine

/-! ### Collectives -/

@[simp] theorem State.canonical_setCtx (s : State) (c : CtxId) (x : Ctx) : (s.setCtx c x).Canonical ↔ s.Canonical := by simp [State.setCtx]

theorem State.canonical_createCtx {s t : State} {c gid ms force byHost aborted thresh} (h : s.createCtx c gid ms force byHost aborted thresh = some t) :
    t.Canonical ↔ s.Canonical := by
  unfold State.createCtx at h
  split at h
  · cases h
  · cases h
    simp

@[simp] theorem State.canonical_regroup (s : State) (c : CtxId) (ms : List NodeId) : (s.regroup c ms).Canonical ↔ s.Canonical := by
  unfold State.regroup
  split <;> simp

@[simp] theorem State.canonical_modCtx (s : State) (c : CtxId) (r : ColRun) : (s.modCtx c r).Canonical ↔ s.Canonical := by
  unfold State.modCtx
  split <;> simp

@[simp] theorem State.canonical_colErr (s : State) (st : Status) (gid seq : Word) : (s.colErr st gid seq).Canonical ↔ s.Canonical := by simp [State.colErr]

@[simp] theorem State.canonical_colRecord (s : State) (desc : List Byte) (gid seq : Word) (st : Status) (alg start nsat nflush : Nat) (replayed : Bool) :
    (s.colRecord desc gid seq st alg start nsat nflush replayed).Canonical ↔ s.Canonical := by simp [State.colRecord]

@[simp] theorem State.canonical_colSpoil (s : State) (desc : List Byte) (p me : Nat) (st : Status) :
    (s.colSpoil desc p me st).Canonical ↔ s.Canonical := by simp [State.colSpoil]

@[simp] theorem State.canonical_colFail (s : State) (x : Ctx) (desc : List Byte) (seq : Word) (st : Status) (alg start : Nat) (aborted : Bool) :
    (s.colFail x desc seq st alg start aborted).Canonical ↔ s.Canonical := by simp [State.colFail]

@[simp] theorem State.canonical_colSend (s : State) (n : NodeId) (opc : Nat) (d : List Byte) : (s.colSend n opc d).Canonical ↔ s.Canonical := by simp [State.colSend]

@[simp] theorem State.canonical_colTell (s : State) (x : Ctx) (seq ddig : Word) (phase : Nat) (reason : Status) :
    (s.colTell x seq ddig phase reason).Canonical ↔ s.Canonical := by simp [State.colTell]

@[simp] theorem State.canonical_colMark (s : State) (c : CtxId) (seq : Word) (reason : Status) : (s.colMark c seq reason).Canonical ↔ s.Canonical := by
  unfold State.colMark
  split <;> simp

@[simp] theorem State.canonical_colAbortRun (s : State) (c : CtxId) (st reason : Status) : (s.colAbortRun c st reason).Canonical ↔ s.Canonical := by
  unfold State.colAbortRun
  simp only []
  (repeat' split) <;> simp

@[simp] theorem State.canonical_colSubmit (s : State) (a : Nat) : (s.colSubmit a).Canonical ↔ s.Canonical := by
  unfold State.colSubmit
  simp only []
  (repeat' split) <;> simp

@[simp] theorem State.canonical_grant (s : State) (x : Ctx) (r : ColRun) (step peer slot : Nat) :
    (s.grant x r step peer slot).Canonical ↔ s.Canonical := by simp [State.grant]

@[simp] theorem State.canonical_openStep (s : State) (x : Ctx) (r : ColRun) : (s.openStep x r).Canonical ↔ s.Canonical := by
  unfold State.openStep
  split <;> simp

@[simp] theorem State.canonical_sendSlot (s : State) (x : Ctx) (r : ColRun) (step peer slot : Nat) (d : List Byte) :
    (s.sendSlot x r step peer slot d).Canonical ↔ s.Canonical := by simp [State.sendSlot]

@[simp] theorem State.canonical_useCredit (s : State) (c : CtxId) (peer : Nat) (l : List (Nat × Nat)) : (s.useCredit c peer l).Canonical ↔ s.Canonical := by
  unfold State.useCredit
  simp only []
  (repeat' split) <;> simp

@[simp] theorem State.canonical_colPump (c : CtxId) (n : Nat) (s : State) : (State.colPump c n s).Canonical ↔ s.Canonical := by
  induction n generalizing s with
  | zero => rfl
  | succ n ih =>
    unfold State.colPump
    simp only []
    repeat' split
    all_goals simp [ih]

@[simp] theorem State.canonical_colGo (s : State) (c : CtxId) : (s.colGo c).Canonical ↔ s.Canonical := by
  unfold State.colGo
  split <;> simp

@[simp] theorem State.canonical_colPolicy (s : State) (c : CtxId) (seq : Word) : (s.colPolicy c seq).Canonical ↔ s.Canonical := by simp [State.colPolicy]

@[simp] theorem State.canonical_colReplay (s : State) (x : Ctx) (r : ColRun) : (s.colReplay x r).Canonical ↔ s.Canonical := by
  unfold State.colReplay
  split <;> simp

@[simp] theorem State.canonical_colHead (s : State) (c : CtxId) (x : Ctx) (q : ColQ) (rest : List ColQ) :
    (s.colHead c x q rest).Canonical ↔ s.Canonical := by simp [State.colHead]

@[simp] theorem State.canonical_colFind (s : State) (m : Msg) : (s.colFind m).1.Canonical ↔ s.Canonical := by
  unfold State.colFind
  split
  · simp
  split
  · rfl
  · split <;> simp

@[simp] theorem State.canonical_colTake (s : State) (c : CtxId) (x : Ctx) (r : ColRun) (t : ColStep) (peer slot : Nat) (d : List Byte) :
    (s.colTake c x r t peer slot d).Canonical ↔ s.Canonical := by
  unfold State.colTake
  split <;> simp

@[simp] theorem State.canonical_colEnd (s : State) (c : CtxId) : (s.colEnd c).Canonical ↔ s.Canonical := by
  unfold State.colEnd
  simp only []
  (repeat' split) <;> simp

@[simp] theorem State.canonical_colComplete (s : State) (c : CtxId) (x : Ctx) (r : ColRun) : (s.colComplete c x r).Canonical ↔ s.Canonical := by
  unfold State.colComplete
  simp only []
  (repeat' split) <;> simp

@[simp] theorem State.canonical_colFlush (s : State) (c : CtxId) : (s.colFlush c).Canonical ↔ s.Canonical := by
  unfold State.colFlush
  simp only []
  (repeat' split) <;> simp

@[simp] theorem State.canonical_colReset (s : State) (c : CtxId) (seq : Nat) : (s.colReset c seq).Canonical ↔ s.Canonical := by simp [State.colReset]

@[simp] theorem State.canonical_colDrop (s : State) (c : CtxId) : (s.colDrop c).Canonical ↔ s.Canonical := by simp [State.colDrop]

@[simp] theorem State.canonical_colDestroy (s : State) (c : CtxId) : (s.colDestroy c).Canonical ↔ s.Canonical := by simp [State.colDestroy]

@[simp] theorem State.canonical_colCtl (s : State) (q : Requester) (c : CtxId) (v : BitVec 64) : (s.colCtl q c v).Canonical ↔ s.Canonical := by simp [State.colCtl]

@[simp] theorem State.canonical_colPolicyWrite (s : State) (q : Requester) (c : CtxId) (v : BitVec 64) :
    (s.colPolicyWrite q c v).Canonical ↔ s.Canonical := by simp [State.colPolicyWrite]

@[simp] theorem State.canonical_colLost (s : State) (n : NodeId) : (s.colLost n).Canonical ↔ s.Canonical := by
  unfold State.colLost
  refine State.canonical_foldl (fun s e => ?_) _ _
  simp only []
  repeat' split
  all_goals simp

/-! ### Elementwise operations -/

theorem Memory.wf_putRegs (l : Tab (List Byte)) (m : Memory) (h : m.wf = true) : (l.foldl (fun m r => m.writeN (1024 * r.1) r.2) m).wf = true :=
  List.foldlRecOn l _ (motive := fun m : Memory => m.wf = true) h fun m hm _ _ => Memory.wf_writeN m _ _ hm

@[simp] theorem State.Canonical.putRegs {s : State} (h : s.Canonical) (t : TileId) (l : Tab (List Byte)) : (s.putRegs t l).Canonical :=
  h.setTile (h.smem t) (Memory.wf_putRegs l _ (h.treg t))

@[simp] theorem ChainSt.canonical_iter (t : TileId) (x : ChainDesc) (bank : Option Pick) (q : ChainSt) (i : Nat) :
    (q.iter t x bank i).s.Canonical ↔ q.s.Canonical := by
  unfold ChainSt.iter
  split
  · rfl
  extract_lets tl ld src w st stored counted e summed
  have store : ∀ (o : StreamW) (s : State), (st o s).Canonical ↔ s.Canonical := by
    intro o s
    unfold st
    split <;> simp
  have h1 : stored.Canonical ↔ q.s.Canonical := (store ..).trans (store ..)
  have h2 : counted.Canonical ↔ stored.Canonical := by
    unfold counted
    split <;> simp
  have h3 : summed.Canonical ↔ counted.Canonical := by
    unfold summed
    split
    · split <;> simp
    · rfl
  split
  · rfl
  · exact h3.trans (h2.trans h1)

@[simp] theorem State.Canonical.chainUndef {s : State} (h : s.Canonical) (t : TileId) (x : ChainDesc) (i : Nat) : (s.chainUndef t x i).Canonical := by
  unfold State.chainUndef
  refine foldl_keeps State.Canonical _ (fun s r hs => State.Canonical.putRegs (by simpa using hs) ..) _ _ ?_
  refine foldl_keeps State.Canonical _ (fun s j hs => ?_) _ _ h
  simp only []
  split <;> simpa using hs

@[simp] theorem State.Canonical.chainRun {s : State} (h : s.Canonical) (t : TileId) (e : QEntry) : (s.chainRun t e).Canonical := by
  unfold State.chainRun
  extract_lets x bank crec q src uncorrectable
  split
  · simpa using h
  split
  · simpa using h
  have ran : q.s.Canonical := (canonical_foldl_of ChainSt.s (fun q i => q.canonical_iter t x bank i) _ _).2 h
  split
  · simpa using (ran.putRegs ..).chainUndef ..
  · simpa using ran.putRegs ..

@[simp] theorem State.canonical_elemEnd (s : State) (t : TileId) (r : EngRun) (bank withheld : Nat) : (s.elemEnd t r bank withheld).Canonical ↔ s.Canonical := by
  unfold State.elemEnd
  split <;> simp

/-! ### Matrix products -/

@[simp] theorem State.canonical_storeImg (s : State) (t : TileId) (base rows cols esz : Nat) (v : Nat → Nat → Int) :
    (s.storeImg t base rows cols esz v).Canonical ↔ s.Canonical := by simp [State.storeImg]

@[simp] theorem State.canonical_storeElem (s : State) (t : TileId) (x : SolvDesc) (b : Nat) (r : DRes) :
    (s.storeElem t x b r).Canonical ↔ s.Canonical := by simp [State.storeElem]

@[simp] theorem State.canonical_denseUndef (s : State) (t : TileId) (x : SolvDesc) : (s.denseUndef t x).Canonical ↔ s.Canonical := by
  unfold State.denseUndef
  exact State.canonical_foldl (fun _ _ => State.canonical_foldl (fun _ _ => State.canonical_foldl (fun _ _ => by simp) _ _) _ _) _ _

@[simp] theorem State.canonical_solvFail (s : State) (t : TileId) (e : QEntry) (st : Status) (crec : Option Nat) :
    (s.solvFail t e st crec).Canonical ↔ s.Canonical := by simp [State.solvFail]

@[simp] theorem State.canonical_denseRun (s : State) (t : TileId) (e : QEntry) (x : SolvDesc) : (s.denseRun t e x).Canonical ↔ s.Canonical := by
  unfold State.denseRun
  simp only []
  (repeat' split) <;> simp

@[simp] theorem State.Canonical.solvHead {s : State} (h : s.Canonical) {run : State → QEntry → SolvDesc → State} (hr : ∀ s e x, s.Canonical → (run s e x).Canonical)
    (t : TileId) (op : Nat) : (s.solvHead t op run).Canonical := by
  unfold State.solvHead
  split
  · exact h
  simp only []
  split
  · simpa using h
  split
  · simpa using h
  split
  · exact hr _ _ _ h
  · exact h

/-! ### Patterns -/

@[simp] theorem State.canonical_undefBytes (s : State) (t : TileId) (a n : Nat) : (s.undefBytes t a n).Canonical ↔ s.Canonical := by simp [State.undefBytes]

@[simp] theorem State.canonical_undefBlocks (s : State) (t : TileId) (base : Nat) (p : Pat) :
    (s.undefBlocks t base p).Canonical ↔ s.Canonical := by simp [State.undefBlocks]

@[simp] theorem State.canonical_undefRegions (s : State) (t : TileId) (l : List (Nat × Nat × Bool × Bool)) :
    (s.undefRegions t l).Canonical ↔ s.Canonical := by simp [State.undefRegions]

@[simp] theorem State.canonical_assembleStore (s : State) (t : TileId) (p : Pat) (b : Nat) (els : List (Nat × Int)) :
    (s.assembleStore t p b els).Canonical ↔ s.Canonical := by simp [State.assembleStore]

@[simp] theorem State.canonical_assembleRun (s : State) (t : TileId) (e : QEntry) (x : SolvDesc) (p : Pat) :
    (s.assembleRun t e x p).Canonical ↔ s.Canonical := by simp [State.assembleRun]

@[simp] theorem State.canonical_storeWork (s : State) (t : TileId) (p : Pat) (b : Nat) (r : SolvRes) (q : SolvSt) :
    (s.storeWork t p b r q).Canonical ↔ s.Canonical := by simp [State.storeWork]

@[simp] theorem State.canonical_takeSeq (s : State) (t : TileId) (x : SolvDesc) : (s.takeSeq t x).1.Canonical ↔ s.Canonical := by
  unfold State.takeSeq
  split <;> simp

@[simp] theorem State.canonical_solveRun (s : State) (t : TileId) (e : QEntry) (x : SolvDesc) (dl : DlPoint) (p : Pat) :
    (s.solveRun t e x dl p).Canonical ↔ s.Canonical := by
  unfold State.solveRun
  extract_lets tk taken seq src run rep logged rule warm wsr ins r miss warned worked pick stored summed evs lists
  have h1 : taken.Canonical ↔ s.Canonical := s.canonical_takeSeq t x
  split
  · simp [h1]
  have h2 : warned.Canonical ↔ taken.Canonical := by
    unfold warned
    split <;> simp
  have h3 : worked.Canonical ↔ warned.Canonical := State.canonical_foldl (fun s c => s.canonical_storeWork ..) _ _
  have h4 : stored.Canonical ↔ worked.Canonical := by
    unfold stored
    split
    · exact State.canonical_undefBytes ..
    · exact (State.canonical_foldl (fun s c => s.canonical_sramWrite ..) _ _).trans (State.canonical_sramWrite ..)
  have h5 : summed.Canonical ↔ stored.Canonical := by
    unfold summed
    split
    · split
      · exact State.canonical_bankAdd ..
      · rfl
    · rfl
  rw [State.canonical_startEng, h5, h4, h3, h2, h1]

@[simp] theorem State.canonical_patRun (s : State) (t : TileId) (e : QEntry) (x : SolvDesc) (dl : DlPoint) : (s.patRun t e x dl).Canonical ↔ s.Canonical := by
  unfold State.patRun
  simp only []
  (repeat' split) <;> simp

@[simp] theorem State.canonical_logOutcome (s : State) (t : TileId) (r : EngRun) : (s.logOutcome t r).Canonical ↔ s.Canonical := by
  unfold State.logOutcome
  split <;> simp

@[simp] theorem State.canonical_countOutcome (s : State) (t : TileId) (st : Status) : (s.countOutcome t st).Canonical ↔ s.Canonical := by simp [State.countOutcome]

@[simp] theorem State.canonical_solverEnd (s : State) (t : TileId) (r : EngRun) (bank withheld : Nat) : (s.solverEnd t r bank withheld).Canonical ↔ s.Canonical := by
  unfold State.solverEnd
  split <;> simp

/-! ### Tensors -/

@[simp] theorem State.canonical_tensorStore (s : State) (t : TileId) (x : TensorDesc) (bank : Option Pick) (els : List ((Nat × Nat) × Nat)) :
    (s.tensorStore t x bank els).Canonical ↔ s.Canonical := by
  unfold State.tensorStore
  split <;> simp

@[simp] theorem State.canonical_freeEls {α : Type} (s : State) (l : List α) : (s.freeEls l).2.Canonical ↔ s.Canonical := by
  induction l generalizing s with
  | nil => rfl
  | cons a l ih => simp [State.freeEls, ih]

@[simp] theorem State.canonical_tensorRun (s : State) (t : TileId) (e : QEntry) : (s.tensorRun t e).Canonical ↔ s.Canonical := by
  unfold State.tensorRun
  simp only []
  (repeat' split) <;> simp

@[simp] theorem State.canonical_tensorEnd (s : State) (t : TileId) (r : EngRun) (bank withheld : Nat) : (s.tensorEnd t r bank withheld).Canonical ↔ s.Canonical := by
  unfold State.tensorEnd
  simp only []
  (repeat' split) <;> simp

end Sys2Proof.Machine
end

section
/-! The form of the tiles: schedules, resets, power and jobs. -/

namespace Sys2Proof.Machine

/-! ### Schedules -/

@[simp] theorem State.canonical_setActive (s : State) (t : TileId) (base : Nat) (d : List Byte) :
    (s.setActive t base d).Canonical ↔ s.Canonical := by simp [State.setActive]

@[simp] theorem State.canonical_freezeActivate (s : State) (t : TileId) : (s.freezeActivate t).Canonical ↔ s.Canonical := by
  unfold State.freezeActivate
  simp only []
  (repeat' split) <;> simp

@[simp] theorem State.canonical_schedPick (s : State) (t : TileId) : (s.schedPick t).Canonical ↔ s.Canonical := by simp [State.schedPick]

@[simp] theorem State.canonical_schedFail (s : State) (t : TileId) (st : Status) (detail : List Byte) : (s.schedFail t st detail).Canonical ↔ s.Canonical := by
  unfold State.schedFail
  refine State.canonical_modTile (fun x => ?_) (fun x => ?_) <;> split <;> rfl

@[simp] theorem State.canonical_settleOut (s : State) (t : TileId) (h : SchedHdr) (o : SchedOut) : (s.settleOut t h o).Canonical ↔ s.Canonical := by
  unfold State.settleOut
  simp only []
  (repeat' split) <;> simp

@[simp] theorem State.canonical_settleAll (s : State) (t : TileId) (h : SchedHdr) : (s.settleAll t h).Canonical ↔ s.Canonical := by
  unfold State.settleAll
  simp only []
  split <;> simp

@[simp] theorem State.canonical_settlePop (s : State) (t : TileId) (h : SchedHdr) : (s.settlePop t h).Canonical ↔ s.Canonical := by
  unfold State.settlePop
  simp only []
  (repeat' split) <;> simp

@[simp] theorem State.canonical_issueHead (s : State) (t : TileId) (h : SchedHdr) (l : Nat) (e : ProdEntry) : (s.issueHead t h l e).Canonical ↔ s.Canonical := by
  unfold State.issueHead
  simp only []
  (repeat' split) <;> simp

theorem State.canonical_issuePop {s u : State} {t : TileId} {h : SchedHdr} (e : s.issuePop t h = some u) : u.Canonical ↔ s.Canonical := by
  unfold State.issuePop at e
  split at e
  · cases e
  · simp only [] at e
    split at e
    · cases e
      simp
    · cases e

@[simp] theorem State.canonical_schedStep (s : State) (t : TileId) : (s.schedStep t).Canonical ↔ s.Canonical := by
  unfold State.schedStep
  extract_lets h u x stopped
  have settled : u.Canonical ↔ s.Canonical := by simp [u]
  split
  · exact settled
  split
  · next e => exact (State.canonical_issuePop e).trans settled
  split
  · exact settled
  split
  · exact settled
  · split
    · exact (State.canonical_issueHead ..).trans settled
    · exact settled

/-! ### The time base -/

@[simp] theorem State.canonical_servo (s : State) (off : Int) : (s.servo off).Canonical ↔ s.Canonical := by simp [State.servo]

@[simp] theorem State.canonical_judgeLock (s : State) (off : Int) : (s.judgeLock off).Canonical ↔ s.Canonical := by simp [State.judgeLock]

@[simp] theorem State.canonical_measure (s : State) (off : Int) : (s.measure off).Canonical ↔ s.Canonical := by simp [State.measure]

@[simp] theorem State.canonical_assignParent (s : State) : s.assignParent.Canonical ↔ s.Canonical := by
  unfold State.assignParent
  simp only []
  (repeat' split) <;> simp

@[simp] theorem State.canonical_rebaseAt (s : State) (v : BitVec 64) : (s.rebaseAt v).Canonical ↔ s.Canonical := by
  unfold State.rebaseAt
  simp only []
  (repeat' split) <;> simp

@[simp] theorem State.canonical_diglogTail (s : State) (v : BitVec 64) : (s.diglogTail v).Canonical ↔ s.Canonical := by simp [State.diglogTail]

@[simp] theorem State.canonical_announce (s : State) (e : EthId) (rank master : Nat) : (s.announce e rank master).Canonical ↔ s.Canonical := by
  unfold State.announce
  simp only []
  split <;> simp

/-! ### Drafts -/

@[simp] theorem State.canonical_loadDigestCfg (s : State) (d : Draft) : (s.loadDigestCfg d).Canonical ↔ s.Canonical := by simp [State.loadDigestCfg]

@[simp] theorem State.canonical_createGroups (s : State) (d : Draft) (aborted : Bool) : ((s.createGroups d aborted).getD s).Canonical ↔ s.Canonical := by
  have made : ∀ a : Option State, (∀ u ∈ a, u.Canonical ↔ s.Canonical) → ((a.getD s).Canonical ↔ s.Canonical) := by
    rintro (_ | u) h
    · rfl
    · exact h u rfl
  refine made _ (List.foldlRecOn _ _ (motive := fun a : Option State => ∀ u ∈ a, u.Canonical ↔ s.Canonical) (by rintro u ⟨⟩; rfl) fun a ha g _ u hu => ?_)
  split at hu
  · cases hu
  · next v => exact (State.canonical_createCtx hu).trans (ha v rfl)

@[simp] theorem State.canonical_putWindow (s : State) (n : Nat) (e : BitVec 64 × BitVec 64 × BitVec 64) :
    (s.putWindow n e).Canonical ↔ s.Canonical := by simp [State.putWindow]

@[simp] theorem State.canonical_defaultWeights (s : State) : s.defaultWeights.Canonical ↔ s.Canonical := by simp [State.defaultWeights]

@[simp] theorem State.canonical_loadWeights (s : State) (d : Draft) : (s.loadWeights d).Canonical ↔ s.Canonical := by
  unfold State.loadWeights
  refine State.canonical_foldl (fun _ _ => State.canonical_foldl (fun _ _ => State.canonical_foldl (fun _ _ => ?_) _ _) _ _) _ _
  split
  · simp
  · rfl

@[simp] theorem State.canonical_loadDomain (s : State) (d : Draft) : (s.loadDomain d).Canonical ↔ s.Canonical := by simp [State.loadDomain]

@[simp] theorem State.canonical_loadSram (s : State) (t a : Nat) (b : List Byte) : (s.loadSram t a b).Canonical ↔ s.Canonical := by simp [State.loadSram]

@[simp] theorem State.Canonical.loadTile {s : State} (h : s.Canonical) (d : Draft) (x : Sect) (t : Nat) : (s.loadTile d x t).Canonical := by
  unfold State.loadTile
  extract_lets g raw tid im dm loaded ns
  split
  · have image : loaded.Canonical := h.setTile (Memory.wf_writeN _ _ _ (Memory.wf_writeN _ _ _ rfl)) (h.treg tid)
    simpa using image
  · simpa using h
  · simpa using h
  · simpa using h
  · simpa using h
  · simpa using h
  · exact h

@[simp] theorem State.canonical_headerEvent (s : State) (t : TileId) : (s.headerEvent t).Canonical ↔ s.Canonical := by simp [State.headerEvent]

@[simp] theorem State.Canonical.loadTiles {s : State} (h : s.Canonical) (d : Draft) : (s.loadTiles d).Canonical := by
  unfold State.loadTiles
  extract_lets secs tiles cfg headed
  have loaded : tiles.Canonical :=
    foldl_keeps State.Canonical _ (fun s x hs => foldl_keeps State.Canonical _ (fun s t hs => hs.loadTile d x t) _ _ hs) _ _ h
  have done : headed.Canonical := by simpa [headed, cfg] using loaded
  split
  · exact done
  · simpa using done

@[simp] theorem State.canonical_setJob (s : State) (n : Nat) : (s.setJob n).Canonical ↔ s.Canonical := by simp [State.setJob]

@[simp] theorem State.canonical_showCoord (s : State) : s.showCoord.Canonical ↔ s.Canonical := by simp [State.showCoord]

@[simp] theorem State.canonical_loadResil (s : State) (d : Draft) : (s.loadResil d).Canonical ↔ s.Canonical := by simp [State.loadResil]

@[simp] theorem State.Canonical.loadDraft {s : State} (h : s.Canonical) (d : Draft) : (s.loadDraft d).Canonical := by
  unfold State.loadDraft
  extract_lets filled ents free windows weighed grouped full tiles src
  have opened : grouped.Canonical := (State.canonical_createGroups ..).2 (by simpa [weighed, windows] using h)
  simpa [tiles] using opened.loadTiles full

@[simp] theorem State.Canonical.reloadDraft {s : State} (h : s.Canonical) : s.reloadDraft.Canonical := by
  unfold State.reloadDraft
  split
  · exact h
  split
  · exact ((State.canonical_createGroups ..).2 h).loadTiles _
  · exact h

@[simp] theorem State.canonical_rejectDraft (s : State) (d : Draft) (e : DraftErr) : (s.rejectDraft d e).Canonical ↔ s.Canonical := by simp [State.rejectDraft]

/-! ### Replies -/

@[simp] theorem State.canonical_modCopy (s : State) (t : TileId) (k : Nat) (n : Word) (f : CopyEntry → CopyEntry) :
    (s.modCopy t k n f).Canonical ↔ s.Canonical := by simp [State.modCopy]

@[simp] theorem State.canonical_replyAll (s : State) (tag : BitVec 16) (fail : Option (Nat × Nat × Status)) :
    (s.replyAll tag fail).Canonical ↔ s.Canonical := by simp [State.replyAll]

@[simp] theorem State.canonical_reqFail (s : State) (r : Req) (st : Status) : (s.reqFail r st).Canonical ↔ s.Canonical := by
  unfold State.reqFail
  simp only []
  split <;> simp

@[simp] theorem State.canonical_failReqs (s : State) (c : Req → Bool) (st : Status) : (s.failReqs c st).Canonical ↔ s.Canonical := by simp [State.failReqs]

/-! ### Resets -/

@[simp] theorem State.canonical_loseTiles (s : State) : s.loseTiles.Canonical := ⟨fun _ => rfl, fun _ => rfl⟩

@[simp] theorem State.canonical_loseDram (s : State) (lo hi : Nat) : (s.loseDram lo hi).Canonical ↔ s.Canonical := by simp [State.loseDram]

@[simp] theorem State.canonical_loseCores (s : State) : s.loseCores.Canonical ↔ s.Canonical := by simp [State.loseCores]

@[simp] theorem State.canonical_drainEvery (s : State) : s.drainEvery.Canonical ↔ s.Canonical := by simp [State.drainEvery]

@[simp] theorem State.canonical_losePicks (s : State) : s.losePicks.Canonical ↔ s.Canonical := by simp [State.losePicks]

@[simp] theorem State.canonical_resetBlock (s : State) (c : RClass) (lo hi : Nat) : (s.resetBlock c lo hi).Canonical ↔ s.Canonical := by simp [State.resetBlock]

@[simp] theorem State.canonical_portOff (s : State) (p : PortId) : (s.portOff p).Canonical ↔ s.Canonical := by simp [State.portOff]

@[simp] theorem State.canonical_portsOff (s : State) : s.portsOff.Canonical ↔ s.Canonical := by simp [State.portsOff]

@[simp] theorem State.canonical_colsAborted (s : State) : s.colsAborted.Canonical ↔ s.Canonical := by simp [State.colsAborted]

@[simp] theorem State.canonical_orphanReqs (s : State) : s.orphanReqs.Canonical ↔ s.Canonical := by simp [State.orphanReqs]

@[simp] theorem State.canonical_cmpReset (s : State) : s.cmpReset.Canonical := by simp [State.cmpReset]

@[simp] theorem State.canonical_fabReset (s : State) : s.fabReset.Canonical ↔ s.Canonical := by simp [State.fabReset]

@[simp] theorem State.canonical_respond (s : State) (m : HostMsg) : (s.respond m).Canonical ↔ s.Canonical := by simp [State.respond]

@[simp] theorem State.canonical_flushTaken (s : State) (p : Nat) (st : Status) : (s.flushTaken p st).Canonical ↔ s.Canonical := by simp [State.flushTaken]

@[simp] theorem State.canonical_dropStage (s : State) : s.dropStage.Canonical ↔ s.Canonical := by simp [State.dropStage]

@[simp] theorem State.canonical_fwpReset (s : State) (p : Nat) : (s.fwpReset p).Canonical ↔ s.Canonical := by simp [State.fwpReset]

@[simp] theorem State.canonical_fwpHold (s : State) (p : Nat) (st : Status) : (s.fwpHold p st).Canonical ↔ s.Canonical := by simp [State.fwpHold]

@[simp] theorem State.canonical_measureFwp (s : State) (p event : Nat) : (s.measureFwp p event).Canonical ↔ s.Canonical := by simp [State.measureFwp]

@[simp] theorem State.canonical_fwpStart (s : State) (p : Nat) : (s.fwpStart p).Canonical ↔ s.Canonical := by simp [State.fwpStart]

@[simp] theorem State.canonical_packageReset (s : State) (c : RClass) : (s.packageReset c).Canonical := by
  have blank : TilesCanonical [] := ⟨fun _ => rfl, fun _ => rfl⟩
  exact (State.canonical_setFld ..).2 ((State.canonical_setReg ..).2 ((State.canonical_setReg ..).2 blank))

@[simp] theorem State.canonical_lastReset (s : State) (c trig : Nat) : (s.lastReset c trig).Canonical ↔ s.Canonical := by simp [State.lastReset]

@[simp] theorem State.Canonical.performReset {s : State} (hs : s.Canonical) (c p trig : Nat) : (s.performReset c p trig).Canonical := by
  unfold State.performReset
  split <;> simp [hs]

@[simp] theorem State.Canonical.requestReset {s : State} (hs : s.Canonical) (c p trig : Nat) :
    (s.requestReset c p trig).Canonical := by simp [State.requestReset, hs]

@[simp] theorem State.canonical_resetEvent (s : State) (c p trig : Nat) : (s.resetEvent c p trig).Canonical ↔ s.Canonical := by simp [State.resetEvent]

@[simp] theorem State.Canonical.restartFwp {s : State} (hs : s.Canonical) (p trig : Nat) : (s.restartFwp p trig).Canonical := by simp [State.restartFwp, hs]

@[simp] theorem State.canonical_fwpReturn (s : State) (p trig : Nat) : (s.fwpReturn p trig).Canonical ↔ s.Canonical := by simp [State.fwpReturn]

@[simp] theorem State.canonical_regroupAborted (s : State) : s.regroupAborted.Canonical ↔ s.Canonical := by
  unfold State.regroupAborted
  split
  · rfl
  · split
    · exact s.canonical_createGroups _ _
    · rfl

@[simp] theorem State.Canonical.resetDone {s : State} (hs : s.Canonical) (c p trig : Nat) : (s.resetDone c p trig).Canonical := by
  unfold State.resetDone
  split <;> simp [hs]

theorem State.canonical_nextReset {s t : State} {r : Nat × Nat × Nat} (h : s.nextReset = some (r, t)) : t.Canonical ↔ s.Canonical := by
  unfold State.nextReset at h
  split at h
  · cases h
  · cases h
    simp

/-! ### Power -/

@[simp] theorem State.canonical_memService (s : State) (lo n : Nat) (b : Bool) : (s.memService lo n b).Canonical ↔ s.Canonical := by simp [State.memService]

@[simp] theorem State.canonical_selfRefresh (s : State) (lo n : Nat) (b : Bool) : (s.selfRefresh lo n b).Canonical ↔ s.Canonical := by simp [State.selfRefresh]

@[simp] theorem State.canonical_mainFwpsOff (s : State) : s.mainFwpsOff.Canonical ↔ s.Canonical := by simp [State.mainFwpsOff]

@[simp] theorem State.canonical_mainOff (s : State) (keepLp : Bool) : (s.mainOff keepLp).Canonical := by simp [State.mainOff]

@[simp] theorem State.Canonical.enterState {s : State} (hs : s.Canonical) (n : Nat) : (s.enterState n).Canonical := by
  unfold State.enterState
  split <;> simp [hs]

@[simp] theorem State.canonical_mainOn (s : State) : s.mainOn.Canonical ↔ s.Canonical := by simp [State.mainOn]

@[simp] theorem State.canonical_exitState (s : State) (n : Nat) : (s.exitState n).Canonical ↔ s.Canonical := by
  unfold State.exitState
  split <;> simp

@[simp] theorem State.canonical_targetWrite (s : State) (q : Requester) (v : BitVec 64) : (s.targetWrite q v).Canonical ↔ s.Canonical := by
  unfold State.targetWrite
  simp only []
  (repeat' split) <;> simp

@[simp] theorem State.Canonical.heldReset {s : State} (hs : s.Canonical) : s.heldReset.Canonical := by
  unfold State.heldReset
  split <;> simp [hs]

@[simp] theorem State.Canonical.stateDone {s : State} (hs : s.Canonical) : s.stateDone.Canonical := by
  unfold State.stateDone
  split <;> simp [hs]

@[simp] theorem State.canonical_offCause (s : State) (code : Status) : (s.offCause code).Canonical ↔ s.Canonical := by simp [State.offCause]

@[simp] theorem State.canonical_railsOff (s : State) (why : OffCause) : (s.railsOff why).Canonical := by simp [State.railsOff]

@[simp] theorem State.Canonical.fatalOff {s : State} (hs : s.Canonical) (code : Status) (detail : List Byte) (why : OffCause) :
    (s.fatalOff code detail why).Canonical := by simp [State.fatalOff, hs]

@[simp] theorem State.canonical_startPor (s : State) : s.startPor.Canonical := by simp [State.startPor]

@[simp] theorem State.Canonical.removeDue {s : State} (hs : s.Canonical) (now : Nat) : (s.removeDue now).Canonical := by
  unfold State.removeDue
  split <;> simp [hs]

@[simp] theorem State.canonical_startRemoval (s : State) : s.startRemoval.Canonical ↔ s.Canonical := by simp [State.startRemoval]

@[simp] theorem State.Canonical.idle {s : State} (hs : s.Canonical) : s.idle.Canonical := by simp [State.idle, hs]

@[simp] theorem State.canonical_inputEmergency (s : State) (mv : BitVec 16) (us : Nat) :
    (s.inputEmergency mv us).Canonical ↔ s.Canonical := by simp [State.inputEmergency]

@[simp] theorem State.canonical_levelsUp (s : State) : s.levelsUp.Canonical ↔ s.Canonical := by simp [State.levelsUp]

@[simp] theorem State.canonical_siteReading (s : State) (c : Nat) (t : Int) : (s.siteReading c t).Canonical ↔ s.Canonical := by simp [State.siteReading]

@[simp] theorem State.canonical_countWithheld (s : State) (d : Nat) (heat : Bool) : (s.countWithheld d heat).Canonical ↔ s.Canonical := by simp [State.countWithheld]

@[simp] theorem State.canonical_heatEmergency (s : State) (dies : List Int) : (s.heatEmergency dies).Canonical ↔ s.Canonical := by simp [State.heatEmergency]

@[simp] theorem State.Canonical.resetWrite {s : State} (hs : s.Canonical) (q : Requester) (v : BitVec 64) : (s.resetWrite q v).Canonical := by
  unfold State.resetWrite
  simp only []
  (repeat' split) <;> simp [hs]

/-! ### Shards -/

@[simp] theorem State.canonical_restoreTile (s : State) (b : List Byte) (t : TileId) : (s.restoreTile b t).Canonical ↔ s.Canonical := by simp [State.restoreTile]

@[simp] theorem State.canonical_restoreCtx (s : State) (b : List Byte) (i : Nat) : (s.restoreCtx b i).Canonical ↔ s.Canonical := by simp [State.restoreCtx]

@[simp] theorem State.canonical_restoreRecord (s : State) (b : List Byte) : (s.restoreRecord b).Canonical ↔ s.Canonical := by simp [State.restoreRecord]

@[simp] theorem State.canonical_sendRing (s : State) (n : NodeId) (mine base : Nat) (r : LogRing) :
    (s.sendRing n mine base r).Canonical ↔ s.Canonical := by simp [State.sendRing]

@[simp] theorem State.canonical_sendRecs (s : State) (d : Draft) (old new : NodeId) : (s.sendRecs d old new).Canonical ↔ s.Canonical := by simp [State.sendRecs]

@[simp] theorem State.canonical_serveSpare (s : State) (d : Draft) (old new : NodeId) : (s.serveSpare d old new).Canonical ↔ s.Canonical := by
  unfold State.serveSpare
  simp only []
  (repeat' split) <;> simp

@[simp] theorem State.canonical_startRebuild (s : State) : s.startRebuild.Canonical ↔ s.Canonical := by simp [State.startRebuild]

@[simp] theorem State.canonical_substituted (s : State) (old : Draft) (subs : List (Nat × NodeId)) : (s.substituted old subs).Canonical ↔ s.Canonical := by
  unfold State.substituted
  split
  · rfl
  split
  · rfl
  extract_lets served src rings sent rebuilt
  have h1 : served.Canonical ↔ s.Canonical := by
    refine State.canonical_foldl (fun s e => ?_) _ _
    split
    · rfl
    · simp
  have h2 : sent.Canonical ↔ served.Canonical := by
    unfold sent
    split
    · exact State.canonical_resendLog _
    · rfl
  have h3 : rebuilt.Canonical ↔ sent.Canonical := by
    unfold rebuilt
    split <;> simp
  rw [State.canonical_showCoord, h3, h2, h1]

/-! ### Jobs -/

@[simp] theorem State.canonical_sendJob (s : State) (n : NodeId) (opc addr : Nat) (d : List Byte) :
    (s.sendJob n opc addr d).Canonical ↔ s.Canonical := by simp [State.sendJob]

@[simp] theorem State.canonical_sendJobs (s : State) (l : List NodeId) (opc addr : Nat) (d : List Byte) :
    (s.sendJobs l opc addr d).Canonical ↔ s.Canonical := by simp [State.sendJobs]

@[simp] theorem State.canonical_jobDiscard (s : State) (p : PortId) : (s.jobDiscard p).Canonical ↔ s.Canonical := by simp [State.jobDiscard]

@[simp] theorem State.canonical_jobIntake (s : State) (p : PortId) (m : Msg) (opc : Nat) (now : BitVec 64) :
    (s.jobIntake p m opc now).1.Canonical ↔ s.Canonical := by
  unfold State.jobIntake
  simp only []
  (repeat' split) <;> simp

@[simp] theorem State.canonical_tellHost (s : State) (d : Draft) (type : Nat) (st : Status) (args : List Nat) :
    (s.tellHost d type st args).Canonical ↔ s.Canonical := by simp [State.tellHost]

@[simp] theorem State.canonical_sendAck (s : State) (d : Draft) : (s.sendAck d).Canonical ↔ s.Canonical := by
  unfold State.sendAck
  split <;> simp

@[simp] theorem State.canonical_tryAck (s : State) : s.tryAck.Canonical ↔ s.Canonical := by
  unfold State.tryAck
  split <;> simp

@[simp] theorem State.canonical_openIntake (s : State) (d : Draft) : (s.openIntake d).Canonical ↔ s.Canonical := by simp [State.openIntake]

@[simp] theorem State.canonical_draftBegin (s : State) (m : Msg) : (s.draftBegin m).Canonical ↔ s.Canonical := by
  unfold State.draftBegin
  split <;> simp

@[simp] theorem State.canonical_relay (s : State) (d : Draft) (kids : List NodeId) (a n : Nat) :
    (s.relay d kids a n).Canonical ↔ s.Canonical := by simp [State.relay]

@[simp] theorem State.canonical_forwardDraft (s : State) : s.forwardDraft.Canonical ↔ s.Canonical := by
  unfold State.forwardDraft
  split <;> simp

@[simp] theorem State.canonical_draftChunk (s : State) (p : PortId) (m : Msg) : (s.draftChunk p m).Canonical ↔ s.Canonical := by
  unfold State.draftChunk
  split <;> simp

@[simp] theorem State.canonical_childAck (s : State) (d : Draft) (m : Msg) : (s.childAck d m).Canonical ↔ s.Canonical := by simp [State.childAck]

@[simp] theorem State.canonical_substitute (s : State) (d : Draft) (subs : List (Nat × NodeId)) :
    (s.substitute d subs).Canonical ↔ s.Canonical := by simp [State.substitute]

@[simp] theorem State.canonical_applyUpdate (s : State) (d : Draft) (subs : List (Nat × NodeId)) : (s.applyUpdate d subs).Canonical ↔ s.Canonical := by
  unfold State.applyUpdate
  simp only []
  split <;> simp

@[simp] theorem State.canonical_continueShuttle (s : State) (t : TileId) : (s.continueShuttle t).Canonical ↔ s.Canonical := by simp [State.continueShuttle]

@[simp] theorem State.canonical_goJob (s : State) (d : Draft) (base : Nat) (first : Pick) : (s.goJob d base first).Canonical ↔ s.Canonical := by simp [State.goJob]

@[simp] theorem State.canonical_jobGo (s : State) (d : Draft) (base : Nat) (first : Pick) : (s.jobGo d base first).Canonical ↔ s.Canonical := by simp [State.jobGo]

@[simp] theorem State.canonical_clearWindows (s : State) (l : List Nat) : (s.clearWindows l).Canonical ↔ s.Canonical := by simp [State.clearWindows]

@[simp] theorem State.Canonical.startTeardown {s : State} (hs : s.Canonical) (d : Draft) (scrub : Bool) :
    (s.startTeardown d scrub).Canonical := by simp [State.startTeardown, hs]

@[simp] theorem State.canonical_clearCkpt (s : State) : s.clearCkpt.Canonical ↔ s.Canonical := by simp [State.clearCkpt]

@[simp] theorem State.canonical_endTeardown (s : State) : s.endTeardown.Canonical ↔ s.Canonical := by
  unfold State.endTeardown
  simp only []
  (repeat' split) <;> simp

@[simp] theorem State.canonical_tornDown (s : State) : s.tornDown.Canonical ↔ s.Canonical := by
  unfold State.tornDown
  split <;> simp

@[simp] theorem State.Canonical.tearDown {s : State} (hs : s.Canonical) (d : Draft) (scrub : Bool) : (s.tearDown d scrub).Canonical := by simp [State.tearDown, hs]

@[simp] theorem State.Canonical.abandon {s : State} (hs : s.Canonical) (d : Draft) (st : Status) : (s.abandon d st).Canonical := by simp [State.abandon, hs]

@[simp] theorem State.canonical_reportDrain (s : State) : s.reportDrain.Canonical ↔ s.Canonical := by
  unfold State.reportDrain
  simp only []
  (repeat' split) <;> simp

@[simp] theorem State.canonical_ownDrain (s : State) (d : Draft) (n : Nat) (st : Status) : (s.ownDrain d n st).Canonical ↔ s.Canonical := by simp [State.ownDrain]

@[simp] theorem State.canonical_drainJob (s : State) (d : Draft) (last : Pick) (final : Bool) :
    (s.drainJob d last final).Canonical ↔ s.Canonical := by simp [State.drainJob]

@[simp] theorem State.canonical_jobDrain (s : State) (d : Draft) (last : Pick) (final : Bool) :
    (s.jobDrain d last final).Canonical ↔ s.Canonical := by simp [State.jobDrain]

@[simp] theorem State.canonical_rdmaAnswer (s : State) (e : EthId) (ok : Bool) (n : Nat) :
    (s.rdmaAnswer e ok n).Canonical ↔ s.Canonical := by simp [State.rdmaAnswer]

end Sys2Proof.Machine
end

section
/-! The form of the tiles: the register bus, copies and links. -/

namespace Sys2Proof.Machine

/-! ### The register bus -/

@[simp] theorem State.canonical_busRead (s : State) (q : Requester) (off : Nat) : (s.busRead q off).2.Canonical ↔ s.Canonical := by
  unfold State.busRead
  simp only []
  (repeat' split) <;> simp

@[simp] theorem State.canonical_plainWrite (s : State) (q : Requester) (off : Nat) (v : BitVec 64) : (s.plainWrite q off v).Canonical ↔ s.Canonical := by
  unfold State.plainWrite
  split <;> simp

@[simp] theorem State.canonical_writeIf (s : State) (c : Bool) (q : Requester) (off : Nat) (v : BitVec 64) :
    (s.writeIf c q off v).Canonical ↔ s.Canonical := by simp [State.writeIf]

@[simp] theorem State.canonical_startHarts (s : State) : s.startHarts.Canonical ↔ s.Canonical := by simp [State.startHarts]

@[simp] theorem State.canonical_cpuStart (s : State) (q : Requester) (v : BitVec 64) : (s.cpuStart q v).Canonical ↔ s.Canonical := by simp [State.cpuStart]

@[simp] theorem State.canonical_fabWrite (s : State) (q : Requester) (off : Nat) (v : BitVec 64) :
    (s.fabWrite q off v).Canonical ↔ s.Canonical := by simp [State.fabWrite]

@[simp] theorem State.canonical_wdtWrite (s : State) (q : Requester) (p : Nat) (v : BitVec 64) :
    (s.wdtWrite q p v).Canonical ↔ s.Canonical := by simp [State.wdtWrite]

@[simp] theorem State.canonical_colWrite (s : State) (q : Requester) (o off : Nat) (v : BitVec 64) :
    (s.colWrite q o off v).Canonical ↔ s.Canonical := by simp [State.colWrite]

@[simp] theorem State.canonical_timeWrite (s : State) (q : Requester) (o off : Nat) (v : BitVec 64) :
    (s.timeWrite q o off v).Canonical ↔ s.Canonical := by simp [State.timeWrite]

@[simp] theorem State.Canonical.pwrWrite {s : State} (hs : s.Canonical) (q : Requester) (o off : Nat) (v : BitVec 64) :
    (s.pwrWrite q o off v).Canonical := by simp [State.pwrWrite, hs]

@[simp] theorem State.Canonical.busWrite {s : State} (hs : s.Canonical) (q : Requester) (off : Nat) (v : BitVec 64) : (s.busWrite q off v).Canonical := by
  unfold State.busWrite
  simp only []
  (repeat' split) <;> simp [hs]

/-! ### Copies -/

@[simp] theorem State.canonical_pull (s : State) (t : TileId) (n : Nat) (p : Place) : (s.pull t n p).1.Canonical ↔ s.Canonical := by
  unfold State.pull
  split
  · split <;> simp
  · simp
  · rfl

@[simp] theorem State.Canonical.place {s : State} (h : s.Canonical) (t : TileId) (d : List Byte) (p : Place) : (s.place t d p).Canonical := by
  unfold State.place
  split
  · simpa using h
  · exact foldl_keeps State.Canonical _ (fun _ _ hs => hs.busWrite ..) _ _ h
  · exact h

@[simp] theorem State.canonical_rowBytes (s : State) (t : TileId) (d : CopyDesc) (src : Option (BitVec 64)) (pos n : Nat) :
    (s.rowBytes t d src pos n).1.Canonical ↔ s.Canonical := by
  unfold State.rowBytes
  split <;> simp

@[simp] theorem State.Canonical.of_rowBytes {s u : State} (hs : s.Canonical) {t : TileId} {d : CopyDesc} {src : Option (BitVec 64)} {pos n : Nat}
    {o : Option (List Byte)} (e : s.rowBytes t d src pos n = (u, o)) : u.Canonical := by
  have := (s.canonical_rowBytes t d src pos n).2 hs
  rwa [e] at this

theorem State.canonical_placeRecall {s t : State} {n : Nat} {write : Bool} {p : Place} (h : s.placeRecall n write p = some t) :
    t.Canonical ↔ s.Canonical := by
  unfold State.placeRecall at h
  split at h
  · exact State.canonical_recall h
  · cases h

@[simp] theorem State.canonical_spoilCopy (s : State) (d : CopyDesc) (rows : List (Option (BitVec 64) × BitVec 64)) : (s.spoilCopy d rows).Canonical ↔ s.Canonical :=
  State.canonical_foldl (fun s r => by split <;> simp) rows s

@[simp] theorem State.Canonical.copyPut {s : State} (hs : s.Canonical) (t : TileId) (k : QId) (n : Word) (p : CopyPiece) (d : List Byte) :
    (s.copyPut t k n p d).Canonical := by
  unfold State.copyPut
  split <;> simp [hs]

@[simp] theorem State.Canonical.copyReplayed {s : State} (h : s.Canonical) (t : TileId) (k : QId) (n : Word) (p : CopyPiece) : (s.copyReplayed t k n p).Canonical := by
  have read := (s.canonical_logRead (copyKey t k.val n) p.dst.toNat).2 h
  unfold State.copyReplayed
  split
  · next e =>
    rw [e] at read
    exact read.copyPut ..
  · next e =>
    rw [e] at read
    split
    · exact read
    · simpa using read

@[simp] theorem State.Canonical.copyIssue {s : State} (h : s.Canonical) (t : TileId) (k : QId) (n : Word) (d : CopyDesc) (p : CopyPiece) :
    (s.copyIssue t k n d p).Canonical := by
  unfold State.copyIssue
  extract_lets src
  split
  · split
    · exact h.copyReplayed ..
    · simp only []
      split <;> simpa using h
  · split
    · next e => exact (h.of_rowBytes e).copyPut ..
    · next e => simpa using h.of_rowBytes e

@[simp] theorem State.Canonical.copyPump (f : Nat) {s : State} (h : s.Canonical) (t : TileId) (k : QId) (n : Word) (d : CopyDesc) :
    (State.copyPump f s t k n d).Canonical := by
  induction f generalizing s with
  | zero => exact h
  | succ f ih =>
    unfold State.copyPump
    split
    · exact h
    split
    · exact h
    split
    · exact h
    · exact ih (State.Canonical.copyIssue (by simpa using h) ..)

@[simp] theorem State.canonical_copySettle (s : State) (t : TileId) (k : QId) (n : Word) (st : Status) :
    (s.copySettle t k n st).Canonical ↔ s.Canonical := by simp [State.copySettle]

@[simp] theorem State.canonical_copyEnd (s : State) (t : TileId) (k : QId) (n : Word) (d : CopyDesc) : (s.copyEnd t k n d).Canonical ↔ s.Canonical := by
  unfold State.copyEnd
  simp only []
  (repeat' split) <;> simp

@[simp] theorem State.Canonical.localRows {s : State} (h : s.Canonical) (t : TileId) (k : QId) (n : Word) (d : CopyDesc) (l : List (Option (BitVec 64) × BitVec 64)) :
    (s.localRows t k n d l).Canonical := by
  induction l generalizing s with
  | nil => exact h
  | cons r l ih =>
    unfold State.localRows
    split
    · next e => exact ih ((h.of_rowBytes e).place ..)
    · next e => simpa using h.of_rowBytes e

theorem State.canonical_rowsRecall {s t : State} {d : CopyDesc} {rows : List (Option (BitVec 64) × BitVec 64)} (h : s.rowsRecall d rows = some t) :
    t.Canonical ↔ s.Canonical := by
  obtain ⟨r, _, e⟩ := List.exists_of_findSome?_eq_some h
  split at e
  · next u hu =>
    cases e
    obtain ⟨_, _, e⟩ := Option.bind_eq_some_iff.1 hu
    exact State.canonical_placeRecall e
  · exact State.canonical_placeRecall e

@[simp] theorem State.Canonical.startRows {s : State} (hs : s.Canonical) (t : TileId) (k : QId) (n : Word) (d : CopyDesc) (rows : List (Option (BitVec 64) × BitVec 64)) :
    (s.startRows t k n d rows).Canonical := by simp [State.startRows, hs]

@[simp] theorem State.canonical_startRoute (s : State) (t : TileId) (k : QId) (n : Word) (d : CopyDesc) : (s.startRoute t k n d).Canonical ↔ s.Canonical := by
  unfold State.startRoute
  simp only []
  split <;> simp

@[simp] theorem State.Canonical.startCopy {s : State} (h : s.Canonical) (t : TileId) (k : QId) (mine : Nat → Bool) : (s.startCopy t k mine).Canonical := by
  unfold State.startCopy
  split
  · exact h
  split
  · exact h
  extract_lets d rows st
  split
  · exact h
  split
  · simpa using h
  split
  · simpa using h
  split
  · simpa using h
  split
  · simpa using h
  split
  · simpa using h
  split
  · simpa using h
  split
  · next e => exact (State.canonical_rowsRecall e).2 h
  · exact h.startRows ..

@[simp] theorem State.canonical_completeCopy (s : State) (t : TileId) (k : QId) : (s.completeCopy t k).Canonical ↔ s.Canonical := by
  unfold State.completeCopy
  split
  · rfl
  split
  · rfl
  · simp

/-! ### Links -/

@[simp] theorem State.canonical_stopNode (s : State) : s.stopNode.Canonical ↔ s.Canonical := by simp [State.stopNode]

@[simp] theorem State.canonical_resendPort (s : State) (p : PortId) : (s.resendPort p).Canonical ↔ s.Canonical := by simp [State.resendPort]

@[simp] theorem State.canonical_takeHeader (s : State) (p : PortId) (h : LinkHdr) : (s.takeHeader p h).Canonical ↔ s.Canonical := by simp [State.takeHeader]

@[simp] theorem State.canonical_delivered (s : State) (p : PortId) (m : Msg) : (s.delivered p m).Canonical ↔ s.Canonical := by simp [State.delivered]

@[simp] theorem State.canonical_takeData (s : State) (p : PortId) (h : LinkHdr) (slots : List Byte) :
    (s.takeData p h slots).Canonical ↔ s.Canonical := by simp [State.takeData]

@[simp] theorem State.canonical_moveUnsent (s : State) (p : PortId) : (s.moveUnsent p).Canonical ↔ s.Canonical := by
  unfold State.moveUnsent
  refine (State.canonical_foldl (fun s m => ?_) _ _).trans (by simp)
  split
  · rfl
  · split <;> simp

@[simp] theorem State.canonical_portLeaves (s : State) (p : PortId) : (s.portLeaves p).Canonical ↔ s.Canonical := by simp [State.portLeaves]

@[simp] theorem State.canonical_portDenied (s : State) (p : PortId) : (s.portDenied p).Canonical ↔ s.Canonical := by simp [State.portDenied]

@[simp] theorem State.canonical_announceOn (s : State) (p : PortId) : (s.announceOn p).Canonical ↔ s.Canonical := by simp [State.announceOn]

@[simp] theorem State.Canonical.assignNumber {s : State} (hs : s.Canonical) (chainSpan : Nat) :
    (s.assignNumber chainSpan).Canonical := by simp [State.assignNumber, hs]

end Sys2Proof.Machine
end

section
/-! The form of the tiles: harts and remote accesses. -/

namespace Sys2Proof.Machine

/-! ### Harts -/

@[simp] theorem State.canonical_pass (s : State) (h : HartId) (n : Nat) : (s.pass h n).Canonical ↔ s.Canonical := by simp [State.pass]

@[simp] theorem State.canonical_exception (s : State) (h : HartId) (cause : Nat) (tval : BitVec 64) :
    (s.exception h cause tval).Canonical ↔ s.Canonical := by simp [State.exception]

@[simp] theorem State.canonical_accessException (s : State) (h : HartId) (cause : Nat) (st : Status) (a : BitVec 64) :
    (s.accessException h cause st a).Canonical ↔ s.Canonical := by simp [State.accessException]

@[simp] theorem State.canonical_startNext (s : State) (c t : Nat) : (s.startNext c t).Canonical ↔ s.Canonical := by
  unfold State.startNext
  split <;> simp

@[simp] theorem State.canonical_leaveCore (s : State) (h : HartId) (st : HartState) : (s.leaveCore h st).Canonical ↔ s.Canonical := by simp [State.leaveCore]

@[simp] theorem State.canonical_makeReady (s : State) (h : HartId) : (s.makeReady h).Canonical ↔ s.Canonical := by simp [State.makeReady]

@[simp] theorem State.Canonical.coreDo {s : State} (h : s.Canonical) {f : State → State} (hf : ∀ s, s.Canonical → (f s).Canonical) (i : HartId) :
    (s.coreDo i f).Canonical := by
  unfold State.coreDo
  split
  · exact hf _ h
  · exact h

@[simp] theorem Need.canonical_ask (w : Need) (h : HartId) (o : Owner) (n : NodeId) (vc opc a len : Nat) (d : List Byte) :
    (w.ask h o n vc opc a len d).s.Canonical ↔ w.s.Canonical := by
  unfold Need.ask
  simp only []
  repeat' split
  all_goals simp

@[simp] theorem Need.canonical_own (w : Need) (line : Nat) (write : Bool) : (w.own line write).s.Canonical ↔ w.s.Canonical := by
  unfold Need.own
  split
  · rfl
  split
  · rfl
  · next e => split <;> exact State.canonical_recallLine e

@[simp] theorem Need.canonical_line (w : Need) (h : HartId) (n : NodeId) (line : Nat) (write : Bool) : (w.line h n line write).s.Canonical ↔ w.s.Canonical := by
  unfold Need.line
  extract_lets key held
  have read := w.s.canonical_logRead (hartKey h (w.s.hart h).remoteCount) key
  split
  · rfl
  split
  · rfl
  split
  · split <;> (next e => rw [e] at read; simpa using read)
  · simp

@[simp] theorem State.canonical_atomTo (s : State) (h : HartId) (n : NodeId) (a aop x y : Nat) : (s.atomTo h n a aop x y).1.Canonical ↔ s.Canonical := by
  unfold State.atomTo
  simp only []
  (repeat' split) <;> simp

@[simp] theorem Need.canonical_run (w : Need) (h : HartId) (op : FarOp) (r : Nat × Nat) : (w.run h op r).s.Canonical ↔ w.s.Canonical := by
  unfold Need.run
  simp only []
  repeat' split
  all_goals simp

@[simp] theorem State.canonical_hartReplay (s : State) (h : HartId) (op : FarOp) (keys : List Nat) : (s.hartReplay h op keys).1.Canonical ↔ s.Canonical := by
  unfold State.hartReplay
  split
  · rfl
  · refine State.canonical_foldl_fst (fun r x => ?_) _ _
    have read := r.1.canonical_logRead (hartKey h (r.1.hart h).remoteCount) x.1
    split <;> (next e => rw [e] at read; simpa using read)

@[simp] theorem State.canonical_coreNeeds (s : State) (h : HartId) (op : FarOp) (els : List El) (got : List Host.Cell) :
    (s.coreNeeds h op els got).s.Canonical ↔ s.Canonical := by
  have place : ∀ (w : Need) (e : El), (match s.corePlace h e.addr e.n with
      | .dram a => w.own (a / 64 * 64) op.isWrite
      | .coh n a => w.line h n (a / 64 * 64) op.isWrite
      | _ => w).s.Canonical ↔ w.s.Canonical := by
    intro w e
    split <;> simp
  exact (canonical_foldl_of Need.s (fun w r => w.canonical_run h op r) _ _).trans (canonical_foldl_of Need.s place els ⟨s, [], [], false⟩)

@[simp] theorem State.canonical_raiseFails (s : State) (h : HartId) (load : Bool) (els : List El) (fails : List (Nat × Nat × Status)) :
    (s.raiseFails h load els fails).Canonical ↔ s.Canonical := by
  unfold State.raiseFails
  simp only []
  split <;> simp

@[simp] theorem State.canonical_parkHart (s : State) (h : HartId) (k : Park) : (s.parkHart h k).Canonical ↔ s.Canonical := by simp [State.parkHart]

@[simp] theorem State.Canonical.coreAccess {s : State} (h : s.Canonical) {done : State → List Host.Cell → State} (hd : ∀ s l, s.Canonical → (done s l).Canonical)
    (i : HartId) (cmd : CoreCmd) (load : Bool) (op : FarOp) (els : List El) : (s.coreAccess i cmd load op els done).Canonical := by
  unfold State.coreAccess
  extract_lets k fault u rep w
  have counted : u.Canonical := by
    unfold u
    split
    · simpa using h
    · exact h
  have replayed : rep.1.Canonical := by
    unfold rep
    split
    · simpa using counted
    · exact counted
  have needed : w.s.Canonical := (State.canonical_coreNeeds ..).2 replayed
  clear_value k fault u rep w
  split
  · simpa using h
  split
  · simpa using h
  split
  · simpa using needed
  split
  · simpa using needed
  · exact hd _ _ needed

@[simp] theorem State.canonical_elRead (s : State) (h : HartId) (got : List Host.Cell) (e : El) : (s.elRead h got e).1.Canonical ↔ s.Canonical := by
  unfold State.elRead
  simp only []
  repeat' split
  all_goals simp

@[simp] theorem State.Canonical.of_elRead {s u : State} (hs : s.Canonical) {h : HartId} {got : List Host.Cell} {x : El} {o : Option (List Byte)}
    (e : s.elRead h got x = (u, o)) : u.Canonical := by
  have := (s.canonical_elRead h got x).2 hs
  rwa [e] at this

@[simp] theorem State.Canonical.elWrite {s : State} (hs : s.Canonical) (h : HartId) (e : El) (d : List Byte) : (s.elWrite h e d).Canonical := by
  unfold State.elWrite
  simp only []
  (repeat' split) <;> simp [hs]

@[simp] theorem State.Canonical.writeEls {s : State} (h : s.Canonical) (i : HartId) (els : List El) (ds : List (List Byte)) : (s.writeEls i els ds).Canonical := by
  induction els generalizing s ds with
  | nil => exact h
  | cons e els ih =>
    cases ds with
    | nil => exact h
    | cons d ds => exact ih (h.elWrite ..) ds

@[simp] theorem State.canonical_readEls (s : State) (h : HartId) (got : List Host.Cell) (els : List El) : (s.readEls h got els).1.Canonical ↔ s.Canonical := by
  induction els generalizing s with
  | nil => rfl
  | cons e els ih =>
    have read := s.canonical_elRead h got e
    unfold State.readEls
    split <;> (next eq => rw [eq] at read; simpa [ih] using read)

@[simp] theorem State.canonical_illegal (s : State) (h : HartId) (bits : Nat) : (s.illegal h bits).Canonical ↔ s.Canonical := by simp [State.illegal]

@[simp] theorem State.Canonical.coreLoad {s : State} (h : s.Canonical) (i : HartId) (m : CoreMem) : (s.coreLoad i m).Canonical := by
  unfold State.coreLoad
  extract_lets a e
  split
  · simpa using h
  split
  · simpa using h
  · refine h.coreAccess (fun s got hs => ?_) ..
    split <;> (next eq => simpa using hs.of_elRead eq)

@[simp] theorem State.Canonical.coreStore {s : State} (h : s.Canonical) (i : HartId) (m : CoreMem) : (s.coreStore i m).Canonical := by
  unfold State.coreStore
  extract_lets x a e v d
  split
  · simpa using h
  split
  · simpa using h
  · exact h.coreAccess (fun s _ hs => by simpa using hs.elWrite ..) ..

@[simp] theorem State.Canonical.coreAmo {s : State} (h : s.Canonical) (i : HartId) (m : AmoInst) : (s.coreAmo i m).Canonical := by
  unfold State.coreAmo
  extract_lets x a n v e ret
  have returns : ∀ (s : State) (old : Nat), s.Canonical → (ret s old).Canonical := fun s d hs => by simpa [ret] using hs
  split
  · simpa using h
  split
  · simpa using h
  · split
    · simpa using h
    · exact h.coreAccess (fun s _ hs => returns _ _ hs) ..
  · refine h.coreAccess (fun s got hs => ?_) ..
    split
    · next eq => simpa using hs.of_elRead eq
    · next eq => exact returns _ _ ((hs.of_elRead eq).elWrite ..)

@[simp] theorem State.Canonical.coreLrSc {s : State} (h : s.Canonical) (i : HartId) (sc : Bool) (m : AmoInst) : (s.coreLrSc i sc m).Canonical := by
  unfold State.coreLrSc
  extract_lets x a n e
  split
  · simpa using h
  split
  · simpa using h
  · simpa using h
  · simpa using h
  split
  · split
    · refine h.coreAccess (fun s _ hs => ?_) ..
      split
      · simpa using hs.elWrite ..
      · simpa using hs
    · split <;> simpa using h
  · refine h.coreAccess (fun s got hs => ?_) ..
    split <;> (next eq => simpa using hs.of_elRead eq)

theorem State.canonical_csrRead {s t : State} {h : HartId} {n : Nat} {v : BitVec 64} (e : s.csrRead h n = some (t, v)) : t.Canonical ↔ s.Canonical := by
  have ite : ∀ {c : Prop} [Decidable c] {a b : Option (State × BitVec 64)}, (∀ r ∈ a, r.1.Canonical ↔ s.Canonical) → (∀ r ∈ b, r.1.Canonical ↔ s.Canonical) →
      ∀ r ∈ (if c then a else b), r.1.Canonical ↔ s.Canonical := by
    intro c _ a b ha hb
    split
    · exact ha
    · exact hb
  refine (?_ : ∀ r ∈ s.csrRead h n, r.1.Canonical ↔ s.Canonical) _ e
  unfold State.csrRead
  simp only []
  repeat' apply ite
  all_goals rintro _ ⟨⟩ <;> simp

@[simp] theorem State.canonical_csrAccess (s : State) (h : HartId) (i : CsrInst) : (s.csrAccess h i).Canonical ↔ s.Canonical := by
  unfold State.csrAccess
  simp only []
  split
  · simp
  · next e =>
    have read := State.canonical_csrRead e
    split
    · simp
    · simp [read]

/-! ### Remote accesses -/

@[simp] theorem State.canonical_congested (s : State) (p : PortId) (m : Msg) : (s.congested p m).1.Canonical ↔ s.Canonical := by
  unfold State.congested
  split <;> simp

@[simp] theorem State.canonical_answer (s : State) (p : PortId) (m : Msg) (st : Status) (d : List Byte) :
    (s.answer p m st d).Canonical ↔ s.Canonical := by simp [State.answer]

@[simp] theorem State.canonical_answerLogged (s : State) (p : PortId) (m : Msg) (lsn : Option Nat) (d : List Byte) :
    (s.answerLogged p m lsn d).Canonical ↔ s.Canonical := by
  unfold State.answerLogged
  split <;> simp

@[simp] theorem State.canonical_answerData (s : State) (p : PortId) (m : Msg) (st : Status) (d : List Byte) :
    (s.answerData p m st d).Canonical ↔ s.Canonical := by simp [State.answerData]

@[simp] theorem State.canonical_answerAck (s : State) (p : PortId) (m : Msg) : (s.answerAck p m).Canonical ↔ s.Canonical := by simp [State.answerAck]

@[simp] theorem State.canonical_regsRead (s : State) (a n : Nat) : (s.regsRead a n).1.Canonical ↔ s.Canonical := by
  simp [State.regsRead]

@[simp] theorem State.Canonical.regsWrite {s : State} (h : s.Canonical) (a : Nat) (d : List Byte) : (s.regsWrite a d).Canonical :=
  foldl_keeps State.Canonical _ (fun _ _ hs => hs.busWrite ..) _ _ h

@[simp] theorem State.canonical_serveRd (s : State) (p : PortId) (m : Msg) : (s.serveRd p m).Canonical ↔ s.Canonical := by
  unfold State.serveRd
  simp only []
  split
  · split <;> simp
  split
  · simp
  split
  · next e => exact State.canonical_recall e
  · split <;> simp

@[simp] theorem State.Canonical.serveWr {s : State} (h : s.Canonical) (p : PortId) (m : Msg) : (s.serveWr p m).Canonical := by
  unfold State.serveWr
  extract_lets a l
  split
  · split
    · simpa using h.regsWrite ..
    · simpa using h
  split
  · simpa using h
  split
  · next e => exact (State.canonical_recall e).2 h
  · simpa [l] using h

@[simp] theorem State.canonical_expireReplays (s : State) : s.expireReplays.Canonical ↔ s.Canonical := by simp [State.expireReplays]

@[simp] theorem State.canonical_cacheResult (s : State) (p : PortId) (r : Replay) : (s.cacheResult p r).Canonical ↔ s.Canonical := by simp [State.cacheResult]

@[simp] theorem State.canonical_applyAtom (s : State) (p : PortId) (m : Msg) (w : Nat) : (s.applyAtom p m w).Canonical ↔ s.Canonical := by simp [State.applyAtom]

@[simp] theorem State.canonical_serveAtom (s : State) (p : PortId) (m : Msg) : (s.serveAtom p m).Canonical ↔ s.Canonical := by
  unfold State.serveAtom
  extract_lets u a b w seq newer
  have own : u.Canonical ↔ s.Canonical := s.canonical_expireReplays
  split
  · simp [own]
  split
  · split
    · simp [own]
    split
    · next e => exact (State.canonical_recall e).trans own
    · split <;> simp [own]
  · split <;> simp [own]

@[simp] theorem State.canonical_dirEvict (s : State) (line : Nat) : (s.dirEvict line).Canonical ↔ s.Canonical := by
  unfold State.dirEvict
  simp only []
  (repeat' split) <;> simp

@[simp] theorem State.canonical_grantLine (s : State) (p : PortId) (m : Msg) (line : Nat) (d : DirState) :
    (s.grantLine p m line d).Canonical ↔ s.Canonical := by simp [State.grantLine]

@[simp] theorem State.canonical_dirWait (s : State) (line : Nat) (p : PortId) (m : Msg) : (s.dirWait line p m).Canonical ↔ s.Canonical := by simp [State.dirWait]

@[simp] theorem State.canonical_refuseCoh (s : State) (p : PortId) (m : Msg) (line : Nat) :
    (s.refuseCoh p m line).Canonical ↔ s.Canonical := by simp [State.refuseCoh]

@[simp] theorem State.canonical_serveGets (s : State) (p : PortId) (m : Msg) : (s.serveGets p m).Canonical ↔ s.Canonical := by
  unfold State.serveGets
  simp only []
  (repeat' split) <;> simp

@[simp] theorem State.canonical_serveGetm (s : State) (p : PortId) (m : Msg) : (s.serveGetm p m).Canonical ↔ s.Canonical := by
  unfold State.serveGetm
  simp only []
  (repeat' split) <;> simp

@[simp] theorem State.canonical_servePutm (s : State) (p : PortId) (m : Msg) : (s.servePutm p m).Canonical ↔ s.Canonical := by simp [State.servePutm]

@[simp] theorem State.Canonical.serve {s : State} (hs : s.Canonical) (p : PortId) (m : Msg) : (s.serve p m).Canonical := by
  unfold State.serve
  split <;> simp [hs]

@[simp] theorem State.Canonical.dirAnswer {s : State} (h : s.Canonical) (n : NodeId) (tag : BitVec 16) : (s.dirAnswer n tag).Canonical := by
  unfold State.dirAnswer
  split
  · exact h
  extract_lets left replied
  have told : replied.Canonical := by simpa [replied] using h
  split
  · simpa using told
  · exact foldl_keeps State.Canonical _ (fun s w hs => hs.serve ..) _ _ (by simpa using told)

@[simp] theorem State.Canonical.dropHolder {s : State} (h : s.Canonical) (n : NodeId) : (s.dropHolder n).Canonical :=
  foldl_keeps State.Canonical _ (fun s a hs => hs.dirAnswer a.1 a.2) _ _ (by simpa using h)

@[simp] theorem State.canonical_dropLine (s : State) (key : Nat) : (s.dropLine key).Canonical ↔ s.Canonical := by simp [State.dropLine]

@[simp] theorem State.canonical_ownerAnswer (s : State) (m : Msg) (give : Bool) : (s.ownerAnswer m give).Canonical ↔ s.Canonical := by
  unfold State.ownerAnswer
  simp only []
  split <;> simp

@[simp] theorem State.canonical_forwarded (s : State) (p : PortId) (m : Msg) (give : Bool) :
    (s.forwarded p m give).Canonical ↔ s.Canonical := by simp [State.forwarded]

@[simp] theorem State.canonical_noteCong (s : State) (p : PortId) (n : NodeId) : (s.noteCong p n).Canonical ↔ s.Canonical := by
  unfold State.noteCong
  simp only []
  split <;> simp

@[simp] theorem State.canonical_hartResponse (s : State) (h : HartId) (r : Req) (m : Msg) :
    (s.hartResponse h r m).Canonical ↔ s.Canonical := by simp [State.hartResponse]

@[simp] theorem State.Canonical.copyResponse {s : State} (hs : s.Canonical) (t : TileId) (k : QId) (n : Word) (m : Msg) : (s.copyResponse t k n m).Canonical := by
  unfold State.copyResponse
  simp only []
  (repeat' split) <;> simp [hs]

theorem State.canonical_responseRecall {s t : State} {r : Req} {m : Msg} (h : s.responseRecall r m = some t) : t.Canonical ↔ s.Canonical := by
  unfold State.responseRecall at h
  obtain ⟨_, _, h⟩ : ∃ n p, s.placeRecall n true p = some t := by
    repeat' split at h
    case isTrue => exact ⟨_, _, h⟩
    all_goals cases h
  exact State.canonical_placeRecall h

@[simp] theorem State.Canonical.takeResponse {s : State} (hs : s.Canonical) (p : PortId) (m : Msg) : (s.takeResponse p m).Canonical := by
  unfold State.takeResponse
  simp only []
  (repeat' split) <;> simp [hs]

@[simp] theorem State.Canonical.arriving {s : State} (h : s.Canonical) {f : State → State} (hf : ∀ s, s.Canonical → (f s).Canonical) (p : PortId) (m : Msg) (opc : Nat) :
    (s.arriving p m opc f).Canonical := by
  have taken : (s.intake p m).1.Canonical := by simpa using h
  unfold State.arriving
  simp only []
  split
  · exact hf _ taken
  · exact taken

@[simp] theorem State.canonical_takeLine (s : State) (r : Req) (m : Msg) : (s.takeLine r m).Canonical ↔ s.Canonical := by
  unfold State.takeLine
  simp only []
  split
  · simp
  · simp only [State.canonical_replyAll, State.canonical_mk, State.tilesCanonical_tiles]
    refine (State.canonical_foldl (fun s e => ?_) _ _).trans (by simp)
    split
    · split <;> simp
    · rfl

end Sys2Proof.Machine
end

section
/-! The form of the tiles: snapshots, recovery and the services. -/

namespace Sys2Proof.Machine

/-! ### Snapshots -/

@[simp] theorem State.canonical_releaseHeld (s : State) : s.releaseHeld.Canonical ↔ s.Canonical := by simp [State.releaseHeld]

@[simp] theorem State.canonical_unguard (s : State) (pages : List Nat) : (s.unguard pages).Canonical ↔ s.Canonical := by simp [State.unguard]

@[simp] theorem State.canonical_dropGen (s : State) (d : Draft) : (s.dropGen d).Canonical ↔ s.Canonical := by simp [State.dropGen]

@[simp] theorem State.canonical_putRec (s : State) (d : Draft) (r : CommitRec) : (s.putRec d r).Canonical ↔ s.Canonical := by simp [State.putRec]

@[simp] theorem State.canonical_putFlashRec (s : State) (d : Draft) (r : CommitRec) : (s.putFlashRec d r).Canonical ↔ s.Canonical := by simp [State.putFlashRec]

@[simp] theorem State.canonical_intervalNs (s : State) : s.intervalNs.1.Canonical ↔ s.Canonical := by simp [State.intervalNs]

@[simp] theorem State.canonical_newInterval (s : State) : s.newInterval.Canonical ↔ s.Canonical := by simp [State.newInterval]

@[simp] theorem State.canonical_takeCommit (s : State) (c : CommitMsg) : (s.takeCommit c).Canonical ↔ s.Canonical := by simp [State.takeCommit]

@[simp] theorem State.canonical_tryCommit (s : State) (d : Draft) (gen : Nat) (tier : Tier) :
    (s.tryCommit d gen tier).Canonical ↔ s.Canonical := by simp [State.tryCommit]

@[simp] theorem State.canonical_takeReady (s : State) (d : Draft) (src : NodeId) (gen : Nat) (tier : Tier) (members : Nat) :
    (s.takeReady d src gen tier members).Canonical ↔ s.Canonical := by simp [State.takeReady]

@[simp] theorem State.canonical_sendReady (s : State) (d : Draft) (gen : Nat) (tier : Tier) : (s.sendReady d gen tier).Canonical ↔ s.Canonical := by
  unfold State.sendReady
  split <;> simp

@[simp] theorem State.canonical_tryPrepared (s : State) (d : Draft) : (s.tryPrepared d).Canonical ↔ s.Canonical := by
  unfold State.tryPrepared
  simp only []
  (repeat' split) <;> simp

@[simp] theorem State.canonical_abandonAll (s : State) (d : Draft) : (s.abandonAll d).Canonical ↔ s.Canonical := by simp [State.abandonAll]

@[simp] theorem State.canonical_putImage (s : State) (d : Draft) (gen index : Nat) : (s.putImage d gen index).Canonical ↔ s.Canonical := by simp [State.putImage]

@[simp] theorem State.canonical_takeMark (s : State) (d : Draft) (final : Bool) : (s.takeMark d final).Canonical ↔ s.Canonical := by simp [State.takeMark]

@[simp] theorem State.canonical_flashStripe (s : State) (t slot : Nat) (ds : List (Option (List Byte))) : (s.flashStripe t slot ds).1.Canonical ↔ s.Canonical := by
  unfold State.flashStripe
  refine State.canonical_foldl_fst (fun r c => ?_) _ _
  split
  · simp only []
    split <;> simp
  · rfl

@[simp] theorem State.canonical_copyStripe (s : State) (d : Draft) (r : CommitRec) (t : Nat) (ds : List (Option (List Byte))) :
    (s.copyStripe d r t ds).Canonical ↔ s.Canonical := by
  unfold State.copyStripe
  extract_lets full slot kept dg sent f done pages
  have h1 : sent.Canonical ↔ s.Canonical := by
    refine State.canonical_foldl (fun s c => ?_) _ _
    split
    · split
      · split <;> simp
      · rfl
    · rfl
  have h2 : f.1.Canonical ↔ sent.Canonical := by
    unfold f
    split
    · exact State.canonical_flashStripe ..
    · rfl
  exact (State.canonical_unguard ..).trans (h2.trans h1)

@[simp] theorem State.canonical_applyCommit (s : State) (d : Draft) (c : CommitMsg) : (s.applyCommit d c).Canonical ↔ s.Canonical := by
  unfold State.applyCommit
  simp only []
  (repeat' split) <;> simp

@[simp] theorem State.canonical_mirrorOut (s : State) (partner : NodeId) (n : Pick) : (s.mirrorOut partner n).Canonical ↔ s.Canonical := by simp [State.mirrorOut]

@[simp] theorem State.canonical_pickRecord (s : State) (d : Draft) (n : Pick) : (s.pickRecord d n).Canonical ↔ s.Canonical := by
  unfold State.pickRecord
  split <;> simp

@[simp] theorem State.canonical_pickResil (s : State) (d : Draft) (n : Pick) : (s.pickResil d n).Canonical ↔ s.Canonical := by
  unfold State.pickResil
  simp only []
  split <;> simp

/-! ### Recovery -/

@[simp] theorem State.canonical_setRing (s : State) (r : LogRing) : (s.setRing r).Canonical ↔ s.Canonical := by simp [State.setRing]

@[simp] theorem State.canonical_partnerEntry (s : State) (d : Draft) (owner : NodeId) (a : Nat) (b : List Byte) :
    (s.partnerEntry d owner a b).Canonical ↔ s.Canonical := by
  unfold State.partnerEntry
  split <;> simp

@[simp] theorem State.canonical_ownEntry (s : State) (b : List Byte) : (s.ownEntry b).Canonical ↔ s.Canonical := by simp [State.ownEntry]

@[simp] theorem State.canonical_release (s : State) (z1 : Held) : (s.release z1).Canonical ↔ s.Canonical := by
  unfold State.release
  split <;> simp

@[simp] theorem State.canonical_acknowledged (s : State) (lsn : Nat) : (s.acknowledged lsn).Canonical ↔ s.Canonical := by simp [State.acknowledged]

@[simp] theorem State.canonical_mirrorPage (s : State) (d : Draft) (page : Nat) (b : List Byte) :
    (s.mirrorPage d page b).Canonical ↔ s.Canonical := by simp [State.mirrorPage]

@[simp] theorem State.canonical_undoMirror (s : State) (d : Draft) : (s.undoMirror d).Canonical ↔ s.Canonical := by simp [State.undoMirror]

@[simp] theorem State.canonical_tellMembers (s : State) (d : Draft) (opc : Nat) (args : List Nat) :
    (s.tellMembers d opc args).Canonical ↔ s.Canonical := by simp [State.tellMembers]

@[simp] theorem State.canonical_tryRestartPick (s : State) (d : Draft) : (s.tryRestartPick d).Canonical ↔ s.Canonical := by simp [State.tryRestartPick]

@[simp] theorem State.canonical_takeHaltAck (s : State) (d : Draft) (src : NodeId) (pick barrier : Pick) :
    (s.takeHaltAck d src pick barrier).Canonical ↔ s.Canonical := by simp [State.takeHaltAck]

@[simp] theorem State.canonical_haltNode (s : State) (d : Draft) : (s.haltNode d).Canonical ↔ s.Canonical := by
  unfold State.haltNode
  simp only []
  (repeat' split) <;> simp

@[simp] theorem State.canonical_takeSuspect (s : State) (node src : NodeId) : (s.takeSuspect node src).Canonical ↔ s.Canonical := by simp [State.takeSuspect]

@[simp] theorem State.Canonical.loseNode {s : State} (h : s.Canonical) (d : Draft) (n : NodeId) : (s.loseNode d n).Canonical := by
  unfold State.loseNode
  extract_lets mirrored keeper off src marked dropped failed ended undone resent
  have h1 : marked.Canonical := (State.canonical_foldl (fun s p => by simp) _ _).2 h
  have h2 : failed.Canonical := by simpa [failed] using State.Canonical.dropHolder (s := marked.count F.CKPT_EVENTS_LOSSES 1) (by simpa using h1) n
  have h3 : ended.Canonical := (State.canonical_colLost ..).2 h2
  have h4 : undone.Canonical := by
    unfold undone
    split
    · simpa using h3
    · exact h3
  have h5 : resent.Canonical := by
    unfold resent
    split
    · simpa using h4
    · exact h4
  split
  · exact h
  split
  · split
    · simp only []
      split <;> simpa using h5
    · exact h5
  · exact h5

@[simp] theorem State.Canonical.takeDeclare {s : State} (h : s.Canonical) (d : Draft) (l : List NodeId) : (s.takeDeclare d l).Canonical := by
  unfold State.takeDeclare
  extract_lets lost raised dropped
  have gone : lost.Canonical := by
    simp only [lost, State.canonical_assignParent, State.canonical_showCoord]
    exact foldl_keeps State.Canonical _ (fun s n hs => hs.loseNode d n) _ _ h
  have told : raised.Canonical := by
    unfold raised
    split <;> simpa using gone
  have abandoned : dropped.Canonical := by
    unfold dropped
    split
    · simpa using told
    · exact told
  split
  · exact gone
  · simpa using abandoned

@[simp] theorem State.Canonical.declareLost {s : State} (hs : s.Canonical) (d : Draft) (l : List NodeId) :
    (s.declareLost d l).Canonical := by simp [State.declareLost, hs]

@[simp] theorem State.canonical_askChunks (s : State) (d : Draft) (r : CommitRec) (cs : List (Nat × Nat)) : (s.askChunks d r cs).Canonical ↔ s.Canonical := by
  unfold State.askChunks
  refine State.canonical_foldl (fun s e => ?_) _ _
  split
  · simp
  · rfl

@[simp] theorem State.canonical_loadImage (s : State) (d : Draft) : (s.loadImage d).Canonical ↔ s.Canonical := by simp [State.loadImage]

@[simp] theorem State.canonical_rebuildDone (s : State) (d : Draft) (r : CommitRec) : (s.rebuildDone d r).Canonical ↔ s.Canonical := by
  unfold State.rebuildDone
  extract_lets pages image tiles replay marked src
  have placed : pages.Canonical ↔ s.Canonical := by
    refine State.canonical_foldl (fun s t => ?_) _ _
    split
    · rfl
    · refine State.canonical_foldl (fun s c => ?_) _ _
      split <;> simp
  simp [marked, replay, tiles, image, placed]

@[simp] theorem State.canonical_tryRebuilt (s : State) (d : Draft) (r : CommitRec) : (s.tryRebuilt d r).Canonical ↔ s.Canonical := by simp [State.tryRebuilt]

@[simp] theorem State.canonical_ownRec (s : State) (d : Draft) (src : NodeId) (b : List Byte) : (s.ownRec d src b).Canonical ↔ s.Canonical := by
  unfold State.ownRec
  simp only []
  split <;> simp

@[simp] theorem State.canonical_replayInputs (s : State) (p : Pick) (i : Nat) : (s.replayInputs p i).Canonical ↔ s.Canonical := by simp [State.replayInputs]

@[simp] theorem State.canonical_endReplay (s : State) (r : Pick) : (s.endReplay r).Canonical ↔ s.Canonical := by simp [State.endReplay]

@[simp] theorem State.canonical_takeResume (s : State) (r : Pick) (base : Nat) : (s.takeResume r base).Canonical ↔ s.Canonical := by simp [State.takeResume]

/-! ### The control protocol -/

@[simp] theorem State.canonical_replyTo (s : State) (r : Dripol) (type : Nat) (st : Status) (d : List Byte) :
    (s.replyTo r type st d).Canonical ↔ s.Canonical := by simp [State.replyTo]

@[simp] theorem State.canonical_answerVersion (s : State) (r : Dripol) (type : Nat) :
    (s.answerVersion r type).Canonical ↔ s.Canonical := by simp [State.answerVersion]

@[simp] theorem State.canonical_answerAgain (s : State) (m : HostMsg) : (s.answerAgain m).Canonical ↔ s.Canonical := by simp [State.answerAgain]

@[simp] theorem State.canonical_modSession (s : State) (n : BitVec 32) (f : Session → Session) :
    (s.modSession n f).Canonical ↔ s.Canonical := by simp [State.modSession]

@[simp] theorem State.canonical_endSession (s : State) (n : BitVec 32) : (s.endSession n).Canonical ↔ s.Canonical := by simp [State.endSession]

@[simp] theorem State.canonical_untake (s : State) (r : Dripol) (type : Nat) : (s.untake r type).Canonical ↔ s.Canonical := by simp [State.untake]

@[simp] theorem State.Canonical.runService {s : State} (h : s.Canonical) {f : State → State} (hf : ∀ s, s.Canonical → (f s).Canonical) (x : Session) (r : Dripol)
    (type : Nat) (least : Role) (srv : Option Nat) : (s.runService x r type least srv f).Canonical := by
  unfold State.runService
  split
  · simpa using h
  split
  · simpa using h
  · exact hf _ h

@[simp] theorem State.Canonical.gate {s : State} (h : s.Canonical) {f : State → State} (hf : ∀ s, s.Canonical → (f s).Canonical) (r : Dripol)
    (type : Nat) (least : Role) (srv : Option Nat) : (s.gate r type least srv f).Canonical := by
  unfold State.gate
  split
  · exact h
  split
  · simpa using h
  split
  · simpa using h
  split
  · exact h
  split
  · exact State.Canonical.runService (by simpa using h) hf ..
  split
  · simpa using h
  split
  · exact State.Canonical.runService (by simpa using h) hf ..
  · exact h

@[simp] theorem State.Canonical.serveOpen {s : State} (h : s.Canonical) {f : State → State} (hf : ∀ s, s.Canonical → (f s).Canonical) (r : Dripol) (type : Nat) :
    (s.serveOpen r type f).Canonical := by
  unfold State.serveOpen
  split
  · split
    · simpa using h
    · exact hf _ (by simpa using h)
  · exact h.gate hf ..

@[simp] theorem State.Canonical.serveBsc {s : State} (h : s.Canonical) {f : State → State} (hf : ∀ s, s.Canonical → (f s).Canonical) (r : Dripol) (type : Nat) :
    (s.serveBsc r type f).Canonical := by
  unfold State.serveBsc
  split
  · exact h
  split
  · simpa using h
  split
  · simpa using h
  · exact hf _ (by simpa using h)

@[simp] theorem State.canonical_drawn (s : State) : s.drawn.Canonical ↔ s.Canonical := by simp [State.drawn]

@[simp] theorem State.canonical_helloStep (s : State) (r : Dripol) (nonce key : List Byte) (role : Role) :
    (s.helloStep r nonce key role).Canonical ↔ s.Canonical := by simp [State.helloStep]

@[simp] theorem State.canonical_proofStep (s : State) (r : Dripol) (x : Session) (sig : List Byte) :
    (s.proofStep r x sig).Canonical ↔ s.Canonical := by simp [State.proofStep]

@[simp] theorem State.canonical_takeReq (s : State) (r : Dripol) (type : Nat) (d : List Byte) : (s.takeReq r type d).Canonical ↔ s.Canonical := by
  unfold State.takeReq
  simp only []
  split <;> simp

@[simp] theorem State.canonical_sessionMsg (s : State) (x : Session) (r : Dripol) (type : Nat) (d : List Byte) :
    (s.sessionMsg x r type d).Canonical ↔ s.Canonical := by
  unfold State.sessionMsg
  split <;> simp

@[simp] theorem State.canonical_tagFailed (s : State) : s.tagFailed.Canonical ↔ s.Canonical := by simp [State.tagFailed]

@[simp] theorem State.canonical_dripolMsg (s : State) (b : List Byte) (seq : Nat) : (s.dripolMsg b seq).Canonical ↔ s.Canonical := by
  unfold State.dripolMsg
  simp only []
  repeat' split
  all_goals simp only [State.canonical_answerVersion, State.canonical_tagFailed, State.canonical_takeReq,
    State.canonical_replyTo, State.canonical_answerAgain, State.canonical_sessionMsg]

@[simp] theorem State.canonical_segment (s : State) (src : Nat) (seg : List Byte) : (s.segment src seg).Canonical ↔ s.Canonical := by simp [State.segment]

@[simp] theorem State.canonical_readRegs (s : State) (l : List Nat) : (s.readRegs l).2.Canonical ↔ s.Canonical := by
  induction l generalizing s with
  | nil => rfl
  | cons o l ih => simp [State.readRegs, ih]

@[simp] theorem State.canonical_freeEvents (s : State) (upto : Nat) : (s.freeEvents upto).Canonical ↔ s.Canonical := by simp [State.freeEvents]

/-! ### Services -/

@[simp] theorem State.Canonical.judged {s : State} (h : s.Canonical) {f : State → State} (hf : ∀ s, s.Canonical → (f s).Canonical) (r : Dripol) (type : Nat)
    (bad : Status) (ok : Bool) : (s.judged r type bad ok f).Canonical := by
  unfold State.judged
  split
  · simpa using hf _ h
  · simpa using h

@[simp] theorem State.Canonical.setPolicy {s : State} (hs : s.Canonical) (p : HostPolicy) : (s.setPolicy p).Canonical := by
  unfold State.setPolicy
  simp only []
  (repeat' split) <;> simp [hs]

@[simp] theorem State.canonical_groupCreate (s : State) (r : Dripol) (g : GroupRec) : (s.groupCreate r g).Canonical ↔ s.Canonical := by
  unfold State.groupCreate
  split
  · simp
  split
  · simp
  split
  · next e => exact (State.canonical_replyTo ..).trans (State.canonical_createCtx e)
  · simp

@[simp] theorem State.canonical_jobSubstitute (s : State) (d : Draft) (subs : List (Nat × NodeId)) : (s.jobSubstitute d subs).Canonical ↔ s.Canonical := by
  unfold State.jobSubstitute
  simp only []
  split <;> simp

@[simp] theorem State.Canonical.rootJob {s : State} (h : s.Canonical) {f : State → Draft → State × Status} (hf : ∀ s d, s.Canonical → (f s d).1.Canonical)
    (r : Dripol) (type : Nat) (tag : BitVec 64) : (s.rootJob r type tag f).Canonical := by
  unfold State.rootJob
  split
  · simpa using hf _ _ h
  · simpa using h

@[simp] theorem State.canonical_loadFlash (s : State) (d : Draft) (r : CommitRec) : (s.loadFlash d r).Canonical ↔ s.Canonical := by
  unfold State.loadFlash
  extract_lets pages image done src
  have placed : pages.Canonical ↔ s.Canonical := by
    refine State.canonical_foldl (fun s k => ?_) _ _
    split <;> simp
  simp [done, image, placed]

@[simp] theorem State.canonical_storeToFlash (s : State) (d : Draft) : (s.storeToFlash d).Canonical ↔ s.Canonical := by simp [State.storeToFlash]

@[simp] theorem State.canonical_restoreStep (s : State) (r : Dripol) (x : RestoreReq) : (s.restoreStep r x).Canonical ↔ s.Canonical := by
  unfold State.restoreStep
  simp only []
  (repeat' split) <;> simp

/-! ### Firmware -/

@[simp] theorem State.canonical_putSlot (s : State) (k : Nat) (b : List Byte) : (s.putSlot k b).Canonical ↔ s.Canonical := by simp [State.putSlot]

@[simp] theorem State.canonical_emptyStage (s : State) : s.emptyStage.Canonical ↔ s.Canonical := by simp [State.emptyStage]

@[simp] theorem State.canonical_stageAs (s : State) (r : Dripol) (b : List Byte) (err : Option Status) : (s.stageAs r b err).Canonical ↔ s.Canonical := by
  unfold State.stageAs
  split <;> simp

@[simp] theorem State.canonical_endStage (s : State) (r : Dripol) : (s.endStage r).Canonical ↔ s.Canonical := by simp [State.endStage]

@[simp] theorem State.canonical_stageStep (s : State) (r : Dripol) (off : Nat) (d : List Byte) (last : Bool) :
    (s.stageStep r off d last).Canonical ↔ s.Canonical := by simp [State.stageStep]

@[simp] theorem State.Canonical.activate {s : State} (hs : s.Canonical) : s.activate.Canonical := by simp [State.activate, hs]

@[simp] theorem State.canonical_swapBack (s : State) : s.swapBack.Canonical ↔ s.Canonical := by simp [State.swapBack]

@[simp] theorem State.canonical_startFwps (s : State) : s.startFwps.Canonical ↔ s.Canonical := by simp [State.startFwps]

@[simp] theorem State.canonical_bootEvent (s : State) : s.bootEvent.Canonical ↔ s.Canonical := by simp [State.bootEvent]

@[simp] theorem State.canonical_bootFrom (s : State) (k : Nat) : (s.bootFrom k).Canonical ↔ s.Canonical := by simp [State.bootFrom]

@[simp] theorem State.Canonical.hostReset {s : State} (hs : s.Canonical) (z1 : ResetReq) : (s.hostReset z1).Canonical := by
  unfold State.hostReset
  split <;> simp [hs]

end Sys2Proof.Machine
end

section
/-! The form of the tiles: vector and shuttle instructions. -/

namespace Sys2Proof.Machine

/-! ### Vector instructions -/

@[simp] theorem State.canonical_fvxRegs (s : State) (h : HartId) (op : FvxOp) (f : FvxWord) : (s.fvxRegs h op f).Canonical ↔ s.Canonical := by
  unfold State.fvxRegs
  simp only []
  (repeat' split) <;> simp

@[simp] theorem State.Canonical.fvxLoad {s : State} (h : s.Canonical) (i : HartId) (op : FvxOp) (f : FvxWord) : (s.fvxLoad i op f).Canonical := by
  unfold State.fvxLoad
  extract_lets x w n slots addrs els
  split
  · simpa using h
  · refine h.coreAccess (fun s got hs => ?_) ..
    have read := (s.canonical_readEls i got els).2 hs
    split <;> (next e => rw [e] at read; simpa using read)

@[simp] theorem State.Canonical.fvxStore {s : State} (h : s.Canonical) (i : HartId) (op : FvxOp) (f : FvxWord) : (s.fvxStore i op f).Canonical := by
  unfold State.fvxStore
  extract_lets x w n slots addrs els src ds
  split
  · simpa using h
  · exact h.coreAccess (fun s _ hs => by simpa using hs.writeEls ..) ..

@[simp] theorem State.Canonical.fvxPred {s : State} (h : s.Canonical) (i : HartId) (op : FvxOp) (f : FvxWord) : (s.fvxPred i op f).Canonical := by
  unfold State.fvxPred
  extract_lets x a e d
  split
  · simpa using h
  split
  · refine h.coreAccess (fun s got hs => ?_) ..
    split <;> (next eq => simpa using hs.of_elRead eq)
  · exact h.coreAccess (fun s _ hs => by simpa using hs.elWrite ..) ..

@[simp] theorem State.Canonical.fvxCas {s : State} (h : s.Canonical) (i : HartId) (f : FvxWord) : (s.fvxCas i f).Canonical := by
  unfold State.fvxCas
  extract_lets x a n cmp new e ret
  have returns : ∀ (s : State) (d : List Byte), s.Canonical → (ret s d).Canonical := fun s d hs => by simpa [ret] using hs
  split
  · simpa using h
  split
  · simpa using h
  · exact h.coreAccess (fun s _ hs => returns _ _ hs) ..
  · refine h.coreAccess (fun s got hs => ?_) ..
    split
    · next eq => simpa using hs.of_elRead eq
    · next eq =>
      refine returns _ _ ?_
      split
      · exact (hs.of_elRead eq).elWrite ..
      · exact hs.of_elRead eq

@[simp] theorem State.Canonical.fvx {s : State} (h : s.Canonical) (i : HartId) (op : FvxOp) (f : FvxWord) : (s.fvx i op f).Canonical := by
  unfold State.fvx
  split
  · simpa using h
  split
  · exact h.fvxLoad ..
  split
  · exact h.fvxStore ..
  split
  · exact h.fvxPred ..
  split
  · exact h.fvxCas ..
  · simpa using h

@[simp] theorem State.Canonical.runParked {s : State} (h : s.Canonical) (i : HartId) (c : CoreCmd) : (s.runParked i c).Canonical := by
  cases c with
  | load m => exact h.coreLoad i m
  | store m => exact h.coreStore i m
  | amo m => exact h.coreAmo i m
  | lrsc sc m => exact h.coreLrSc i sc m
  | fvx op f => exact h.fvx i op f

/-! ### Shuttle instructions -/

@[simp] theorem State.Canonical.shuttleDo {s : State} (h : s.Canonical) {f : State → State} (hf : ∀ s, s.Canonical → (f s).Canonical) (t : TileId) (n : Nat)
    (mine : Wait → Bool) : (s.shuttleDo t n mine f).Canonical := by
  unfold State.shuttleDo
  simp only []
  split
  · exact h
  split
  · simpa using h
  split
  · exact hf _ h
  · split
    · exact hf _ h
    · exact h

@[simp] theorem State.canonical_eissue (s : State) (t : TileId) (i : RInst) : (s.eissue t i).Canonical ↔ s.Canonical := by simp [State.eissue]

@[simp] theorem State.canonical_ewait (s : State) (t : TileId) (i : RInst) : (s.ewait t i).Canonical ↔ s.Canonical := by
  unfold State.ewait
  simp only []
  (repeat' split) <;> simp

@[simp] theorem State.canonical_efence (s : State) (t : TileId) (i : RInst) : (s.efence t i).Canonical ↔ s.Canonical := by simp [State.efence]

@[simp] theorem State.canonical_cwait (s : State) (t : TileId) (i : RInst) : (s.cwait t i).Canonical ↔ s.Canonical := by
  unfold State.cwait
  simp only []
  split <;> simp

@[simp] theorem State.canonical_cset (s : State) (t : TileId) (i : RInst) : (s.cset t i).Canonical ↔ s.Canonical := by simp [State.cset]

@[simp] theorem State.canonical_cadd (s : State) (t : TileId) (i : RInst) : (s.cadd t i).Canonical ↔ s.Canonical := by simp [State.cadd]

@[simp] theorem State.canonical_twaitReturn (s : State) (t : TileId) (i : RInst) (n : Nat) (p : Pick) (onTime : Bool) :
    (s.twaitReturn t i n p onTime).Canonical ↔ s.Canonical := by simp [State.twaitReturn]

@[simp] theorem State.canonical_twait (s : State) (t : TileId) (i : RInst) : (s.twait t i).Canonical ↔ s.Canonical := by
  unfold State.twait
  simp only []
  (repeat' split) <;> simp

@[simp] theorem State.Canonical.shRegStore {s : State} (hs : s.Canonical) (t : TileId) (i : ShMem) (a : Nat) (v len : Word) :
    (s.shRegStore t i a v len).Canonical := by
  unfold State.shRegStore
  simp only []
  (repeat' split) <;> simp [hs]

@[simp] theorem State.canonical_shRegLoad (s : State) (t : TileId) (i : ShMem) (a : Nat) (len : Word) : (s.shRegLoad t i a len).Canonical ↔ s.Canonical := by
  unfold State.shRegLoad
  simp only []
  split
  · simp
  split
  · simp
  split
  · split <;> simp
  · simp

@[simp] theorem State.Canonical.shMem {s : State} (h : s.Canonical) (t : TileId) (i : ShMem) : (s.shMem t i).Canonical := by
  unfold State.shMem
  extract_lets x a v n len bad st ret o
  have returns : ∀ (s : State) (d : List Byte), s.Canonical → (ret s d).Canonical := fun s d hs => by simpa [ret] using hs
  have stores : (s.modTile t (fun x => { x with smem := x.smem.writeN a st })).Canonical := h.setTile (Memory.wf_writeN _ _ _ (h.smem t)) (h.treg t)
  split
  · simpa using h
  split
  · split
    · exact h.shRegStore ..
    · simpa using h
  split
  · simpa using h
  split
  · split
    · simpa using h
    · exact returns _ _ h
  split
  · split
    · simpa using stores
    · exact returns _ _ h
  split
  · split
    · simpa using h
    split
    · simpa using h
    · exact returns _ _ h
  · simpa using h

end Sys2Proof.Machine
end

section
/-! Every command keeps the form of the tiles. -/

namespace Sys2Proof.Machine

/-- The tiles of the next state are in canonical form, where there is one. -/
def OutcomeCanonical : Host.Outcome State Fault Refusal → Prop
  | .next t => t.Canonical
  | _ => True

@[simp] theorem outcomeCanonical_next (t : State) : OutcomeCanonical (.next t) ↔ t.Canonical := Iff.rfl

/-- The state that a search for a group leaves. -/
theorem State.Canonical.of_colFind {s u : State} (hs : s.Canonical) {m : Msg} {o : Option (CtxId × Ctx)} (e : s.colFind m = (u, o)) : u.Canonical := by
  have := (s.canonical_colFind m).2 hs
  rwa [e] at this

section
variable {s : State} (hs : s.Canonical)
include hs

/-! ### The memory system -/

theorem canonical_execMemRead (a : BitVec 48) (len : Nat) (obs : EccObs) : OutcomeCanonical (execMemRead a len obs s) := by simp [execMemRead, hs]

theorem canonical_execMemWrite (a : BitVec 48) (d : List Byte) : OutcomeCanonical (execMemWrite a d s) := by simp [execMemWrite, hs]

theorem canonical_execWcbEntryDrain (c : CtrlId) (now : BitVec 64) : OutcomeCanonical (execWcbEntryDrain c now s) := by simp [execWcbEntryDrain, hs]

theorem canonical_execPatrolScrub (c : CtrlId) (a : BitVec 48) (obs : EccObs) (last : Bool) :
    OutcomeCanonical (execPatrolScrub c a obs last s) := by simp [execPatrolScrub, hs]

theorem canonical_execMemCeRate (c : CtrlId) : OutcomeCanonical (execMemCeRate c s) := by simp [execMemCeRate, hs]

theorem canonical_execHbmTempRead (k : Fin 12) (temp : Int) : OutcomeCanonical (execHbmTempRead k temp s) := by simp [execHbmTempRead, hs]

theorem canonical_execMemTrainingLost (c : CtrlId) : OutcomeCanonical (execMemTrainingLost c s) := by simp [execMemTrainingLost, hs]

theorem canonical_execNandRead (p : FlashReq) (lba n : Nat) (retry bad : Bool) : OutcomeCanonical (execNandRead p lba n retry bad s) := by simp [execNandRead, hs]

theorem canonical_execNandWrite (p : FlashReq) (lba : Nat) (d : List Byte) : OutcomeCanonical (execNandWrite p lba d s) := by simp [execNandWrite, hs]

/-! ### Bobbins -/

theorem canonical_execPush (t : TileId) : OutcomeCanonical (execPush t s) := by simp [execPush, hs]

theorem canonical_execPop (t : TileId) : OutcomeCanonical (execPop t s) := by simp [execPop, hs]

theorem canonical_execBobbinReset (t : TileId) : OutcomeCanonical (execBobbinReset t s) := by simp [execBobbinReset, hs]

theorem canonical_execBobbinComplete (t : TileId) : OutcomeCanonical (execBobbinComplete t s) := by
  unfold execBobbinComplete
  split <;> simp [hs]

/-! ### Collectives -/

theorem canonical_execColSubmit (q : Requester) (v : BitVec 64) : OutcomeCanonical (execColSubmit q v s) := by simp [execColSubmit, hs]

theorem canonical_execCollectiveHead (c : CtxId) (now : BitVec 64) : OutcomeCanonical (execCollectiveHead c now s) := by
  unfold execCollectiveHead
  simp only [outcomeCanonical_next]
  split
  · simpa using hs
  split
  · split
    · next e => exact (State.canonical_recall e).2 (by simpa using hs)
    · simpa using hs
  · simpa using hs

theorem canonical_execColData (p : PortId) (m : Msg) : OutcomeCanonical (execColData p m s) := by
  have taken : (s.intake p m).1.Canonical := (State.canonical_intake ..).2 hs
  unfold execColData
  simp only [outcomeCanonical_next]
  split
  · exact taken
  split
  · next e => exact taken.of_colFind e
  · next e =>
    have found := taken.of_colFind e
    repeat' split
    all_goals simpa using found

theorem canonical_execColCredit (p : PortId) (m : Msg) : OutcomeCanonical (execColCredit p m s) := by
  have taken : (s.intake p m).1.Canonical := (State.canonical_intake ..).2 hs
  unfold execColCredit
  simp only [outcomeCanonical_next]
  split
  · exact taken
  split
  · next e => exact taken.of_colFind e
  · next e =>
    have found := taken.of_colFind e
    repeat' split
    all_goals simpa using found

theorem canonical_execColAbort (p : PortId) (m : Msg) : OutcomeCanonical (execColAbort p m s) := by
  have taken : (s.intake p m).1.Canonical := (State.canonical_intake ..).2 hs
  unfold execColAbort
  simp only [outcomeCanonical_next]
  split
  · exact taken
  split
  · next e => exact taken.of_colFind e
  · next e =>
    have found := taken.of_colFind e
    repeat' split
    all_goals simpa using found

theorem canonical_execCollectiveTimeout (c : CtxId) (now : BitVec 64) : OutcomeCanonical (execCollectiveTimeout c now s) := by
  unfold execCollectiveTimeout
  simp only [outcomeCanonical_next]
  split
  · split <;> simpa using hs
  · simpa using hs

theorem canonical_execCollectiveComplete (c : CtxId) (now : BitVec 64) : OutcomeCanonical (execCollectiveComplete c now s) := by
  unfold execCollectiveComplete
  simp only [outcomeCanonical_next]
  split
  · simpa using hs
  split
  · simpa using hs
  split
  · split
    · next e => exact (State.canonical_recall e).2 (by simpa using hs)
    · simpa using hs
  · simpa using hs

theorem canonical_execColCtxReset (q : Requester) (c : CtxId) (v : BitVec 64) : OutcomeCanonical (execColCtxReset q c v s) := by simp [execColCtxReset, hs]

theorem canonical_execColCtxDestroy (q : Requester) (c : CtxId) (v : BitVec 64) : OutcomeCanonical (execColCtxDestroy q c v s) := by simp [execColCtxDestroy, hs]

theorem canonical_execColCtxPolicyWrite (q : Requester) (c : CtxId) (v : BitVec 64) :
    OutcomeCanonical (execColCtxPolicyWrite q c v s) := by simp [execColCtxPolicyWrite, hs]

/-! ### Elementwise operations -/

theorem canonical_execChain (t : TileId) : OutcomeCanonical (execChain t s) := by
  unfold execChain
  split <;> simp [hs]

theorem canonical_execElemComplete (t : TileId) (bank withheld : Nat) : OutcomeCanonical (execElemComplete t bank withheld s) := by
  unfold execElemComplete
  split <;> simp [hs]

/-! ### Matrix products -/

theorem canonical_execChol (t : TileId) : OutcomeCanonical (execChol t s) := by simp [execChol, hs]

theorem canonical_execLdlt (t : TileId) : OutcomeCanonical (execLdlt t s) := by simp [execLdlt, hs]

theorem canonical_execLu (t : TileId) : OutcomeCanonical (execLu t s) := by simp [execLu, hs]

theorem canonical_execQr (t : TileId) : OutcomeCanonical (execQr t s) := by simp [execQr, hs]

theorem canonical_execTrsv (t : TileId) : OutcomeCanonical (execTrsv t s) := by simp [execTrsv, hs]

theorem canonical_execMv (t : TileId) : OutcomeCanonical (execMv t s) := by simp [execMv, hs]

/-! ### Patterns -/

theorem canonical_execAssemble (t : TileId) : OutcomeCanonical (execAssemble t s) := by simp [execAssemble, hs]

theorem canonical_execSolve (t : TileId) (dl : DlPoint) : OutcomeCanonical (execSolve t dl s) := by simp [execSolve, hs]

theorem canonical_execSolverComplete (t : TileId) (bank withheld : Nat) : OutcomeCanonical (execSolverComplete t bank withheld s) := by
  unfold execSolverComplete
  split <;> simp [hs]

/-! ### Tensors -/

theorem canonical_execMatmul (t : TileId) : OutcomeCanonical (execMatmul t s) := by
  unfold execMatmul
  split <;> simp [hs]

theorem canonical_execTensorComplete (t : TileId) (bank withheld : Nat) : OutcomeCanonical (execTensorComplete t bank withheld s) := by
  unfold execTensorComplete
  split <;> simp [hs]

/-! ### Schedules -/

theorem canonical_execScheduleEntryIssue (t : TileId) : OutcomeCanonical (execScheduleEntryIssue t s) := by simp [execScheduleEntryIssue, hs]

/-! ### The time base -/

theorem canonical_execTimeNowRead (q : Requester) : OutcomeCanonical (execTimeNowRead q s) := by simp [execTimeNowRead, hs]

theorem canonical_execTimeRebaseAtWrite (q : Requester) (v : BitVec 64) : OutcomeCanonical (execTimeRebaseAtWrite q v s) := by simp [execTimeRebaseAtWrite, hs]

theorem canonical_execTimeDiglogTailWrite (q : Requester) (v : BitVec 64) : OutcomeCanonical (execTimeDiglogTailWrite q v s) := by simp [execTimeDiglogTailWrite, hs]

theorem canonical_execTimeReq (d : Dir) (p : PortId) (src : NodeId) (tag : BitVec 16) (stamp1 stamp2 : BitVec 64) :
    OutcomeCanonical (execTimeReq d p src tag stamp1 stamp2 s) := by
  unfold execTimeReq
  split <;> simp [hs]

theorem canonical_execTimeRsp (p : PortId) (src : NodeId) (t1 t2 t3 t4 : Int) : OutcomeCanonical (execTimeRsp p src t1 t2 t3 t4 s) := by simp [execTimeRsp, hs]

theorem canonical_execPtpMessage (e : EthId) (k : PtpKind) (now : BitVec 64) : OutcomeCanonical (execPtpMessage e k now s) := by
  unfold execPtpMessage
  simp only []
  (repeat' split) <;> simp [hs]

theorem canonical_execAnnounceTimeout (now : BitVec 64) : OutcomeCanonical (execAnnounceTimeout now s) := by
  unfold execAnnounceTimeout
  simp only []
  split <;> simp [hs]

theorem canonical_execTimeHoldover : OutcomeCanonical (execTimeHoldover s) := by simp [execTimeHoldover, hs]

theorem canonical_execTimetableEventFire (i : BitVec 7) (now : BitVec 64) : OutcomeCanonical (execTimetableEventFire i now s) := by simp [execTimetableEventFire, hs]

theorem canonical_execDigestBankHandoff (t : TileId) : OutcomeCanonical (execDigestBankHandoff t s) := by
  unfold execDigestBankHandoff
  split <;> simp [hs]

theorem canonical_execDigestRecordWrite : OutcomeCanonical (execDigestRecordWrite s) := by
  unfold execDigestRecordWrite
  split <;> simp [hs]

/-! ### Power -/

theorem canonical_execPwrEnRise (slot : BitVec 6) (vin : BitVec 16) (now : BitVec 64) :
    OutcomeCanonical (execPwrEnRise slot vin now s) := by simp [execPwrEnRise, hs]

theorem canonical_execPwrEnFall (now : BitVec 64) : OutcomeCanonical (execPwrEnFall now s) := by
  unfold execPwrEnFall
  simp only []
  split <;> simp [hs]

theorem canonical_execPresentNRise : OutcomeCanonical (execPresentNRise s) := by simp [execPresentNRise, hs]

theorem canonical_execNodeResetNLow (us : Nat) (slot : BitVec 6) : OutcomeCanonical (execNodeResetNLow us slot s) := by simp [execNodeResetNLow, hs]

theorem canonical_execLowInput (mv : BitVec 16) (us : Nat) : OutcomeCanonical (execLowInput mv us s) := by simp [execLowInput, hs]

theorem canonical_execPowerEmergencyExit (mv : BitVec 16) (us : Nat) : OutcomeCanonical (execPowerEmergencyExit mv us s) := by simp [execPowerEmergencyExit, hs]

theorem canonical_execInputUndervoltage (mv : BitVec 16) (us : Nat) : OutcomeCanonical (execInputUndervoltage mv us s) := by simp [execInputUndervoltage, hs]

theorem canonical_execInputOvervoltage (mv : BitVec 16) (us : Nat) : OutcomeCanonical (execInputOvervoltage mv us s) := by simp [execInputOvervoltage, hs]

theorem canonical_execOvercurrent (ma100 : BitVec 16) (limit : Bool) (us : Nat) :
    OutcomeCanonical (execOvercurrent ma100 limit us s) := by simp [execOvercurrent, hs]

theorem canonical_execInputRestart (mv : BitVec 16) (goodMs : Nat) (now : BitVec 64) :
    OutcomeCanonical (execInputRestart mv goodMs now s) := by simp [execInputRestart, hs]

theorem canonical_execRailFault (us : Nat) : OutcomeCanonical (execRailFault us s) := by simp [execRailFault, hs]

theorem canonical_execThermalTrip (z0 : ThermSite) (temp : Int) : OutcomeCanonical (execThermalTrip z0 temp s) := by simp [execThermalTrip, hs]

theorem canonical_execLimiterUpdate (x : LimiterIn) : OutcomeCanonical (execLimiterUpdate x s) := by simp [execLimiterUpdate, hs]

theorem canonical_execDroopEvent (t : TileId) (mv : BitVec 16) : OutcomeCanonical (execDroopEvent t mv s) := by simp [execDroopEvent, hs]

theorem canonical_execPwrStateTarget (q : Requester) (v : BitVec 64) : OutcomeCanonical (execPwrStateTarget q v s) := by simp [execPwrStateTarget, hs]

theorem canonical_execPowerStateChangeDone : OutcomeCanonical (execPowerStateChangeDone s) := by simp [execPowerStateChangeDone, hs]

theorem canonical_execPwrResetPkg (q : Requester) (v : BitVec 64) : OutcomeCanonical (execPwrResetPkg q v s) := by simp [execPwrResetPkg, hs]

theorem canonical_execPwrResetCmp (q : Requester) (v : BitVec 64) : OutcomeCanonical (execPwrResetCmp q v s) := by simp [execPwrResetCmp, hs]

theorem canonical_execPwrResetFab (q : Requester) (v : BitVec 64) : OutcomeCanonical (execPwrResetFab q v s) := by simp [execPwrResetFab, hs]

theorem canonical_execPwrResetFwp (q : Requester) (v : BitVec 64) : OutcomeCanonical (execPwrResetFwp q v s) := by simp [execPwrResetFwp, hs]

theorem canonical_execJtagInstruction (i : JtagOp) : OutcomeCanonical (execJtagInstruction i s) := by simp [execJtagInstruction, hs]

theorem canonical_execEthLinkChange (e : EthId) (up : Bool) : OutcomeCanonical (execEthLinkChange e up s) := by simp [execEthLinkChange, hs]

/-! ### Jobs -/

theorem canonical_execDraftBegin (p : PortId) (m : Msg) (now : BitVec 64) : OutcomeCanonical (execDraftBegin p m now s) := by simp [execDraftBegin, hs]

theorem canonical_execDraftChunk (p : PortId) (m : Msg) (now : BitVec 64) : OutcomeCanonical (execDraftChunk p m now s) := by simp [execDraftChunk, hs]

theorem canonical_execDraftValidate (now : BitVec 64) : OutcomeCanonical (execDraftValidate now s) := by
  unfold execDraftValidate
  simp only []
  (repeat' split) <;> simp [hs]

theorem canonical_execDraftAck (p : PortId) (m : Msg) (now : BitVec 64) : OutcomeCanonical (execDraftAck p m now s) := by
  unfold execDraftAck
  simp only []
  split <;> simp [hs]

theorem canonical_execDraftAckTimeout (now : BitVec 64) : OutcomeCanonical (execDraftAckTimeout now s) := by simp [execDraftAckTimeout, hs]

theorem canonical_execTreeUpdate (p : PortId) (m : Msg) (now : BitVec 64) : OutcomeCanonical (execTreeUpdate p m now s) := by
  unfold execTreeUpdate
  simp only []
  split <;> simp [hs]

theorem canonical_execJobGo (p : PortId) (m : Msg) (now : BitVec 64) : OutcomeCanonical (execJobGo p m now s) := by
  unfold execJobGo
  simp only []
  split <;> simp [hs]

theorem canonical_execTeardown (p : PortId) (m : Msg) (now : BitVec 64) : OutcomeCanonical (execTeardown p m now s) := by
  unfold execTeardown
  simp only []
  split <;> simp [hs]

theorem canonical_execJobAbandon (p : PortId) (m : Msg) (now : BitVec 64) : OutcomeCanonical (execJobAbandon p m now s) := by
  unfold execJobAbandon
  simp only []
  split <;> simp [hs]

theorem canonical_execTeardownDone (p : PortId) (m : Msg) (now : BitVec 64) : OutcomeCanonical (execTeardownDone p m now s) := by
  unfold execTeardownDone
  simp only []
  split <;> simp [hs]

theorem canonical_execJobDrain (p : PortId) (m : Msg) (now : BitVec 64) : OutcomeCanonical (execJobDrain p m now s) := by
  unfold execJobDrain
  simp only []
  split <;> simp [hs]

theorem canonical_execDrainDone (p : PortId) (m : Msg) (now : BitVec 64) : OutcomeCanonical (execDrainDone p m now s) := by
  unfold execDrainDone
  simp only []
  split <;> simp [hs]

theorem canonical_execDrainComplete (now : BitVec 64) : OutcomeCanonical (execDrainComplete now s) := by
  unfold execDrainComplete
  simp only []
  (repeat' split) <;> simp [hs]

theorem canonical_execResetComplete : OutcomeCanonical (execResetComplete s) := by
  unfold execResetComplete
  simp only [outcomeCanonical_next]
  split
  · exact hs
  · next e =>
    have done := (State.canonical_nextReset e).2 hs
    repeat' split
    all_goals simp [done]

theorem canonical_execRdmaWrite (e : EthId) (off : BitVec 48) (d : List Byte) : OutcomeCanonical (execRdmaWrite e off d s) := by simp [execRdmaWrite, hs]

theorem canonical_execRdmaSend (e : EthId) (d : List Byte) : OutcomeCanonical (execRdmaSend e d s) := by simp [execRdmaSend, hs]

/-! ### The register bus -/

theorem canonical_execReadClearRegister (q : Requester) (a : BitVec 48) (size : Nat) :
    OutcomeCanonical (execReadClearRegister q a size s) := by simp [execReadClearRegister, hs]

theorem canonical_execRegisterWrite (q : Requester) (a : BitVec 48) (size : Nat) (v : BitVec 64) :
    OutcomeCanonical (execRegisterWrite q a size v s) := by simp [execRegisterWrite, hs]

theorem canonical_execSeqCtrlRun (q : Requester) (t : TileId) (v : BitVec 64) : OutcomeCanonical (execSeqCtrlRun q t v s) := by simp [execSeqCtrlRun, hs]

theorem canonical_execCopyArriveWrite (q : Requester) (t : TileId) (n : BitVec 6) (v : BitVec 64) (same : Nat) :
    OutcomeCanonical (execCopyArriveWrite q t n v same s) := by simp [execCopyArriveWrite, hs]

theorem canonical_execCpuStartGo (q : Requester) (v : BitVec 64) : OutcomeCanonical (execCpuStartGo q v s) := by simp [execCpuStartGo, hs]

theorem canonical_execDrain (q : Requester) (c : CtrlId) (v : BitVec 64) : OutcomeCanonical (execDrain q c v s) := by simp [execDrain, hs]

theorem canonical_execFabWindowWrite (q : Requester) (off : BitVec 24) (v : BitVec 64) :
    OutcomeCanonical (execFabWindowWrite q off v s) := by simp [execFabWindowWrite, hs]

theorem canonical_execKick (p : FwpId) (now : BitVec 64) : OutcomeCanonical (execKick p now s) := by simp [execKick, hs]

theorem canonical_execShuttleDeferredStart (t : TileId) : OutcomeCanonical (execShuttleDeferredStart t s) := by simp [execShuttleDeferredStart, hs]

/-! ### Copies -/

theorem canonical_execLinear (t : TileId) (k : QId) : OutcomeCanonical (execLinear t k s) := by simp [execLinear, hs]

theorem canonical_execGather (t : TileId) (k : QId) : OutcomeCanonical (execGather t k s) := by simp [execGather, hs]

theorem canonical_execScatter (t : TileId) (k : QId) : OutcomeCanonical (execScatter t k s) := by simp [execScatter, hs]

theorem canonical_execFill (t : TileId) (k : QId) : OutcomeCanonical (execFill t k s) := by simp [execFill, hs]

theorem canonical_execRoute (t : TileId) (k : QId) : OutcomeCanonical (execRoute t k s) := by simp [execRoute, hs]

theorem canonical_execCopyComplete (t : TileId) (k : QId) : OutcomeCanonical (execCopyComplete t k s) := by simp [execCopyComplete, hs]

/-! ### Links -/

theorem canonical_execD2dFlitRetry (k : LinkId) (consecutive : Nat) : OutcomeCanonical (execD2dFlitRetry k consecutive s) := by simp [execD2dFlitRetry, hs]

theorem canonical_execFlitReceive (p : PortId) (flit : List Byte) : OutcomeCanonical (execFlitReceive p flit s) := by
  unfold execFlitReceive
  split
  · trivial
  · simp [hs]

theorem canonical_execAckTimeoutResend (p : PortId) : OutcomeCanonical (execAckTimeoutResend p s) := by simp [execAckTimeoutResend, hs]

theorem canonical_execPortLeavesService (p : PortId) (why : DownCause) (now : BitVec 64) : OutcomeCanonical (execPortLeavesService p why now s) := by
  unfold execPortLeavesService
  simp only []
  (repeat' split) <;> simp [hs]

theorem canonical_execSwAssign (p : PortId) (m : Msg) : OutcomeCanonical (execSwAssign p m s) := by simp [execSwAssign, hs]

theorem canonical_execNodeAnnounce (p : PortId) (m : Msg) : OutcomeCanonical (execNodeAnnounce p m s) := by simp [execNodeAnnounce, hs]

theorem canonical_execPortTrained (p : PortId) (peerPort : BitVec 5) (ok : Bool) (now : BitVec 64) : OutcomeCanonical (execPortTrained p peerPort ok now s) := by
  unfold execPortTrained
  simp only []
  (repeat' split) <;> simp [hs]

theorem canonical_execLinkExchange (p : PortId) (x : LinkProof) : OutcomeCanonical (execLinkExchange p x s) := by simp [execLinkExchange, hs]

/-! ### Harts -/

theorem canonical_execCoreLoad (i : HartId) (m : CoreMem) : OutcomeCanonical (execCoreLoad i m s) := hs.coreDo (fun _ hu => hu.coreLoad ..) i

theorem canonical_execCoreStore (i : HartId) (m : CoreMem) : OutcomeCanonical (execCoreStore i m s) := hs.coreDo (fun _ hu => hu.coreStore ..) i

theorem canonical_execAmo (i : HartId) (m : AmoInst) : OutcomeCanonical (execAmo i m s) := hs.coreDo (fun _ hu => hu.coreAmo ..) i

theorem canonical_execRemoteAmo (i : HartId) (m : AmoInst) : OutcomeCanonical (execRemoteAmo i m s) := hs.coreDo (fun _ hu => hu.coreAmo ..) i

theorem canonical_execLrSc (i : HartId) (sc : Bool) (m : AmoInst) : OutcomeCanonical (execLrSc i sc m s) := hs.coreDo (fun _ hu => hu.coreLrSc ..) i

theorem canonical_execFence (h : HartId) (z1 z2 : BitVec 4) : OutcomeCanonical (execFence h z1 z2 s) := by simp [execFence, hs]

theorem canonical_execCoreWfi (h : HartId) : OutcomeCanonical (execCoreWfi h s) := by simp [execCoreWfi, hs]

theorem canonical_execThreadTimeslice (c : CoreId) : OutcomeCanonical (execThreadTimeslice c s) := by
  unfold execThreadTimeslice
  simp only []
  split <;> simp [hs]

theorem canonical_execFvxCsrAccess (h : HartId) (i : CsrInst) : OutcomeCanonical (execFvxCsrAccess h i s) := by simp [execFvxCsrAccess, hs]

/-! ### Remote accesses -/

theorem canonical_execRd (p : PortId) (m : Msg) (now : BitVec 64) : OutcomeCanonical (execRd p m now s) := by simp [execRd, hs]

theorem canonical_execWr (p : PortId) (m : Msg) (now : BitVec 64) : OutcomeCanonical (execWr p m now s) :=
  State.Canonical.arriving (by simpa using hs) (fun _ hu => hu.serveWr ..) ..

theorem canonical_execAtom (p : PortId) (m : Msg) (now : BitVec 64) : OutcomeCanonical (execAtom p m now s) := by simp [execAtom, hs]

theorem canonical_execArrive (p : PortId) (m : Msg) (now : BitVec 64) : OutcomeCanonical (execArrive p m now s) := by
  refine State.Canonical.arriving (by simpa using hs) (fun s hu => ?_) ..
  extract_lets a t l r src kept
  have logged : l.1.Canonical := (State.canonical_logInput ..).2 hu
  have answered : r.1.Canonical := (State.canonical_congested ..).2 logged
  split
  · simpa using logged
  · exact answered

theorem canonical_execLedgerSync (p : PortId) (m : Msg) (now : BitVec 64) : OutcomeCanonical (execLedgerSync p m now s) := by simp [execLedgerSync, hs]

theorem canonical_execFabricResponse (p : PortId) (m : Msg) (now : BitVec 64) : OutcomeCanonical (execFabricResponse p m now s) := by
  unfold execFabricResponse
  simp only [outcomeCanonical_next]
  split
  · next e =>
    obtain ⟨r, _, e⟩ := Option.bind_eq_some_iff.1 e
    exact (State.canonical_responseRecall e).2 (by simpa using hs)
  · split
    · exact State.Canonical.takeResponse (by simpa using hs) ..
    · simpa using hs

theorem canonical_execAtomRetransmit (tag : BitVec 16) (now : BitVec 64) : OutcomeCanonical (execAtomRetransmit tag now s) := by
  unfold execAtomRetransmit
  simp only []
  split <;> simp [hs]

theorem canonical_execRequestTimeout (tag : BitVec 16) (now : BitVec 64) : OutcomeCanonical (execRequestTimeout tag now s) := by
  unfold execRequestTimeout
  simp only []
  split
  · simpa using hs
  · simp only [outcomeCanonical_next]
    split
    · exact (State.canonical_reqFail ..).2 (by simpa using hs)
    · simpa using hs

theorem canonical_execReplayCacheExpiry (now : BitVec 64) : OutcomeCanonical (execReplayCacheExpiry now s) := by simp [execReplayCacheExpiry, hs]

theorem canonical_execCongExpiry (dst : NodeId) (now : BitVec 64) : OutcomeCanonical (execCongExpiry dst now s) := by simp [execCongExpiry, hs]

theorem canonical_execGets (p : PortId) (m : Msg) : OutcomeCanonical (execGets p m s) := by simp [execGets, hs]

theorem canonical_execGetm (p : PortId) (m : Msg) : OutcomeCanonical (execGetm p m s) := by simp [execGetm, hs]

theorem canonical_execPutm (p : PortId) (m : Msg) : OutcomeCanonical (execPutm p m s) := by simp [execPutm, hs]

theorem canonical_execFwdGets (p : PortId) (m : Msg) : OutcomeCanonical (execFwdGets p m s) := by simp [execFwdGets, hs]

theorem canonical_execFwdGetm (p : PortId) (m : Msg) : OutcomeCanonical (execFwdGetm p m s) := by simp [execFwdGetm, hs]

theorem canonical_execInv (p : PortId) (m : Msg) : OutcomeCanonical (execInv p m s) := by simp [execInv, hs]

theorem canonical_execData (p : PortId) (m : Msg) : OutcomeCanonical (execData p m s) := by
  unfold execData
  simp only []
  (repeat' split) <;> simp [hs]

theorem canonical_execAck (p : PortId) (m : Msg) : OutcomeCanonical (execAck p m s) := by
  unfold execAck
  simp only []
  (repeat' split) <;> simp [hs]

/-! ### Snapshots -/

theorem canonical_execGuardCopy (page : Nat) : OutcomeCanonical (execGuardCopy page s) := by
  unfold execGuardCopy
  simp only []
  (repeat' split) <;> simp [hs]

theorem canonical_execSnapshotMark (now : BitVec 64) : OutcomeCanonical (execSnapshotMark now s) := by
  unfold execSnapshotMark
  simp only []
  (repeat' split) <;> simp [hs]

theorem canonical_execSnapshotBackgroundCopy (stripe : Nat) : OutcomeCanonical (execSnapshotBackgroundCopy stripe s) := by
  unfold execSnapshotBackgroundCopy
  split <;> simp [hs]

theorem canonical_execChunkWr (src : NodeId) (a : BitVec 48) (d : List Byte) (id : ChunkId) :
    OutcomeCanonical (execChunkWr src a d id s) := by simp [execChunkWr, hs]

theorem canonical_execChunkAck (src : NodeId) (id : ChunkId) : OutcomeCanonical (execChunkAck src id s) := by
  unfold execChunkAck
  split <;> simp [hs]

theorem canonical_execReady (src : NodeId) (gen : BitVec 64) (tier : Tier) (members : Nat) (now : BitVec 64) :
    OutcomeCanonical (execReady src gen tier members now s) := by
  unfold execReady
  simp only []
  split <;> simp [hs]

theorem canonical_execCommit (src : NodeId) (c : CommitMsg) : OutcomeCanonical (execCommit src c s) := by simp [execCommit, hs]

theorem canonical_execAbandon (src : NodeId) (gen : BitVec 64) (tier : Tier) : OutcomeCanonical (execAbandon src gen tier s) := by
  unfold execAbandon
  simp only []
  (repeat' split) <;> simp [hs]

theorem canonical_execPickStart (now : BitVec 64) : OutcomeCanonical (execPickStart now s) := by
  unfold execPickStart
  simp only []
  split <;> simp [hs]

/-! ### Recovery -/

theorem canonical_execLogAppend (src : NodeId) (a : BitVec 48) (d : List Byte) : OutcomeCanonical (execLogAppend src a d s) := by
  unfold execLogAppend
  simp only []
  (repeat' split) <;> simp [hs]

theorem canonical_execLogAck (src : NodeId) (lsn : BitVec 64) : OutcomeCanonical (execLogAck src lsn s) := by
  unfold execLogAck
  simp only []
  (repeat' split) <;> simp [hs]

theorem canonical_execMirror (src : NodeId) (x : MirrorMsg) : OutcomeCanonical (execMirror src x s) := by
  unfold execMirror
  simp only []
  (repeat' split) <;> simp [hs]

theorem canonical_execHeartbeat (d : Dir) (p : PortId) (src : NodeId) (pick : BitVec 48) (st : BitVec 4) (now : BitVec 64) :
    OutcomeCanonical (execHeartbeat d p src pick st now s) := by
  unfold execHeartbeat
  split <;> simp [hs]

theorem canonical_execHeartbeatSilence (peer : NodeId) (now : BitVec 64) : OutcomeCanonical (execHeartbeatSilence peer now s) := by
  unfold execHeartbeatSilence
  simp only []
  (repeat' split) <;> simp [hs]

theorem canonical_execSuspect (src node : NodeId) (now : BitVec 64) : OutcomeCanonical (execSuspect src node now s) := by
  unfold execSuspect
  simp only []
  split <;> simp [hs]

theorem canonical_execProbe (src : NodeId) : OutcomeCanonical (execProbe src s) := by simp [execProbe, hs]

theorem canonical_execProbeReply (src : NodeId) (pick : BitVec 48) : OutcomeCanonical (execProbeReply src pick s) := by simp [execProbeReply, hs]

theorem canonical_execProbeTimeout (node : NodeId) (now : BitVec 64) : OutcomeCanonical (execProbeTimeout node now s) := by
  unfold execProbeTimeout
  simp only []
  (repeat' split) <;> simp [hs]

theorem canonical_execFatal (src : NodeId) (status : BitVec 16) (now : BitVec 64) : OutcomeCanonical (execFatal src status now s) := by
  unfold execFatal
  simp only []
  split <;> simp [hs]

theorem canonical_execDeclare (src : NodeId) (lost : List NodeId) (now : BitVec 64) : OutcomeCanonical (execDeclare src lost now s) := by
  unfold execDeclare
  simp only []
  split <;> simp [hs]

theorem canonical_execHalt (src : NodeId) (pick : BitVec 48) : OutcomeCanonical (execHalt src pick s) := by
  unfold execHalt
  split <;> simp [hs]

theorem canonical_execHaltAck (src : NodeId) (pick barrier : BitVec 48) : OutcomeCanonical (execHaltAck src pick barrier s) := by
  unfold execHaltAck
  split <;> simp [hs]

theorem canonical_execCommitRec (src : NodeId) (a : BitVec 48) (d : List Byte) : OutcomeCanonical (execCommitRec src a d s) := by
  unfold execCommitRec
  split <;> simp [hs]

theorem canonical_execChunkRd (src : NodeId) (id : ChunkId) : OutcomeCanonical (execChunkRd src id s) := by
  unfold execChunkRd
  simp only []
  (repeat' split) <;> simp [hs]

theorem canonical_execChunkData (src : NodeId) (id : ChunkId) (d : List Byte) : OutcomeCanonical (execChunkData src id d s) := by
  unfold execChunkData
  split <;> simp [hs]

theorem canonical_execReplayEventFire (i : BitVec 7) : OutcomeCanonical (execReplayEventFire i s) := by
  unfold execReplayEventFire
  split <;> simp [hs]

theorem canonical_execPickRestart : OutcomeCanonical (execPickRestart s) := by
  unfold execPickRestart
  split <;> simp [hs]

theorem canonical_execResume (src : NodeId) (r : BitVec 48) (base now : BitVec 64) : OutcomeCanonical (execResume src r base now s) := by
  unfold execResume
  simp only []
  (repeat' split) <;> simp [hs]

theorem canonical_execNoSpare : OutcomeCanonical (execNoSpare s) := by simp [execNoSpare, hs]

/-! ### The control protocol -/

theorem canonical_execHello (r : Dripol) (nonce key : List Byte) (role : Role) : OutcomeCanonical (execHello r nonce key role s) := by simp [execHello, hs]

theorem canonical_execHostProof (r : Dripol) (sig : List Byte) : OutcomeCanonical (execHostProof r sig s) := by
  refine hs.serveBsc (fun s hu => ?_) ..
  repeat' split
  all_goals simpa using hu

theorem canonical_execClose (r : Dripol) : OutcomeCanonical (execClose r s) := by simp [execClose, hs]

theorem canonical_execEnroll (r : Dripol) (key secret : List Byte) : OutcomeCanonical (execEnroll r key secret s) := by simp [execEnroll, hs]

theorem canonical_execRelease (r : Dripol) (sig : List Byte) : OutcomeCanonical (execRelease r sig s) := by simp [execRelease, hs]

theorem canonical_execSessionIdleTimeout (session : BitVec 32) (now : BitVec 64) : OutcomeCanonical (execSessionIdleTimeout session now s) := by
  unfold execSessionIdleTimeout
  simp only []
  split <;> simp [hs]

theorem canonical_execDripolSegment (e : EthId) (src : Nat) (seg : List Byte) (now : BitVec 64) :
    OutcomeCanonical (execDripolSegment e src seg now s) := by simp [execDripolSegment, hs]

theorem canonical_execReassemblyTimeout (now : BitVec 64) : OutcomeCanonical (execReassemblyTimeout now s) := by simp [execReassemblyTimeout, hs]

theorem canonical_execStatusGet (r : Dripol) : OutcomeCanonical (execStatusGet r s) := by simp [execStatusGet, hs]

theorem canonical_execRegRead (r : Dripol) (offs : List (BitVec 48)) : OutcomeCanonical (execRegRead r offs s) := by simp [execRegRead, hs]

theorem canonical_execRegWrite (r : Dripol) (ws : List (BitVec 48 × BitVec 64)) : OutcomeCanonical (execRegWrite r ws s) := by
  refine hs.gate (fun s hu => ?_) ..
  split
  · simpa using hu
  · exact foldl_keeps State.Canonical _ (fun s w hu => hu.busWrite ..) _ _ (by simpa using hu)

theorem canonical_execEventRead (r : Dripol) (start n : Nat) : OutcomeCanonical (execEventRead r start n s) := by simp [execEventRead, hs]

theorem canonical_execEventAck (r : Dripol) (upto : Nat) : OutcomeCanonical (execEventAck r upto s) := by simp [execEventAck, hs]

theorem canonical_execEventSubscribe (r : Dripol) (on : Bool) : OutcomeCanonical (execEventSubscribe r on s) := by simp [execEventSubscribe, hs]

theorem canonical_execEventNotify (session : BitVec 32) : OutcomeCanonical (execEventNotify session s) := by
  unfold execEventNotify
  split <;> simp [hs]

/-! ### Services -/

theorem canonical_execHostkeySet (r : Dripol) (hash : List Byte) (role : Role) (remove : Bool) : OutcomeCanonical (execHostkeySet r hash role remove s) := by
  refine hs.gate (fun s hu => ?_) ..
  split <;> simpa using hu

theorem canonical_execPolicySet (r : Dripol) (p : HostPolicy) : OutcomeCanonical (execPolicySet r p s) := hs.gate (fun s hu => by simpa using hu.setPolicy p) ..

theorem canonical_execWindowSetInstall (r : Dripol) (w : WindowSet) : OutcomeCanonical (execWindowSetInstall r w s) :=
  hs.gate (fun _ hu => hu.judged (fun _ hu => by simpa using hu) ..) ..

theorem canonical_execWindowSetRemove (r : Dripol) (name : List Byte) : OutcomeCanonical (execWindowSetRemove r name s) :=
  hs.gate (fun _ hu => hu.judged (fun _ hu => by simpa using hu) ..) ..

theorem canonical_execTimeRootSet (r : Dripol) (v : BitVec 64) : OutcomeCanonical (execTimeRootSet r v s) :=
  hs.gate (fun _ hu => by simpa using hu.busWrite (.fw 4) R.TIME_PTP_CFG v) ..

theorem canonical_execPlanSet (r : Dripol) (clock cap : BitVec 8) : OutcomeCanonical (execPlanSet r clock cap s) :=
  hs.gate (fun _ hu => hu.judged (fun _ hu => by simpa using hu) ..) ..

theorem canonical_execNodeAssign (r : Dripol) (chain : BitVec 6) (span : BitVec 4) : OutcomeCanonical (execNodeAssign r chain span s) :=
  hs.gate (fun _ hu => hu.judged (fun _ hu => hu.assignNumber ..) ..) ..

theorem canonical_execPortEnable (r : Dripol) (p : PortId) : OutcomeCanonical (execPortEnable r p s) := by simp [execPortEnable, hs]

theorem canonical_execGroupCreate (r : Dripol) (g : GroupRec) : OutcomeCanonical (execGroupCreate r g s) := by simp [execGroupCreate, hs]

theorem canonical_execGroupDestroy (r : Dripol) (c : CtxId) : OutcomeCanonical (execGroupDestroy r c s) :=
  hs.gate (fun _ hu => hu.judged (fun _ hu => by simpa using hu) ..) ..

theorem canonical_execJobStart (r : Dripol) (j : JobStart) (now : BitVec 64) : OutcomeCanonical (execJobStart r j now s) := by
  refine State.Canonical.gate (by simpa using hs) (fun s hu => ?_) ..
  split
  · simpa using hu
  · exact hu.judged (fun _ hu => by simpa using hu) ..

theorem canonical_execJobSubstitute (r : Dripol) (subs : List (BitVec 16 × NodeId)) : OutcomeCanonical (execJobSubstitute r subs s) := by
  refine hs.gate (fun s hu => ?_) ..
  split
  · exact hu.judged (fun _ hu => by simpa using hu) ..
  · simpa using hu

theorem canonical_execDripolJobGo (r : Dripol) (tag base : BitVec 64) (first : BitVec 48) (now : BitVec 64) :
    OutcomeCanonical (execDripolJobGo r tag base first now s) :=
  State.Canonical.gate (by simpa using hs) (fun _ hu => hu.rootJob (fun _ _ hu => by simp [hu]) ..) ..

theorem canonical_execDripolJobAbandon (r : Dripol) (tag : BitVec 64) (status : Status) (now : BitVec 64) :
    OutcomeCanonical (execDripolJobAbandon r tag status now s) :=
  State.Canonical.gate (by simpa using hs) (fun _ hu => hu.rootJob (fun _ _ hu => by simp [hu]) ..) ..

theorem canonical_execDripolJobDrain (r : Dripol) (tag : BitVec 64) (last : BitVec 48) (snap : Bool) (now : BitVec 64) :
    OutcomeCanonical (execDripolJobDrain r tag last snap now s) :=
  State.Canonical.gate (by simpa using hs) (fun _ hu => hu.rootJob (fun _ _ hu => by simp [hu]) ..) ..

theorem canonical_execJobTeardown (r : Dripol) (tag : BitVec 64) (scrub : Bool) (now : BitVec 64) : OutcomeCanonical (execJobTeardown r tag scrub now s) :=
  State.Canonical.gate (by simpa using hs) (fun _ hu => hu.rootJob (fun _ _ hu => by simp [hu]) ..) ..

theorem canonical_execSpareHold (r : Dripol) (tag : BitVec 64) : OutcomeCanonical (execSpareHold r tag s) := by simp [execSpareHold, hs]

theorem canonical_execFenceClear (r : Dripol) (node : NodeId) : OutcomeCanonical (execFenceClear r node s) := by simp [execFenceClear, hs]

theorem canonical_execRestore (r : Dripol) (x : RestoreReq) : OutcomeCanonical (execRestore r x s) := by simp [execRestore, hs]

theorem canonical_execStoreExport (r : Dripol) (gen : BitVec 64) (page : Nat) : OutcomeCanonical (execStoreExport r gen page s) := by
  refine hs.gate (fun s hu => ?_) ..
  simp only []
  repeat' split
  all_goals simpa using hu

/-! ### Firmware -/

theorem canonical_execFwStage (r : Dripol) (off : Nat) (d : List Byte) (last : Bool) : OutcomeCanonical (execFwStage r off d last s) := by simp [execFwStage, hs]

theorem canonical_execFwActivate (r : Dripol) : OutcomeCanonical (execFwActivate r s) := by
  refine hs.gate (fun s hu => ?_) ..
  simp only []
  repeat' split
  all_goals simp [hu]

theorem canonical_execDeferredActivation : OutcomeCanonical (execDeferredActivation s) := by simp [execDeferredActivation, hs]

theorem canonical_execFwCommit (r : Dripol) : OutcomeCanonical (execFwCommit r s) := hs.gate (fun _ hu => hu.judged (fun _ hu => by simpa using hu) ..) ..

theorem canonical_execFwRevert (r : Dripol) : OutcomeCanonical (execFwRevert r s) := by
  refine hs.gate (fun s hu => ?_) ..
  split <;> simp [hu]

theorem canonical_execTrialRevert : OutcomeCanonical (execTrialRevert s) := by simp [execTrialRevert, hs]

theorem canonical_execMaintEnter (r : Dripol) : OutcomeCanonical (execMaintEnter r s) := by simp [execMaintEnter, hs]

theorem canonical_execMaintExit (r : Dripol) : OutcomeCanonical (execMaintExit r s) := by simp [execMaintExit, hs]

theorem canonical_execBoot (now : BitVec 64) : OutcomeCanonical (execBoot now s) := by
  unfold execBoot
  simp only []
  (repeat' split) <;> simp [hs]

theorem canonical_execWatchdogRestart (p : FwpId) (now : BitVec 64) : OutcomeCanonical (execWatchdogRestart p now s) := by simp [execWatchdogRestart, hs]

theorem canonical_execAttest (r : Dripol) (nonce : List Byte) : OutcomeCanonical (execAttest r nonce s) := by simp [execAttest, hs]

theorem canonical_execMeasureLogGet (r : Dripol) : OutcomeCanonical (execMeasureLogGet r s) := by simp [execMeasureLogGet, hs]

theorem canonical_execIdentityGet (r : Dripol) : OutcomeCanonical (execIdentityGet r s) := by simp [execIdentityGet, hs]

theorem canonical_execReset (r : Dripol) (c : ResetReq) : OutcomeCanonical (execReset r c s) := hs.gate (fun _ hu => by simp [hu]) ..

theorem canonical_execRemove (r : Dripol) (force : Bool) : OutcomeCanonical (execRemove r force s) := by simp [execRemove, hs]

/-! ### Vector instructions -/

theorem canonical_execThreadResume (h : HartId) : OutcomeCanonical (execThreadResume h s) := by
  unfold execThreadResume
  simp only []
  split <;> simp [hs]

/-! ### Shuttle instructions -/

theorem canonical_execEissue (t : TileId) (i : RInst) : OutcomeCanonical (execEissue t i s) := by simp [execEissue, hs]

theorem canonical_execEwait (t : TileId) (i : RInst) : OutcomeCanonical (execEwait t i s) := by simp [execEwait, hs]

theorem canonical_execCwait (t : TileId) (i : RInst) : OutcomeCanonical (execCwait t i s) := by simp [execCwait, hs]

theorem canonical_execCset (t : TileId) (i : RInst) : OutcomeCanonical (execCset t i s) := by simp [execCset, hs]

theorem canonical_execCadd (t : TileId) (i : RInst) : OutcomeCanonical (execCadd t i s) := by simp [execCadd, hs]

theorem canonical_execTwait (t : TileId) (i : RInst) : OutcomeCanonical (execTwait t i s) := by simp [execTwait, hs]

theorem canonical_execEfence (t : TileId) (i : RInst) : OutcomeCanonical (execEfence t i s) := by simp [execEfence, hs]

theorem canonical_execShuttleWfi (t : TileId) : OutcomeCanonical (execShuttleWfi t s) := by simp [execShuttleWfi, hs]

theorem canonical_execShuttleEcallEbreak (t : TileId) (brk : Bool) : OutcomeCanonical (execShuttleEcallEbreak t brk s) := by simp [execShuttleEcallEbreak, hs]

theorem canonical_execShuttleRegStore (t : TileId) (i : ShMem) : OutcomeCanonical (execShuttleRegStore t i s) := hs.shuttleDo (fun _ hu => hu.shMem ..) ..

theorem canonical_execShuttleRegLoad (t : TileId) (i : ShMem) : OutcomeCanonical (execShuttleRegLoad t i s) := hs.shuttleDo (fun _ hu => hu.shMem ..) ..

theorem canonical_execShuttleLoadStore (t : TileId) (i : ShMem) : OutcomeCanonical (execShuttleLoadStore t i s) := hs.shuttleDo (fun _ hu => hu.shMem ..) ..

end

/-- Every command keeps the form of the tiles. -/
theorem State.Canonical.exec {s : State} (form : s.Canonical) (c : Instr) : OutcomeCanonical (exec c s) := by
  cases c with
  | vld i f | vst i f | vlds i f | vsts i f | vldx i f | vstx i f | vldseg i f | vstseg i f | vldbc i f | vldp i f | vstp i f | vcas i f | vadd i f
  | vsub i f | vmul i f | vmulh i f | vfma i f | vmax i f | vmin i f | vneg i f | vabs i f | vand i f | vor i f | vxor i f | vnot i f | vshl i f
  | vshr i f | vsra i f | vcls i f | vcmp i f | vsel i f | vwmul i f | vwmac i f | vdot i f | vfxmac i f | vcvt i f | vaccout i f | vexp2 i f
  | vlog2 i f | vrcp i f | vrsqrt i f | vredsum i f | vredmax i f | vredmin i f | vperm i f | vslide i f | vcompress i f | vexpand i f | vmvxs i f
  | vmvsx i f | vbcast i f | vpand i f | vpor i f | vpxor i f | vpnot i f | vpwhile i f | vpcnt i f =>
    exact form.coreDo (fun _ hs => hs.fvx ..) i
  | eissue => exact canonical_execEissue form ..
  | ewait => exact canonical_execEwait form ..
  | cwait => exact canonical_execCwait form ..
  | cset => exact canonical_execCset form ..
  | cadd => exact canonical_execCadd form ..
  | twait => exact canonical_execTwait form ..
  | efence => exact canonical_execEfence form ..
  | shuttleWfi => exact canonical_execShuttleWfi form ..
  | shuttleEcallEbreak => exact canonical_execShuttleEcallEbreak form ..
  | shuttleRegStore => exact canonical_execShuttleRegStore form ..
  | shuttleRegLoad => exact canonical_execShuttleRegLoad form ..
  | seqCtrlRun => exact canonical_execSeqCtrlRun form ..
  | shuttleDeferredStart => exact canonical_execShuttleDeferredStart form ..
  | copyArriveWrite => exact canonical_execCopyArriveWrite form ..
  | linear => exact canonical_execLinear form ..
  | gather => exact canonical_execGather form ..
  | scatter => exact canonical_execScatter form ..
  | fill => exact canonical_execFill form ..
  | route => exact canonical_execRoute form ..
  | copyComplete => exact canonical_execCopyComplete form ..
  | matmul => exact canonical_execMatmul form ..
  | tensorComplete => exact canonical_execTensorComplete form ..
  | chain => exact canonical_execChain form ..
  | elemComplete => exact canonical_execElemComplete form ..
  | chol => exact canonical_execChol form ..
  | ldlt => exact canonical_execLdlt form ..
  | lu => exact canonical_execLu form ..
  | qr => exact canonical_execQr form ..
  | trsv => exact canonical_execTrsv form ..
  | mv => exact canonical_execMv form ..
  | assemble => exact canonical_execAssemble form ..
  | solve => exact canonical_execSolve form ..
  | solverComplete => exact canonical_execSolverComplete form ..
  | push => exact canonical_execPush form ..
  | pop => exact canonical_execPop form ..
  | bobbinReset => exact canonical_execBobbinReset form ..
  | bobbinComplete => exact canonical_execBobbinComplete form ..
  | scheduleEntryIssue => exact canonical_execScheduleEntryIssue form ..
  | pickStart => exact canonical_execPickStart form ..
  | timetableEventFire => exact canonical_execTimetableEventFire form ..
  | snapshotMark => exact canonical_execSnapshotMark form ..
  | digestBankHandoff => exact canonical_execDigestBankHandoff form ..
  | digestRecordWrite => exact canonical_execDigestRecordWrite form
  | timeNowRead => exact canonical_execTimeNowRead form ..
  | timeRebaseAtWrite => exact canonical_execTimeRebaseAtWrite form ..
  | timeDiglogTailWrite => exact canonical_execTimeDiglogTailWrite form ..
  | timeReq => exact canonical_execTimeReq form ..
  | timeRsp => exact canonical_execTimeRsp form ..
  | ptpMessage => exact canonical_execPtpMessage form ..
  | announceTimeout => exact canonical_execAnnounceTimeout form ..
  | timeHoldover => exact canonical_execTimeHoldover form
  | replayEventFire => exact canonical_execReplayEventFire form ..
  | remoteAmo => exact canonical_execRemoteAmo form ..
  | threadResume => exact canonical_execThreadResume form ..
  | threadTimeslice => exact canonical_execThreadTimeslice form ..
  | coreWfi => exact canonical_execCoreWfi form ..
  | cpuStartGo => exact canonical_execCpuStartGo form ..
  | memRead => exact canonical_execMemRead form ..
  | memWrite => exact canonical_execMemWrite form ..
  | wcbEntryDrain => exact canonical_execWcbEntryDrain form ..
  | drain => exact canonical_execDrain form ..
  | patrolScrub => exact canonical_execPatrolScrub form ..
  | memCeRate => exact canonical_execMemCeRate form ..
  | hbmTempRead => exact canonical_execHbmTempRead form ..
  | memTrainingLost => exact canonical_execMemTrainingLost form ..
  | guardCopy => exact canonical_execGuardCopy form ..
  | nandRead => exact canonical_execNandRead form ..
  | nandWrite => exact canonical_execNandWrite form ..
  | d2dFlitRetry => exact canonical_execD2dFlitRetry form ..
  | flitReceive => exact canonical_execFlitReceive form ..
  | ackTimeoutResend => exact canonical_execAckTimeoutResend form ..
  | portLeavesService => exact canonical_execPortLeavesService form ..
  | portTrained => exact canonical_execPortTrained form ..
  | linkExchange => exact canonical_execLinkExchange form ..
  | rd => exact canonical_execRd form ..
  | wr => exact canonical_execWr form ..
  | atom => exact canonical_execAtom form ..
  | arrive => exact canonical_execArrive form ..
  | ledgerSync => exact canonical_execLedgerSync form ..
  | fabricResponse => exact canonical_execFabricResponse form ..
  | atomRetransmit => exact canonical_execAtomRetransmit form ..
  | requestTimeout => exact canonical_execRequestTimeout form ..
  | replayCacheExpiry => exact canonical_execReplayCacheExpiry form ..
  | congExpiry => exact canonical_execCongExpiry form ..
  | gets => exact canonical_execGets form ..
  | getm => exact canonical_execGetm form ..
  | putm => exact canonical_execPutm form ..
  | fwdGets => exact canonical_execFwdGets form ..
  | fwdGetm => exact canonical_execFwdGetm form ..
  | inv => exact canonical_execInv form ..
  | data => exact canonical_execData form ..
  | ack => exact canonical_execAck form ..
  | swAssign => exact canonical_execSwAssign form ..
  | nodeAnnounce => exact canonical_execNodeAnnounce form ..
  | fabWindowWrite => exact canonical_execFabWindowWrite form ..
  | colSubmit => exact canonical_execColSubmit form ..
  | collectiveHead => exact canonical_execCollectiveHead form ..
  | colData => exact canonical_execColData form ..
  | colCredit => exact canonical_execColCredit form ..
  | colAbort => exact canonical_execColAbort form ..
  | collectiveTimeout => exact canonical_execCollectiveTimeout form ..
  | collectiveComplete => exact canonical_execCollectiveComplete form ..
  | colCtxReset => exact canonical_execColCtxReset form ..
  | colCtxDestroy => exact canonical_execColCtxDestroy form ..
  | colCtxPolicyWrite => exact canonical_execColCtxPolicyWrite form ..
  | draftBegin => exact canonical_execDraftBegin form ..
  | draftChunk => exact canonical_execDraftChunk form ..
  | draftValidate => exact canonical_execDraftValidate form ..
  | draftAck => exact canonical_execDraftAck form ..
  | draftAckTimeout => exact canonical_execDraftAckTimeout form ..
  | treeUpdate => exact canonical_execTreeUpdate form ..
  | jobGo => exact canonical_execJobGo form ..
  | jobAbandon => exact canonical_execJobAbandon form ..
  | jobDrain => exact canonical_execJobDrain form ..
  | drainComplete => exact canonical_execDrainComplete form ..
  | drainDone => exact canonical_execDrainDone form ..
  | teardown => exact canonical_execTeardown form ..
  | teardownDone => exact canonical_execTeardownDone form ..
  | rdmaWrite => exact canonical_execRdmaWrite form ..
  | rdmaSend => exact canonical_execRdmaSend form ..
  | snapshotBackgroundCopy => exact canonical_execSnapshotBackgroundCopy form ..
  | chunkWr => exact canonical_execChunkWr form ..
  | chunkAck => exact canonical_execChunkAck form ..
  | ready => exact canonical_execReady form ..
  | commit => exact canonical_execCommit form ..
  | abandon => exact canonical_execAbandon form ..
  | commitRec => exact canonical_execCommitRec form ..
  | logAppend => exact canonical_execLogAppend form ..
  | logAck => exact canonical_execLogAck form ..
  | mirror => exact canonical_execMirror form ..
  | heartbeat d p src pick st now => exact canonical_execHeartbeat form d p src pick st now
  | heartbeatSilence => exact canonical_execHeartbeatSilence form ..
  | suspect => exact canonical_execSuspect form ..
  | probe => exact canonical_execProbe form ..
  | probeReply src pick => exact canonical_execProbeReply form src pick
  | probeTimeout => exact canonical_execProbeTimeout form ..
  | fatal src status now => exact canonical_execFatal form src status now
  | declare => exact canonical_execDeclare form ..
  | halt src pick => exact canonical_execHalt form src pick
  | haltAck src pick barrier => exact canonical_execHaltAck form src pick barrier
  | chunkRd => exact canonical_execChunkRd form ..
  | chunkData => exact canonical_execChunkData form ..
  | pickRestart => exact canonical_execPickRestart form
  | resume => exact canonical_execResume form ..
  | hello => exact canonical_execHello form ..
  | hostProof => exact canonical_execHostProof form ..
  | close => exact canonical_execClose form ..
  | enroll => exact canonical_execEnroll form ..
  | release => exact canonical_execRelease form ..
  | statusGet => exact canonical_execStatusGet form ..
  | regRead => exact canonical_execRegRead form ..
  | regWrite => exact canonical_execRegWrite form ..
  | eventRead => exact canonical_execEventRead form ..
  | eventAck => exact canonical_execEventAck form ..
  | eventSubscribe => exact canonical_execEventSubscribe form ..
  | eventNotify => exact canonical_execEventNotify form ..
  | hostkeySet => exact canonical_execHostkeySet form ..
  | policySet => exact canonical_execPolicySet form ..
  | windowSetInstall => exact canonical_execWindowSetInstall form ..
  | windowSetRemove => exact canonical_execWindowSetRemove form ..
  | timeRootSet => exact canonical_execTimeRootSet form ..
  | planSet => exact canonical_execPlanSet form ..
  | nodeAssign => exact canonical_execNodeAssign form ..
  | portEnable => exact canonical_execPortEnable form ..
  | groupCreate => exact canonical_execGroupCreate form ..
  | groupDestroy => exact canonical_execGroupDestroy form ..
  | jobStart => exact canonical_execJobStart form ..
  | jobSubstitute => exact canonical_execJobSubstitute form ..
  | dripolJobGo => exact canonical_execDripolJobGo form ..
  | dripolJobAbandon => exact canonical_execDripolJobAbandon form ..
  | dripolJobDrain => exact canonical_execDripolJobDrain form ..
  | jobTeardown => exact canonical_execJobTeardown form ..
  | spareHold => exact canonical_execSpareHold form ..
  | fenceClear => exact canonical_execFenceClear form ..
  | restore => exact canonical_execRestore form ..
  | storeExport => exact canonical_execStoreExport form ..
  | fwStage => exact canonical_execFwStage form ..
  | fwActivate => exact canonical_execFwActivate form ..
  | fwCommit => exact canonical_execFwCommit form ..
  | fwRevert => exact canonical_execFwRevert form ..
  | maintEnter => exact canonical_execMaintEnter form ..
  | maintExit => exact canonical_execMaintExit form ..
  | attest => exact canonical_execAttest form ..
  | measureLogGet => exact canonical_execMeasureLogGet form ..
  | identityGet => exact canonical_execIdentityGet form ..
  | reset => exact canonical_execReset form ..
  | remove => exact canonical_execRemove form ..
  | dripolSegment => exact canonical_execDripolSegment form ..
  | reassemblyTimeout => exact canonical_execReassemblyTimeout form ..
  | sessionIdleTimeout => exact canonical_execSessionIdleTimeout form ..
  | deferredActivation => exact canonical_execDeferredActivation form
  | trialRevert => exact canonical_execTrialRevert form
  | boot => exact canonical_execBoot form ..
  | kick => exact canonical_execKick form ..
  | watchdogRestart => exact canonical_execWatchdogRestart form ..
  | pwrEnRise => exact canonical_execPwrEnRise form ..
  | pwrEnFall => exact canonical_execPwrEnFall form ..
  | presentNRise => exact canonical_execPresentNRise form
  | nodeResetNLow => exact canonical_execNodeResetNLow form ..
  | lowInput => exact canonical_execLowInput form ..
  | inputUndervoltage => exact canonical_execInputUndervoltage form ..
  | inputOvervoltage => exact canonical_execInputOvervoltage form ..
  | overcurrent => exact canonical_execOvercurrent form ..
  | inputRestart => exact canonical_execInputRestart form ..
  | railFault => exact canonical_execRailFault form ..
  | thermalTrip => exact canonical_execThermalTrip form ..
  | limiterUpdate => exact canonical_execLimiterUpdate form ..
  | droopEvent => exact canonical_execDroopEvent form ..
  | pwrStateTarget => exact canonical_execPwrStateTarget form ..
  | powerStateChangeDone => exact canonical_execPowerStateChangeDone form
  | pwrResetPkg => exact canonical_execPwrResetPkg form ..
  | pwrResetCmp => exact canonical_execPwrResetCmp form ..
  | pwrResetFab => exact canonical_execPwrResetFab form ..
  | pwrResetFwp => exact canonical_execPwrResetFwp form ..
  | resetComplete => exact canonical_execResetComplete form
  | readClearRegister => exact canonical_execReadClearRegister form ..
  | registerWrite => exact canonical_execRegisterWrite form ..
  | coreLoad => exact canonical_execCoreLoad form ..
  | coreStore => exact canonical_execCoreStore form ..
  | amo => exact canonical_execAmo form ..
  | lrSc => exact canonical_execLrSc form ..
  | fence h pred succ => exact canonical_execFence form h pred succ
  | fvxCsrAccess => exact canonical_execFvxCsrAccess form ..
  | shuttleLoadStore => exact canonical_execShuttleLoadStore form ..
  | powerEmergencyExit => exact canonical_execPowerEmergencyExit form ..
  | noSpare => exact canonical_execNoSpare form
  | jtagInstruction => exact canonical_execJtagInstruction form ..
  | ethLinkChange => exact canonical_execEthLinkChange form ..

/-- A tick of the reference clock leaves the tiles. -/
theorem State.Canonical.step {s t : State} (h : s.Canonical) (e : step s = .next t) : t.Canonical := by
  unfold Sys2Proof.Machine.step at e
  split at e
  · cases e
    exact h.idle
  · next c rest _ =>
    have kept := State.Canonical.exec (s := { s with pending := rest }) h c
    rwa [e] at kept

theorem State.canonical_iff (s : State) : s.Canonical ↔ ∀ k : TileId, (s.tile k).smem.wf = true ∧ (s.tile k).treg.wf = true :=
  ⟨fun h k => ⟨h.smem k, h.treg k⟩, fun h => ⟨fun k => (h k).1, fun k => (h k).2⟩⟩

/-- Settles O60: each command keeps the form of the tiles, by what its operations leave of them. -/
theorem tileMemoriesStayCanonical : Obligations.TileMemoriesStayCanonical :=
  fun s t h e => (State.canonical_iff t).1 (((State.canonical_iff s).2 h).step e)

end Sys2Proof.Machine
end

section
/-! The rules of the shuttle: an instruction that runs, retires or waits (R117, R120), the closing of digest banks (R526, R527), and
the trap (R129). -/

namespace Sys2Proof.Machine

/-! ### Tiles -/

theorem tileOnly_trans {k : TileId} {s t u : State} (h : tileOnly k s t) (g : tileOnly k t u) : tileOnly k s u := by
  obtain ⟨hr, ht⟩ := h
  obtain ⟨gr, gt⟩ := g
  exact ⟨(congrArg (fun v : State => { v with tiles := s.tiles }) gr :).trans hr, fun j hj => (gt j hj).trans (ht j hj)⟩

theorem State.otherTiles_modTile (s : State) (k : TileId) (f : Tile → Tile) : otherTiles k s (s.modTile k f) := fun j hj => s.tile_modTile_other k j f hj

theorem State.tileOnly_modTile (s : State) (k : TileId) (f : Tile → Tile) : tileOnly k s (s.modTile k f) := ⟨rfl, s.otherTiles_modTile k f⟩

/-! ### Running, retiring and waiting -/

section
variable {s : State} {k : TileId} {n : Nat} {mine : Wait → Bool} {f : State → State}

theorem shuttleFree_iff : shuttleFree s k n = true ↔ s.shuttleRuns k = true ∧ (s.tile k).pc.toNat + n ≤ 0x10000 ∧ (s.tile k).waiting = none := by
  simp [shuttleFree, and_assoc]

theorem State.shuttleDo_running (hr : s.shuttleRuns k = true) (hp : (s.tile k).pc.toNat + n ≤ 0x10000) (hw : ∀ w, (s.tile k).waiting = some w → mine w = true) :
    s.shuttleDo k n mine f = f s := by
  unfold State.shuttleDo
  rw [if_neg (by simp [hr]), if_neg (by omega)]
  split
  · rfl
  · next w h => rw [if_pos (hw w h)]

theorem State.shuttleDo_free (h : shuttleFree s k n = true) : s.shuttleDo k n mine f = f s := by
  obtain ⟨hr, hp, hw⟩ := shuttleFree_iff.1 h
  exact State.shuttleDo_running hr hp (fun w e => by simp [hw] at e)

end

section
variable (s : State) (k : TileId)

theorem State.tile_retire (n : Word) : (s.retire k n).tile k = { s.tile k with pc := (s.tile k).pc + n, waiting := none } := s.tile_modTile_same k _

theorem State.tileOnly_retire (n : Word) : tileOnly k s (s.retire k n) := s.tileOnly_modTile k _

/-- Where nothing waits, retiring only moves the program counter. -/
theorem State.tile_retire_free {s : State} {k : TileId} (n : Word) (h : (s.tile k).waiting = none) : (s.retire k n).tile k = { s.tile k with pc := (s.tile k).pc + n } := by
  rw [State.tile_retire, ← h]

theorem State.tile_await (w : Wait) : (s.await k w).tile k = { s.tile k with waiting := some w } := s.tile_modTile_same k _

theorem State.tileOnly_await (w : Wait) : tileOnly k s (s.await k w) := s.tileOnly_modTile k _

theorem Tile.setX_keeps (x : Tile) (rd : BitVec 5) (v : Word) : { x.setX rd v with x := x.x } = x := by
  unfold Tile.setX
  split <;> rfl

theorem Tile.setX_shuttleWrites (x : Tile) (rd : BitVec 5) (v : Word) : shuttleWrites x (x.setX rd v) rd v :=
  ⟨fun h => by rw [Tile.xreg_setX, if_pos ⟨rfl, h⟩], rfl, fun r h => by rw [Tile.xreg_setX, if_neg (fun e => h e.1)]⟩

/-- A load or an instruction of n bytes that retires with a result. -/
def State.retireWith (rd : BitVec 5) (v : Word) (n : Word) : State := (s.modTile k (fun x => x.setX rd v)).retire k n

/-- The tile has got v in register rd and its shuttle has gone on by n bytes. -/
structure RetiredWith (x y : Tile) (rd : BitVec 5) (v : Word) (n : Word) : Prop where
  writes : shuttleWrites x y rd v
  rest : { y with x := x.x, pc := x.pc, waiting := x.waiting } = x
  pc : y.pc = x.pc + n
  waiting : y.waiting = none

theorem RetiredWith.smem {x y : Tile} {rd : BitVec 5} {v n : Word} (h : RetiredWith x y rd v n) : y.smem = x.smem := (congrArg Tile.smem h.rest :)

theorem State.retireWith_retired (rd : BitVec 5) (v : Word) (n : Word) : RetiredWith (s.tile k) ((s.retireWith k rd v n).tile k) rd v n := by
  have keeps := (s.tile k).setX_keeps rd v
  rw [State.retireWith, State.tile_retire, State.tile_modTile_same]
  exact ⟨(s.tile k).setX_shuttleWrites rd v, (congrArg (fun y : Tile => { y with pc := (s.tile k).pc, waiting := (s.tile k).waiting }) keeps :),
    (congrArg (fun y : Tile => y.pc + n) keeps :), rfl⟩

theorem State.tileOnly_retireWith (rd : BitVec 5) (v : Word) (n : Word) : tileOnly k s (s.retireWith k rd v n) :=
  tileOnly_trans (s.tileOnly_modTile k _) (State.tileOnly_retire _ k n)

theorem State.retireRd_eq (rd : BitVec 5) (v : Word) : s.retireRd k rd v = s.retireWith k rd v 4 := rfl

end

/-! ### The closing of digest banks -/

/-- The tile without what a closing of its banks changes. -/
def Tile.lessBanks (x : Tile) : Tile := { x with banks := [], shut := none, lateSeen := [] }

/-- The state without what late work changes. -/
def State.lessLate (s : State) : State := { s with tiles := [], regs := [], rings := ⟨[], 0, [], []⟩, resil := { s.resil with lateCost := 0 } }

/-- The registers that late work of tile k leaves. -/
def lateFree (k : TileId) (o : Nat) : Prop := o ∉ eventOffs ∧ o ≠ F.TIME_PICK_LATE.off ∧ o ≠ (F.DIGEST_STAT_LATE.plus (tileBase k)).off

/-- Between s and u banks of tile k have closed, and late ones have been reported. -/
structure BanksClosed (k : TileId) (s u : State) : Prop where
  frame : Keeps State.lessLate (lateFree k) s u
  pick : u.fld F.TIME_PICK_PICK = s.fld F.TIME_PICK_PICK
  own : (u.tile k).lessBanks = (s.tile k).lessBanks
  others : otherTiles k s u

namespace BanksClosed
variable {k : TileId} {s t u : State}

theorem refl (k : TileId) (s : State) : BanksClosed k s s := ⟨.refl s, rfl, rfl, fun _ _ => rfl⟩

theorem trans (h : BanksClosed k s t) (g : BanksClosed k t u) : BanksClosed k s u :=
  ⟨h.frame.trans g.frame, g.pick.trans h.pick, g.own.trans h.own, fun j hj => (g.others j hj).trans (h.others j hj)⟩

theorem foldl {α : Type} {f : State → α → State} (h : ∀ s x, BanksClosed k s (f s x)) (l : List α) (s : State) : BanksClosed k s (l.foldl f s) :=
  foldl_keeps (BanksClosed k s) f (fun _ _ g => g.trans (h _ _)) l s (.refl k s)

/-- What can be read off the tile without its banks. -/
theorem same (h : BanksClosed k s u) {α : Type} (g : Tile → α) (hg : ∀ x, g x = g x.lessBanks) : g (u.tile k) = g (s.tile k) := by
  rw [hg, hg (s.tile k), h.own]

/-- Registers of the tile other than DIGEST_STAT stay. -/
theorem reg_tile (h : BanksClosed k s u) {o : Nat} (ho : o < 0x10000) (hd : o ≠ F.DIGEST_STAT_LATE.off) : u.reg (o + tileBase k) = s.reg (o + tileBase k) := by
  have hk := k.isLt
  refine h.frame.regs _ ⟨?_, ?_, ?_⟩
  · simp only [eventOffs, F.TIME_STAT_EV, F.CKPT_STAT_ERR, F.MBX_EVQ_DROPPED, tileBase, List.mem_cons, List.not_mem_nil, or_false]
    omega
  · simp only [F.TIME_PICK_LATE, tileBase]
    omega
  · simp only [Fld.plus]
    omega

theorem fld_tile (h : BanksClosed k s u) {f : Fld} (ho : f.off < 0x10000) (hd : f.off ≠ F.DIGEST_STAT_LATE.off) : u.fld (tfld k f) = s.fld (tfld k f) := by
  have := h.reg_tile ho hd
  rw [State.fld, State.fld, tfld, Fld.plus, this]

/-- An event that is raised afterwards has the stamp and the pick of before. -/
theorem raised (h : BanksClosed k s u) {v : State} {src : Nat} {c : Status} {d : List Byte} {b : Bool} (r : raised u v src c d b) : raised s v src c d b := by
  have ready : u.ready 9 = s.ready 9 := State.ready_congr _ _ _ (h.frame.regs _ ⟨by decide, by decide, by
    simp only [Fld.plus, F.DIGEST_STAT_LATE, R.GLB_FUNC_READY, tileBase]
    have := k.isLt
    omega⟩)
  have job : u.inPick = s.inPick := by
    rw [State.inPick, State.inPick, h.frame.fld (f := F.GLB_JOB_STATE) ⟨by decide, by decide, by
      simp only [Fld.plus, F.DIGEST_STAT_LATE, F.GLB_JOB_STATE, tileBase]
      have := k.isLt
      omega⟩]
  have ns : u.clock = s.clock := h.frame.same State.clock (fun _ => rfl)
  have stamp : u.stamp = s.stamp := by rw [State.stamp, State.stamp, ready, ns]
  have pick : u.eventPick = s.eventPick := by rw [State.eventPick, State.eventPick, job, h.pick]
  unfold Sys2Proof.raised at r ⊢
  rw [r, stamp, pick]

end BanksClosed

section
variable (s : State) (k : TileId)

theorem State.banksClosed_modTile {f : Tile → Tile} (h : ∀ x, (f x).lessBanks = x.lessBanks) : BanksClosed k s (s.modTile k f) :=
  ⟨.of_rest rfl rfl, rfl, by rw [State.tile_modTile_same, h], s.otherTiles_modTile k f⟩

theorem State.banksClosed_costLate (n : Nat) : BanksClosed k s (s.costLate n) := by
  unfold State.costLate
  split
  · exact .refl k s
  · exact ⟨.of_rest rfl rfl, rfl, rfl, fun _ _ => rfl⟩

theorem State.banksClosed_count {f : Fld} (n : Nat) (hf : ¬lateFree k f.off) (h : f.lo ≤ f.hi) (h64 : f.hi < 64)
    (d : F.TIME_PICK_PICK.off ≠ f.off ∨ F.TIME_PICK_PICK.hi < f.lo ∨ f.hi < F.TIME_PICK_PICK.lo) : BanksClosed k s (s.count f n) :=
  ⟨.setFld s _ hf (fun _ => rfl), s.fld_setFld_other f _ _ h h64 (by decide) d, rfl, fun _ _ => rfl⟩

theorem State.banksClosed_raise (src : Nat) (c : Status) (d : List Byte) : BanksClosed k s (s.raise src c d) := by
  have frame := s.raise_keeps src c d
  have tiles : (s.raise src c d).tiles = s.tiles := frame.same State.tiles (fun _ => rfl)
  refine ⟨⟨(congrArg State.lessLate (s.raise_frame src c d).1 :), fun o h => frame.regs o h.1⟩,
    frame.fld (f := F.TIME_PICK_PICK) (by decide), ?_, fun j _ => State.tile_congr tiles j⟩
  rw [State.tile_congr tiles]

theorem State.banksClosed_lateEvent (p : Pick) (i : Nat) : BanksClosed k s (s.lateEvent k p i) := by
  obtain h | ⟨n, d, h⟩ := s.lateEvent_cases k p i
  · rw [h]
    exact .refl k s
  · rw [h]
    exact (s.banksClosed_costLate k n).trans <| (State.banksClosed_modTile _ k (f := Tile.noteLate p i) (fun _ => rfl)).trans <|
      (State.banksClosed_raise _ k _ _ _).trans <| State.banksClosed_count _ k (f := F.TIME_PICK_LATE) _ (fun h => h.2.1 rfl) (by decide) (by decide) (by decide)

theorem State.banksClosed_lateBank (p : Pick) : BanksClosed k s (s.lateBank k p) := by
  have far : F.TIME_PICK_PICK.off ≠ (F.DIGEST_STAT_LATE.plus (tileBase k)).off := by
    have := k.isLt
    simp only [F.TIME_PICK_PICK, F.DIGEST_STAT_LATE, Fld.plus, tileBase]
    omega
  exact (s.banksClosed_count k (f := F.DIGEST_STAT_LATE.plus (tileBase k)) _ (fun h => h.2.2 rfl) (by simp [Fld.plus, F.DIGEST_STAT_LATE])
    (by simp [Fld.plus, F.DIGEST_STAT_LATE]) (.inl far)).trans (State.banksClosed_lateEvent _ k _ _)

theorem State.banksClosed_closeBank (p : Pick) (onTime : Bool) : BanksClosed k s (s.closeBank k p onTime) := by
  have shut := s.banksClosed_modTile k (f := fun x => { x with shut := some p }) (fun _ => rfl)
  have closed : ∀ late, BanksClosed k s ((s.modTile k (fun x => { x with shut := some p })).modTile k (Tile.shutBank p late)) :=
    fun late => shut.trans (State.banksClosed_modTile _ k (f := Tile.shutBank p _) (fun _ => rfl))
  obtain h | h | ⟨late, h | h⟩ := s.closeBank_cases k p onTime
  · rw [h]
    exact .refl k s
  · exact h ▸ shut
  · exact h ▸ closed late
  · exact h ▸ (closed late).trans (State.banksClosed_lateBank _ k p)

theorem State.banksClosed_closeBefore (p : Pick) : BanksClosed k s (s.closeBefore k p) :=
  .foldl (f := fun s (d : Pick × Tab (Nat × Nat) × List Nat × Bool) => s.closeBank k d.1 false) (fun s d => s.banksClosed_closeBank k d.1 false) _ s

theorem State.banksClosed_closeHalted : BanksClosed k s (s.closeHalted k) := by
  unfold State.closeHalted
  split
  · exact .refl k s
  · exact .foldl (f := fun s (d : Pick × Tab (Nat × Nat) × List Nat × Bool) => s.closeBank k d.1 false) (fun s d => s.banksClosed_closeBank k d.1 false) _ s

end

/-! ### Halts and traps -/

/-- The state of a halted shuttle, before its banks close. -/
def State.stopShuttle (s : State) (k : TileId) : State :=
  ((s.setFld (tfld k F.SEQ_CTRL_RUN) 0).setFld (tfld k F.SEQ_CTRL_HALTED) 1).modTile k (fun x => { x with waiting := none })

section
variable (s : State) (k : TileId)

theorem State.haltShuttle_closed : BanksClosed k (s.stopShuttle k) (s.haltShuttle k) := State.banksClosed_closeHalted _ k

theorem State.tile_stopShuttle : (s.stopShuttle k).tile k = { s.tile k with waiting := none } := State.tile_modTile_same _ k _

/-- What a halt leaves of a field of the tile's block. -/
theorem State.fld_haltShuttle {f : Fld} (ho : f.off < 0x10000) (hd : f.off ≠ F.DIGEST_STAT_LATE.off) : (s.haltShuttle k).fld (tfld k f) =
    ((s.setFld (tfld k F.SEQ_CTRL_RUN) 0).setFld (tfld k F.SEQ_CTRL_HALTED) 1).fld (tfld k f) := (s.haltShuttle_closed k).fld_tile ho hd

/-- Fields of one tile that share no bit. -/
theorem State.fld_set_tfld_other {f g : Fld} (n : Nat) (h : f.lo ≤ f.hi) (h64 : f.hi < 64) (h' : g.lo ≤ g.hi) (d : g.off ≠ f.off ∨ g.hi < f.lo ∨ f.hi < g.lo) :
    (s.setFld (tfld k f) n).fld (tfld k g) = s.fld (tfld k g) :=
  s.fld_setFld_other (tfld k f) (tfld k g) n h h64 h' (d.imp_left (fun e => by simp only [tfld, Fld.plus]; omega))

theorem State.fld_set_tfld {f : Fld} (n : Nat) (h : f.lo ≤ f.hi) (h64 : f.hi < 64) : (s.setFld (tfld k f) n).fld (tfld k f) = n % 2 ^ (f.hi - f.lo + 1) :=
  s.fld_setFld (tfld k f) n h h64

/-- A field of the tile's block that a halt does not set. -/
theorem State.fld_haltShuttle_other {f : Fld} (ho : f.off < 0x10000) (hd : f.off ≠ F.DIGEST_STAT_LATE.off) (h : f.lo ≤ f.hi)
    (d : f.off ≠ 0 ∨ 1 < f.lo) : (s.haltShuttle k).fld (tfld k f) = s.fld (tfld k f) := by
  rw [s.fld_haltShuttle k ho hd, State.fld_set_tfld_other _ _ _ (by decide) (by decide) h, State.fld_set_tfld_other _ _ _ (by decide) (by decide) h]
  · simp only [F.SEQ_CTRL_RUN]
    omega
  · simp only [F.SEQ_CTRL_HALTED]
    omega

/-- A halted shuttle says so. -/
theorem State.halted_haltShuttle : (s.haltShuttle k).bit (tfld k F.SEQ_CTRL_HALTED) = true ∧ (s.haltShuttle k).bit (tfld k F.SEQ_CTRL_RUN) = false := by
  constructor
  · rw [State.bit, s.fld_haltShuttle k (by decide) (by decide), State.fld_set_tfld _ _ _ (by decide) (by decide)]
    rfl
  · rw [State.bit, s.fld_haltShuttle k (by decide) (by decide), State.fld_set_tfld_other _ _ _ (by decide) (by decide) (by decide) (by decide),
      State.fld_set_tfld _ _ _ (by decide) (by decide)]
    rfl

/-- What a halt leaves of its tile. -/
theorem State.tile_haltShuttle {α : Type} (g : Tile → α) (hg : ∀ x, g x = g x.lessBanks) : g ((s.haltShuttle k).tile k) = g { s.tile k with waiting := none } := by
  rw [(s.haltShuttle_closed k).same g hg, State.tile_stopShuttle]

theorem State.otherTiles_haltShuttle : otherTiles k s (s.haltShuttle k) := fun j hj =>
  ((s.haltShuttle_closed k).others j hj).trans (State.otherTiles_modTile ((s.setFld (tfld k F.SEQ_CTRL_RUN) 0).setFld (tfld k F.SEQ_CTRL_HALTED) 1) k _ j hj)

/-- The trap's words in SEQ_TRAP and SEQ_CTRL, before the shuttle halts. -/
def State.noteTrap (cause tval : Nat) : State :=
  ((s.setFld (tfld k F.SEQ_TRAP_CAUSE) cause).setFld (tfld k F.SEQ_TRAP_TVAL) tval).setFld (tfld k F.SEQ_CTRL_TRAP) 1

theorem State.fld_noteTrap {cause : Nat} (tval : Nat) (h : cause < 256) : (s.noteTrap k cause tval).fld (tfld k F.SEQ_TRAP_CAUSE) = cause ∧
    (s.noteTrap k cause tval).fld (tfld k F.SEQ_TRAP_TVAL) = tval % 2 ^ 32 ∧ (s.noteTrap k cause tval).fld (tfld k F.SEQ_CTRL_TRAP) = 1 := by
  unfold State.noteTrap
  refine ⟨?_, ?_, State.fld_set_tfld _ k _ (by decide) (by decide)⟩
  · rw [State.fld_set_tfld_other _ _ _ (by decide) (by decide) (by decide) (by decide),
      State.fld_set_tfld_other _ _ _ (by decide) (by decide) (by decide) (by decide), State.fld_set_tfld _ _ _ (by decide) (by decide)]
    exact Nat.mod_eq_of_lt h
  · rw [State.fld_set_tfld_other _ _ _ (by decide) (by decide) (by decide) (by decide), State.fld_set_tfld _ _ _ (by decide) (by decide)]
    rfl

/-- Setting a field of the tile's block leaves what an event says. -/
theorem State.raised_of_set_tfld {s : State} {k : TileId} {f : Fld} {n : Nat} {v : State} {src : Nat} {c : Status} {d : List Byte} {b : Bool} (hf : f.off < 0x10000)
    (r : raised (s.setFld (tfld k f) n) v src c d b) : raised s v src c d b := by
  have frame : Keeps (fun s => { s with regs := [] }) stampReg s (s.setFld (tfld k f) n) := by
    refine .setFld s n (fun h => ?_) (fun _ => rfl)
    have := k.isLt
    simp only [stampReg, tfld, Fld.plus, tileBase, R.GLB_FUNC_READY, F.GLB_JOB_STATE, F.TIME_PICK_PICK] at h
    omega
  obtain ⟨stamp, pick⟩ := frame.stamp (fun _ h => h) (fun _ => rfl)
  unfold raised at r ⊢
  rw [r, stamp, pick]

theorem State.raised_of_halt {s : State} {k : TileId} {v : State} {src : Nat} {c : Status} {d : List Byte} {b : Bool} (r : raised (s.haltShuttle k) v src c d b) :
    raised s v src c d b :=
  State.raised_of_set_tfld (by decide) (State.raised_of_set_tfld (by decide) ((s.haltShuttle_closed k).raised r :))

/-- A trap is as R129 says. -/
theorem State.trapShuttle_trapped {cause : Nat} (tval : Nat) (h : cause < 256) : shuttleTrapped s (s.trapShuttle k cause tval) k cause tval := by
  have raises := State.banksClosed_raise ((s.noteTrap k cause tval).haltShuttle k) k (tileSrc k) St.aborted (leBytes 4 cause ++ leBytes 4 (s.tile k).pc.toNat)
  have same : ∀ f : Fld, f.off < 0x10000 → f.off ≠ F.DIGEST_STAT_LATE.off →
      (s.trapShuttle k cause tval).fld (tfld k f) = ((s.noteTrap k cause tval).haltShuttle k).fld (tfld k f) := fun f => raises.fld_tile
  have kept : ∀ f : Fld, f.off < 0x10000 → f.off ≠ F.DIGEST_STAT_LATE.off → f.lo ≤ f.hi → f.off ≠ 0 ∨ 1 < f.lo →
      (s.trapShuttle k cause tval).fld (tfld k f) = (s.noteTrap k cause tval).fld (tfld k f) := fun f h hd hl d =>
    (same f h hd).trans (State.fld_haltShuttle_other _ k h hd hl d)
  obtain ⟨words, value, trap⟩ := s.fld_noteTrap k tval h
  obtain ⟨halted, run⟩ := (s.noteTrap k cause tval).halted_haltShuttle k
  refine ⟨(kept _ (by decide) (by decide) (by decide) (by decide)).trans words,
    (kept _ (by decide) (by decide) (by decide) (by decide)).trans value, ?_, ?_, ?_, ?_, ?_, ?_⟩
  · rw [State.bit, kept _ (by decide) (by decide) (by decide) (by decide), trap]
    rfl
  · rw [State.bit, same _ (by decide) (by decide)]
    exact halted
  · rw [State.bit, same _ (by decide) (by decide)]
    exact run
  · exact (raises.same Tile.pc (fun _ => rfl)).trans (State.tile_haltShuttle _ k Tile.pc (fun _ => rfl))
  · exact (raises.same Tile.x (fun _ => rfl)).trans (State.tile_haltShuttle _ k Tile.x (fun _ => rfl))
  · exact State.raised_of_set_tfld (by decide) (State.raised_of_set_tfld (by decide) (State.raised_of_set_tfld (by decide)
      (State.raised_of_halt (State.raise_raised _ _ _ _))))

end

end Sys2Proof.Machine
end

section
/-! The instructions of the shuttle that wait for or change an arrival counter (R120, R123, R128, R138). -/

namespace Sys2Proof.Machine

theorem signed_32_toNat (v : Word) : signed 32 v.toNat = v.toInt := by
  have := v.isLt
  simp only [signed]
  rw [BitVec.toInt_eq_toNat_cond, Nat.mod_eq_of_lt v.isLt]
  split <;> split <;> omega

/-! ### Arrival counters -/

theorem arriveFld_bits (k : TileId) (n : Nat) : (arriveFld k n).lo ≤ (arriveFld k n).hi ∧ (arriveFld k n).hi < 64 :=
  show 0 ≤ 31 ∧ 31 < 64 by decide

theorem State.arrival_setArrival (s : State) (k : TileId) (n : Nat) (v : Word) : (s.setArrival k n v).arrival k n = v := by
  rw [State.arrival, State.setArrival, State.fld_setFld _ _ _ (arriveFld_bits k n).1 (arriveFld_bits k n).2]
  exact (congrArg (BitVec.ofNat 32) (Nat.mod_eq_of_lt v.isLt)).trans (by simp)

/-- What a write of an arrival counter leaves. -/
theorem State.setArrival_frame (s : State) (k : TileId) (n : Nat) (v : Word) :
    otherRegs [(arriveFld k n).off] s (s.setArrival k n v) ∧ { s.setArrival k n v with regs := s.regs } = s :=
  ⟨fun _ h => s.reg_setFld_ne _ _ _ (fun e => h (List.mem_singleton.2 e)), rfl⟩

/-- The state after a change of an arrival counter whose instruction retires. -/
theorem State.setArrival_retire {s : State} {k : TileId} (n : Nat) (v : Word) (h : (s.tile k).waiting = none) :
    let t := (s.setArrival k n v).retire k 4
    t.arrival k n = v ∧ t.tile k = { s.tile k with pc := (s.tile k).pc + 4 } ∧ otherRegs [(arriveFld k n).off] s t ∧ otherTiles k s t ∧
      { t with tiles := s.tiles, regs := s.regs } = s :=
  ⟨s.arrival_setArrival k n v, State.tile_retire_free 4 h, (s.setArrival_frame k n v).1, State.otherTiles_modTile (s.setArrival k n v) k _, rfl⟩

/-! ### CSET, CADD and CWAIT -/

section
variable {s : State} {k : TileId} {i : RInst} (free : shuttleFree s k 4 = true)
include free

theorem exec_cset : exec (.cset k i) s = .next (s.cset k i) := congrArg _ (State.shuttleDo_free free)

theorem exec_cadd : exec (.cadd k i) s = .next (s.cadd k i) := congrArg _ (State.shuttleDo_free free)

theorem exec_cwait : exec (.cwait k i) s = .next (s.cwait k i) := congrArg _ (State.shuttleDo_free free)

end

section
variable {s : State} {k : TileId} {i : RInst}

theorem State.cset_of_zero (h : i.funct7 = 0) : s.cset k i = (s.setArrival k (((s.tile k).xreg i.rs1).toNat % 64) ((s.tile k).xreg i.rs2)).retire k 4 :=
  if_neg (not_not_intro h)

theorem State.cadd_of_zero (h : i.funct7 = 0) : s.cadd k i = (s.setArrival k (((s.tile k).xreg i.rs1).toNat % 64)
    (s.arrival k (((s.tile k).xreg i.rs1).toNat % 64) + (s.tile k).xreg i.rs2)).retire k 4 := by
  have adds : BitVec.ofNat 32 ((s.tile k).xreg i.rs2).toNat = (s.tile k).xreg i.rs2 := by simp
  refine (if_neg (not_not_intro h)).trans ?_
  rw [State.bumpArrival, adds]

/-- How far the counter that CWAIT reads is past its target. -/
def State.cwaitGap (s : State) (k : TileId) (i : RInst) : Word := s.arrival k (((s.tile k).xreg i.rs1).toNat % 64) - (s.tile k).xreg i.rs2

theorem State.cwait_free (free : (s.tile k).waiting = none) : s.cwait k i =
    if i.funct7.toNat ≠ 0 ∧ s.eventUndefined (i.funct7.toNat - 1) = true then s.trapShuttle k 26 (i.funct7.toNat - 1)
    else if 0 ≤ (s.cwaitGap k i).toInt ∨ i.funct7.toNat ≠ 0 ∧ s.targetFired ((s.tile k).eventPick (i.funct7.toNat - 1)) (i.funct7.toNat - 1) = true then
      s.retireWith k i.rd (s.arrival k (((s.tile k).xreg i.rs1).toNat % 64)) 4
    else s.await k (.counter (BitVec.ofNat 6 (((s.tile k).xreg i.rs1).toNat % 64)) ((s.tile k).xreg i.rs2)
      (if i.funct7.toNat = 0 then none else some (BitVec.ofNat 7 (i.funct7.toNat - 1), (s.tile k).eventPick (i.funct7.toNat - 1)))) := by
  unfold State.cwait
  simp only [free, signed_32_toNat, Bool.or_eq_true, decide_eq_true_eq, Bool.and_eq_true, bne_iff_ne]
  rfl

end

/-- Settles O27: each instruction by its equation on a free shuttle. -/
theorem shuttleCounterInstructions : Obligations.ShuttleCounterInstructions := by
  intro k i s free
  obtain ⟨-, -, waits⟩ := shuttleFree_iff.1 free
  have zero : ∀ f : BitVec 7, f = 0 ↔ f.toNat = 0 := fun f => BitVec.toNat_inj.symm
  refine ⟨fun h => ⟨⟨_, exec_cset free, ?_⟩, _, exec_cadd free, ?_⟩, fun h => ⟨⟨_, exec_cset free, ?_⟩, _, exec_cadd free, ?_⟩,
    fun h gap => ⟨_, exec_cwait free, ?_⟩,
    fun h gap => ⟨_, exec_cwait free, ?_⟩, fun h defined gap fired => ⟨_, exec_cwait free, ?_⟩, fun h undefined => ⟨_, exec_cwait free, ?_⟩⟩
  · rw [State.cset_of_zero h]
    exact State.setArrival_retire _ _ waits
  · rw [State.cadd_of_zero h]
    exact State.setArrival_retire _ _ waits
  · rw [State.cset, if_pos h]
    exact s.trapShuttle_trapped k _ (by decide)
  · rw [State.cadd, if_pos h]
    exact s.trapShuttle_trapped k _ (by decide)
  · rw [State.cwait_free waits, if_neg (fun e => ?_), if_pos (.inl gap)]
    · have retired := s.retireWith_retired k i.rd (s.arrival k (((s.tile k).xreg i.rs1).toNat % 64)) 4
      exact ⟨retired.writes, retired.pc, retired.waiting, s.tileOnly_retireWith k _ _ _⟩
    · obtain ⟨nonzero, undefined⟩ := e
      exact h.elim (fun h => nonzero ((zero _).1 h)) (fun h => Bool.noConfusion (h.symm.trans undefined))
  · have none0 := (zero _).1 h
    rw [State.cwait_free waits, if_neg (fun e => e.1 none0), if_neg (fun e => e.elim (not_le_of_gt gap) (fun e => e.1 none0)), if_pos none0]
    exact ⟨s.tile_await k _, s.tileOnly_await k _⟩
  · have some0 := mt (zero _).2 h
    rw [State.cwait_free waits, if_neg (fun e => Bool.noConfusion (defined.symm.trans e.2)),
      if_neg (fun e => e.elim (not_le_of_gt gap) (fun e => Bool.noConfusion (fired.symm.trans e.2))), if_neg some0]
    exact ⟨s.tile_await k _, s.tileOnly_await k _⟩
  · rw [State.cwait_free waits, if_pos ⟨mt (zero _).2 h, undefined⟩]
    exact s.trapShuttle_trapped k _ (by decide)

end Sys2Proof.Machine
end

section
/-! EISSUE, EWAIT and EFENCE (R120 to R122, R126, R127), and the instructions of the shuttle that need no unit (R701). -/

namespace Sys2Proof.Machine

/-! ### Issue -/

/-- A tile with a descriptor more in the queue of an engine code (R121). -/
def Tile.queued (x : Tile) (code : Nat) (d : List Byte) (bad : Bool) : Tile :=
  let y := { x with issued := Tab.set code (x.tickets code + 1) x.issued }
  let n := BitVec.ofNat 32 (x.tickets code)
  if code < 4 then y.setQueue code (y.queue code ++ [⟨n, d, bad, if descDg code d then some y.openBank else none⟩])
  else { y with cq := Tab.set (code - 4) (y.copyQ (code - 4) ++ [⟨n, d, bad, .queued, St.ok, false, 0, [], [], false⟩]) y.cq }

/-- COPY_QSTAT of a copy engine's code. -/
def ticketFld (k : TileId) (code : Nat) : Fld := (F.COPY_QSTAT_TICKET.plus (8 * (code - 4))).plus (tileBase k)

/-- The copy queue's TICKET shows the last ticket. -/
def State.noteTicket (s : State) (k : TileId) (code : Nat) (n : Word) : State := if code < 4 then s else s.setFld (ticketFld k code) n.toNat

section
variable (x : Tile) {code : Nat} (d : List Byte) (bad : Bool)

theorem Tile.queued_keeps {α : Type} (g : Tile → α) (hg : ∀ x i q c, g { x with issued := i, q := q, cq := c } = g x) : g (x.queued code d bad) = g x := by
  simp only [Tile.queued]
  split
  · exact hg x _ _ x.cq
  · exact hg x _ x.q _

theorem Tile.tickets_queued : (x.queued code d bad).tickets code = x.tickets code + 1 := by
  have counted : ∀ l : Tab Nat, Tab.get (fun _ => 0) (Tab.set code (x.tickets code + 1) l) code = x.tickets code + 1 := fun l => Tab.get_set_same _ _ _ _
  simp only [Tile.queued]
  split <;> exact counted _

theorem Tile.queue_queued (h : code < 4) : (x.queued code d bad).queue code =
    x.queue code ++ [⟨BitVec.ofNat 32 (x.tickets code), d, bad, if descDg code d then some x.openBank else none⟩] := by
  simp only [Tile.queued, if_pos h]
  exact Tab.get_set_same _ _ _ _

theorem Tile.copyQ_queued (h : 4 ≤ code) : (x.queued code d bad).copyQ (code - 4) =
    x.copyQ (code - 4) ++ [⟨BitVec.ofNat 32 (x.tickets code), d, bad, .queued, St.ok, false, 0, [], [], false⟩] := by
  simp only [Tile.queued, if_neg (not_lt_of_ge h)]
  exact Tab.get_set_same _ _ _ _

end

section
variable (s : State) (k : TileId) (code : Nat) (d : List Byte) (bad : Bool)

theorem State.enqueue_eq : s.enqueue k code d bad = ((s.setTile k ((s.tile k).queued code d bad)).noteTicket k code (BitVec.ofNat 32 ((s.tile k).tickets code)),
    BitVec.ofNat 32 ((s.tile k).tickets code)) := by
  simp only [State.enqueue, Tile.queued, State.noteTicket]
  split <;> rfl

theorem State.tile_noteTicket (n : Word) (j : TileId) : (s.noteTicket k code n).tile j = s.tile j := by
  unfold State.noteTicket
  split <;> rfl

theorem State.rest_noteTicket (n : Word) : { s.noteTicket k code n with regs := s.regs } = s := by
  unfold State.noteTicket
  split <;> rfl

theorem State.otherRegs_noteTicket (n : Word) : otherRegs [(ticketFld k code).off] s (s.noteTicket k code n) := fun a ha => by
  unfold State.noteTicket
  split
  · rfl
  · exact s.reg_setFld_ne _ _ _ (fun e => ha (List.mem_singleton.2 e))

theorem State.fld_noteTicket (n : Word) (h : 4 ≤ code) : (s.noteTicket k code n).fld (ticketFld k code) = n.toNat := by
  have bits : (ticketFld k code).lo ≤ (ticketFld k code).hi ∧ (ticketFld k code).hi < 64 := show 16 ≤ 47 ∧ 47 < 64 by decide
  rw [State.noteTicket, if_neg (not_lt_of_ge h), State.fld_setFld _ _ _ bits.1 bits.2]
  exact Nat.mod_eq_of_lt n.isLt

end

section
variable {s : State} {k : TileId} {i : RInst}

/-- EISSUE that neither traps nor waits. -/
theorem State.eissue_queued (hc : i.funct7.toNat < 8) (ha : ((s.tile k).xreg i.rs1).toNat % 64 = 0) (hl : ((s.tile k).xreg i.rs1).toNat < 0x800000)
    (hn : s.haltedNode = false) (hr : (s.tile k).room i.funct7.toNat = true)
    (hb : (descDg i.funct7.toNat (s.sram k ((s.tile k).xreg i.rs1).toNat 64) && (s.tile k).bankStall) = false) :
    s.eissue k i = ((s.setTile k ((s.tile k).queued i.funct7.toNat (s.sram k ((s.tile k).xreg i.rs1).toNat 64)
        (s.sramBad k ((s.tile k).xreg i.rs1).toNat 64))).noteTicket k i.funct7.toNat (BitVec.ofNat 32 ((s.tile k).tickets i.funct7.toNat))).retireWith k i.rd
      (BitVec.ofNat 32 ((s.tile k).tickets i.funct7.toNat)) 4 := by
  simp only [State.eissue]
  rw [if_neg (not_le_of_gt hc), if_neg (not_not_intro ha), if_neg (not_le_of_gt hl), if_neg (by simp [hr, hn]), if_neg (ne_true_of_eq_false hb), State.enqueue_eq]
  rfl

/-- EISSUE into a full queue waits. -/
theorem State.eissue_waits (hc : i.funct7.toNat < 8) (ha : ((s.tile k).xreg i.rs1).toNat % 64 = 0) (hl : ((s.tile k).xreg i.rs1).toNat < 0x800000)
    (hr : (s.tile k).room i.funct7.toNat = false) : s.eissue k i = s.await k (.queue i.funct7) := by
  simp only [State.eissue]
  rw [if_neg (not_le_of_gt hc), if_neg (not_not_intro ha), if_neg (not_le_of_gt hl), if_pos (by simp [hr])]

/-! ### The ticket of EWAIT -/

/-- How far a ticket is behind the last one issued, as a signed number, where few have been issued. -/
theorem signed_behind {issued n : Nat} (hi : issued < 2 ^ 31) (h0 : issued ≠ 0) (hn : n < 2 ^ 32) (hf : issued ≤ n → n - issued < 2 ^ 31) :
    signed 32 (issued - 1 + 2 ^ 32 - n) = (issued : Int) - 1 - n := by
  simp only [signed]
  by_cases h : n < issued
  · have mod : (issued - 1 + 2 ^ 32 - n) % 2 ^ 32 = issued - 1 - n := by omega
    rw [mod, if_pos (by omega)]
    omega
  · have near := hf (Nat.le_of_not_lt h)
    have mod : (issued - 1 + 2 ^ 32 - n) % 2 ^ 32 = issued - 1 + 2 ^ 32 - n := Nat.mod_eq_of_lt (by omega)
    rw [mod, if_neg (by omega)]
    omega

/-- The trap of a ticket, where few have been issued: not issued, or too old (R122). -/
theorem Tile.ticketTrap_eq (x : Tile) (code : Nat) (n : Word) (hi : x.tickets code < 2 ^ 31) (hf : x.tickets code ≤ n.toNat → n.toNat - x.tickets code < 2 ^ 31) :
    x.ticketTrap code n = if x.tickets code ≤ n.toNat then some 25 else if n.toNat + 64 < x.tickets code then some 24 else none := by
  simp only [Tile.ticketTrap]
  by_cases h0 : x.tickets code = 0
  · rw [if_pos h0, if_pos (by omega)]
  rw [if_neg h0, signed_behind hi h0 n.isLt hf]
  by_cases h : x.tickets code ≤ n.toNat
  · rw [if_pos (by omega), if_pos h]
  rw [if_neg (by omega), if_neg (by omega), if_neg h]
  by_cases old : n.toNat + 64 < x.tickets code
  · rw [if_pos (by omega), if_pos old]
  · rw [if_neg (by omega), if_neg old]

/-- EWAIT on a ticket with a status. -/
theorem State.ewait_done {st : Status} (hc : i.funct7.toNat < 8) (hs : (s.tile k).statusOf i.funct7.toNat ((s.tile k).xreg i.rs1) = some st)
    (ht : (s.tile k).waiting = none → (s.tile k).ticketTrap i.funct7.toNat ((s.tile k).xreg i.rs1) = none) :
    s.ewait k i = s.retireWith k i.rd (BitVec.setWidth 32 st) 4 := by
  have free : (if (s.tile k).waiting.isSome then none else (s.tile k).ticketTrap i.funct7.toNat ((s.tile k).xreg i.rs1)) = none := by
    split
    · rfl
    · next h => exact ht (Option.not_isSome_iff_eq_none.1 h)
  simp only [State.ewait, free, hs]
  rw [if_neg (not_le_of_gt hc), State.retireRd_eq]

/-- EWAIT on a ticket whose operation has not completed. -/
theorem State.ewait_waits (hc : i.funct7.toNat < 8) (hw : (s.tile k).waiting = none)
    (ht : (s.tile k).ticketTrap i.funct7.toNat ((s.tile k).xreg i.rs1) = none) (hs : (s.tile k).statusOf i.funct7.toNat ((s.tile k).xreg i.rs1) = none) :
    s.ewait k i = s.await k (.ticket i.funct7 ((s.tile k).xreg i.rs1)) := by
  simp only [State.ewait, hw, Option.isSome_none, Bool.false_eq_true, if_false, ht, hs]
  rw [if_neg (not_le_of_gt hc)]

/-- EWAIT on a ticket that it cannot answer. -/
theorem State.ewait_traps {c : Nat} (hc : i.funct7.toNat < 8) (hw : (s.tile k).waiting = none)
    (ht : (s.tile k).ticketTrap i.funct7.toNat ((s.tile k).xreg i.rs1) = some c) : s.ewait k i = s.trapShuttle k c ((s.tile k).xreg i.rs1).toNat := by
  simp only [State.ewait, hw, Option.isSome_none, Bool.false_eq_true, if_false, ht]
  rw [if_neg (not_le_of_gt hc)]

end

/-! ### The statement about EISSUE -/

section
variable {s : State} {k : TileId} {i : RInst} (free : shuttleFree s k 4 = true)
include free

theorem exec_eissue : exec (.eissue k i) s = .next (s.eissue k i) := congrArg _ (State.shuttleDo_free free)

theorem exec_ewait : exec (.ewait k i) s = .next (s.ewait k i) := congrArg _ (State.shuttleDo_free free)

theorem exec_efence : exec (.efence k i) s = .next (s.efence k i) := congrArg _ (State.shuttleDo_free free)

theorem exec_shuttleWfi : exec (.shuttleWfi k) s = .next (s.retire k 4) := congrArg Host.Outcome.next (State.shuttleDo_free free)

theorem exec_shuttleEcallEbreak (b : Bool) : exec (.shuttleEcallEbreak k b) s = .next (s.trapShuttle k (if b then 3 else 11) 0) :=
  congrArg Host.Outcome.next (State.shuttleDo_free free)

end

/-- What EISSUE leaves of its tile and of the registers. -/
theorem State.issued_tile (s : State) (k : TileId) (code : Nat) (d : List Byte) (bad : Bool) (rd : BitVec 5) (n : Word) :
    RetiredWith ((s.tile k).queued code d bad) ((((s.setTile k ((s.tile k).queued code d bad)).noteTicket k code n).retireWith k rd n 4).tile k) rd n 4 := by
  have retired := ((s.setTile k ((s.tile k).queued code d bad)).noteTicket k code n).retireWith_retired k rd n 4
  rw [State.tile_noteTicket, State.tile_setTile_same] at retired
  exact retired

/-- Settles O25: the descriptor goes to the queue by the equation of EISSUE; the traps of EWAIT by the distance of its ticket. -/
theorem eissue : Obligations.Eissue := by
  refine ⟨fun k i s free running => ?_, fun k i s free => ?_⟩
  · intro x a code d n hc ha hl
    refine ⟨fun hr hb => ⟨_, exec_eissue free, ?_⟩, fun hr => ⟨_, exec_eissue free, ?_⟩⟩
    · rw [State.eissue_queued hc ha hl running hr hb]
      have own := s.issued_tile k code d (s.sramBad k a 64) i.rd n
      have queues : ∀ {α : Type} (g : Tile → α), (∀ x y p w, g { x with x := y, pc := p, waiting := w } = g x) → g _ = g (x.queued code d (s.sramBad k a 64)) :=
        fun g hg => (hg _ _ _ _).symm.trans (congrArg g own.rest)
      have xreg : ∀ r, (x.queued code d (s.sramBad k a 64)).xreg r = x.xreg r := fun r => x.queued_keeps d _ (fun x => x.xreg r) (fun _ _ _ _ => rfl)
      refine ⟨⟨own.writes.1, own.writes.2.1, fun r hr => (own.writes.2.2 r hr).trans (xreg r)⟩, ?_, own.waiting, ?_,
        fun h => ?_, fun h => ?_, fun h => ?_, ?_, ?_, ?_⟩
      · exact own.pc.trans (congrArg (· + 4) (x.queued_keeps d _ Tile.pc (fun _ _ _ _ => rfl)))
      · exact (queues (fun x => x.tickets code) (fun _ _ _ _ => rfl)).trans (x.tickets_queued d _)
      · exact (queues (fun x => x.queue code) (fun _ _ _ _ => rfl)).trans (x.queue_queued d _ h)
      · exact (queues (fun x => x.copyQ (code - 4)) (fun _ _ _ _ => rfl)).trans (x.copyQ_queued d _ h)
      · exact State.fld_noteTicket _ k code n h
      · exact fun o ho => State.otherRegs_noteTicket (s.setTile k (x.queued code d (s.sramBad k a 64))) k code n o ho
      · intro j hj
        rw [(State.tileOnly_retireWith _ k _ _ _).2 j hj, State.tile_noteTicket, State.tile_setTile_other _ _ _ _ hj]
      · exact (congrArg (fun t : State => { t with tiles := s.tiles }) (State.rest_noteTicket (s.setTile k (x.queued code d (s.sramBad k a 64))) k code n) :)
    · rw [State.eissue_waits hc ha hl hr]
      exact ⟨s.tile_await k _, s.tileOnly_await k _⟩
  · obtain ⟨-, -, waits⟩ := shuttleFree_iff.1 free
    have ticket := fun h32 near => (s.tile k).ticketTrap_eq i.funct7.toNat ((s.tile k).xreg i.rs1) h32 near
    refine ⟨fun hc => ⟨_, exec_eissue free, ?_⟩, fun hc ha => ⟨_, exec_eissue free, ?_⟩, fun hc ha hl => ⟨_, exec_eissue free, ?_⟩,
      fun hc new h32 near => ⟨_, exec_ewait free, ?_⟩, fun hc old h32 => ⟨_, exec_ewait free, ?_⟩⟩
    · rw [State.eissue, if_pos hc]
      exact s.trapShuttle_trapped k _ (by decide)
    · rw [State.eissue, if_neg (not_le_of_gt hc), if_pos ha]
      exact s.trapShuttle_trapped k _ (by decide)
    · rw [State.eissue, if_neg (not_le_of_gt hc), if_neg (not_not_intro ha), if_pos hl]
      exact s.trapShuttle_trapped k _ (by decide)
    · rw [State.ewait_traps hc waits ((ticket h32 (fun _ => near)).trans (if_pos new))]
      exact s.trapShuttle_trapped k _ (by decide)
    · have older : ¬(s.tile k).tickets i.funct7.toNat ≤ ((s.tile k).xreg i.rs1).toNat := by omega
      rw [State.ewait_traps hc waits ((ticket h32 (fun new => absurd new older)).trans ((if_neg older).trans (if_pos old)))]
      exact s.trapShuttle_trapped k _ (by decide)

/-! ### The statement about EWAIT, EFENCE, WFI, ECALL and EBREAK -/

/-- EWAIT in its own wait, or in none. -/
theorem exec_ewait_running {s : State} {k : TileId} {i : RInst} (hr : s.shuttleRuns k = true) (hp : (s.tile k).pc.toNat + 4 ≤ 0x10000)
    (hw : ∀ w, (s.tile k).waiting = some w → w = .ticket i.funct7 ((s.tile k).xreg i.rs1)) : exec (.ewait k i) s = .next (s.ewait k i) :=
  congrArg _ (State.shuttleDo_running hr hp (fun w e => beq_iff_eq.2 (hw w e)))

/-- Settles O26: by the equations of EWAIT; EFENCE asks every engine code of its mask. -/
theorem ewaitEfenceWfiEcall : Obligations.EwaitEfenceWfiEcall := by
  refine ⟨fun k i s => ?_, fun k i s free => ?_⟩
  · intro x n code done hc hr hp
    have finishes : ∀ st, x.statusOf code n = some st → (∀ w, x.waiting = some w → w = .ticket i.funct7 n) →
        (x.waiting = none → x.ticketTrap code n = none) → done st := by
      intro st hs hw ht
      refine ⟨_, exec_ewait_running hr hp hw, ?_⟩
      have own := s.retireWith_retired k i.rd (BitVec.setWidth 32 st) 4
      rw [State.ewait_done hc hs ht]
      exact ⟨own.writes, own.pc, own.waiting, own.smem, s.tileOnly_retireWith k _ _ _⟩
    refine ⟨fun hw issued recent h32 => ?_, fun hw st hs => ?_⟩
    · have good : x.ticketTrap code n = none := by
        rw [x.ticketTrap_eq code n h32 (fun h => absurd issued (not_lt_of_ge h)), if_neg (not_le_of_gt issued), if_neg (not_lt_of_ge recent)]
      refine ⟨fun st hs => finishes st hs (fun w e => by simp [hw] at e) (fun _ => good), fun hs => ⟨_, exec_ewait_running hr hp (fun w e => ?_), ?_⟩⟩
      · exact absurd (hw.symm.trans e) (by simp)
      · rw [State.ewait_waits hc hw good hs]
        exact ⟨s.tile_await k _, s.tileOnly_await k _⟩
    · exact finishes st hs (fun w e => Option.some.inj (e.symm.trans hw)) (fun e => absurd (hw.symm.trans e) (by simp))
  · obtain ⟨-, -, waits⟩ := shuttleFree_iff.1 free
    intro x m idle passes
    have passed : ∀ c, exec c s = .next (s.retire k 4) → passes c := fun c e => ⟨_, e, State.tile_retire_free 4 waits, s.tileOnly_retire k 4⟩
    have idle_iff : (List.range 8).all (fun c => !m.getLsbD c || x.engineIdle c) = true ↔ idle := by
      simp only [List.all_eq_true, List.mem_range, Bool.or_eq_true, Bool.not_eq_true', idle]
      exact forall_congr' fun c => forall_congr' fun _ => ⟨fun h on => h.resolve_left (by simp [on]), fun h => (Bool.eq_false_or_eq_true _).symm.imp id h⟩
    refine ⟨fun h hi => passed _ ?_, fun h hi => ⟨_, exec_efence free, ?_⟩, passed _ (exec_shuttleWfi free), fun b => ⟨_, exec_shuttleEcallEbreak free b, ?_⟩⟩
    · rw [exec_efence free, State.efence, if_neg (not_not_intro h), if_pos (idle_iff.2 hi)]
    · rw [State.efence, if_neg (not_not_intro h), if_neg (mt idle_iff.1 hi)]
      exact ⟨s.tile_await k _, s.tileOnly_await k _⟩
    · exact s.trapShuttle_trapped k 0 (by cases b <;> decide)

end Sys2Proof.Machine
end

section
/-! Writes of SEQ_CTRL and of the arrival counters (R124, R139, R677). -/

namespace Sys2Proof.Machine

section
variable (s : State) (k : TileId)

theorem State.bit_set_tfld {f : Fld} (n : Nat) (h : f.lo ≤ f.hi) (h64 : f.hi < 64) : (s.setFld (tfld k f) n).bit (tfld k f) = (n % 2 ^ (f.hi - f.lo + 1) != 0) := by
  rw [State.bit, s.fld_set_tfld k n h h64]

theorem State.bit_set_tfld_other {f g : Fld} (n : Nat) (h : f.lo ≤ f.hi) (h64 : f.hi < 64) (h' : g.lo ≤ g.hi) (d : g.off ≠ f.off ∨ g.hi < f.lo ∨ f.hi < g.lo) :
    (s.setFld (tfld k f) n).bit (tfld k g) = s.bit (tfld k g) := by
  rw [State.bit, State.bit, s.fld_set_tfld_other k n h h64 h' d]

/-- Readiness is no register of a tile. -/
theorem State.ready_set_tfld {f : Fld} (n i : Nat) (h : f.off < 0x10000) : (s.setFld (tfld k f) n).ready i = s.ready i := by
  refine State.ready_congr _ _ _ (s.reg_setFld_ne _ _ _ ?_)
  have := k.isLt
  simp only [tfld, Fld.plus, tileBase, R.GLB_FUNC_READY]
  omega

/-! ### The start -/

/-- A started shuttle, and what its start changes (R124). -/
structure ShuttleStarted (s t : State) : Prop where
  run : t.bit (tfld k F.SEQ_CTRL_RUN) = true
  halted : t.bit (tfld k F.SEQ_CTRL_HALTED) = false
  pc : (t.tile k).pc = 0
  waiting : (t.tile k).waiting = none
  cur : (t.tile k).cur = none
  x : (t.tile k).x = (s.tile k).x
  smem : (t.tile k).smem = (s.tile k).smem
  regs : otherRegs [R.SEQ_CTRL + tileBase k] s t
  tiles : otherTiles k s t
  rest : { t with tiles := s.tiles, regs := s.regs } = s

/-- A field of SEQ_CTRL set changes SEQ_CTRL alone. -/
theorem State.otherRegs_setSeqCtrl {f : Fld} (n : Nat) (h : f.off = R.SEQ_CTRL) : otherRegs [R.SEQ_CTRL + tileBase k] s (s.setFld (tfld k f) n) := by
  intro o ho
  exact s.reg_setFld_ne _ _ _ (fun e => ho (List.mem_singleton.2 (e.trans (congrArg (· + tileBase k) h))))

theorem State.startShuttle_started : ShuttleStarted k s (s.startShuttle k) := by
  have regs : otherRegs [R.SEQ_CTRL + tileBase k] s ((s.setFld (tfld k F.SEQ_CTRL_RUN) 1).setFld (tfld k F.SEQ_CTRL_HALTED) 0) := fun o ho =>
    (State.otherRegs_setSeqCtrl _ k 0 (by decide) o ho).trans (s.otherRegs_setSeqCtrl k 1 (by decide) o ho)
  unfold State.startShuttle
  have own := State.tile_modTile_same ((s.setFld (tfld k F.SEQ_CTRL_RUN) 1).setFld (tfld k F.SEQ_CTRL_HALTED) 0) k (fun x =>
    { x with pc := 0, waiting := none, cur := none, sched := { Sched.reset with base := (List.range 64).map (fun n => (n, s.arrival k n)) } })
  refine ⟨?_, ?_, (congrArg Tile.pc own :), (congrArg Tile.waiting own :), (congrArg Tile.cur own :), (congrArg Tile.x own :), (congrArg Tile.smem own :), regs,
    State.otherTiles_modTile ((s.setFld (tfld k F.SEQ_CTRL_RUN) 1).setFld (tfld k F.SEQ_CTRL_HALTED) 0) k _, rfl⟩
  · rw [State.bit_modTile_keeps, State.bit_set_tfld_other _ _ _ (by decide) (by decide) (by decide) (by decide), State.bit_set_tfld _ _ _ (by decide) (by decide)]
    rfl
  · rw [State.bit_modTile_keeps, State.bit_set_tfld _ _ _ (by decide) (by decide)]
    rfl

/-- A start leaves SEQ_CTRL.TRAP. -/
theorem State.trap_startShuttle : (s.startShuttle k).bit (tfld k F.SEQ_CTRL_TRAP) = s.bit (tfld k F.SEQ_CTRL_TRAP) := by
  rw [State.startShuttle, State.bit_modTile_keeps, State.bit_set_tfld_other _ _ _ (by decide) (by decide) (by decide) (by decide),
    State.bit_set_tfld_other _ _ _ (by decide) (by decide) (by decide) (by decide)]

/-! ### TRAP is cleared by writing 1 -/

/-- The state after the TRAP bit of a write of SEQ_CTRL. -/
def State.clearTrap (v : BitVec 64) : State := if bitN v.toNat 2 then s.setFld (tfld k F.SEQ_CTRL_TRAP) 0 else s

theorem State.seqCtrlWrite_eq (v : BitVec 64) : s.seqCtrlWrite k v =
    if bitN v.toNat 0 then
      if (s.clearTrap k v).shuttleRuns k then s.clearTrap k v
      else if (s.clearTrap k v).tileReady k then (s.clearTrap k v).startShuttle k else (s.clearTrap k v).setFld (tfld k F.SEQ_CTRL_RUN) 1
    else (s.clearTrap k v).haltShuttle k := rfl

theorem State.trap_clearTrap (v : BitVec 64) : (s.clearTrap k v).bit (tfld k F.SEQ_CTRL_TRAP) = (s.bit (tfld k F.SEQ_CTRL_TRAP) && !bitN v.toNat 2) := by
  unfold State.clearTrap
  split
  · next h =>
    rw [h, State.bit_set_tfld _ _ _ (by decide) (by decide)]
    simp
  · next h => simp [h]

/-- What the TRAP bit of a write leaves. -/
theorem State.clearTrap_keeps (v : BitVec 64) : (s.clearTrap k v).shuttleRuns k = s.shuttleRuns k ∧ (s.clearTrap k v).tileReady k = s.tileReady k ∧
    otherRegs [R.SEQ_CTRL + tileBase k] s (s.clearTrap k v) ∧ { s.clearTrap k v with regs := s.regs } = s := by
  unfold State.clearTrap
  split
  · refine ⟨?_, State.ready_set_tfld _ _ _ _ (by decide), s.otherRegs_setSeqCtrl k 0 (by decide), rfl⟩
    rw [State.shuttleRuns, State.shuttleRuns, State.bit_set_tfld_other _ _ _ (by decide) (by decide) (by decide) (by decide)]
  · exact ⟨rfl, rfl, fun _ _ => rfl, rfl⟩

theorem State.tiles_clearTrap (v : BitVec 64) : (s.clearTrap k v).tiles = s.tiles := (congrArg State.tiles (s.clearTrap_keeps k v).2.2.2 :)

end

/-! ### The commands -/

section
variable (p : FwpId) (k : TileId) (s : State)

theorem exec_seqCtrlRun (v : BitVec 64) : exec (.seqCtrlRun (.fw p) k v) s = .next (s.seqCtrlWrite k v) := rfl

theorem exec_copyArriveWrite (n : BitVec 6) (v : BitVec 64) (m : Nat) : exec (.copyArriveWrite (.fw p) k n v m) s = .next (s.arriveWrite k n.toNat v m) := rfl

theorem exec_shuttleDeferredStart {s : State} {k : TileId} (hr : s.bit (tfld k F.SEQ_CTRL_RUN) = true) (hs : s.shuttleRuns k = false) (ht : s.tileReady k = true) :
    exec (.shuttleDeferredStart k) s = .next (s.startShuttle k) := congrArg Host.Outcome.next (if_pos (by simp [hr, hs, ht]))

end

/-- A start after the TRAP bit has been written is a start. -/
theorem ShuttleStarted.of_clearTrap {k : TileId} {s t : State} {v : BitVec 64} (h : ShuttleStarted k (s.clearTrap k v) t) : ShuttleStarted k s t := by
  obtain ⟨-, -, regs, rest⟩ := s.clearTrap_keeps k v
  have tile : ∀ j, (s.clearTrap k v).tile j = s.tile j := State.tile_congr (s.tiles_clearTrap k v)
  exact ⟨h.run, h.halted, h.pc, h.waiting, h.cur, h.x.trans (congrArg Tile.x (tile k)), h.smem.trans (congrArg Tile.smem (tile k)),
    fun o ho => (h.regs o ho).trans (regs o ho), fun j hj => (h.tiles j hj).trans (tile j),
    (congrArg (fun u : State => { u with tiles := s.tiles, regs := s.regs }) h.rest :).trans (congrArg (fun u : State => { u with tiles := s.tiles }) rest :)⟩

/-- Settles O31: each write by the bits of SEQ_CTRL that it sets. -/
theorem seqCtrlAndArrivalWrites : Obligations.SeqCtrlAndArrivalWrites := by
  refine ⟨fun p k v s => ?_, fun p k n v m s => ⟨_, exec_copyArriveWrite p k s n v m, ?_⟩⟩
  · intro x starts trap
    obtain ⟨runs, ready, -, -⟩ := s.clearTrap_keeps k v
    have tiles := s.tiles_clearTrap k v
    have cleared := s.trap_clearTrap k v
    have started : ∀ t, ShuttleStarted k s t → starts t := fun t ⟨h1, h2, h3, h4, h5, h6, h7, h8, h9, h10⟩ => ⟨h1, h2, h3, h4, h5, h6, h7, h8, h9, h10⟩
    refine ⟨fun run idle up => ⟨_, exec_seqCtrlRun p k s v, ?_⟩, fun run idle down => ⟨_, exec_seqCtrlRun p k s v, ?_⟩,
      fun stop => ⟨_, exec_seqCtrlRun p k s v, ?_⟩, fun run idle up => ⟨_, exec_shuttleDeferredStart run idle up, started _ (s.startShuttle_started k)⟩⟩
    · rw [s.seqCtrlWrite_eq, if_pos run, runs, ready, if_neg (ne_true_of_eq_false idle), if_pos up]
      exact ⟨started _ (State.startShuttle_started (s.clearTrap k v) k).of_clearTrap, (State.trap_startShuttle (s.clearTrap k v) k).trans cleared⟩
    · rw [s.seqCtrlWrite_eq, if_pos run, runs, ready, if_neg (ne_true_of_eq_false idle), if_neg (ne_true_of_eq_false down)]
      refine ⟨?_, ?_, tiles, ?_⟩
      · rw [State.bit_set_tfld _ _ _ (by decide) (by decide)]
        rfl
      · rw [← idle, ← runs, State.shuttleRuns, State.shuttleRuns, State.bit_set_tfld_other _ _ _ (by decide) (by decide) (by decide) (by decide)]
      · exact (State.bit_set_tfld_other _ k _ (by decide) (by decide) (by decide) (by decide)).trans cleared
    · rw [s.seqCtrlWrite_eq, if_neg (ne_true_of_eq_false stop)]
      obtain ⟨halted, norun⟩ := (s.clearTrap k v).halted_haltShuttle k
      refine ⟨norun, by rw [State.shuttleRuns, halted]; rfl, ?_, ?_, ?_, ?_⟩
      · exact (State.tile_haltShuttle _ k Tile.pc (fun _ => rfl)).trans (congrArg Tile.pc (State.tile_congr tiles k) :)
      · exact State.tile_haltShuttle _ k Tile.waiting (fun _ => rfl)
      · refine Eq.trans ?_ cleared
        rw [State.bit, State.bit, State.fld_haltShuttle_other _ k (by decide) (by decide) (by decide) (by decide)]
      · exact fun j hj => (State.otherTiles_haltShuttle (s.clearTrap k v) k j hj).trans (State.tile_congr tiles j)
  · have sums : BitVec.ofNat 32 v.toNat + BitVec.ofNat 32 m = BitVec.ofNat 32 (v.toNat + m) := (BitVec.ofNat_add ..).symm
    rw [State.arriveWrite, sums]
    exact ⟨s.arrival_setArrival k n.toNat _, (s.setArrival_frame k n.toNat _).1, (s.setArrival_frame k n.toNat _).2⟩

end Sys2Proof.Machine
end

section
/-! A shuttle's accesses to its register block, through the two latches (R118). -/

namespace Sys2Proof.Machine

/-- The address of a shuttle's load or store, and the length of the instruction. -/
def shAddr (x : Tile) (i : ShMem) : Nat := (x.xreg i.base + BitVec.signExtend 32 i.imm).toNat
def shStep (i : ShMem) : Word := if i.short then 2 else 4

/-- The register that an address of the block names. -/
def blockReg (a : Nat) : Nat := a % 0x10000 / 8 * 8

/-- A read of a register changes no tile. -/
theorem State.tiles_busRead (s : State) (q : Requester) (off : Nat) : (s.busRead q off).2.tiles = s.tiles := by
  cases hq : s.reaches q off with
  | false => simp [State.busRead, hq]
  | true =>
    cases hr : regAt off with
    | none => simp [State.busRead, hq, hr]
    | some r => exact (congrArg State.tiles (State.busRead_regs hq hr) :)

section
variable {s : State} {k : TileId} {i : ShMem} (free : shuttleFree s k (shLen i) = true)
include free

theorem exec_shuttleRegStore : exec (.shuttleRegStore k i) s = .next (s.shMem k { i with store := true }) := congrArg Host.Outcome.next (State.shuttleDo_free free)

theorem exec_shuttleRegLoad : exec (.shuttleRegLoad k i) s = .next (s.shMem k { i with store := false }) := congrArg Host.Outcome.next (State.shuttleDo_free free)

end

section
variable {s : State} {k : TileId} {i : ShMem}

/-- A store to the block, unless it is of 8 bytes. -/
theorem State.shMem_regStore (h : i.size ≠ .d) (lo : 0x40000000 ≤ shAddr (s.tile k) i) (hi : shAddr (s.tile k) i < 0x40010000) :
    s.shMem k { i with store := true } = s.shRegStore k i (shAddr (s.tile k) i) ((s.tile k).xreg i.reg) (shStep i) := by
  have good : (i.size == .d) = false := beq_false_of_ne h
  simp only [State.shMem, good, Bool.not_true, Bool.false_and, Bool.or_self, Bool.false_eq_true, if_false, if_true]
  exact if_pos ⟨lo, hi⟩

/-- A load from the block, unless it is one that the shuttle does not have. -/
theorem State.shMem_regLoad (h : i.size ≠ .d) (hs : i.size = .w → i.signed = true) (lo : 0x40000000 ≤ shAddr (s.tile k) i) (hi : shAddr (s.tile k) i < 0x40010000) :
    s.shMem k { i with store := false } = s.shRegLoad k i (shAddr (s.tile k) i) (shStep i) := by
  have good : (i.size == .d) = false := beq_false_of_ne h
  have word : (i.size == .w && !i.signed) = false := by
    cases hw : i.size == .w with
    | false => rfl
    | true => simp [hs (beq_iff_eq.1 hw)]
  simp only [State.shMem, good, Bool.not_false, Bool.true_and, word, Bool.or_self, Bool.false_eq_true, if_false]
  exact if_pos ⟨lo, hi⟩

end

section
variable {s : State} {k : TileId} {i : ShMem} {a : Nat} {v len : Word}

/-- A word store to a lower half latches. -/
theorem State.shRegStore_lower (hw : i.size = .w) (h : a % 8 = 0) :
    s.shRegStore k i a v len = (s.modTile k (fun x => { x with wlatch := some (blockReg a, v) })).retire k len := by
  simp only [State.shRegStore]
  rw [if_neg (fun e => e.elim (fun e => e hw) (fun e => e (by omega))), if_pos h]
  rfl

/-- A word store to the upper half of the latched register writes it. -/
theorem State.shRegStore_upper {lo : Word} (hw : i.size = .w) (h : a % 8 = 4) (hl : (s.tile k).wlatch = some (blockReg a, lo)) :
    s.shRegStore k i a v len =
      ((s.modTile k (fun x => { x with wlatch := none })).retire k len).busWrite (.shuttle k) (tileBase k + blockReg a) (v ++ lo) := by
  simp only [State.shRegStore, hl]
  rw [if_neg (fun e => e.elim (fun e => e hw) (fun e => e (by omega))), if_neg (by omega)]
  exact if_pos rfl

/-- A word store to an upper half without its latch traps. -/
theorem State.shRegStore_unlatched (hw : i.size = .w) (h : a % 8 = 4) (hl : ∀ lo, (s.tile k).wlatch ≠ some (blockReg a, lo)) :
    s.shRegStore k i a v len = s.trapShuttle k 7 a := by
  simp only [State.shRegStore]
  rw [if_neg (fun e => e.elim (fun e => e hw) (fun e => e (by omega))), if_neg (by omega)]
  split
  · next o lo e => exact if_neg (fun he => hl lo (e.trans (congrArg (fun o => some (o, lo)) he)))
  · rfl

/-- The state after a register of the block has been read and the tile's read latch has taken its upper half. -/
def State.readLatched (s : State) (k : TileId) (off : Nat) : State :=
  (s.busRead (.shuttle k) (tileBase k + off)).2.modTile k (fun x =>
    { x with rlatch := some (off, BitVec.ofNat 32 ((s.busRead (.shuttle k) (tileBase k + off)).1.toNat / 2 ^ 32)) })

theorem State.tile_readLatched (s : State) (k : TileId) (off : Nat) : (s.readLatched k off).tile k =
    { s.tile k with rlatch := some (off, BitVec.ofNat 32 ((s.busRead (.shuttle k) (tileBase k + off)).1.toNat / 2 ^ 32)) } := by
  rw [State.readLatched, State.tile_modTile_same, State.tile_congr (s.tiles_busRead _ _)]

theorem State.otherTiles_readLatched (s : State) (k : TileId) (off : Nat) : otherTiles k s (s.readLatched k off) := fun j hj =>
  (State.tile_modTile_other _ k j _ hj).trans (State.tile_congr (s.tiles_busRead _ _) j)

/-- A word load of a lower half. -/
theorem State.shRegLoad_lower (hw : i.size = .w) (hs : i.signed = true) (h : a % 8 = 0) : s.shRegLoad k i a len =
    (s.readLatched k (blockReg a)).retireWith k i.reg (BitVec.ofNat 32 (s.busRead (.shuttle k) (tileBase k + blockReg a)).1.toNat) len := by
  simp only [State.shRegLoad, hs]
  rw [if_neg (by rintro (e | e | e); exacts [e hw, absurd e (by simp), e (by omega)]), if_pos h]
  rfl

/-- A word load of the upper half that the read latch holds. -/
theorem State.shRegLoad_upper {hi : Word} (hw : i.size = .w) (hs : i.signed = true) (h : a % 8 = 4) (hl : (s.tile k).rlatch = some (blockReg a, hi)) :
    s.shRegLoad k i a len = s.retireWith k i.reg hi len := by
  simp only [State.shRegLoad, hs, hl]
  rw [if_neg (by rintro (e | e | e); exacts [e hw, absurd e (by simp), e (by omega)]), if_neg (by omega)]
  exact if_pos rfl

end

/-- Settles O29: each access by its equation. -/
theorem shuttleRegisterAccesses : Obligations.ShuttleRegisterAccesses := by
  intro k i s free x a off n w lo hi
  obtain ⟨-, -, waits⟩ := shuttleFree_iff.1 free
  have word : i.size = .w → i.size ≠ .d := fun h e => by simp [h] at e
  have latches : ∀ l, tileOnly k s ((s.modTile k (fun x => { x with wlatch := l })).retire k n) ∧
      ((s.modTile k (fun x => { x with wlatch := l })).retire k n).tile k = { x with wlatch := l, pc := x.pc + n } := by
    refine fun l => ⟨tileOnly_trans (s.tileOnly_modTile k _) (State.tileOnly_retire _ k n), ?_⟩
    have own := s.tile_modTile_same k (fun x => { x with wlatch := l })
    rw [State.tile_retire_free n ((congrArg Tile.waiting own :).trans waits), own]
  refine ⟨fun hw h8 => ⟨_, exec_shuttleRegStore free, ?_⟩, fun hw h8 l hl => ?_, fun hw h8 hl => ⟨_, exec_shuttleRegStore free, ?_⟩,
    fun hw hs h8 => ⟨_, exec_shuttleRegLoad free, ?_⟩, fun hw hs h8 v hl => ⟨_, exec_shuttleRegLoad free, ?_⟩,
    fun hw => ⟨⟨_, exec_shuttleRegStore free, ?_⟩, _, exec_shuttleRegLoad free, ?_⟩⟩
  · rw [State.shMem_regStore (word hw) lo hi, State.shRegStore_lower (a := shAddr (s.tile k) i) hw h8]
    exact (latches _).symm
  · have same : (BitVec.ofNat 48 (tileBase k + off)).toNat = tileBase k + off := by
      have := k.isLt
      have := Nat.mod_lt a (show 0 < 0x10000 by decide)
      rw [BitVec.toNat_ofNat, Nat.mod_eq_of_lt]
      simp only [tileBase, off]
      omega
    have aligned : (tileBase k + off) % 8 = 0 := by
      simp only [tileBase, off]
      omega
    refine ⟨_, _, exec_shuttleRegStore free, (latches none).2, (latches none).1, ?_⟩
    rw [State.shMem_regStore (word hw) lo hi, State.shRegStore_upper (a := shAddr (s.tile k) i) hw h8 hl,
      exec_registerWrite_aligned (by rw [same, aligned]) (by simp), same]
    rfl
  · rw [State.shMem_regStore (word hw) lo hi, State.shRegStore_unlatched (a := shAddr (s.tile k) i) hw h8 hl]
    exact s.trapShuttle_trapped k _ (by decide)
  · have read := (s.readLatched k off).retireWith_retired k i.reg (BitVec.ofNat 32 w.toNat) n
    rw [State.tile_readLatched] at read
    rw [State.shMem_regLoad (word hw) (fun _ => hs) lo hi, State.shRegLoad_lower (a := shAddr (s.tile k) i) hw hs h8]
    exact ⟨read.writes, (congrArg Tile.rlatch read.rest :), read.pc,
      fun j hj => ((State.tileOnly_retireWith _ k _ _ _).2 j hj).trans (s.otherTiles_readLatched k off j hj)⟩
  · have read := s.retireWith_retired k i.reg v n
    rw [State.shMem_regLoad (word hw) (fun _ => hs) lo hi, State.shRegLoad_upper (a := shAddr (s.tile k) i) hw hs h8 hl]
    exact ⟨read.writes, read.pc, s.tileOnly_retireWith k _ _ _⟩
  · rw [State.shMem_regStore (by rintro e; simp [e] at hw) lo hi, State.shRegStore, if_pos (.inl (by rintro e; simp [e] at hw))]
    exact s.trapShuttle_trapped k _ (by decide)
  · rw [State.shMem_regLoad (by rintro e; simp [e] at hw) (fun e => by simp [e] at hw) lo hi]
    simp only [State.shRegLoad]
    rw [if_pos (.inl (by rintro e; simp [e] at hw))]
    exact s.trapShuttle_trapped k _ (by decide)

end Sys2Proof.Machine
end

section
/-! TWAIT (R124 to R126, R128, R518): the pick that it makes current. -/

namespace Sys2Proof.Machine

/-! ### What the runtime's work at a pick leaves of the tiles -/

/-- Every tile is as before. -/
def SameTiles (s t : State) : Prop := t.tiles = s.tiles

namespace SameTiles
variable {s t u : State}

theorem refl (s : State) : SameTiles s s := Eq.refl _

theorem trans (h : SameTiles s t) (g : SameTiles t u) : SameTiles s u := Eq.trans g h

theorem setResil (h : SameTiles s t) (r : Resil) : SameTiles s { t with resil := r } := h

theorem tile (h : SameTiles s t) (k : TileId) : t.tile k = s.tile k := State.tile_congr h k

end SameTiles

section
variable (s : State)

theorem State.sameTiles_sramWrite (k : TileId) (a : Nat) (d : List Byte) : SameTiles s (s.sramWrite k a d) := (s.sramPut_dramOnly (sramAddr k a) d).memoryOnly.tiles

theorem State.sameTiles_raise (src : Nat) (c : Status) (d : List Byte) : SameTiles s (s.raise src c d) := (s.raise_keeps src c d).same State.tiles (fun _ => rfl)

theorem State.sameTiles_logNote (type key : Nat) (b : List Byte) : SameTiles s (s.logNote type key b) := by
  unfold State.logNote State.logInput
  split
  · simp only []
    split
    · exact .refl s
    · exact ((SameTiles.refl s).setResil _).trans ((State.tellBulk_sentOnly _ _ _ _ _ _).same State.tiles (fun _ => rfl))
  · exact .refl s

end

/-- The freeze map is memory. -/
theorem State.sameTiles_freezeActivate (s : State) (k : TileId) : SameTiles s (s.freezeActivate k) := by
  have active : ∀ base d, SameTiles s (s.setActive k base d) := fun base d => s.sameTiles_sramWrite k base _
  unfold State.freezeActivate
  extract_lets h
  split
  · exact .refl s
  split
  · split
    · next e _ => exact active h.freezeBase e.payload
    · exact .refl s
  split
  · split
    · next e _ => exact (active h.freezeBase e.payload).setResil _
    · exact .refl s
  split
  · exact .refl s
  split
  · refine .trans ?_ (State.sameTiles_logNote _ _ _ _)
    refine .trans ?_ (State.sameTiles_sramWrite _ _ _ _)
    exact active _ _
  · refine .trans ?_ (State.sameTiles_raise _ _ _ _)
    exact s.sameTiles_sramWrite k _ _

/-! ### The current pick -/

/-- Between s and t tile k has turned to pick p. -/
structure TurnedTo (k : TileId) (p : Pick) (s t : State) : Prop where
  cur : (t.tile k).cur = some p
  x : (t.tile k).x = (s.tile k).x
  pc : (t.tile k).pc = (s.tile k).pc
  others : otherTiles k s t

namespace TurnedTo
variable {k : TileId} {p : Pick} {s t u : State}

theorem after (h : TurnedTo k p t u) (g : BanksClosed k s t) : TurnedTo k p s u :=
  ⟨h.cur, h.x.trans (g.same Tile.x (fun _ => rfl)), h.pc.trans (g.same Tile.pc (fun _ => rfl)), fun j hj => (h.others j hj).trans (g.others j hj)⟩

theorem closed (h : TurnedTo k p s t) (g : BanksClosed k t u) : TurnedTo k p s u :=
  ⟨(g.same Tile.cur (fun _ => rfl)).trans h.cur, (g.same Tile.x (fun _ => rfl)).trans h.x, (g.same Tile.pc (fun _ => rfl)).trans h.pc,
    fun j hj => (g.others j hj).trans (h.others j hj)⟩

end TurnedTo

section
variable (s : State) (k : TileId) (p : Pick)

/-- The pick that a tile turns to gets its bank. -/
theorem State.turned_namePick : TurnedTo k p s (s.modTile k (fun x => { x with cur := some p }.namePick p)) := by
  refine ⟨?_, ?_, ?_, s.otherTiles_modTile k _⟩ <;> rw [State.tile_modTile_same] <;> rfl

theorem State.makeCurrent_turned (i : Nat) (onTime : Bool) : TurnedTo k p s (s.makeCurrent k p i onTime) := by
  have turn : TurnedTo k p s (if (s.tile k).cur = some p then s else
      (((match (s.tile k).cur with | some q => s.closeBank k q false | none => s).closeBefore k p).modTile k (fun x => { x with cur := some p }.namePick p))) := by
    split
    · next h => exact ⟨h, rfl, rfl, fun _ _ => rfl⟩
    · refine (State.turned_namePick _ k p).after (.trans ?_ (State.banksClosed_closeBefore _ k p))
      split
      · exact s.banksClosed_closeBank k _ _
      · exact .refl k s
  unfold State.makeCurrent
  simp only []
  split
  · split
    · exact turn.closed (State.banksClosed_closeBank _ k _ _)
    · exact turn
  · exact turn

/-- Turning to the pick's schedule leaves the shuttle (R184, R198). -/
theorem State.schedPick_turned (h : TurnedTo k p s u) : TurnedTo k p s (u.schedPick k) := by
  have tiles := (u.sameTiles_freezeActivate k).tile
  unfold State.schedPick
  refine ⟨?_, ?_, ?_, fun j hj => ?_⟩
  · rw [State.tile_modTile_same, tiles]
    exact h.cur
  · rw [State.tile_modTile_same, tiles]
    exact h.x
  · rw [State.tile_modTile_same, tiles]
    exact h.pc
  · rw [State.tile_modTile_other _ _ _ _ hj, tiles]
    exact h.others j hj

/-- The state in which TWAIT of an event has made pick p current, before the instruction retires. -/
def State.twaitTurn (n : Nat) (onTime : Bool) : State := if n = 0 then (s.makeCurrent k p n onTime).schedPick k else s.makeCurrent k p n onTime

theorem State.twaitTurn_turned (n : Nat) (onTime : Bool) : TurnedTo k p s (s.twaitTurn k p n onTime) := by
  unfold State.twaitTurn
  split
  · exact s.schedPick_turned k p (s.makeCurrent_turned k p n onTime)
  · exact s.makeCurrent_turned k p n onTime

theorem State.twaitReturn_eq (i : RInst) (n : Nat) (onTime : Bool) :
    s.twaitReturn k i n p onTime = (s.twaitTurn k p n onTime).retireWith k i.rd (BitVec.setWidth 32 p) 4 := rfl

end

/-! ### TWAIT -/

/-- TWAIT in its own wait, or in none. -/
theorem exec_twait {s : State} {k : TileId} {i : RInst} (hr : s.shuttleRuns k = true) (hp : (s.tile k).pc.toNat + 4 ≤ 0x10000)
    (hw : ∀ w, (s.tile k).waiting = some w → w.isTwait ((s.tile k).xreg i.rs1).toNat = true) : exec (.twait k i) s = .next (s.twait k i) :=
  congrArg Host.Outcome.next (State.shuttleDo_running hr hp hw)

section
variable {s : State} {k : TileId} {i : RInst} (hz : i.funct7 = 0)
include hz

theorem State.twait_undefined (hu : s.eventUndefined ((s.tile k).xreg i.rs1).toNat = true) : s.twait k i = s.trapShuttle k 26 ((s.tile k).xreg i.rs1).toNat := by
  simp only [State.twait]
  rw [if_neg (not_not_intro hz), if_pos hu]

variable (hu : s.eventUndefined ((s.tile k).xreg i.rs1).toNat = false)
include hu

theorem State.twait_drained (hd : s.drainHalts k ((s.tile k).xreg i.rs1).toNat = true) : s.twait k i = s.haltShuttle k := by
  simp only [State.twait]
  rw [if_neg (not_not_intro hz), if_neg (ne_true_of_eq_false hu), if_pos hd]

variable (hd : s.drainHalts k ((s.tile k).xreg i.rs1).toNat = false)
include hd

theorem State.twait_released {j : BitVec 7} {p : Pick} (hw : (s.tile k).waiting = some (.released j p)) :
    s.twait k i = s.twaitReturn k i ((s.tile k).xreg i.rs1).toNat p true := by
  simp only [State.twait, hw]
  rw [if_neg (not_not_intro hz), if_neg (ne_true_of_eq_false hu), if_neg (ne_true_of_eq_false hd)]

variable (hw : (s.tile k).waiting = none)
include hw

theorem State.twait_unstarted (hp : (s.tile k).eventPick ((s.tile k).xreg i.rs1).toNat = none) :
    s.twait k i = s.await k (.event (BitVec.ofNat 7 ((s.tile k).xreg i.rs1).toNat) none) := by
  simp only [State.twait, hw, hp]
  rw [if_neg (not_not_intro hz), if_neg (ne_true_of_eq_false hu), if_neg (ne_true_of_eq_false hd)]

theorem State.twait_of_pick {p : Pick} (hp : (s.tile k).eventPick ((s.tile k).xreg i.rs1).toNat = some p) :
    s.twait k i = if s.eventFired p ((s.tile k).xreg i.rs1).toNat then
        (s.lateEvent k p ((s.tile k).xreg i.rs1).toNat).twaitReturn k i ((s.tile k).xreg i.rs1).toNat p false
      else s.await k (.event (BitVec.ofNat 7 ((s.tile k).xreg i.rs1).toNat) (some p)) := by
  simp only [State.twait, hw, hp]
  rw [if_neg (not_not_intro hz), if_neg (ne_true_of_eq_false hu), if_neg (ne_true_of_eq_false hd)]

end

/-- Settles O28: a return makes its pick current and retires; the closing of banks on the way leaves the shuttle. -/
theorem twaitReturnsThePick : Obligations.TwaitReturnsThePick := by
  intro k i s hr hp hz x n returns
  have free : x.waiting = none → exec (.twait k i) s = .next (s.twait k i) := fun hw => exec_twait hr hp (fun w e => absurd (hw.symm.trans e) (by simp))
  have returned : ∀ (u : State) (p : Pick) (onTime : Bool), BanksClosed k s u → exec (.twait k i) s = .next (u.twaitReturn k i n p onTime) → returns p := by
    intro u p onTime closed e
    rw [State.twaitReturn_eq] at e
    have turned := (u.twaitTurn_turned k p n onTime).after closed
    have own := (u.twaitTurn k p n onTime).retireWith_retired k i.rd (BitVec.setWidth 32 p) 4
    have same : ∀ r, ((u.twaitTurn k p n onTime).tile k).xreg r = x.xreg r := fun r => by rw [Tile.xreg, turned.x, Tile.xreg]
    refine ⟨_, e, ?_, ?_, ?_, ?_, fun j hj => ?_⟩
    · exact ⟨own.writes.1, own.writes.2.1, fun r h => (own.writes.2.2 r h).trans (same r)⟩
    · exact (congrArg Tile.cur own.rest :).trans turned.cur
    · exact own.pc.trans (congrArg (· + 4) turned.pc)
    · exact own.waiting
    · exact ((State.tileOnly_retireWith _ k _ _ _).2 j hj).trans (turned.others j hj)
  refine ⟨fun hu hd => ⟨fun hw p ep => ⟨fun fired => ?_, fun unfired => ⟨_, free hw, ?_⟩⟩, fun hw ep => ⟨_, free hw, ?_⟩, fun j p hj hw => ?_⟩,
    fun hw hu => ⟨_, free hw, ?_⟩, fun hw hu hd => ⟨_, free hw, ?_⟩⟩
  · refine returned _ p false (s.banksClosed_lateEvent k p n) ((free hw).trans ?_)
    rw [State.twait_of_pick hz hu hd hw ep, if_pos fired]
  · rw [State.twait_of_pick hz hu hd hw ep, if_neg (ne_true_of_eq_false unfired)]
    exact ⟨s.tile_await k _, s.tileOnly_await k _⟩
  · rw [State.twait_unstarted hz hu hd hw ep]
    exact ⟨s.tile_await k _, s.tileOnly_await k _⟩
  · refine returned s p true (.refl k s) ((exec_twait hr hp (fun w e => ?_)).trans ?_)
    · rw [← Option.some.inj (hw.symm.trans e)]
      exact beq_iff_eq.2 hj
    · rw [State.twait_released hz hu hd hw]
  · rw [State.twait_undefined hz hu]
    exact s.trapShuttle_trapped k n (by decide)
  · rw [State.twait_drained hz hu hd]
    exact ⟨(s.halted_haltShuttle k).1, s.tile_haltShuttle k Tile.pc (fun _ => rfl), s.tile_haltShuttle k Tile.cur (fun _ => rfl)⟩

end Sys2Proof.Machine
end

section
/-! Writes of any requester where no cache holds a modified line and nothing is poisoned: what every byte then reads as (R366 to R373,
R390). A write to a guarded page is held, and reads see it. -/

namespace Sys2Proof.Machine

/-! ### Held writes -/

theorem heldByte_cons (w : HeldWrite) (l : List HeldWrite) (x : Nat) (v : Byte) :
    (heldByte (w :: l) x).getD v = (heldByte l x).getD (storedAt w.addr w.data x v) := by
  simp only [heldByte]
  cases heldByte l x with
  | some b => rfl
  | none =>
    by_cases h : w.addr ≤ x ∧ x < w.addr + w.data.length
    · have inside : x - w.addr < w.data.length := by omega
      simp [storedAt, h, inside]
    · simp [storedAt, h]

/-- The write held last is read first. -/
theorem heldByte_append (l : List HeldWrite) (w : HeldWrite) (x : Nat) (v : Byte) :
    (heldByte (l ++ [w]) x).getD v = storedAt w.addr w.data x ((heldByte l x).getD v) := by
  induction l generalizing v with
  | nil => exact heldByte_cons w [] x v
  | cons u l ih => rw [List.cons_append, heldByte_cons, ih, heldByte_cons]

theorem heldByte_of_outside {l : List HeldWrite} {x : Nat} (h : ∀ w ∈ l, ¬(w.addr ≤ x ∧ x < w.addr + w.data.length)) : heldByte l x = none := by
  induction l with
  | nil => rfl
  | cons w l ih =>
    obtain ⟨hw, hl⟩ := List.forall_mem_cons.1 h
    simp only [heldByte, ih hl, if_neg hw]

/-! ### A node in order -/

/-- No cache holds a modified line, the write-combining buffers are in order, and the guard holds writes to its own pages of DRAM alone. -/
structure NodeSound (s : State) : Prop where
  wcb : WcbSound (sramWindow / 256) s
  dirty : s.dirty = []
  held : ∀ w ∈ s.heldWrites, ∀ x, w.addr ≤ x → x < w.addr + w.data.length → x < sramWindow ∧ s.guard.contains (x / 65536) = true

/-- The node is in order, and every byte reads as it did in s with d stored from a upward. -/
structure Stored (s t : State) (a : Nat) (d : List Byte) : Prop where
  sound : NodeSound t
  reads : ∀ x, t.byteAt x = storedAt a d x (s.byteAt x)

theorem NodeSound.of_quiet {s : State} (hq : memQuiet s = true) (hm : memoriesWf s) (hw : ∀ c, wcbOk s c) : NodeSound s := by
  obtain ⟨hd, hh, hp⟩ := memQuiet_iff.1 hq
  refine ⟨⟨hm.1, hp, fun c => (hw c).1, fun c e he => ?_⟩, hd, by simp [hh]⟩
  obtain ⟨own, below, rising⟩ := (hw c).2 e he
  refine ⟨own, ?_, rising⟩
  simp only [sramWindow] at below ⊢
  omega

theorem sramWindow_le_of_sram {x : Nat} (h : regionOf x = some .sram) : sramWindow ≤ x := by
  by_contra low
  simp only [regionOf] at h
  split at h
  · cases h
  split at h
  · cases h
  · rw [if_neg (fun w => low w.1)] at h
    cases h

namespace NodeSound
variable {s : State} (h : NodeSound s)
include h

theorem rawByte_sram {x : Nat} (hx : sramWindow ≤ x) : s.rawByte x = s.mem.read x := by
  refine State.rawByte_of_unlisted (fun e he => ?_)
  have := (h.wcb.entry _ e he).2.1
  simp only [sramWindow] at hx this
  omega

/-- A byte reads as the guard holds it, else as the write-combining buffer and memory do. -/
theorem byteAt_eq (x : Nat) : s.byteAt x = (heldByte s.heldWrites x).getD (s.rawByte x) := by
  simp only [State.byteAt, h.dirty, Tab.find]
  cases heldByte s.heldWrites x with
  | some b => rfl
  | none =>
    by_cases sram : regionOf x = some .sram
    · rw [if_pos sram]
      exact (h.rawByte_sram (sramWindow_le_of_sram sram)).symm
    · rw [if_neg sram]
      rfl

theorem heldByte_sram {x : Nat} (hx : sramWindow ≤ x) : heldByte s.heldWrites x = none :=
  heldByte_of_outside (fun w hw i => absurd (h.held w hw x i.1 i.2).1 (not_lt_of_ge hx))

theorem heldByte_open {x : Nat} (hx : s.guard.contains (x / 65536) = false) : heldByte s.heldWrites x = none :=
  heldByte_of_outside (fun w hw i => Bool.noConfusion (hx.symm.trans (h.held w hw x i.1 i.2).2))

theorem badRead (a n : Nat) : s.badRead a n = false := by simp [State.badRead, State.badByte, h.wcb.poison]

/-! ### Pieces of a write -/

/-- A piece that the guard holds. -/
theorem hold {a : Nat} {d : List Byte} (ha : a % 65536 + d.length ≤ 65536) (ht : a + d.length ≤ sramWindow) (hg : s.guard.contains (a / 65536) = true) :
    Stored s { s with heldWrites := s.heldWrites ++ [⟨a, d⟩] } a d := by
  have sound : NodeSound { s with heldWrites := s.heldWrites ++ [⟨a, d⟩] } := by
    refine ⟨⟨h.wcb.wf, h.wcb.poison, h.wcb.once, h.wcb.entry⟩, h.dirty, fun w hw x lo hi => ?_⟩
    rcases List.mem_append.1 hw with hw | hw
    · exact h.held w hw x lo hi
    · obtain rfl := List.mem_singleton.1 hw
      have page : x / 65536 = a / 65536 := by
        simp only at lo hi
        omega
      exact ⟨lt_of_lt_of_le hi ht, by rw [page]; exact hg⟩
  refine ⟨sound, fun x => ?_⟩
  rw [sound.byteAt_eq, h.byteAt_eq, heldByte_append]
  rfl

/-- A piece for DRAM that the guard lets pass. -/
theorem pass {a : Nat} {d : List Byte} (ha : a % 65536 + d.length ≤ 65536) (ht : a + d.length ≤ sramWindow) (hg : s.guard.contains (a / 65536) = false) :
    Stored s ((s.markDirty (a / 65536)).dramPut a d) a d := by
  have marked : WcbSound (sramWindow / 256) (s.markDirty (a / 65536)) := ⟨h.wcb.wf, h.wcb.poison, h.wcb.once, h.wcb.entry⟩
  obtain ⟨wcb, raw⟩ := marked.dramPut (a := a) (d := d) (le_trans ht (by decide))
  have dram := (s.markDirty (a / 65536)).dramPut_dramOnly a d
  have held : ((s.markDirty (a / 65536)).dramPut a d).heldWrites = s.heldWrites := dram.heldWrites
  have guard : ((s.markDirty (a / 65536)).dramPut a d).guard = s.guard := dram.same State.guard (fun _ => rfl)
  have sound : NodeSound ((s.markDirty (a / 65536)).dramPut a d) := ⟨wcb, dram.dirty.trans h.dirty, fun w hw => by
    rw [guard]
    rw [held] at hw
    exact h.held w hw⟩
  refine ⟨sound, fun x => ?_⟩
  rw [sound.byteAt_eq, h.byteAt_eq, held, raw]
  by_cases hx : a ≤ x ∧ x < a + d.length
  · have page : x / 65536 = a / 65536 := by omega
    rw [h.heldByte_open (by rw [page]; exact hg)]
    rfl
  · simp only [storedAt, if_neg hx]
    rfl

/-- A piece within a word of tile SRAM. -/
theorem sramPiece {a : Nat} {d : List Byte} (ha : sramWindow ≤ a) : Stored s (s.sramPiece a d) a d := by
  have plain : ∀ p, p = [] → Stored s { s with mem := s.mem.writeN a d, poison := p } a d := by
    intro p hp
    have sound : NodeSound { s with mem := s.mem.writeN a d, poison := p } :=
      ⟨⟨Memory.wf_writeN _ _ _ h.wcb.wf, hp, h.wcb.once, h.wcb.entry⟩, h.dirty, h.held⟩
    refine ⟨sound, fun x => ?_⟩
    rw [sound.byteAt_eq, h.byteAt_eq]
    by_cases hx : sramWindow ≤ x
    · rw [sound.rawByte_sram hx, h.rawByte_sram hx, h.heldByte_sram hx]
      exact Memory.read_writeN _ _ _ _ h.wcb.wf
    · have outside : ∀ v, storedAt a d x v = v := fun v => if_neg (by omega)
      rw [outside]
      refine congrArg (Option.getD (heldByte s.heldWrites x)) ?_
      simp only [State.rawByte, Memory.read_writeN _ _ _ _ h.wcb.wf]
      rw [if_neg (by omega)]
      rfl
  unfold State.sramPiece
  split
  · exact plain _ (by simp [h.wcb.poison])
  split
  · next bad => exact absurd bad (by simp [h.wcb.poison])
  · exact plain _ h.wcb.poison

end NodeSound

/-! ### Whole writes -/

theorem Stored.of_empty {s : State} (h : NodeSound s) (a : Nat) : Stored s s a [] := ⟨h, fun _ => (if_neg (by simp)).symm⟩

theorem Stored.append {s t u : State} {a n : Nat} {d : List Byte} (h : Stored s t a (d.take n)) (g : Stored t u (a + n) (d.drop n)) : Stored s u a d :=
  ⟨g.sound, fun x => by rw [g.reads, h.reads, ← storedAt_append]⟩

/-- A write cut into units, each of which is stored. -/
theorem Stored.pieces {u : Nat} (hu : 0 < u) {R : Nat → Prop} {f : State → Nat × List Byte → State}
    (hf : ∀ s a d, NodeSound s → 0 < d.length → a % u + d.length ≤ u → (∀ i, i < d.length → R (a + i)) → Stored s (f s (a, d)) a d)
    (n : Nat) {a : Nat} {d : List Byte} {s : State}
    (h : NodeSound s) (hn : d.length ≤ n) (hr : ∀ i, i < d.length → R (a + i)) : Stored s ((Machine.pieces u n a d).foldl f s) a d := by
  induction n generalizing a d s with
  | zero =>
    obtain rfl : d = [] := List.length_eq_zero_iff.1 (by omega)
    exact .of_empty h a
  | succ n ih =>
    by_cases he : d = []
    · subst he
      exact .of_empty h a
    have cut : Machine.pieces u (n + 1) a d = (a, d.take (u - a % u)) :: Machine.pieces u n (a + (u - a % u)) (d.drop (u - a % u)) := by
      cases d with
      | nil => exact absurd rfl he
      | cons b r => rfl
    have hm := Nat.mod_lt a hu
    have hd : 0 < d.length := List.length_pos_iff.2 he
    have first := hf s a (d.take (u - a % u)) h (by rw [List.length_take]; omega) (by rw [List.length_take]; omega)
      (fun i hi => hr i (by rw [List.length_take] at hi; omega))
    rw [cut, List.foldl_cons]
    refine first.append (ih first.sound (by rw [List.length_drop]; omega) (fun i hi => ?_))
    rw [Nat.add_assoc]
    exact hr _ (by rw [List.length_drop] at hi; omega)

/-- n bytes from a lie in DRAM, or in the SRAM window. -/
def oneKind (a n : Nat) : Prop := a + n ≤ sramWindow ∨ sramWindow ≤ a ∧ a + n ≤ 0x0F0080000000

theorem regionOf_sram_iff {x : Nat} : regionOf x = some .sram ↔ sramWindow ≤ x ∧ x < 0x0F0080000000 := by
  have window : sramWindow = 0x0F0000000000 := rfl
  unfold regionOf
  constructor
  · intro h
    split at h
    · cases h
    split at h
    · cases h
    split at h
    · assumption
    · cases h
  · intro h
    rw [if_neg (by omega), if_neg (by omega), if_pos h]

/-- What is mapped and is no SRAM is DRAM. -/
theorem lt_sramWindow_of_mapped {x : Nat} (h : regionOf x ≠ none) (hs : regionOf x ≠ some .sram) : x < sramWindow := by
  have window : sramWindow = 0x0F0000000000 := rfl
  unfold regionOf at h hs
  split at h
  · omega
  split at h
  · omega
  split at h
  · next low mid high => exact absurd (by rw [if_neg low, if_neg mid, if_pos high]) hs
  · exact absurd rfl h

/-- A range that passes the check is of one kind of memory. -/
theorem State.oneKind_of_memStatus {s : State} {a n : Nat} (hn : 0 < n) (h : s.memStatus a n = St.ok) : oneKind a n := by
  unfold State.memStatus at h
  rw [if_neg (by omega)] at h
  split at h
  · exact absurd h (by decide)
  next mapped =>
    obtain ⟨listed, same⟩ := not_or.1 mapped
    have same := not_not.1 same
    by_cases sram : regionOf a = some .sram
    · have lo := regionOf_sram_iff.1 sram
      have hi := regionOf_sram_iff.1 (same.trans sram)
      exact .inr ⟨lo.1, by omega⟩
    · have last := lt_sramWindow_of_mapped (x := a + n - 1) (by rwa [same]) (by rwa [same])
      exact .inl (by omega)

section
variable {s : State} (h : NodeSound s)
include h

theorem NodeSound.breakResv (a n : Nat) : NodeSound (s.breakResv a n) := ⟨⟨h.wcb.wf, h.wcb.poison, h.wcb.once, h.wcb.entry⟩, h.dirty, h.held⟩

theorem NodeSound.sramPut {a : Nat} (d : List Byte) (ha : sramWindow ≤ a) : Stored s (s.sramPut a d) a d :=
  .pieces (by decide) (R := fun x => sramWindow ≤ x) (fun _ _ _ hs hc _ hb => hs.sramPiece (hb 0 hc)) d.length h le_rfl (fun i _ => by omega)

/-- Each piece goes to the guard or to memory. -/
theorem NodeSound.guardedPut {a : Nat} (d : List Byte) (ha : a + d.length ≤ sramWindow) : Stored s (s.guardedPut a d) a d := by
  refine .pieces (by decide) (R := fun x => x < sramWindow) (fun s b c hs hc hb hr => ?_) d.length h le_rfl (fun i hi => by omega)
  have below : b + c.length ≤ sramWindow := by
    have := hr (c.length - 1) (by omega)
    omega
  simp only []
  split
  · next g => exact hs.hold hb below g
  · next g => exact hs.pass hb below (by simpa using g)

/-- A write of one kind of memory stores its bytes, and no other byte of the node changes. -/
theorem NodeSound.writeBytes {a : Nat} {d : List Byte} (hk : oneKind a d.length) : Stored s (s.writeBytes a d) a d := by
  unfold State.writeBytes
  split
  · next none =>
    obtain rfl := List.isEmpty_iff.1 none
    exact .of_empty h a
  next some_ =>
  have len : 0 < d.length := List.length_pos_iff.2 (fun e => some_ (List.isEmpty_iff.2 e))
  split
  · next sram => exact h.sramPut d (regionOf_sram_iff.1 sram).1
  · next dram =>
    rw [State.flushRange_clean h.dirty]
    have put := (h.breakResv a d.length).guardedPut (a := a) d (hk.resolve_right (fun w => dram (regionOf_sram_iff.2 ⟨w.1, by omega⟩)))
    exact ⟨put.sound, put.reads⟩

end

end Sys2Proof.Machine
end

section
/-! Copies whose rows stay in the node: the rows, the arrival counter and the end of the descriptor (R130 to R136, R702). -/

namespace Sys2Proof.Machine

/-! ### Arrival counters -/

theorem arriveFld_inj {j k : TileId} {m n : BitVec 6} (h : (arriveFld j m.toNat).off = (arriveFld k n.toNat).off) : j = k ∧ m = n := by
  have hm := m.isLt
  have hn := n.isLt
  simp only [arriveFld, Fld.plus, F.COPY_ARRIVE_COUNT, tileBase] at h
  exact ⟨BitVec.eq_of_toNat_eq (by omega), BitVec.eq_of_toNat_eq (by omega)⟩

theorem State.arrival_congr {s t : State} {k : TileId} {n : Nat} (h : t.reg (arriveFld k n).off = s.reg (arriveFld k n).off) : t.arrival k n = s.arrival k n := by
  rw [State.arrival, State.arrival, State.fld, State.fld, h]

/-- One arrival counter is one higher, the others are as they were. -/
theorem State.arrival_bumpArrival (s : State) (k j : TileId) (n m : BitVec 6) :
    (s.bumpArrival k n.toNat 1).arrival j m.toNat = s.arrival j m.toNat + (if j = k ∧ m = n then 1 else 0) := by
  by_cases h : j = k ∧ m = n
  · obtain ⟨rfl, rfl⟩ := h
    rw [if_pos ⟨rfl, rfl⟩]
    exact s.arrival_setArrival j m.toNat _
  · rw [if_neg h]
    refine Eq.trans ?_ (BitVec.add_zero _).symm
    exact State.arrival_congr (s.reg_setFld_ne _ _ _ (fun e => h (arriveFld_inj e)))

/-! ### The entries of a copy queue -/

/-- The copy queue's head, whose ticket no entry behind it has. -/
structure CopyHead (s : State) (k : TileId) (q : QId) (e : CopyEntry) (rest : List CopyEntry) : Prop where
  queue : (s.tile k).copyQ q.val = e :: rest
  fresh : ∀ f ∈ rest, f.ticket ≠ e.ticket

namespace CopyHead
variable {s t : State} {k : TileId} {q : QId} {e : CopyEntry} {rest : List CopyEntry} (h : CopyHead s k q e rest)
include h

theorem sameTiles (ht : SameTiles s t) : CopyHead t k q e rest := ⟨by rw [ht.tile, h.queue], h.fresh⟩

theorem entry : (s.tile k).copyEntry q.val e.ticket = some e := by
  rw [Tile.copyEntry, h.queue]
  exact List.find?_cons_of_pos (beq_self_eq_true _)

/-- A change of the head's entry. -/
theorem modCopy (f : CopyEntry → CopyEntry) (hf : (f e).ticket = e.ticket) : CopyHead (s.modCopy k q.val e.ticket f) k q (f e) rest := by
  refine ⟨?_, fun g hg => hf ▸ h.fresh g hg⟩
  have behind : rest.map (fun g => if g.ticket = e.ticket then f g else g) = rest :=
    (List.map_congr_left (fun g hg => if_neg (h.fresh g hg))).trans (List.map_id' rest)
  have changed : ((s.tile k).copyQ q.val).map (fun g => if g.ticket = e.ticket then f g else g) = f e :: rest := by
    rw [h.queue, List.map_cons, if_pos rfl, behind]
  rw [State.modCopy, State.tile_modTile_same]
  exact (Tab.get_set_same _ _ _ _).trans changed

end CopyHead

/-- The command that takes a descriptor with an OP. -/
def copyCommand (op : Nat) (k : TileId) (q : QId) : Instr :=
  if op = 5 then .route k q else if op = 2 then .gather k q else if op = 3 then .scatter k q else if op = 4 then .fill k q else .linear k q

theorem exec_copyCommand {op : Nat} (lo : 1 ≤ op) (hi : op ≤ 5) (k : TileId) (q : QId) (s : State) :
    ∃ mine : Nat → Bool, mine op = true ∧ exec (copyCommand op k q) s = .next (s.startCopy k q mine) := by
  obtain rfl | rfl | rfl | rfl | rfl : op = 1 ∨ op = 2 ∨ op = 3 ∨ op = 4 ∨ op = 5 := by omega
  · exact ⟨fun op => op == 1 || op == 0 || decide (5 < op), rfl, rfl⟩
  · exact ⟨(· == 2), rfl, rfl⟩
  · exact ⟨(· == 3), rfl, rfl⟩
  · exact ⟨(· == 4), rfl, rfl⟩
  · exact ⟨(· == 5), rfl, rfl⟩

/-! ### Rows -/

/-- A global address of the node's own memory. -/
def State.owns (s : State) (a : BitVec 64) : Prop := bitsOf a 63 62 = 0 ∧ s.isLocal (addrNode a) = true

theorem State.placeOf_owned {s : State} {a : BitVec 64} (h : s.owns a) : s.placeOf a = .mem (localAddr a) := by
  unfold State.placeOf
  rw [if_pos h.1, if_pos h.2]
  rfl

/-- A row of n bytes whose two ends lie in the node's own memory, its destination in memory of one kind. -/
structure OwnRow (s : State) (n : Nat) (r : Option (BitVec 64) × BitVec 64) : Prop where
  dst : s.owns r.2
  src : ∀ a, r.1 = some a → s.owns a
  kind : oneKind (localAddr r.2) n

theorem MemoryOnly.owns {s t : State} (h : MemoryOnly s t) {a : BitVec 64} (ha : s.owns a) : t.owns a := by
  have valid : t.nodeValid = s.nodeValid := h.bit (f := F.FAB_NODE_ID_VALID) (by unfold memReg; decide)
  have node : t.nodeId = s.nodeId := congrArg (BitVec.ofNat 14) (h.fld (f := F.FAB_NODE_ID_NODE) (by unfold memReg; decide))
  exact ⟨ha.1, by rw [← ha.2, State.isLocal, State.isLocal, valid, node]⟩

theorem OwnRow.after {s t : State} {n : Nat} {r : Option (BitVec 64) × BitVec 64} (h : OwnRow s n r) (g : MemoryOnly s t) : OwnRow t n r :=
  ⟨g.owns h.dst, fun a ha => g.owns (h.src a ha), h.kind⟩

/-- What the check of a row's source finds. -/
def State.srcStatus (s : State) (d : CopyDesc) (src : Option (BitVec 64)) : Status :=
  match src with
  | some a => s.placeStatus d.len (s.placeOf a)
  | none => St.ok

/-- What the check of one row finds. -/
def State.rowFault (s : State) (d : CopyDesc) (r : Option (BitVec 64) × BitVec 64) : Option Status :=
  if s.srcStatus d r.1 ≠ St.ok then some (s.srcStatus d r.1)
  else if s.placeStatus d.len (s.placeOf r.2) ≠ St.ok then some (s.placeStatus d.len (s.placeOf r.2)) else none

theorem State.rowsStatus_eq (s : State) (d : CopyDesc) (rows : List (Option (BitVec 64) × BitVec 64)) :
    s.rowsStatus d rows = (rows.findSome? (s.rowFault d)).getD St.ok := rfl

theorem State.ne_ok_of_rowFault {s : State} {d : CopyDesc} {r : Option (BitVec 64) × BitVec 64} {st : Status} (h : s.rowFault d r = some st) : st ≠ St.ok := by
  unfold State.rowFault at h
  split at h
  · next bad => exact Option.some.inj h ▸ bad
  split at h
  · next bad => exact Option.some.inj h ▸ bad
  · cases h

theorem State.dst_of_rowFault {s : State} {d : CopyDesc} {r : Option (BitVec 64) × BitVec 64} (h : s.rowFault d r = none) :
    s.placeStatus d.len (s.placeOf r.2) = St.ok := by
  by_contra bad
  rw [State.rowFault, if_pos bad] at h
  split at h <;> cases h

/-- Rows that stay in the node and pass the check. -/
theorem ownRow_of_checks {s : State} {d : CopyDesc} {rows : List (Option (BitVec 64) × BitVec 64)} (hl : 0 < d.len) (ho : ownRows s rows = true)
    (hs : s.rowsStatus d rows = St.ok) : ∀ r ∈ rows, OwnRow s d.len r := by
  intro r hr
  have ends := List.all_eq_true.1 ho r hr
  rw [Bool.and_eq_true, Bool.and_eq_true, beq_iff_eq] at ends
  obtain ⟨⟨space, here⟩, source⟩ := ends
  have owns : s.owns r.2 := ⟨space, here⟩
  refine ⟨owns, fun a ha => ?_, ?_⟩
  · rw [ha, Bool.and_eq_true, beq_iff_eq] at source
    exact source
  · rw [State.rowsStatus_eq] at hs
    have none : rows.findSome? (s.rowFault d) = none := by
      cases found : rows.findSome? (s.rowFault d) with
      | none => rfl
      | some st =>
        obtain ⟨r', _, e⟩ := List.exists_of_findSome?_eq_some found
        rw [found] at hs
        exact absurd hs (State.ne_ok_of_rowFault e)
    have good := State.dst_of_rowFault (List.findSome?_eq_none_iff.1 none r hr)
    rw [State.placeOf_owned owns] at good
    exact State.oneKind_of_memStatus hl good

/-- The bytes of a row as they are read. -/
def State.rowOf (s : State) (d : CopyDesc) (r : Option (BitVec 64) × BitVec 64) : List Byte :=
  match r.1 with
  | none => (List.range d.len).map (fun k => fillByte d.src (0 + k))
  | some a => s.bytes (localAddr a) d.len

/-- The two ends of a row in the node. -/
def rowEnds (r : Option (BitVec 64) × BitVec 64) : Option Nat × Nat := (r.1.map localAddr, localAddr r.2)

theorem State.getD_bytes (s : State) (a : Nat) {n i : Nat} (h : i < n) : (s.bytes a n).getD i 0 = s.byteAt (a + i) := by
  induction n generalizing a i with
  | zero => omega
  | succ n ih =>
    cases i with
    | zero => rfl
    | succ i =>
      rw [State.bytes, List.getD_cons_succ, ih (a + 1) (by omega)]
      congr 1
      omega

theorem State.length_rowOf (s : State) (d : CopyDesc) (r : Option (BitVec 64) × BitVec 64) : (s.rowOf d r).length = d.len := by
  unfold State.rowOf
  split
  · simp
  · exact s.bytes_length _ _

/-- Storing a row's bytes is what copying the row says. -/
theorem State.storedAt_rowOf (s : State) (d : CopyDesc) (r : Option (BitVec 64) × BitVec 64) (x : Nat) :
    storedAt (localAddr r.2) (s.rowOf d r) x (s.byteAt x) = copyRow d.len (fillByte d.src) s.byteAt (rowEnds r) x := by
  have row : localAddr r.2 ≤ x ∧ x < localAddr r.2 + (s.rowOf d r).length ↔ localAddr r.2 ≤ x ∧ x < localAddr r.2 + d.len := by rw [State.length_rowOf]
  by_cases inside : localAddr r.2 ≤ x ∧ x < localAddr r.2 + d.len
  · have offset : x - localAddr r.2 < d.len := by omega
    refine (if_pos (row.2 inside)).trans (Eq.trans ?_ (if_pos inside).symm)
    obtain ⟨src, dst⟩ := r
    cases src with
    | none => simp [State.rowOf, rowEnds, offset]
    | some a => exact s.getD_bytes _ offset
  · exact (if_neg (mt row.1 inside)).trans (if_neg inside).symm

section
variable {s : State} (h : NodeSound s) {d : CopyDesc} {r : Option (BitVec 64) × BitVec 64} (hr : OwnRow s d.len r)
include h hr

theorem State.rowBytes_own (k : TileId) : s.rowBytes k d r.1 0 d.len = (s, some (s.rowOf d r)) := by
  obtain ⟨src, dst⟩ := r
  cases src with
  | none => rfl
  | some a =>
    have pulled : s.pull k d.len (.mem (localAddr a)) = (s, some (s.bytes (localAddr a) d.len)) := if_neg (ne_true_of_eq_false (h.badRead _ _))
    exact (congrArg (s.pull k d.len) (State.placeOf_owned (hr.src a rfl))).trans pulled

theorem State.place_own (k : TileId) : Stored s (s.place k (s.rowOf d r) (s.placeOf r.2)) (localAddr r.2) (s.rowOf d r) := by
  rw [State.placeOf_owned hr.dst]
  exact h.writeBytes (by rw [State.length_rowOf]; exact hr.kind)

omit h in
theorem State.place_own_memoryOnly (k : TileId) : MemoryOnly s (s.place k (s.rowOf d r) (s.placeOf r.2)) := by
  rw [State.placeOf_owned hr.dst]
  exact s.writeBytes_memoryOnly _ _

end

/-- Between s and t rows of the node have been copied, one after the other. -/
structure RowsCopied (d : CopyDesc) (rows : List (Option (BitVec 64) × BitVec 64)) (s t : State) : Prop where
  sound : NodeSound t
  memory : MemoryOnly s t
  reads : t.byteAt = (rows.map rowEnds).foldl (copyRow d.len (fillByte d.src)) s.byteAt

theorem State.localRows_copied {s : State} (h : NodeSound s) (k : TileId) (q : QId) (n : Word) (d : CopyDesc) {rows : List (Option (BitVec 64) × BitVec 64)}
    (hr : ∀ r ∈ rows, OwnRow s d.len r) : RowsCopied d rows s (s.localRows k q n d rows) := by
  induction rows generalizing s with
  | nil => exact ⟨h, .refl s, rfl⟩
  | cons r rows ih =>
    obtain ⟨own, others⟩ := List.forall_mem_cons.1 hr
    have put := State.place_own h own k
    have memory := State.place_own_memoryOnly own k
    obtain ⟨sound, rest, reads⟩ := ih put.sound (fun r hr => (others r hr).after memory)
    have step : s.localRows k q n d (r :: rows) = (s.place k (s.rowOf d r) (s.placeOf r.2)).localRows k q n d rows := by
      rw [State.localRows, State.rowBytes_own h own]
    have first : (s.place k (s.rowOf d r) (s.placeOf r.2)).byteAt = copyRow d.len (fillByte d.src) s.byteAt (rowEnds r) :=
      funext fun x => (put.reads x).trans (s.storedAt_rowOf d r x)
    rw [step]
    exact ⟨sound, memory.trans rest, by rw [reads, first]; rfl⟩

/-! ### The end of a transfer -/

/-- The arrival counter that a copy in the node counts up (R135). -/
def State.arrived (s : State) (d : CopyDesc) : State := if d.arrEn then s.bumpArrival d.arrTile d.arrCtr.toNat 1 else s

/-- An entry whose bytes are being moved, and one whose bytes have moved. -/
def CopyEntry.moving (e : CopyEntry) : CopyEntry := { e with phase := .moving, moved := true, left := [] }
def CopyEntry.ended (e : CopyEntry) (st : Status) : CopyEntry := { e with phase := .moved, status := st }

section
variable {s : State} {k : TileId} {q : QId} {d : CopyDesc} {n : Word} {b : List Byte} {rest : List CopyEntry}

/-- A descriptor that has been queued and has not started. -/
def queuedCopy (n : Word) (b : List Byte) : CopyEntry := ⟨n, b, false, .queued, St.ok, false, 0, [], [], false⟩

theorem State.copyEnd_done (h : CopyHead s k q (queuedCopy n b).moving rest) (hr : s.replaying = false)
    (ha : d.arrEn = true → d.arrLocal = true ∨ s.isLocal d.arrNode = true) : s.copyEnd k q n d = (s.arrived d).copySettle k q n St.ok := by
  have entry : (s.tile k).copyEntry q.val n = some (queuedCopy n b).moving := h.entry
  have going : ¬((queuedCopy n b).moving.phase ≠ .moving ∨ (queuedCopy n b).moving.left ≠ [] ∨ (queuedCopy n b).moving.waits ≠ 0) := by
    simp [queuedCopy, CopyEntry.moving]
  simp only [State.copyEnd, entry, if_neg going, hr, Bool.false_eq_true, if_false]
  unfold State.arrived
  cases en : d.arrEn with
  | false =>
    rw [if_pos (.inr (.inr rfl)), if_neg (by simp)]
    rfl
  | true =>
    rw [if_neg (by simp [queuedCopy, CopyEntry.moving]), if_pos (ha en), if_pos rfl]

/-- What the end of a copy in the node changes: its entry, and the arrival counter that it names. -/
structure CopyMoved (k : TileId) (q : QId) (n : Word) (b : List Byte) (rest : List CopyEntry) (d : CopyDesc) (s t : State) : Prop where
  queue : (t.tile k).copyQ q.val = { queuedCopy n b with phase := .moved, moved := true } :: rest
  arrivals : ∀ (j : TileId) (m : BitVec 6), t.arrival j m.toNat = s.arrival j m.toNat + (if d.arrEn ∧ j = d.arrTile ∧ m = d.arrCtr then 1 else 0)
  others : otherTiles k s t
  outbox : t.outbox = s.outbox

theorem State.arrival_arrived (s : State) (d : CopyDesc) (j : TileId) (m : BitVec 6) :
    (s.arrived d).arrival j m.toNat = s.arrival j m.toNat + (if d.arrEn ∧ j = d.arrTile ∧ m = d.arrCtr then 1 else 0) := by
  unfold State.arrived
  cases en : d.arrEn with
  | false => simp
  | true =>
    rw [if_pos rfl, State.arrival_bumpArrival]
    simp

theorem State.sameTiles_arrived (s : State) (d : CopyDesc) : SameTiles s (s.arrived d) := by
  unfold State.arrived
  split
  · exact .refl s
  · exact .refl s

theorem State.arrived_keeps (s : State) (d : CopyDesc) : (s.arrived d).outbox = s.outbox ∧ (s.arrived d).byteAt = s.byteAt := by
  unfold State.arrived
  split <;> exact ⟨rfl, rfl⟩

/-- A copy whose bytes have been moved by memory operations ends. -/
theorem State.copyEnd_moved (h : CopyHead s k q (queuedCopy n b) rest) (hr : s.replaying = false)
    (ha : d.arrEn = true → d.arrLocal = true ∨ s.isLocal d.arrNode = true) {f : CopyEntry → CopyEntry}
    (hf : f (queuedCopy n b) = (queuedCopy n b).moving) {u : State} (hu : MemoryOnly (s.modCopy k q.val n f) u) :
    CopyMoved k q n b rest d s (u.copyEnd k q n d) ∧ (u.copyEnd k q n d).byteAt = u.byteAt := by
  have head : CopyHead u k q (queuedCopy n b).moving rest := hf ▸ (h.modCopy f (congrArg CopyEntry.ticket hf :)).sameTiles hu.tiles
  have replaying : u.replaying = false := by
    rw [← hr, State.replaying, State.replaying, hu.fld (f := F.CKPT_STAT_STATE) (by unfold memReg; decide)]
    rfl
  have local_ : d.arrEn = true → d.arrLocal = true ∨ u.isLocal d.arrNode = true := fun en => (ha en).imp_right (fun l => by
    have valid : u.nodeValid = s.nodeValid := hu.bit (f := F.FAB_NODE_ID_VALID) (by unfold memReg; decide)
    have node : u.nodeId = s.nodeId := congrArg (BitVec.ofNat 14) (hu.fld (f := F.FAB_NODE_ID_NODE) (by unfold memReg; decide))
    rw [← l, State.isLocal, State.isLocal, valid, node])
  have ends := State.copyEnd_done head replaying local_
  have settled := (head.sameTiles (u.sameTiles_arrived d)).modCopy (CopyEntry.ended · St.ok) rfl
  obtain ⟨sent, bytes⟩ := u.arrived_keeps d
  rw [ends]
  refine ⟨⟨settled.queue, fun j m => ?_, fun j hj => ?_, ?_⟩, bytes⟩
  · have before : u.arrival j m.toNat = s.arrival j m.toNat := State.arrival_congr ((hu.regs _ (by
      have := arriveFld_off_lt j m.isLt
      simp only [memReg, F.MBX_EVQ_DROPPED]
      omega)).trans rfl)
    rw [← before, ← State.arrival_arrived]
    rfl
  · exact (State.otherTiles_modTile (u.arrived d) k _ j hj).trans
      (((u.sameTiles_arrived d).tile j).trans ((State.tile_congr hu.tiles j).trans (s.otherTiles_modTile k _ j hj)))
  · exact sent.trans hu.outbox

end

end Sys2Proof.Machine
end

section
/-! The start of a copy whose bytes stay in the node, and COPY_COMPLETE (R130 to R137, R702). -/

namespace Sys2Proof.Machine

/-! ### Rows and routes -/

theorem State.bytes_congr {s t : State} (h : t.byteAt = s.byteAt) (a n : Nat) : t.bytes a n = s.bytes a n := by
  induction n generalizing a with
  | zero => rfl
  | succ n ih => rw [State.bytes, State.bytes, ih, h]

theorem OwnRow.rowLocal {s : State} {n : Nat} {r : Option (BitVec 64) × BitVec 64} (h : OwnRow s n r) : s.rowLocal r = true := by
  obtain ⟨src, dst⟩ := r
  unfold State.rowLocal
  rw [State.placeOf_owned h.dst]
  cases src with
  | none => rfl
  | some a =>
    simp only [State.placeOf_owned (h.src a rfl)]
    rfl

/-- Nothing of rows that stay in the node is left for the fabric. -/
theorem State.startRows_own {s : State} (k : TileId) (q : QId) (n : Word) (d : CopyDesc) {rows : List (Option (BitVec 64) × BitVec 64)}
    (hr : ∀ r ∈ rows, OwnRow s d.len r) : s.startRows k q n d rows = ((s.modCopy k q.val n CopyEntry.moving).localRows k q n d rows).copyEnd k q n d := by
  have far : rows.filter (fun r => !s.rowLocal r) = [] := List.filter_eq_nil_iff.2 (fun r h => by simp [(hr r h).rowLocal])
  have near : rows.filter (s.modCopy k q.val n CopyEntry.moving).rowLocal = rows :=
    List.filter_eq_self.2 (fun r h => OwnRow.rowLocal (n := d.len) ⟨(hr r h).dst, (hr r h).src, (hr r h).kind⟩)
  unfold State.startRows
  rw [far]
  exact congrArg (fun l => ((s.modCopy k q.val n CopyEntry.moving).localRows k q n d l).copyEnd k q n d) near

/-- Writes of one kind of memory each, one after the other. -/
theorem NodeSound.writeAll {s : State} (h : NodeSound s) {l : List (Nat × List Byte)} (hl : ∀ e ∈ l, oneKind e.1 e.2.length) :
    MemoryOnly s (l.foldl (fun s e => s.writeBytes e.1 e.2) s) ∧
      ∀ x, (l.foldl (fun s e => s.writeBytes e.1 e.2) s).byteAt x = l.foldl (fun v e => storedAt e.1 e.2 x v) (s.byteAt x) := by
  induction l generalizing s with
  | nil => exact ⟨.refl s, fun _ => rfl⟩
  | cons e l ih =>
    obtain ⟨own, others⟩ := List.forall_mem_cons.1 hl
    have first := h.writeBytes own
    obtain ⟨memory, reads⟩ := ih first.sound others
    exact ⟨(s.writeBytes_memoryOnly _ _).trans memory, fun x => by rw [List.foldl_cons, List.foldl_cons, reads, first.reads]⟩

theorem afterStores_append (l m : List (Nat × Byte)) (x : Nat) (v : Byte) : afterStores (l ++ m) x v = afterStores m x (afterStores l x v) := by
  induction l generalizing v with
  | nil => rfl
  | cons e l ih => exact ih _

theorem afterStores_sramStores (k : TileId) (l : List (Nat × List Byte)) (x : Nat) (v : Byte) :
    afterStores (sramStores k l) x v = (l.map (fun e => (sramAddr k e.1, e.2))).foldl (fun v e => storedAt e.1 e.2 x v) v := by
  induction l generalizing v with
  | nil => rfl
  | cons e l ih =>
    have split : sramStores k (e :: l) = (((List.range e.2.length).map (fun i => sramAddr k e.1 + i)).zip e.2) ++ sramStores k l := rfl
    rw [split, afterStores_append, afterStores_run, ih]
    rfl

/-- Rows of a route: offsets in the destination tile's SRAM with the bytes that stand in the source tile. -/
def State.routeRows (s : State) (k : TileId) (d : CopyDesc) : List (Nat × List Byte) :=
  (List.range d.rows).map (fun i => (s.routeFld k F.SEQ_ROUTE_DEST_BASE d.route + (d.routeDst i).toNat, s.sram k (d.routeSrc i).toNat d.len))

/-- The tile that a route leads to. -/
def State.routeTile (s : State) (k : TileId) (d : CopyDesc) : TileId := BitVec.ofNat 8 (s.routeFld k F.SEQ_ROUTE_DEST_TILE d.route)

/-- The writes of a route's rows. -/
def State.routeWrites (s : State) (k : TileId) (d : CopyDesc) : List (Nat × List Byte) := (s.routeRows k d).map (fun e => (sramAddr (s.routeTile k d) e.1, e.2))

/-- An entry that a route moves. -/
def CopyEntry.routing (e : CopyEntry) : CopyEntry := { e with phase := .moving, moved := true }

theorem State.startRoute_own {s : State} (h : NodeSound s) (k : TileId) (q : QId) (n : Word) {d : CopyDesc}
    (hr : ∀ i, i < d.rows → s.memStatus (sramAddr (s.routeTile k d) (s.routeFld k F.SEQ_ROUTE_DEST_BASE d.route + (d.routeDst i).toNat)) d.len = St.ok) :
    s.startRoute k q n d = ((s.routeWrites k d).foldl (fun s e => s.writeBytes e.1 e.2) (s.modCopy k q.val n CopyEntry.routing)).copyEnd k q n d := by
  have ready : ((List.range d.rows).map (fun i =>
      s.memStatus (sramAddr (s.routeTile k d) (s.routeFld k F.SEQ_ROUTE_DEST_BASE d.route + (d.routeDst i).toNat)) d.len)).find? (· != St.ok) = none := by
    simp only [List.find?_eq_none, List.mem_map, List.mem_range]
    rintro st ⟨i, hi, rfl⟩
    simp [hr i hi]
  have clean : (List.range d.rows).any (fun i => s.badRead (sramAddr k (d.routeSrc i).toNat) d.len) = false := by simp [h.badRead]
  have data : (List.range d.rows).map (fun i => (sramAddr (s.routeTile k d) (s.routeFld k F.SEQ_ROUTE_DEST_BASE d.route + (d.routeDst i).toNat),
      (s.modCopy k q.val n CopyEntry.routing).bytes (sramAddr k (d.routeSrc i).toNat) d.len)) = s.routeWrites k d := by
    rw [State.routeWrites, State.routeRows, List.map_map]
    exact List.map_congr_left (fun i _ => congrArg (Prod.mk _) (State.bytes_congr (s := s) (t := s.modCopy k q.val n CopyEntry.routing) rfl _ _))
  unfold State.startRoute
  simp only []
  rw [← data]
  unfold State.routeTile at ready
  rw [ready]
  exact if_neg (ne_true_of_eq_false clean)

/-! ### The start -/

section
variable {s : State} {k : TileId} {q : QId} {n : Word} {b : List Byte} {rest : List CopyEntry} (h : CopyHead s k q (queuedCopy n b) rest)
  (ht : s.tileReady k = true) {mine : Nat → Bool} (hm : mine (CopyDesc.of b).op = true)
include h ht hm

/-- The queued head of a copy queue whose operation is the command's. -/
theorem State.startCopy_head : s.startCopy k q mine =
    if !s.copyOk k (CopyDesc.of b) then s.copySettle k q n St.badDescriptor
    else if (CopyDesc.of b).len = 0 ∨ (CopyDesc.of b).rows = 0 then (s.modCopy k q.val n (fun e => { e with phase := .moving })).copyEnd k q n (CopyDesc.of b)
    else if (CopyDesc.of b).op = 5 then s.startRoute k q n (CopyDesc.of b)
    else if ((CopyDesc.of b).op == 2 || (CopyDesc.of b).op == 3) && s.sramBad k (CopyDesc.of b).idx (8 * (CopyDesc.of b).rows) then s.copySettle k q n St.uncorrectable
    else
      let rows := (CopyDesc.of b).allRows
        (if (CopyDesc.of b).op = 2 ∨ (CopyDesc.of b).op = 3 then s.sram k (CopyDesc.of b).idx (8 * (CopyDesc.of b).rows) else [])
      if s.rowsStatus (CopyDesc.of b) rows ≠ St.ok then s.copySettle k q n (s.rowsStatus (CopyDesc.of b) rows)
      else
        match s.rowsRecall (CopyDesc.of b) rows with
        | some s' => s'
        | none => s.startRows k q n (CopyDesc.of b) rows := by
  have first : ((s.tile k).copyQ q.val).find? (fun e => e.phase == .queued) = some (queuedCopy n b) := by
    rw [h.queue]
    rfl
  unfold State.startCopy
  rw [if_neg (by simp [ht]), first]
  simp only []
  rw [if_neg (by rw [Bool.not_eq_true', Bool.not_eq_false]; exact hm), if_neg (by simp [queuedCopy])]
  rfl

/-- An invalid descriptor moves nothing (R133). -/
theorem State.startCopy_invalid (hb : s.copyOk k (CopyDesc.of b) = false) : s.startCopy k q mine = s.copySettle k q n St.badDescriptor := by
  rw [State.startCopy_head h ht hm, if_pos (by simp [hb])]

variable (hk : s.copyOk k (CopyDesc.of b) = true) (hl : 0 < (CopyDesc.of b).len) (hr : 0 < (CopyDesc.of b).rows)
include hk hl hr

theorem State.startCopy_route (h5 : (CopyDesc.of b).op = 5) : s.startCopy k q mine = s.startRoute k q n (CopyDesc.of b) := by
  rw [State.startCopy_head h ht hm, if_neg (by simp [hk]), if_neg (by omega), if_pos h5]

/-- Rows that need no line of another node. -/
theorem State.startCopy_rows (h5 : (CopyDesc.of b).op ≠ 5) (sound : NodeSound s) (hd : s.dir = []) (hdt : s.dirTrans = []) {rows : List (Option (BitVec 64) × BitVec 64)}
    (hrows : rows = (CopyDesc.of b).allRows (if (CopyDesc.of b).op = 2 ∨ (CopyDesc.of b).op = 3 then s.sram k (CopyDesc.of b).idx (8 * (CopyDesc.of b).rows) else []))
    (hs : s.rowsStatus (CopyDesc.of b) rows = St.ok) : s.startCopy k q mine = s.startRows k q n (CopyDesc.of b) rows := by
  have noRecall : ∀ (m : Nat) (w : Bool) (p : Place), s.placeRecall m w p = none := by
    intro m w p
    cases p with
    | mem a => exact if_pos (.inr (.inl ⟨by simp [hd], by simp [hdt]⟩))
    | _ => rfl
  have none : s.rowsRecall (CopyDesc.of b) rows = none := by
    refine List.findSome?_eq_none_iff.2 (fun r _ => ?_)
    have src : r.1.bind (fun a => s.placeRecall (CopyDesc.of b).len false (s.placeOf a)) = none := Option.bind_eq_none_iff.2 (fun a _ => noRecall _ _ _)
    rw [src]
    exact noRecall _ _ _
  have clean : (((CopyDesc.of b).op == 2 || (CopyDesc.of b).op == 3) && s.sramBad k (CopyDesc.of b).idx (8 * (CopyDesc.of b).rows)) = false := by
    rw [State.sramBad, sound.badRead, Bool.and_false]
  rw [State.startCopy_head h ht hm, if_neg (by simp [hk]), if_neg (by omega), if_neg h5, if_neg (ne_true_of_eq_false clean)]
  simp only []
  rw [← hrows, if_neg (not_not_intro hs), none]

end

end Sys2Proof.Machine
end

section
/-! COPY_COMPLETE (R134, R137), and the statement about copies. -/

namespace Sys2Proof.Machine

/-! ### Completion -/

/-- ERR and FIRST_STATUS of a copy queue. -/
def copyErr (k : TileId) (q : QId) : Fld := (F.COPY_QSTAT_ERR.plus (8 * q.val)).plus (tileBase k)
def copyFirst (k : TileId) (q : QId) : Fld := (F.COPY_QSTAT_FIRST_STATUS.plus (8 * q.val)).plus (tileBase k)

/-- A tile whose copy queue's head has been removed, its status kept for EWAIT. -/
def Tile.dequeued (x : Tile) (q : QId) (e : CopyEntry) (rest : List CopyEntry) : Tile :=
  ({ x with cq := Tab.set q.val rest x.cq }).putStatus (4 + q.val) e.ticket e.status

theorem Tile.copyQ_dequeued (x : Tile) (q : QId) (e : CopyEntry) (rest : List CopyEntry) : (x.dequeued q e rest).copyQ q.val = rest := Tab.get_set_same _ _ _ _

/-- A status put for a ticket that had none is found. -/
theorem Tile.statusOf_putStatus (x : Tile) {c : Nat} {n : Word} (st : Status) (h : x.statusOf c n = none) : (x.putStatus c n st).statusOf c n = some st := by
  have missing : (x.statuses c).find? (fun e => e.1 == n) = none := Option.map_eq_none_iff.1 h
  have missing (j : Nat) : ((x.statuses c).drop j).find? (fun e => e.1 == n) = none :=
    List.find?_eq_none.2 (fun e he => List.find?_eq_none.1 missing e (List.mem_of_mem_drop he))
  have kept : (x.putStatus c n st).statuses c = (x.statuses c ++ [(n, st)]).drop ((x.statuses c ++ [(n, st)]).length - 64) := Tab.get_set_same _ _ _ _
  have short : (x.statuses c ++ [(n, st)]).length - 64 ≤ (x.statuses c).length := by
    rw [List.length_append, List.length_singleton]
    omega
  rw [Tile.statusOf, kept, List.drop_append_of_le_length short, List.find?_append, missing]
  simp

/-- The record of a failed copy. -/
def State.noteCopyError (s : State) (k : TileId) (q : QId) (e : CopyEntry) : State :=
  ((if s.bit (copyErr k q) then s else s.setFld (copyFirst k q) e.status.toNat).setFld (copyErr k q) 1).raise (tileSrc k) e.status (leBytes 4 e.ticket.toNat)

/-- The completion counter (R137). -/
def State.noteDone (s : State) (k : TileId) (e : CopyEntry) : State :=
  if (CopyDesc.of e.desc).doneEn && !e.bad then s.bumpArrival k (CopyDesc.of e.desc).doneCtr.toNat 1 else s

section
variable {s : State} {k : TileId} {q : QId} {e : CopyEntry} {rest : List CopyEntry} (h : (s.tile k).copyQ q.val = e :: rest)
include h

theorem State.completeCopy_unmoved (hp : e.phase ≠ .moved) : s.completeCopy k q = s := by
  unfold State.completeCopy
  rw [h]
  exact if_pos hp

theorem State.completeCopy_ok (hp : e.phase = .moved) (hs : e.status = St.ok) : s.completeCopy k q = (s.modTile k (fun x => x.dequeued q e rest)).noteDone k e := by
  unfold State.completeCopy
  rw [h]
  simp only []
  rw [if_neg (not_not_intro hp), if_pos hs]
  rfl

/-- After a failure that had moved nothing. -/
theorem State.completeCopy_failed (hp : e.phase = .moved) (hs : e.status ≠ St.ok) (hm : e.moved = false) :
    s.completeCopy k q = ((s.modTile k (fun x => x.dequeued q e rest)).noteCopyError k q e).noteDone k e := by
  have still : ¬(e.moved = true ∧ (CopyDesc.of e.desc).op ≠ 5) := fun m => Bool.noConfusion (hm.symm.trans m.1)
  unfold State.completeCopy
  rw [h]
  simp only [if_neg still]
  rw [if_neg (not_not_intro hp), if_neg hs]
  rfl

end

/-- What a completed copy leaves: between s and t no tile, no byte and no counter but its own has changed. -/
structure CompletesIn (s t : State) : Prop where
  tiles : SameTiles s t
  bytes : t.byteAt = s.byteAt
  arrivals : ∀ (j : TileId) (m : BitVec 6), t.arrival j m.toNat = s.arrival j m.toNat

section
variable (s : State) (k : TileId) (q : QId) (e : CopyEntry)

theorem arriveFld_ne_qstat (j : TileId) (m : BitVec 6) : (arriveFld j m.toNat).off ≠ (copyErr k q).off := by
  have := q.isLt
  have := m.isLt
  simp only [arriveFld, copyErr, Fld.plus, tileBase, F.COPY_ARRIVE_COUNT, F.COPY_QSTAT_ERR]
  omega

theorem copyErr_far : (copyErr k q).off ∉ eventOffs ∧ ¬stampReg (copyErr k q).off := by
  have := q.isLt
  have := k.isLt
  constructor
  · simp only [eventOffs, copyErr, Fld.plus, tileBase, F.COPY_QSTAT_ERR, F.TIME_STAT_EV, F.CKPT_STAT_ERR, F.MBX_EVQ_DROPPED, List.mem_cons, List.not_mem_nil, or_false]
    omega
  · simp only [stampReg, copyErr, Fld.plus, tileBase, F.COPY_QSTAT_ERR, R.GLB_FUNC_READY, F.GLB_JOB_STATE, F.TIME_PICK_PICK]
    omega

/-- A byte reads the same where only registers and rings differ. -/
theorem State.byteAt_raise (src : Nat) (c : Status) (d : List Byte) : (s.raise src c d).byteAt = s.byteAt :=
  (congrArg State.byteAt (s.raise_frame src c d).1 :)

/-- COPY_QSTAT of a failed copy, before its event. -/
def State.noteCopyFields : State := (if s.bit (copyErr k q) then s else s.setFld (copyFirst k q) e.status.toNat).setFld (copyErr k q) 1

theorem State.noteCopyFields_keeps : Keeps (fun s => { s with regs := [] }) (fun o => o ≠ (copyErr k q).off) s (s.noteCopyFields k q e) := by
  have first : Keeps (fun s => { s with regs := [] }) (fun o => o ≠ (copyErr k q).off) s
      (if s.bit (copyErr k q) then s else s.setFld (copyFirst k q) e.status.toNat) := by
    split
    · exact .refl s
    · exact .setFld s _ (fun h => h rfl) (fun _ => rfl)
  exact first.trans (.setFld _ _ (fun h => h rfl) (fun _ => rfl))

theorem State.noteCopyFields_bits : (s.noteCopyFields k q e).bit (copyErr k q) = true ∧
    (s.bit (copyErr k q) = false → (s.noteCopyFields k q e).fld (copyFirst k q) = e.status.toNat) := by
  constructor
  · rw [State.bit, State.noteCopyFields, State.fld_setFld _ (copyErr k q) 1 (show 0 ≤ 0 from le_rfl) (show 0 < 64 by decide)]
    rfl
  · intro clear
    rw [State.noteCopyFields, if_neg (ne_true_of_eq_false clear), State.fld_setFld_other _ (copyErr k q) (copyFirst k q) 1 (show 0 ≤ 0 from le_rfl)
      (show 0 < 64 by decide) (show 48 ≤ 63 by decide) (.inr (.inr (show 0 < 48 by decide))),
      State.fld_setFld _ (copyFirst k q) _ (show 48 ≤ 63 by decide) (show 63 < 64 by decide)]
    exact Nat.mod_eq_of_lt e.status.isLt

theorem State.noteCopyError_completes : CompletesIn s (s.noteCopyError k q e) := by
  have fields := s.noteCopyFields_keeps k q e
  refine ⟨?_, ?_, fun j m => ?_⟩
  · exact SameTiles.trans (fields.same State.tiles (fun _ => rfl)) (State.sameTiles_raise _ _ _ _)
  · exact (State.byteAt_raise (s.noteCopyFields k q e) _ _ _).trans (fields.same State.byteAt (fun _ => rfl))
  · have calm : (arriveFld j m.toNat).off ∉ eventOffs := by
      have := arriveFld_off_lt j m.isLt
      simp only [eventOffs, F.TIME_STAT_EV, F.CKPT_STAT_ERR, F.MBX_EVQ_DROPPED, List.mem_cons, List.not_mem_nil, or_false]
      omega
    exact State.arrival_congr ((((s.noteCopyFields k q e).raise_keeps _ _ _).regs _ calm).trans (fields.regs _ (arriveFld_ne_qstat k q j m)))

/-- The record of a failed copy, and its event. -/
theorem State.noteCopyError_says : (s.noteCopyError k q e).bit (copyErr k q) = true ∧
    (s.bit (copyErr k q) = false → (s.noteCopyError k q e).fld (copyFirst k q) = e.status.toNat) ∧
    raised s (s.noteCopyError k q e) (tileSrc k) e.status (leBytes 4 e.ticket.toNat) false := by
  obtain ⟨calm, stamped⟩ := copyErr_far k q
  obtain ⟨err, first⟩ := s.noteCopyFields_bits k q e
  have raise := (s.noteCopyFields k q e).raise_keeps (tileSrc k) e.status (leBytes 4 e.ticket.toNat)
  refine ⟨(raise.bit (f := copyErr k q) calm).trans err, fun clear => (raise.fld (f := copyFirst k q) calm).trans (first clear), ?_⟩
  obtain ⟨stamp, pick⟩ := (s.noteCopyFields_keeps k q e).stamp (fun o ho he => stamped (he ▸ ho)) (fun _ => rfl)
  have event := (s.noteCopyFields k q e).raise_raised (tileSrc k) e.status (leBytes 4 e.ticket.toNat)
  unfold raised at event ⊢
  rw [← stamp, ← pick]
  exact event

/-- What the completion counter changes. -/
theorem State.noteDone_keeps : SameTiles s (s.noteDone k e) ∧ (s.noteDone k e).byteAt = s.byteAt ∧ (s.noteDone k e).rings = s.rings ∧
    (s.noteDone k e).reg (copyErr k q).off = s.reg (copyErr k q).off ∧ (s.noteDone k e).reg R.GLB_FUNC_READY = s.reg R.GLB_FUNC_READY := by
  unfold State.noteDone
  split
  · refine ⟨.refl s, rfl, rfl, s.reg_setFld_ne _ _ _ (arriveFld_ne_qstat k q k _).symm, s.reg_setFld_ne _ _ _ ?_⟩
    have := arriveFld_off_lt k (CopyDesc.of e.desc).doneCtr.isLt
    simp only [R.GLB_FUNC_READY]
    omega
  · exact ⟨.refl s, rfl, rfl, rfl, rfl⟩

theorem State.arrival_noteDone (j : TileId) (m : BitVec 6) : (s.noteDone k e).arrival j m.toNat =
    s.arrival j m.toNat + (if (CopyDesc.of e.desc).doneEn ∧ e.bad = false ∧ j = k ∧ m = (CopyDesc.of e.desc).doneCtr then 1 else 0) := by
  unfold State.noteDone
  cases en : (CopyDesc.of e.desc).doneEn with
  | false => simp
  | true =>
    cases bad : e.bad with
    | true => simp
    | false =>
      rw [if_pos (show (true && !false) = true from rfl), State.arrival_bumpArrival]
      simp

end

/-- A head that has moved is removed, whatever is recorded of it on the way. -/
structure CopyEnded (s t : State) (k : TileId) (q : QId) (e : CopyEntry) (rest : List CopyEntry) : Prop where
  queue : (t.tile k).copyQ q.val = rest
  status : (t.tile k).statusOf (4 + q.val) e.ticket = some e.status
  memory : sameMemory s t
  others : otherTiles k s t
  arrivals : ∀ (j : TileId) (m : BitVec 6), t.arrival j m.toNat =
    s.arrival j m.toNat + (if (CopyDesc.of e.desc).doneEn ∧ e.bad = false ∧ j = k ∧ m = (CopyDesc.of e.desc).doneCtr then 1 else 0)

theorem State.noteDone_ended {s u : State} {k : TileId} {q : QId} {e : CopyEntry} {rest : List CopyEntry} (hs : (s.tile k).statusOf (4 + q.val) e.ticket = none)
    (hu : CompletesIn (s.modTile k (fun x => x.dequeued q e rest)) u) : CopyEnded s (u.noteDone k e) k q e rest := by
  obtain ⟨tiles, bytes, -, -, -⟩ := u.noteDone_keeps k q e
  have tile := (hu.tiles.trans tiles).tile
  have own : ((u.noteDone k e).tile k) = (s.tile k).dequeued q e rest := (tile k).trans (s.tile_modTile_same k _)
  refine ⟨?_, ?_, fun a => ?_, fun j hj => (tile j).trans (s.tile_modTile_other k j _ hj), fun j m => ?_⟩
  · rw [own, Tile.copyQ_dequeued]
  · rw [own]
    exact Tile.statusOf_putStatus _ e.status hs
  · rw [bytes, hu.bytes]
    rfl
  · rw [State.arrival_noteDone, hu.arrivals]
    rfl

/-! ### The statement -/

/-- A copy of rows in the node. -/
theorem State.startRows_moved {s : State} {k : TileId} {q : QId} {n : Word} {b : List Byte} {rest : List CopyEntry} {d : CopyDesc}
    (h : CopyHead s k q (queuedCopy n b) rest) (sound : NodeSound s) (hr : s.replaying = false)
    (ha : d.arrEn = true → d.arrLocal = true ∨ s.isLocal d.arrNode = true) {rows : List (Option (BitVec 64) × BitVec 64)} (own : ∀ r ∈ rows, OwnRow s d.len r) :
    CopyMoved k q n b rest d s (s.startRows k q n d rows) ∧
      (s.startRows k q n d rows).byteAt = (rows.map rowEnds).foldl (copyRow d.len (fillByte d.src)) s.byteAt := by
  have going : NodeSound (s.modCopy k q.val n CopyEntry.moving) := ⟨⟨sound.wcb.wf, sound.wcb.poison, sound.wcb.once, sound.wcb.entry⟩, sound.dirty, sound.held⟩
  have copied := State.localRows_copied going k q n d (rows := rows) (fun r hm => ⟨(own r hm).dst, (own r hm).src, (own r hm).kind⟩)
  obtain ⟨moved, bytes⟩ := State.copyEnd_moved h hr ha (f := CopyEntry.moving) rfl copied.memory
  rw [State.startRows_own k q n d own]
  exact ⟨moved, bytes.trans copied.reads⟩

/-- A route. -/
theorem State.startRoute_moved {s : State} {k : TileId} {q : QId} {n : Word} {b : List Byte} {rest : List CopyEntry} {d : CopyDesc}
    (h : CopyHead s k q (queuedCopy n b) rest) (sound : NodeSound s) (hr : s.replaying = false)
    (ha : d.arrEn = true → d.arrLocal = true ∨ s.isLocal d.arrNode = true) (hl : 0 < d.len)
    (hd : ∀ i, i < d.rows → s.memStatus (sramAddr (s.routeTile k d) (s.routeFld k F.SEQ_ROUTE_DEST_BASE d.route + (d.routeDst i).toNat)) d.len = St.ok) :
    CopyMoved k q n b rest d s (s.startRoute k q n d) ∧ memoryAfter s (s.startRoute k q n d) (sramStores (s.routeTile k d) (s.routeRows k d)) := by
  have going : NodeSound (s.modCopy k q.val n CopyEntry.routing) := ⟨⟨sound.wcb.wf, sound.wcb.poison, sound.wcb.once, sound.wcb.entry⟩, sound.dirty, sound.held⟩
  have kinds : ∀ e ∈ s.routeWrites k d, oneKind e.1 e.2.length := by
    simp only [State.routeWrites, State.routeRows, List.map_map, List.mem_map, List.mem_range]
    rintro e ⟨i, hi, rfl⟩
    exact State.oneKind_of_memStatus (s := s) (by simpa [State.sram] using hl) (by simpa [State.sram] using hd i hi)
  obtain ⟨memory, reads⟩ := going.writeAll kinds
  obtain ⟨moved, bytes⟩ := State.copyEnd_moved h hr ha (f := CopyEntry.routing) rfl memory
  rw [State.startRoute_own sound k q n hd]
  refine ⟨moved, fun x _ => ?_⟩
  rw [bytes, reads, afterStores_sramStores]
  rfl

/-- Settles O32: rows by induction over their list, routes by the writes of their rows, completion by what it records. -/
theorem copiesAndTheirCompletion : Obligations.CopiesAndTheirCompletion := by
  refine ⟨fun k q n b rest s => ?_, fun k q e rest s => ?_⟩
  · intro e d idx rows c dt base moved hq fresh ready hr quiet hm hw hdir hdt
    have head : CopyHead s k q (queuedCopy n b) rest := ⟨hq, fresh⟩
    have sound : NodeSound s := .of_quiet quiet hm hw
    have stated : ∀ t, CopyMoved k q n b rest d s t → moved t := fun t ⟨h1, h2, h3, h4⟩ => ⟨h1, h2, h3, h4⟩
    have command : (if d.op = 5 then .route k q else c) = copyCommand d.op k q := rfl
    refine ⟨fun ok len some_ arr => ⟨fun h5 own good => ?_, fun h5 good => ?_⟩, fun bad lo hi => ?_⟩
    · obtain ⟨lo, hi⟩ : 1 ≤ d.op ∧ d.op ≤ 5 := by
        simp only [State.copyOk, Bool.and_eq_true, decide_eq_true_eq] at ok
        obtain ⟨⟨⟨⟨⟨-, lo⟩, hi⟩, -⟩, -⟩, -⟩ := ok
        exact ⟨lo, hi⟩
      obtain ⟨mine, takes, runs⟩ := exec_copyCommand lo hi k q s
      rw [← command, if_neg h5] at runs
      obtain ⟨done, bytes⟩ := State.startRows_moved head sound hr arr (ownRow_of_checks len own good)
      refine ⟨_, runs, ?_⟩
      rw [State.startCopy_rows head ready takes ok len some_ h5 sound hdir hdt rfl good]
      exact ⟨stated _ done, fun a => congrFun bytes a⟩
    · obtain ⟨mine, takes, runs⟩ := exec_copyCommand (op := d.op) (by omega) (by omega) k q s
      rw [← command, if_pos h5] at runs
      obtain ⟨done, stores⟩ := State.startRoute_moved head sound hr arr len good
      refine ⟨_, runs, ?_⟩
      rw [State.startCopy_route head ready takes ok len some_ h5]
      exact ⟨stated _ done, stores⟩
    · obtain ⟨mine, takes, runs⟩ := exec_copyCommand lo hi k q s
      refine ⟨_, command ▸ runs, ?_⟩
      rw [State.startCopy_invalid head ready takes bad]
      exact ⟨(head.modCopy (CopyEntry.ended · St.badDescriptor) rfl).queue, rfl⟩
  · intro d err first hq hs ends
    have ended : ∀ u, exec (.copyComplete k q) s = .next (u.noteDone k e) → CompletesIn (s.modTile k (fun x => x.dequeued q e rest)) u → ends (u.noteDone k e) := by
      intro u runs hu
      obtain ⟨queue, status, memory, others, arrivals⟩ := State.noteDone_ended hs hu
      exact ⟨runs, queue, status, memory, others, arrivals⟩
    refine ⟨fun hp ok => ?_, fun hp bad still => ?_, fun hp => congrArg Host.Outcome.next (State.completeCopy_unmoved hq hp)⟩
    · obtain ⟨-, -, rings, qstat, -⟩ := (s.modTile k (fun x => x.dequeued q e rest)).noteDone_keeps k q e
      refine ⟨_, ended _ (congrArg Host.Outcome.next (State.completeCopy_ok hq hp ok)) ⟨.refl _, rfl, fun _ _ => rfl⟩, ?_, rings⟩
      exact congrArg (fun v : BitVec 64 => bitsOf v 0 0 != 0) qstat
    · have noted := (s.modTile k (fun x => x.dequeued q e rest)).noteCopyError_completes k q e
      obtain ⟨set, status, event⟩ := (s.modTile k (fun x => x.dequeued q e rest)).noteCopyError_says k q e
      obtain ⟨-, -, rings, qstat, ready⟩ := ((s.modTile k (fun x => x.dequeued q e rest)).noteCopyError k q e).noteDone_keeps k q e
      refine ⟨_, ended _ (congrArg Host.Outcome.next (State.completeCopy_failed hq hp bad still)) noted, ?_, fun clear => ?_, ?_⟩
      · exact (congrArg (fun v : BitVec 64 => bitsOf v 0 0 != 0) qstat).trans set
      · exact (congrArg (fun v : BitVec 64 => bitsOf v 63 48) qstat).trans (status clear)
      · exact raised_of_rings event rings ready

end Sys2Proof.Machine
end

section
/-! Stores into tile SRAM where nothing waits outside memory (R110 to R116, R700), and the start of an engine's operation. -/

namespace Sys2Proof.Machine

/-! ### Writes of memory -/

theorem Memory.writeN_append (m : Memory) (a : Nat) (d e : List Byte) : m.writeN a (d ++ e) = (m.writeN a d).writeN (a + d.length) e := by
  induction d generalizing m a with
  | nil => rfl
  | cons b d ih =>
    rw [List.cons_append, Memory.writeN, ih, List.length_cons, show a + 1 + d.length = a + (d.length + 1) by omega]
    rfl

/-- Writing a list piece by piece writes the list. -/
theorem Memory.foldl_writeN_pieces {u : Nat} (hu : 0 < u) {n : Nat} {a : Nat} {d : List Byte} (hn : d.length ≤ n) (m : Memory) :
    (pieces u n a d).foldl (fun m p => m.writeN p.1 p.2) m = m.writeN a d := by
  induction n generalizing a d m with
  | zero =>
    obtain rfl : d = [] := List.length_eq_zero_iff.1 (by omega)
    rfl
  | succ n ih =>
    cases d with
    | nil => rfl
    | cons b d =>
      have room := Nat.mod_lt a hu
      rw [pieces, List.foldl_cons, ih (by rw [List.length_drop]; omega)]
      by_cases short : (b :: d).length ≤ u - a % u
      · rw [List.take_of_length_le short, List.drop_of_length_le short]
        rfl
      · conv => rhs; rw [← List.take_append_drop (u - a % u) (b :: d), Memory.writeN_append, List.length_take_of_le (by omega)]
      · exact List.cons_ne_nil b d

/-! ### Stores into tile SRAM -/

section
variable {s : State} (h : s.poison = [])
include h

theorem State.sramPiece_clean (a : Nat) (d : List Byte) : s.sramPiece a d = { s with mem := s.mem.writeN a d } := by
  have dropped : { s with mem := s.mem.writeN a d }.poisonDrop a = { s with mem := s.mem.writeN a d } := by
    have none : s.poison.filter (· != a) = s.poison := by rw [h]; rfl
    exact congrArg (fun p => { s with mem := s.mem.writeN a d, poison := p }) none
  unfold State.sramPiece
  rw [dropped, h]
  split <;> rfl

theorem State.sramWrite_clean (k : TileId) (a : Nat) (d : List Byte) : s.sramWrite k a d = { s with mem := s.mem.writeN (sramAddr k a) d } := by
  have all : ∀ (l : List (Nat × List Byte)) (s : State), s.poison = [] →
      l.foldl (fun s p => s.sramPiece p.1 p.2) s = { s with mem := l.foldl (fun m p => m.writeN p.1 p.2) s.mem } := by
    intro l
    induction l with
    | nil => exact fun _ _ => rfl
    | cons p l ih =>
      intro s h
      rw [List.foldl_cons, State.sramPiece_clean h]
      exact ih { s with mem := s.mem.writeN p.1 p.2 } h
  rw [State.sramWrite, State.sramPut, all _ s h, cut, Memory.foldl_writeN_pieces (by decide) le_rfl]

end

/-- Offsets of tile SRAM lie in the window. -/
theorem regionOf_sramAddr {k : TileId} {a x n : Nat} (hn : a + n ≤ 0x800000) (lo : sramAddr k a ≤ x) (hi : x < sramAddr k a + n) : regionOf x = some .sram := by
  have tiles := k.isLt
  refine regionOf_sram_iff.2 ?_
  simp only [sramAddr, sramWindow] at lo hi ⊢
  omega

/-- A store into tile SRAM, where nothing waits outside memory, stores its bytes and no other. -/
theorem State.byteAt_sramWrite {s : State} (hq : memQuiet s = true) (hm : s.mem.wf = true) {k : TileId} {a : Nat} {d : List Byte} (hi : a + d.length ≤ 0x800000)
    (x : Nat) : (s.sramWrite k a d).byteAt x = storedAt (sramAddr k a) d x (s.byteAt x) := by
  obtain ⟨dirty, held, poison⟩ := memQuiet_iff.1 hq
  rw [State.sramWrite_clean poison]
  simp only [State.byteAt, State.wcbOf, dirty, held, Tab.find, heldByte, Memory.read_writeN _ _ _ _ hm, storedAt]
  by_cases own : sramAddr k a ≤ x ∧ x < sramAddr k a + d.length
  · simp only [if_pos own, if_pos (regionOf_sramAddr hi own.1 own.2)]
  · simp only [if_neg own]

/-- Between s and t the stores l into tile k's SRAM have happened, and nothing else. -/
structure SramStored (k : TileId) (l : List (Nat × List Byte)) (s t : State) : Prop where
  only : { t with mem := s.mem } = s
  reads : memoryAfter s t (sramStores k l)

theorem State.sramWrites_stored {k : TileId} {l : List (Nat × List Byte)} (hl : ∀ e ∈ l, e.1 + e.2.length ≤ 0x800000) {s : State} (hq : memQuiet s = true)
    (hm : s.mem.wf = true) : SramStored k l s (l.foldl (fun s e => s.sramWrite k e.1 e.2) s) := by
  induction l generalizing s with
  | nil => exact ⟨rfl, fun _ _ => rfl⟩
  | cons e l ih =>
    obtain ⟨own, others⟩ := List.forall_mem_cons.1 hl
    have first := State.sramWrite_clean (memQuiet_iff.1 hq).2.2 k e.1 e.2
    have rest := ih others (s := s.sramWrite k e.1 e.2) (by rw [first]; exact hq) (s.wf_sramPut _ _ hm)
    refine ⟨?_, fun x hx => ?_⟩
    · have only := congrArg (fun t : State => { t with mem := s.mem }) rest.only
      refine Eq.trans only ?_
      rw [first]
    · rw [List.foldl_cons, rest.reads x hx, State.byteAt_sramWrite hq hm own, ← afterStores_run, ← afterStores_append]
      rfl

/-! ### The start of an operation -/

theorem Tile.running_setRun (x : Tile) (n : Nat) (r : Option EngRun) : (x.setRun n r).running n = r := Tab.get_set_same _ _ _ _

/-- A start from a state in which the queue and the other tiles are as they were. -/
theorem State.startEng_started {s u : State} {k : TileId} {n : Nat} (hq : (u.tile k).queue n = (s.tile k).queue n) (ho : otherTiles k s u) (r : EngRun) :
    engineStarted s (u.startEng k n r) k n r := by
  have own : (u.startEng k n r).tile k = ((u.tile k).setQueue n (((u.tile k).queue n).drop 1)).setRun n (some r) := u.tile_modTile_same k _
  refine ⟨?_, ?_, fun j hj => (u.otherTiles_modTile k _ j hj).trans (ho j hj)⟩
  · rw [own, Tile.running_setRun]
  · rw [own, ← hq]
    exact Tab.get_set_same _ _ _ _

section
variable (s : State) (k : TileId) (n : Nat) (r : EngRun)

/-- A start changes no more than the tile. -/
theorem State.startEng_tileOnly : tileOnly k s (s.startEng k n r) := s.tileOnly_modTile k _

theorem State.banks_startEng : ((s.startEng k n r).tile k).banks = (s.tile k).banks := (congrArg Tile.banks (s.tile_modTile_same k _) :)

theorem State.treg_startEng : ((s.startEng k n r).tile k).treg = (s.tile k).treg := (congrArg Tile.treg (s.tile_modTile_same k _) :)

end

end Sys2Proof.Machine
end

section
/-! MATMUL (R148 to R169): the elements that it stores (R161, R166), and the checks of Table 4-4. -/

namespace Sys2Proof.Machine

/-! ### The elements of an operand -/

/-- An element of an operand lies in the operand's region (R114, R151, R152). -/
theorem Panels.at_add_esz_le {p : Panels} (hz : p.esz = 2 ∨ p.esz = 4) {r c : Nat} (hr : r < p.rows) (hc : c < p.cols) :
    p.at r c + p.esz ≤ p.base + p.size := by
  have column : c / (128 / p.esz) + 1 ≤ p.pcols := by
    unfold Panels.pcols ceilDiv
    obtain z | z := hz <;> rw [z] <;> omega
  have byte : c % (128 / p.esz) * p.esz / 64 ≤ 1 ∧ c % (128 / p.esz) * p.esz % 64 + p.esz ≤ 64 := by
    obtain z | z := hz <;> rw [z] <;> omega
  have word : Nat.xor (r % 64) (32 * (c % (128 / p.esz) * p.esz / 64)) < 64 :=
    Nat.xor_lt_two_pow (n := 6) (Nat.mod_lt _ (by decide)) (by omega)
  obtain ⟨t, ht⟩ : ∃ t, ceilDiv p.rows 64 = r / 64 + 1 + t := ⟨ceilDiv p.rows 64 - (r / 64 + 1), by unfold ceilDiv; omega⟩
  have rows : ceilDiv p.rows 64 * p.stride = r / 64 * p.stride + p.stride + t * p.stride := by rw [ht]; ring
  unfold Panels.at Panels.size
  simp only []
  rw [rows]
  omega

theorem fsize_cases (c : Nat) : fsize c = 2 ∨ fsize c = 4 := by
  unfold fsize
  split
  · exact .inl rfl
  · exact .inr rfl

theorem Tile.inParts_le {x : Tile} {n a len : Nat} (h : x.inParts n a len = true) (hl : 0 < len) : a + len ≤ 0x800000 := by
  simp only [Tile.inParts, Bool.or_eq_true, Bool.and_eq_true, beq_iff_eq, decide_eq_true_eq] at h
  exact (h.resolve_left (by omega)).1

/-- Operands that pass the checks lie in the engine's partitions. -/
theorem State.operands_of_tensorCheck {s : State} {k : TileId} {x : TensorDesc} (h : s.tensorCheck k x = none) {p : Panels} (hp : p ∈ x.operands) :
    (s.tile k).inParts 0 p.base p.size = true := by
  unfold State.tensorCheck at h
  simp only [] at h
  split at h
  · cases h
  split at h
  · cases h
  split at h
  · cases h
  split at h
  · cases h
  split at h
  · cases h
  next parts =>
  simp only [List.any_eq_true, not_exists, not_and, Bool.not_eq_true', Bool.not_eq_false] at parts
  exact parts p hp

/-- Every element that MATMUL writes lies in tile SRAM. -/
theorem State.written_in_sram {s : State} {k : TileId} {x : TensorDesc} (h : s.tensorCheck k x = none) {ij : Nat × Nat} (hij : ij ∈ x.written) :
    x.d.at ij.1 ij.2 + x.d.esz ≤ 0x800000 := by
  have parts := State.operands_of_tensorCheck h (p := x.d) (by simp [TensorDesc.operands])
  have inside : ij.1 < x.d.rows ∧ ij.2 < x.d.cols := by
    simp only [TensorDesc.written, List.mem_flatMap, List.mem_filterMap, List.mem_range] at hij
    obtain ⟨i, hi, j, hj, e⟩ := hij
    split at e
    · cases e
      exact ⟨hi, hj⟩
    · cases e
  have room := Panels.at_add_esz_le (fsize_cases x.dFmt) inside.1 inside.2
  have size : 0 < x.d.size := by
    have := fsize_cases x.dFmt
    have base : x.d.base ≤ x.d.at ij.1 ij.2 := by simp only [Panels.at]; omega
    have : x.d.esz = fsize x.dFmt := rfl
    omega
  exact room.trans (Tile.inParts_le parts size)

/-! ### The store -/

/-- Adding to a digest bank changes the tile's banks alone. -/
theorem State.bankAdd_cases (s : State) (k : TileId) (p : Pick) (slot : Nat) (els : List (Nat × Nat)) :
    s.bankAdd k p slot els = s ∨ ∃ l, s.bankAdd k p slot els = s.modTile k (fun x => { x with banks := l }) := by
  unfold State.bankAdd
  split
  · exact .inl rfl
  · exact .inr ⟨_, rfl⟩

/-- What a digest adds up is of the tile, and no queue's. -/
theorem State.bankAdd_tileOnly (s : State) (k : TileId) (p : Pick) (slot : Nat) (els : List (Nat × Nat)) :
    tileOnly k s (s.bankAdd k p slot els) ∧ ∀ n, ((s.bankAdd k p slot els).tile k).queue n = (s.tile k).queue n := by
  obtain e | ⟨l, e⟩ := s.bankAdd_cases k p slot els <;> rw [e]
  · exact ⟨⟨rfl, fun _ _ => rfl⟩, fun _ => rfl⟩
  · exact ⟨s.tileOnly_modTile k _, fun n => (congrArg (Tile.queue · n) (s.tile_modTile_same k _) :)⟩

/-- The bank that an operation adds to. -/
def TensorDesc.bankOf (x : TensorDesc) (e : QEntry) : Option Pick := if x.dgEn then e.bank else none

/-- The values of R161, with the places of the elements. -/
def State.tensorValues (s : State) (k : TileId) (x : TensorDesc) : List ((Nat × Nat) × Nat) := x.written.map (fun ij => (ij, (s.tensorElem k x ij.1 ij.2).1))

/-- The bytes that MATMUL stores, by their offsets. -/
def State.tensorCells (s : State) (k : TileId) (x : TensorDesc) : List (Nat × List Byte) :=
  x.written.map (fun ij => (x.d.at ij.1 ij.2, leBytes x.d.esz (s.tensorElem k x ij.1 ij.2).1))

/-- The state with the elements stored. -/
def State.tensorStored (s : State) (k : TileId) (x : TensorDesc) : State := (s.tensorCells k x).foldl (fun s e => s.sramWrite k e.1 e.2) s

theorem State.tensorStored_stored {s : State} {k : TileId} {x : TensorDesc} (hq : memQuiet s = true) (hm : s.mem.wf = true) (hc : s.tensorCheck k x = none) :
    SramStored k (s.tensorCells k x) s (s.tensorStored k x) := by
  refine State.sramWrites_stored (fun e he => ?_) hq hm
  obtain ⟨ij, hij, rfl⟩ := List.mem_map.1 he
  rw [leBytes_length]
  exact State.written_in_sram hc hij

section
variable (s : State) (k : TileId) (x : TensorDesc)

theorem State.tensorStore_none : s.tensorStore k x none (s.tensorValues k x) = s.tensorStored k x := by
  rw [State.tensorStored, State.tensorCells, List.foldl_map]
  exact List.foldl_map

theorem State.tensorStore_some (p : Pick) : s.tensorStore k x (some p) (s.tensorValues k x) =
    (s.tensorStored k x).bankAdd k p x.dgSlot ((s.tensorValues k x).map (fun e => (x.dgBase + e.1.1 * x.dgLd + e.1.2, e.2))) := by
  rw [← State.tensorStore_none]
  rfl

/-- Besides memory the store changes the tile's banks alone, and none without DG. -/
theorem State.tensorStore_tileOnly (bank : Option Pick) :
    let u := s.tensorStore k x bank (s.tensorValues k x)
    tileOnly k (s.tensorStored k x) u ∧ (∀ n, (u.tile k).queue n = ((s.tensorStored k x).tile k).queue n) ∧ (bank = none → u = s.tensorStored k x) := by
  cases bank with
  | none =>
    rw [State.tensorStore_none]
    exact ⟨⟨rfl, fun _ _ => rfl⟩, fun _ => rfl, fun _ => rfl⟩
  | some p =>
    rw [State.tensorStore_some]
    obtain ⟨only, queue⟩ := State.bankAdd_tileOnly (s.tensorStored k x) k p x.dgSlot ((s.tensorValues k x).map (fun e => (x.dgBase + e.1.1 * x.dgLd + e.1.2, e.2)))
    exact ⟨only, queue, nofun⟩

end

/-! ### The command -/

section
variable {s : State} {k : TileId} {e : QEntry}

theorem exec_matmul (h : s.engHead k 0 = some e) : exec (.matmul k) s = .next (s.tensorRun k e) := by
  have run : execMatmul k s = .next (s.tensorRun k e) := by rw [execMatmul, h]
  exact run

/-- A descriptor that could not be read. -/
theorem State.tensorRun_unreadable (hb : e.bad = true) : s.tensorRun k e = s.startEng k 0 (EngRun.failed e St.uncorrectable none) := if_pos hb

/-- A descriptor that fails a check. -/
theorem State.tensorRun_refused {st : Status} (hb : e.bad = false) (hc : s.tensorCheck k (TensorDesc.of e.desc) = some st) :
    ∃ crec, s.tensorRun k e = s.startEng k 0 (EngRun.failed e st crec) := by
  unfold State.tensorRun
  simp only [hc]
  exact ⟨_, if_neg (ne_true_of_eq_false hb)⟩

theorem State.sramBad_clean (h : s.poison = []) (a n : Nat) : s.sramBad k a n = false := by simp [State.sramBad, State.badRead, State.badByte, h]

theorem State.tensorBad_clean (h : s.poison = []) (x : TensorDesc) : s.tensorBad k x = false := by simp [State.tensorBad, State.sramBad_clean h]

/-- A descriptor that passes the checks, where no word is poisoned. -/
theorem State.tensorRun_stores (hb : e.bad = false) (hc : s.tensorCheck k (TensorDesc.of e.desc) = none) (hp : s.poison = []) :
    let x := TensorDesc.of e.desc
    ∃ r, r.status = St.ok ∧ r.ticket = e.ticket ∧ r.crec = some x.crec ∧
      s.tensorRun k e = (s.tensorStore k x (x.bankOf e) (s.tensorValues k x)).startEng k 0 r := by
  intro x
  have values : (x.written.map (fun ij => (ij, s.tensorElem k x ij.1 ij.2))).map (fun e => (e.1, e.2.1)) = s.tensorValues k x := by
    rw [State.tensorValues, List.map_map]
    rfl
  unfold State.tensorRun
  simp only [hc, State.tensorBad_clean hp]
  rw [if_neg (ne_true_of_eq_false hb), if_neg Bool.false_ne_true, values]
  exact ⟨_, rfl, rfl, rfl, rfl⟩

/-- MATMUL that passes its checks stores the elements of R161 and no other byte. -/
theorem State.tensorRun_stored (hb : e.bad = false) (hq : memQuiet s = true) (hm : memoriesWf s) (hc : s.tensorCheck k (TensorDesc.of e.desc) = none) :
    let x := TensorDesc.of e.desc
    ∃ r, engineStarted s (s.tensorRun k e) k 0 r ∧ r.status = St.ok ∧ r.ticket = e.ticket ∧ r.crec = some x.crec ∧
      memoryAfter s (s.tensorRun k e) (sramStores k (s.tensorCells k x)) ∧ (x.dgEn = false → ((s.tensorRun k e).tile k).banks = (s.tile k).banks) ∧
      { s.tensorRun k e with tiles := s.tiles, mem := s.mem } = s := by
  intro x
  obtain ⟨r, ok, ticket, crec, run⟩ := State.tensorRun_stores hb hc (memQuiet_iff.1 hq).2.2
  have stored := State.tensorStored_stored hq hm.1 hc
  have tiles : SameTiles s (s.tensorStored k x) := (congrArg State.tiles stored.only :)
  obtain ⟨only, queue, plain⟩ := s.tensorStore_tileOnly k x (x.bankOf e)
  have started := tileOnly_trans only (State.startEng_tileOnly _ k 0 r)
  rw [run]
  refine ⟨r, State.startEng_started ((queue 0).trans (congrArg (Tile.queue · 0) (tiles.tile k))) (fun j hj => (only.2 j hj).trans (tiles.tile j)) r,
    ok, ticket, crec, ?_, fun off => ?_, ?_⟩
  · have bytes := (congrArg State.byteAt started.1 :)
    exact fun a ha => (congrFun bytes a).trans (stored.reads a ha)
  · rw [plain (if_neg (ne_true_of_eq_false off))]
    exact (State.banks_startEng _ k 0 r).trans (congrArg Tile.banks (tiles.tile k))
  · have rest := congrArg (fun t : State => { t with tiles := s.tiles, mem := s.mem }) started.1
    refine Eq.trans rest ?_
    exact (congrArg (fun t : State => { t with tiles := s.tiles }) stored.only :)

end

end Sys2Proof.Machine
end

section
/-! CHAIN (R219 to R248): the tile registers after one iteration of one stage, and the checks of Table 6-7. -/

namespace Sys2Proof.Machine

/-! ### Tables of tile registers -/

/-- A table whose keys rise. -/
def Tab.Rising {α : Type} (l : Tab α) : Prop := l.Pairwise (fun e f => e.1 < f.1)

theorem Tab.Rising.set {α : Type} {l : Tab α} (h : l.Rising) (k : Nat) (v : α) : (Tab.set k v l).Rising := by
  induction l with
  | nil => exact List.pairwise_singleton _ _
  | cons f l ih =>
    obtain ⟨first, rest⟩ := List.pairwise_cons.1 h
    simp only [Tab.set]
    split
    case isTrue lt => exact List.pairwise_cons.2 ⟨List.forall_mem_cons.2 ⟨lt, fun g hg => lt.trans (first g hg)⟩, h⟩
    split
    case isTrue eq => exact List.pairwise_cons.2 ⟨fun g hg => eq ▸ first g hg, rest⟩
    case isFalse ge ne =>
      refine List.pairwise_cons.2 ⟨fun g hg => ?_, ih rest⟩
      rcases mem_tabSet hg with rfl | hg
      · exact show f.1 < k by omega
      · exact first g hg

/-- Tile registers as they are stored: each of them 1,024 bytes, in the order of their numbers. -/
structure RegTab (l : Tab (List Byte)) : Prop where
  rising : l.Rising
  sized : ∀ e ∈ l, e.2.length = 1024

theorem RegTab.set {l : Tab (List Byte)} (h : RegTab l) (k : Nat) {v : List Byte} (hv : v.length = 1024) : RegTab (Tab.set k v l) :=
  ⟨h.rising.set k v, fun _ he => (mem_tabSet he).elim (fun e => e ▸ hv) (h.sized _)⟩

/-- A list written where it is read. -/
theorem Memory.readN_writeN_same {m : Memory} (h : m.wf = true) (a : Nat) (d : List Byte) : (m.writeN a d).readN a d.length = d := by
  refine List.ext_getElem (Memory.readN_length ..) (fun i hi hd => ?_)
  rw [← List.getD_eq_getElem _ 0 hi, Memory.readN_getD _ _ _ _ hd, Memory.read_writeN _ _ _ _ h, if_pos (by omega), Nat.add_sub_cancel_left,
    List.getD_eq_getElem _ 0 hd]

/-- Storing tile registers leaves those that are not listed. -/
theorem Memory.readN_putRegs_other {l : Tab (List Byte)} (hl : ∀ e ∈ l, e.2.length = 1024) {k : Nat} (hk : ∀ e ∈ l, e.1 ≠ k) {m : Memory} (h : m.wf = true) :
    Memory.readN (l.foldl (fun m r => m.writeN (1024 * r.1) r.2) m) (1024 * k) 1024 = m.readN (1024 * k) 1024 := by
  induction l generalizing m with
  | nil => rfl
  | cons e l ih =>
    obtain ⟨size, sizes⟩ := List.forall_mem_cons.1 hl
    obtain ⟨other, others⟩ := List.forall_mem_cons.1 hk
    rw [List.foldl_cons, ih sizes others (Memory.wf_writeN _ _ _ h)]
    refine Memory.readN_congr _ _ _ _ (fun i hi => ?_)
    rw [Memory.read_writeN _ _ _ _ h, if_neg (by omega)]

/-- A tile register reads as it was stored. -/
theorem Memory.readN_putRegs {l : Tab (List Byte)} (hl : RegTab l) {k : Nat} {v : List Byte} (hk : Tab.find l k = some v) {m : Memory} (h : m.wf = true) :
    Memory.readN (l.foldl (fun m r => m.writeN (1024 * r.1) r.2) m) (1024 * k) 1024 = v := by
  obtain ⟨rising, sized⟩ := hl
  induction l generalizing m with
  | nil => cases hk
  | cons e l ih =>
    obtain ⟨first, rest⟩ := List.pairwise_cons.1 rising
    obtain ⟨size, sizes⟩ := List.forall_mem_cons.1 sized
    rw [List.foldl_cons]
    have wf := Memory.wf_writeN _ (1024 * e.1) e.2 h
    rw [Tab.find] at hk
    split at hk
    · next own =>
      cases hk
      rw [own, Memory.readN_putRegs_other sizes (fun f hf => Nat.ne_of_gt (first f hf)) wf, ← size, Memory.readN_writeN_same h]
    · exact ih hk wf rest sizes

/-! ### The working registers of a chain -/

theorem mem_of_find {α : Type} {l : Tab α} {k : Nat} {v : α} (h : Tab.find l k = some v) : (k, v) ∈ l := by
  induction l with
  | nil => cases h
  | cons e l ih =>
    rw [Tab.find] at h
    split at h
    · next own =>
      cases h
      rw [own]
      exact List.mem_cons_self
    · exact List.mem_cons_of_mem _ (ih h)

/-- Tile registers are in canonical form where every memory is. -/
theorem State.treg_wf {s : State} (h : memoriesWf s) (k : TileId) : (s.tile k).treg.wf = true := by
  rw [State.tile, Tab.get_eq_find]
  cases found : Tab.find s.tiles k.toNat with
  | none => rfl
  | some x => exact (h.2.2 _ (mem_of_find found)).2

/-- The tile's registers by number. -/
def Tile.regTab (x : Tile) : Tab (List Byte) := (List.range 32).map (fun k => (k, x.treg.readN (1024 * k) 1024))

theorem Tile.find_regTab (x : Tile) {k : Nat} (h : k < 32) : Tab.find x.regTab k = some (x.treg.readN (1024 * k) 1024) := by
  have listed : ∀ l : List Nat, k ∈ l → Tab.find (l.map (fun k => (k, x.treg.readN (1024 * k) 1024))) k = some (x.treg.readN (1024 * k) 1024) := by
    intro l hl
    induction l with
    | nil => cases hl
    | cons j l ih =>
      rw [List.map_cons, Tab.find]
      split
      · next e => rw [e]
      · next e => exact ih ((List.mem_cons.1 hl).resolve_left e)
  exact listed _ (List.mem_range.2 h)

theorem Tile.regTab_stored (x : Tile) : RegTab x.regTab := by
  refine ⟨List.pairwise_map.2 List.pairwise_lt_range, fun e he => ?_⟩
  obtain ⟨k, -, rfl⟩ := List.mem_map.1 he
  exact Memory.readN_length ..

theorem Tile.reg_chainW (x : Tile) {k : Nat} (h : k < 32) : x.chainW.reg k = x.treg.readN (1024 * k) 1024 := by
  rw [ChainW.reg, Tab.get_eq_find]
  exact congrArg (Option.getD · (zeros 1024)) (x.find_regTab h)

/-- The tile's registers with one of them replaced. -/
theorem Memory.readN_putReg (x : Tile) (hw : x.treg.wf = true) {d : Nat} {v : List Byte} (hv : v.length = 1024) {j : Nat} (hj : j < 32) :
    Memory.readN ((Tab.set d v x.regTab).foldl (fun m r => m.writeN (1024 * r.1) r.2) x.treg) (1024 * j) 1024 =
      if j = d then v else x.treg.readN (1024 * j) 1024 := by
  refine Memory.readN_putRegs (x.regTab_stored.set d hv) ?_ hw
  rw [Tab.find_set, x.find_regTab hj]
  split <;> rfl

/-! ### One stage -/

/-- What an elementwise stage puts into its destination register. -/
def Stage.result (g : Stage) (md : NMode) (a b c : List Byte) : List Byte :=
  elemBytes g.f.bytes (List.zipWith (fun p q => (elem1 g.op g.f g.sat md g.imm p q.1 q.2).1) (tileElems g.f a) (List.zip (tileElems g.f b) (tileElems g.f c)))

theorem elemsOf_length (z n : Nat) (l : List Byte) : (elemsOf z n l).length = n := by
  induction n generalizing l with
  | zero => rfl
  | succ n ih => rw [elemsOf, List.length_cons, ih]

theorem elemBytes_length (z : Nat) (l : List Nat) : (elemBytes z l).length = z * l.length := by
  rw [elemBytes, List.length_flatMap]
  simp [Nat.mul_comm]

theorem Stage.result_length (g : Stage) (md : NMode) (a b c : List Byte) : (g.result md a b c).length = 1024 := by
  rw [Stage.result, elemBytes_length, List.length_zipWith, List.length_zip, tileElems, tileElems, tileElems, elemsOf_length, elemsOf_length, elemsOf_length]
  cases g.f <;> rfl

/-- The operations that work on more than one element at a time. -/
def ElemOp.wide : List ElemOp := [.cat, .rbshr, .rmax, .rmin, .rsum, .compress, .expand, .causal]

/-- An elementwise stage. -/
theorem Stage.run_elementwise {g : Stage} (hw : g.op ∉ ElemOp.wide) (hc : ∀ f, g.op ≠ .cvt f) (x : ChainDesc) (i : Nat) (w : ChainW) :
    (g.run x i w).regs = Tab.set g.d (g.result (NMode.of x.nmode) (w.reg g.a) (w.reg g.b) (w.reg g.c)) w.regs := by
  unfold Stage.run
  simp only []
  split
  case h_10 => rw [Stage.result, List.map_zipWith]
  case h_6 f e => exact absurd e (hc f)
  all_goals
    next e => exact absurd (by rw [e]; decide) hw

/-- The registers of a valid stage are tile registers. -/
theorem StageW.regs_of_stage {w : Nat} {g : Stage} (h : (StageW.of w).stage = some g) : g.a < 32 ∧ g.b < 32 ∧ g.c < 32 ∧ g.d < 32 := by
  unfold StageW.stage at h
  split at h
  · simp only [Option.ite_none_right_eq_some, Option.some.injEq] at h
    obtain ⟨-, rfl⟩ := h
    simp only [StageW.of, bitsN]
    omega
  · cases h

theorem mem_of_mapM {α β : Type} {f : α → Option β} {l : List α} {m : List β} (h : l.mapM f = some m) {b : β} (hb : b ∈ m) : ∃ a ∈ l, f a = some b := by
  induction l generalizing m with
  | nil =>
    cases h
    cases hb
  | cons a l ih =>
    simp only [List.mapM_cons, Option.bind_eq_bind, Option.bind_eq_some_iff] at h
    obtain ⟨c, hc, n, hn, e⟩ := h
    cases e
    rcases List.mem_cons.1 hb with rfl | hb
    · exact ⟨a, List.mem_cons_self, hc⟩
    · obtain ⟨a', ha, e⟩ := ih hn hb
      exact ⟨a', List.mem_cons_of_mem _ ha, e⟩

theorem ChainDesc.regs_of_mem_stages {x : ChainDesc} {g : Stage} (h : g ∈ x.stages) : g.a < 32 ∧ g.b < 32 ∧ g.c < 32 ∧ g.d < 32 := by
  unfold ChainDesc.stages at h
  cases valid : x.stages? with
  | none =>
    rw [valid] at h
    cases h
  | some l =>
    rw [valid] at h
    obtain ⟨w, -, e⟩ := mem_of_mapM valid h
    exact StageW.regs_of_stage e

/-! ### One iteration -/

theorem State.treg_putRegs (s : State) (k : TileId) (l : Tab (List Byte)) :
    ((s.putRegs k l).tile k).treg = l.foldl (fun m r => m.writeN (1024 * r.1) r.2) (s.tile k).treg := congrArg Tile.treg (s.tile_modTile_same k _)

/-- A chain without streams, counts or a digest, of one iteration of one stage. -/
structure ChainDesc.Single (x : ChainDesc) (g : Stage) : Prop where
  count : x.count = 1
  stages : x.stages = [g]
  ins : x.ins = []
  outs : x.outs = []
  aux : x.auxKind = 0
  digest : x.dgEn = false

/-- No stream of the two is enabled. -/
theorem disabled_of_filter {v w : StreamW} (h : [v, w].filter (·.en) = []) : v.en = false ∧ w.en = false := by
  have none := List.filter_eq_nil_iff.1 h
  exact ⟨by simpa using none v (by simp), by simpa using none w (by simp)⟩

/-- The iteration of such a chain changes the working registers alone, by its stage. -/
theorem ChainSt.iter_single {x : ChainDesc} {g : Stage} (h : x.Single g) (k : TileId) {q : ChainSt} (hq : q.stop = none) (i : Nat) :
    (q.iter k x none i).s = q.s ∧ (q.iter k x none i).w = g.run x i { q.w with evs := [], cnt := 0 } ∧ (q.iter k x none i).stop = none := by
  obtain ⟨in0, in1⟩ := disabled_of_filter h.ins
  obtain ⟨out0, out1⟩ := disabled_of_filter h.outs
  unfold ChainSt.iter
  simp [hq, h.ins, h.stages, h.aux, in0, in1, out0, out1]

section
variable {s : State} {k : TileId} {e : QEntry}

theorem exec_chain (h : s.engHead k 1 = some e) : exec (.chain k) s = .next (s.chainRun k e) := by
  have run : execChain k s = .next (s.chainRun k e) := by rw [execChain, h]
  exact run

/-- A descriptor that fails a check. -/
theorem State.chainRun_refused {st : Status} (hb : e.bad = false) (hc : s.chainCheck k (ChainDesc.of e.desc) = some st) :
    ∃ crec, s.chainRun k e = s.startEng k 1 (EngRun.failed e st crec) := by
  unfold State.chainRun
  simp only [hc]
  exact ⟨_, if_neg (ne_true_of_eq_false hb)⟩

/-- A descriptor of one iteration of one stage that passes the checks. -/
theorem State.chainRun_single {g : Stage} (hb : e.bad = false) (hc : s.chainCheck k (ChainDesc.of e.desc) = none) (hx : (ChainDesc.of e.desc).Single g) :
    ∃ r, r.status = St.ok ∧ r.ticket = e.ticket ∧
      s.chainRun k e = (s.putRegs k (g.run (ChainDesc.of e.desc) 0 (s.tile k).chainW).regs).startEng k 1 r := by
  obtain ⟨same, regs, stop⟩ := ChainSt.iter_single hx k (q := ⟨s, (s.tile k).chainW, 0, 0, 0, none⟩) rfl 0
  unfold State.chainRun
  simp only [hc, hx.count, hx.digest, List.range_one, List.foldl_cons, List.foldl_nil, Bool.false_eq_true, if_false, stop, same, regs]
  rw [if_neg (ne_true_of_eq_false hb)]
  exact ⟨_, rfl, rfl, rfl⟩

/-- After such a chain the destination register holds the stage's result, and every other register what it held. -/
theorem State.chainRun_elementwise {g : Stage} (hb : e.bad = false) (hc : s.chainCheck k (ChainDesc.of e.desc) = none) (hx : (ChainDesc.of e.desc).Single g)
    (hm : memoriesWf s) (hw : g.op ∉ ElemOp.wide) (hv : ∀ f, g.op ≠ .cvt f) :
    let reg := fun (u : State) (r : Nat) => (u.tile k).treg.readN (1024 * r) 1024
    ∃ r, engineStarted s (s.chainRun k e) k 1 r ∧ r.status = St.ok ∧ r.ticket = e.ticket ∧
      (∀ j, j < 32 → reg (s.chainRun k e) j =
        if j = g.d then g.result (NMode.of (ChainDesc.of e.desc).nmode) (reg s g.a) (reg s g.b) (reg s g.c) else reg s j) ∧
      { s.chainRun k e with tiles := s.tiles } = s := by
  intro reg
  obtain ⟨r, ok, ticket, run⟩ := State.chainRun_single hb hc hx
  obtain ⟨a, b, c, d⟩ := ChainDesc.regs_of_mem_stages (hx.stages ▸ List.mem_singleton_self g)
  have written := Stage.run_elementwise hw hv (ChainDesc.of e.desc) 0 (s.tile k).chainW
  rw [Tile.reg_chainW _ a, Tile.reg_chainW _ b, Tile.reg_chainW _ c] at written
  rw [run, written]
  refine ⟨r, State.startEng_started ?_ (s.otherTiles_modTile k _) r, ok, ticket, fun j hj => ?_, rfl⟩
  · exact (congrArg (Tile.queue · 1) (s.tile_modTile_same k _) :)
  · simp only [reg, State.treg_startEng, State.treg_putRegs]
    exact Memory.readN_putReg (s.tile k) (State.treg_wf hm k) (g.result_length _ _ _ _) hj

end

/-! ### The statement -/

/-- Settles O33: MATMUL by the stores of its elements, CHAIN by the working registers that its one stage leaves. -/
theorem tensorAndElementOperations : Obligations.TensorAndElementOperations := by
  refine ⟨fun k e s head => ?_, fun k e s head hb => ?_⟩
  · intro x cells
    refine ⟨fun hb hq hm hc => ?_, fun st hb hc => ?_, fun hb => ?_⟩
    · obtain ⟨r, started, rest⟩ := State.tensorRun_stored hb hq hm hc
      exact ⟨_, r, exec_matmul head, started, rest⟩
    · obtain ⟨crec, run⟩ := State.tensorRun_refused hb hc
      exact ⟨_, _, (exec_matmul head).trans (congrArg _ run), State.startEng_started rfl (fun _ _ => rfl) _, rfl, rfl, rfl, rfl⟩
    · exact ⟨_, _, (exec_matmul head).trans (congrArg _ (State.tensorRun_unreadable hb)), State.startEng_started rfl (fun _ _ => rfl) _, rfl, rfl, rfl⟩
  · intro x reg
    refine ⟨fun g hm hc count stages ins outs aux digest hw hv => ?_, fun st hc => ?_⟩
    · obtain ⟨-, -, -, d⟩ := ChainDesc.regs_of_mem_stages (x := x) (stages ▸ List.mem_singleton_self g)
      obtain ⟨r, started, ok, ticket, regs, rest⟩ := State.chainRun_elementwise hb hc ⟨count, stages, ins, outs, aux, digest⟩ hm hw hv
      exact ⟨_, r, exec_chain head, started, ok, ticket, (regs g.d d).trans (if_pos rfl), fun j hj hn => (regs j hj).trans (if_neg hn), rest⟩
    · obtain ⟨crec, run⟩ := State.chainRun_refused hb hc
      exact ⟨_, _, (exec_chain head).trans (congrArg _ run), State.startEng_started rfl (fun _ _ => rfl) _, rfl,
        State.treg_startEng s k 1 _, rfl⟩

end Sys2Proof.Machine
end

section
/-! The completions of the four engines of a tile: the record, the counters, and the end of the operation (R176 to R180, R214 to R216,
R249 to R253, R298 to R301). -/

namespace Sys2Proof.Machine

/-! ### The status register of an engine -/

/-- Where ERR, LAST_DONE and FIRST_STATUS of an engine stand in its tile's block. -/
def engStat (n : Nat) : Nat := (engRegs n).err.off

def engErr (n : Nat) : Fld := ⟨engStat n, 0, 0⟩
def engLastDone (n : Nat) : Fld := ⟨engStat n, 47, 16⟩
def engFirst (n : Nat) : Fld := ⟨engStat n, 63, 48⟩

theorem engRegs_eq (n : Nat) : engRegs n = ⟨engErr n, engLastDone n, engFirst n⟩ := by
  obtain _ | _ | _ | n := n <;> rfl

theorem engStat_lt (n : Nat) : engStat n < 0x6000 := by
  obtain _ | _ | _ | n := n <;> simp [engStat, engRegs, F.TENSOR_STAT_ERR, F.ELEM_STAT_ERR, F.SOLVER_STAT_ERR, F.BOBBIN_STAT_ERR]

/-- Fields of one register of a tile. -/
theorem State.fld_set_bits (s : State) (k : TileId) (o v : Nat) {h l h' l' : Nat} (hl : l ≤ h) (h64 : h < 64) (hl' : l' ≤ h') (d : h' < l ∨ h < l') :
    (s.setFld (tfld k ⟨o, h, l⟩) v).fld (tfld k ⟨o, h, l⟩) = v % 2 ^ (h - l + 1) ∧
      (s.setFld (tfld k ⟨o, h, l⟩) v).fld (tfld k ⟨o, h', l'⟩) = s.fld (tfld k ⟨o, h', l'⟩) :=
  ⟨s.fld_set_tfld k v hl h64, s.fld_set_tfld_other k v hl h64 hl' (.inr d)⟩

/-- An offset of a tile's block is none that an event writes. -/
theorem tileOff_not_event {k : TileId} {o : Nat} (h : o < 0x10000) : o + tileBase k ∉ eventOffs := by
  have := k.isLt
  simp only [eventOffs, tileBase, F.TIME_STAT_EV, F.CKPT_STAT_ERR, F.MBX_EVQ_DROPPED, List.mem_cons, List.not_mem_nil, or_false]
  omega

theorem stampReg_ne_tileOff {k : TileId} {a o : Nat} (h : stampReg o) (ha : a < 0x10000) : o ≠ a + tileBase k := by
  have := k.isLt
  simp only [stampReg, tileBase, R.GLB_FUNC_READY, F.GLB_JOB_STATE, F.TIME_PICK_PICK] at h ⊢
  omega

/-- An event that is raised later in a command is stamped as at its start. -/
theorem raised_of_stamp {s t u : State} (h : t.stamp = s.stamp ∧ t.eventPick = s.eventPick) {src : Nat} {c : Status} {d : List Byte} {b : Bool}
    (r : raised t u src c d b) : raised s u src c d b := by
  unfold raised at r ⊢
  rw [r, h.1, h.2]

/-- Between s and t status st of engine n has been noted, as an error or not. -/
structure Noted (k : TileId) (n : Nat) (st : Status) (err : Bool) (detail : List Byte) (s t : State) : Prop where
  frame : Keeps State.lessParent (fun o => o ∉ eventOffs ∧ o ≠ engStat n + tileBase k) s t
  lastDone : t.fld (tfld k (engLastDone n)) = s.fld (tfld k (engLastDone n))
  calm : err = false → t = s
  error : err = true → t.bit (tfld k (engErr n)) = true ∧ (s.bit (tfld k (engErr n)) = false → t.fld (tfld k (engFirst n)) = st.toNat) ∧
    raised s t (tileSrc k) st detail false

section
variable (s : State) (k : TileId) (n : Nat) (st : Status)

/-- The status register of a failed operation, before its event. -/
def State.noteEngError : State :=
  (if s.bit (tfld k (engErr n)) then s else s.setFld (tfld k (engFirst n)) st.toNat).setFld (tfld k (engErr n)) 1

theorem State.engError_eq (d : List Byte) : s.engError k n st d = (s.noteEngError k n st).raise (tileSrc k) st d := by
  rw [State.engError, engRegs_eq]
  rfl

theorem State.noteEngError_keeps : Keeps (fun s => { s with regs := [] }) (fun o => o ≠ engStat n + tileBase k) s (s.noteEngError k n st) := by
  refine Keeps.trans (t := if _ then _ else _) ?_ (.setFld _ _ (fun h => h rfl) (fun _ => rfl))
  split
  · exact .refl s
  · exact .setFld s _ (fun h => h rfl) (fun _ => rfl)

/-- ERR is set, FIRST_STATUS is filled where it was clear, and LAST_DONE stays. -/
theorem State.noteEngError_fields : (s.noteEngError k n st).bit (tfld k (engErr n)) = true ∧
    (s.bit (tfld k (engErr n)) = false → (s.noteEngError k n st).fld (tfld k (engFirst n)) = st.toNat) ∧
    (s.noteEngError k n st).fld (tfld k (engLastDone n)) = s.fld (tfld k (engLastDone n)) := by
  have err := fun u : State => u.fld_set_bits k (engStat n) 1 (h := 0) (l := 0) (h' := 63) (l' := 48) (by decide) (by decide) (by decide) (by decide)
  have first := s.fld_set_bits k (engStat n) st.toNat (h := 63) (l := 48) (h' := 0) (l' := 0) (by decide) (by decide) (by decide) (by decide)
  refine ⟨?_, fun clear => ?_, ?_⟩
  · exact congrArg (· != 0) (err _).1
  · rw [State.noteEngError, if_neg (ne_true_of_eq_false clear)]
    exact ((err _).2.trans first.1).trans (Nat.mod_eq_of_lt st.isLt)
  · refine (State.fld_set_bits _ k (engStat n) 1 (h' := 47) (l' := 16) (by decide) (by decide) (by decide) (by decide)).2.trans ?_
    split
    · rfl
    · exact (s.fld_set_bits k (engStat n) _ (by decide) (by decide) (by decide) (by decide)).2

/-- An error is noted in the status register, and raised. -/
theorem State.engError_noted (d : List Byte) : Noted k n st true d s (s.engError k n st d) := by
  have note := s.noteEngError_keeps k n st
  obtain ⟨set, first, lastDone⟩ := s.noteEngError_fields k n st
  have raise := (s.noteEngError k n st).raise_parent (tileSrc k) st d
  have calm : engStat n + tileBase k ∉ eventOffs := tileOff_not_event ((engStat_lt n).trans (by decide))
  have stamp := note.stamp (fun o ho => stampReg_ne_tileOff ho ((engStat_lt n).trans (by decide))) (fun _ => rfl)
  rw [State.engError_eq]
  exact ⟨.trans (note.weaken (fun _ => rfl) (fun _ h => h.2)) (raise.weaken (fun _ => rfl) (fun _ h => h.1)),
    (raise.fld (f := tfld k (engLastDone n)) calm).trans lastDone, nofun, fun _ => ⟨(raise.bit (f := tfld k (engErr n)) calm).trans set,
      fun clear => (raise.fld (f := tfld k (engFirst n)) calm).trans (first clear), raised_of_stamp stamp (State.raise_raised _ _ _ _)⟩⟩

end

/-! ### The end of an operation -/

/-- The tile without its running operation, the status of which is kept. -/
def Tile.ended (x : Tile) (n : Nat) (r : EngRun) : Tile := (x.putStatus n r.ticket r.status).setRun n none

theorem Tile.ended_fields {x : Tile} {n : Nat} {r : EngRun} (h : x.statusOf n r.ticket = none) (owed : List (Nat × Nat × Nat)) :
    let y := { x.ended n r with lateOwed := owed }
    y.running n = none ∧ y.statusOf n r.ticket = some r.status ∧ y.queue n = x.queue n := by
  have status := Tile.statusOf_putStatus x r.status h
  exact ⟨Tile.running_setRun _ _ _, status, rfl⟩

/-- LAST_DONE shows the ticket of an operation that has left its engine. -/
def State.showDone (s : State) (k : TileId) (n : Nat) (r : EngRun) : State :=
  (s.modTile k (fun x => x.ended n r)).setFld (tfld k (engLastDone n)) r.ticket.toNat

/-- Between s and t the operation r of engine n has ended, and has been noted as an error or not. -/
structure EngineEnded (k : TileId) (n : Nat) (r : EngRun) (err : Bool) (detail : List Byte) (s t : State) : Prop where
  idle : (t.tile k).running n = none
  status : (t.tile k).statusOf n r.ticket = some r.status
  queue : (t.tile k).queue n = (s.tile k).queue n
  others : otherTiles k s t
  bytes : t.byteAt = s.byteAt
  lastDone : t.fld (tfld k (engLastDone n)) = r.ticket.toNat
  regs : ∀ o, o ∉ eventOffs → o ≠ engStat n + tileBase k → t.reg o = s.reg o
  calm : err = false → t.bit (tfld k (engErr n)) = s.bit (tfld k (engErr n)) ∧ t.rings = s.rings
  noted : err = true → t.bit (tfld k (engErr n)) = true ∧
    (s.bit (tfld k (engErr n)) = false → t.fld (tfld k (engFirst n)) = r.status.toNat) ∧ raised s t (tileSrc k) r.status detail false

section
variable (s : State) (k : TileId) (n : Nat) (r : EngRun)

theorem State.showDone_keeps : Keeps (fun s => { s with regs := [], tiles := [] }) (fun o => o ≠ engStat n + tileBase k) s (s.showDone k n r) := by
  refine Keeps.trans (t := s.modTile k (fun x => x.ended n r)) (.of_rest rfl rfl) (.setFld _ _ (fun h => h rfl) (fun _ => rfl))

theorem State.showDone_fields : (s.showDone k n r).fld (tfld k (engLastDone n)) = r.ticket.toNat ∧
    (s.showDone k n r).bit (tfld k (engErr n)) = s.bit (tfld k (engErr n)) := by
  have done := (s.modTile k (fun x => x.ended n r)).fld_set_bits k (engStat n) r.ticket.toNat (h := 47) (l := 16) (h' := 0) (l' := 0)
    (by decide) (by decide) (by decide) (by decide)
  exact ⟨done.1.trans (Nat.mod_eq_of_lt r.ticket.isLt), congrArg (· != 0) done.2⟩

theorem State.endEng_eq (err : Bool) (detail : List Byte) : s.endEng k n r err detail =
    (if err then (s.showDone k n r).engError k n r.status detail else s.showDone k n r).payLate k := by
  rw [State.endEng, engRegs_eq]
  rfl

end

section
variable {s : State} {k : TileId}

/-- Where the tile owes no late-phase record, the end of an operation raises none. -/
theorem State.payLate_none (h : (s.tile k).lateOwed = []) : s.payLate k = s.modTile k (fun x => { x with lateOwed := [] }) := by
  unfold State.payLate
  rw [h]
  rfl

variable {n : Nat} {r : EngRun} (hl : (s.tile k).lateOwed = []) (hs : (s.tile k).statusOf n r.ticket = none)
include hl hs

/-- An operation that has left its engine, once its status has been noted and nothing late is owed. -/
theorem Noted.engineEnded {err : Bool} {detail : List Byte} {v : State} (h : Noted k n r.status err detail (s.showDone k n r) v) :
    EngineEnded k n r err detail s (v.payLate k) := by
  have shown := s.showDone_keeps k n r
  obtain ⟨ticket, errBit⟩ := s.showDone_fields k n r
  have tiles : SameTiles (s.showDone k n r) v := h.frame.same State.tiles (fun _ => rfl)
  have own : v.tile k = (s.tile k).ended n r := (tiles.tile k).trans (s.tile_modTile_same k (fun x => x.ended n r) :)
  have paid : v.payLate k = v.modTile k (fun x => { x with lateOwed := [] }) := State.payLate_none (by rw [own]; exact hl)
  have tile : (v.payLate k).tile k = { (s.tile k).ended n r with lateOwed := [] } := by rw [paid, State.tile_modTile_same, own]
  obtain ⟨idle, status, queue⟩ := Tile.ended_fields hs []
  rw [← tile] at idle status queue
  rw [paid] at idle status queue ⊢
  refine ⟨idle, status, queue, fun j hj => ?_, ?_, h.lastDone.trans ticket, fun o calm other => (h.frame.regs o ⟨calm, other⟩).trans (shown.regs o other),
    fun e => ?_, fun e => ?_⟩
  · rw [State.tile_modTile_other _ _ _ _ hj, tiles.tile j]
    exact s.tile_modTile_other k j (fun x => x.ended n r) hj
  · exact (h.frame.same State.byteAt (fun _ => rfl)).trans (shown.same State.byteAt (fun _ => rfl))
  · rw [h.calm e]
    exact ⟨errBit, shown.same State.rings (fun _ => rfl)⟩
  · obtain ⟨set, first, event⟩ := h.error e
    have stamp := shown.stamp (fun o ho => stampReg_ne_tileOff ho ((engStat_lt n).trans (by decide))) (fun _ => rfl)
    exact ⟨set, fun clear => first (errBit.trans clear), raised_of_stamp stamp (raised_of_rings event rfl rfl)⟩

theorem State.endEng_ended (err : Bool) (detail : List Byte) : EngineEnded k n r err detail s (s.endEng k n r err detail) := by
  rw [State.endEng_eq]
  refine Noted.engineEnded hl hs ?_
  cases err with
  | false => exact ⟨.refl _, rfl, fun _ => rfl, nofun⟩
  | true => exact State.engError_noted _ k n r.status detail

end

/-! ### The counters of an operation -/

/-- The state without what the counting of an operation, and the entry of its outcome in the input log, can change. -/
def State.lessBooks (s : State) : State := { s with regs := [], outbox := [], resil := Resil.reset }

/-- Registers that counting leaves: those of tile k's block at the offsets l, and beyond the tiles all but the count of refused messages. -/
def bookFree (k : TileId) (l : List Nat) (o : Nat) : Prop := (∃ a ∈ l, o = a + tileBase k) ∨ 0x1000000 ≤ o ∧ o ≠ F.FAB_WIN_REFUSED_BLOCKED.off

/-- Between s and t operations have been counted, in registers of tile k other than those at the offsets l. -/
abbrev Books (k : TileId) (l : List Nat) : State → State → Prop := Keeps State.lessBooks (bookFree k l)

theorem bookFree_of_stampReg {k : TileId} {l : List Nat} {o : Nat} (h : stampReg o) : bookFree k l o := by
  unfold stampReg at h
  refine .inr ?_
  obtain rfl | rfl | rfl := h <;> decide

section
variable {k : TileId} {l : List Nat}

theorem Books.fewer {s t : State} {m : List Nat} (h : Books k l s t) (hm : ∀ a ∈ m, a ∈ l) : Books k m s t :=
  h.weaken (fun _ => rfl) (fun _ free => free.imp_left (fun ⟨a, ha, e⟩ => ⟨a, hm a ha, e⟩))

theorem Books.setFld (s : State) {f : Fld} (n : Nat) (h : f.off < 0x10000) (hl : f.off ∉ l) : Books k l s (s.setFld (tfld k f) n) := by
  refine Keeps.setFld s n ?_ (fun _ => rfl)
  have tiles := k.isLt
  rintro (⟨a, ha, e⟩ | ⟨far, -⟩)
  · have same : f.off = a := Nat.add_right_cancel e
    exact hl (same ▸ ha)
  · simp only [tfld, Fld.plus, tileBase] at far
    omega

theorem State.books_numAdd (s : State) (a b : Nat) (h : F.NUM_NSAT_COUNT.off ∉ l ∧ F.NUM_NFLUSH_COUNT.off ∉ l) : Books k l s (s.numAdd k a b) :=
  (Books.setFld s _ (by decide) h.1).trans (Books.setFld _ _ (by decide) h.2)

theorem State.books_countOutcome (s : State) (st : Status) (h : F.SOLVER_OUTCOME_PARTIAL.off ∉ l) : Books k l s (s.countOutcome k st) := by
  unfold State.countOutcome
  split
  · exact Books.setFld s _ (by decide) h
  split
  · exact Books.setFld s _ (by decide) h
  split
  · exact Books.setFld s _ (by decide) h
  · exact .refl s

theorem State.books_logNote (s : State) (type key : Nat) (b : List Byte) (h : ∀ a ∈ l, a < 0x10000) : Books k l s (s.logNote type key b) := by
  have kept : ∀ {o}, bookFree k l o → o ≠ F.FAB_WIN_REFUSED_BLOCKED.off := by
    rintro o (⟨a, ha, rfl⟩ | ⟨-, other⟩)
    · have := k.isLt
      have := h a ha
      simp only [tileBase, F.FAB_WIN_REFUSED_BLOCKED]
      omega
    · exact other
  have sent : ∀ {u v : State}, SentOnly u v → Books k l u v := fun g => g.weaken (fun _ => rfl) (fun _ => kept)
  have entered : ∀ r, Books k l s { s with resil := r } := fun _ => .of_rest rfl rfl
  unfold State.logNote State.logInput
  split
  · simp only []
    split
    · exact entered _
    · exact (entered _).trans (sent (State.tellBulk_sentOnly _ _ _ _ _ _))
  · exact .refl s

theorem State.books_logOutcome (s : State) (r : EngRun) (h : ∀ a ∈ l, a < 0x10000) : Books k l s (s.logOutcome k r) := by
  unfold State.logOutcome
  split
  · exact .refl s
  split
  · exact s.books_logNote _ _ _ h
  · exact .refl s

end

/-- OPS.DONE of the engines that have it, or FAILED. -/
def opsFld (n : Nat) (err : Bool) : Fld := ⟨engStat n + 0x18, if err then 63 else 31, if err then 32 else 0⟩

/-- The cycles of an operation, and those it lost, in the counters of engine n. -/
def State.countCycles (s : State) (k : TileId) (n work bank withheld : Nat) : State :=
  ((s.count (tfld k ⟨engStat n + 8, 63, 0⟩) work).countWrap (tfld k ⟨engStat n + 0x10, 31, 0⟩) bank).countWrap (tfld k ⟨engStat n + 0x10, 63, 32⟩) withheld

/-- The same, with the operation itself. -/
def State.countOp (s : State) (k : TileId) (n work bank withheld : Nat) (err : Bool) : State :=
  (s.countCycles k n work bank withheld).countWrap (tfld k (opsFld n err)) 1

section
variable (s : State) (k : TileId) (n work bank withheld : Nat) (err : Bool)

theorem State.countCycles_books : Books k [engStat n, engStat n + 0x18] s (s.countCycles k n work bank withheld) := by
  have low := engStat_lt n
  have set : ∀ (u : State) (f : Fld) (v : Nat), f.off = engStat n + 8 ∨ f.off = engStat n + 0x10 → Books k [engStat n, engStat n + 0x18] u (u.setFld (tfld k f) v) :=
    fun u f v h => Books.setFld u v (by omega) (by simp only [List.mem_cons, List.not_mem_nil, or_false]; omega)
  exact (set s _ _ (.inl rfl)).trans <| (set _ _ _ (.inr rfl)).trans (set _ _ _ (.inr rfl))

theorem State.countOp_books : Books k [engStat n] s (s.countOp k n work bank withheld err) := by
  have low := engStat_lt n
  refine ((s.countCycles_books k n work bank withheld).fewer (by simp)).trans (Books.setFld _ _ (show engStat n + 0x18 < 0x10000 by omega) ?_)
  simp only [opsFld, List.mem_singleton]
  omega

theorem State.fld_countOp : (s.countOp k n work bank withheld err).fld (tfld k (opsFld n err)) = (s.fld (tfld k (opsFld n err)) + 1) % 2 ^ 32 := by
  have before : (s.countCycles k n work bank withheld).fld (tfld k (opsFld n err)) = s.fld (tfld k (opsFld n err)) :=
    (s.countCycles_books k n work bank withheld).fld (.inl ⟨engStat n + 0x18, by simp, rfl⟩)
  rw [State.countOp, State.fld_countWrap, before] <;> cases err <;> simp [tfld, Fld.plus, opsFld]

end

/-! ### The four completions -/

/-- The completion record at its address, where the operation has one. -/
def State.recorded (s : State) (k : TileId) (crec : Option Nat) (b : List Byte) : State :=
  match crec with
  | none => s
  | some a => s.sramWrite k a b

/-- The record as a store. -/
def recordStores (crec : Option Nat) (b : List Byte) : List (Nat × List Byte) := crec.toList.map (fun a => (a, b))

theorem State.recorded_stored {s : State} {k : TileId} {crec : Option Nat} {b : List Byte} (hq : memQuiet s = true) (hm : s.mem.wf = true)
    (ha : ∀ a, crec = some a → a + 64 ≤ 0x800000) (hb : b.length ≤ 64) : SramStored k (recordStores crec b) s (s.recorded k crec b) := by
  cases crec with
  | none => exact ⟨rfl, fun _ _ => rfl⟩
  | some a =>
    have room := ha a rfl
    exact State.sramWrites_stored (l := [(a, b)]) (by simp only [List.mem_singleton, forall_eq]; omega) hq hm

/-- The end t of operation r of engine n: the record b is written, the operation is counted, and then it ends. -/
structure Completes (k : TileId) (n : Nat) (r : EngRun) (b detail : List Byte) (err : Bool) (s t : State) : Prop where
  short : b.length ≤ 64
  ends : ∃ u, Books k [engStat n] (s.recorded k r.crec b) u ∧
    (n < 3 → u.fld (tfld k (opsFld n err)) = ((s.recorded k r.crec b).fld (tfld k (opsFld n err)) + 1) % 2 ^ 32) ∧ t = u.endEng k n r err detail

/-- An operation counted in its engine's counters, and in others that leave these. -/
theorem Completes.of_countOp {k : TileId} {n : Nat} {r : EngRun} {b detail : List Byte} {err : Bool} {s u : State} {work bank withheld : Nat} (hb : b.length ≤ 64)
    (h : Books k [engStat n, engStat n + 0x18] ((s.recorded k r.crec b).countOp k n work bank withheld err) u) :
    Completes k n r b detail err s (u.endEng k n r err detail) := by
  have ops : u.fld (tfld k (opsFld n err)) = ((s.recorded k r.crec b).countOp k n work bank withheld err).fld (tfld k (opsFld n err)) :=
    h.fld (.inl ⟨engStat n + 0x18, by simp, rfl⟩)
  exact ⟨hb, u, (State.countOp_books _ k n work bank withheld err).trans (h.fewer (by simp)),
    fun _ => ops.trans (State.fld_countOp _ k n work bank withheld err), rfl⟩

/-- Cycles of an operation that has run; one that has failed its checks takes none. -/
def EngRun.elapsed (r : EngRun) (n : Nat) : Nat := if r.cycles ≠ 0 then n else 0

/-- The numeric events of an operation that has ended with OK. -/
def State.countEvents (s : State) (k : TileId) (r : EngRun) : State := if r.status = St.ok then s.numAdd k r.nsat r.nflush else s

theorem State.books_countEvents (s : State) (k : TileId) (r : EngRun) {l : List Nat} (h : F.NUM_NSAT_COUNT.off ∉ l ∧ F.NUM_NFLUSH_COUNT.off ∉ l) :
    Books k l s (s.countEvents k r) := by
  unfold State.countEvents
  split
  · exact s.books_numAdd _ _ h
  · exact .refl s

section
variable (s : State) (k : TileId) (r : EngRun) (bank withheld : Nat)

theorem State.tensorEnd_eq : s.tensorEnd k r bank withheld =
    (((s.recorded k r.crec (tensorRecord r (r.elapsed (r.cycles + bank + withheld)) (r.elapsed (bank + withheld)) s.clock.ns)).countOp k 0 r.work
      (r.elapsed bank) (r.elapsed withheld) (r.status != St.ok)).countEvents k r).endEng k 0 r (r.status != St.ok) (leBytes 4 r.ticket.toNat) := by
  simp only [State.tensorEnd, EngRun.elapsed, State.countEvents, ne_eq, ite_not]
  by_cases ok : r.status = St.ok
  · have fine : (r.status != St.ok) = false := by simp [ok]
    simp only [if_pos ok, fine]
    rfl
  · have failed : (r.status != St.ok) = true := by simp [ok]
    simp only [if_neg ok, failed]
    rfl

theorem State.elemEnd_eq : s.elemEnd k r bank withheld =
    (((s.recorded k r.crec (elemRecord r (r.elapsed (r.cycles + bank + withheld)) s.clock.ns)).countOp k 1 r.work
      (r.elapsed (bank + r.x2)) (r.elapsed withheld) (r.status != St.ok)).countEvents k r).endEng k 1 r (r.status != St.ok) (leBytes 4 r.ticket.toNat) := by
  simp only [State.elemEnd, EngRun.elapsed, State.countEvents, bne_iff_ne]
  by_cases ok : r.status = St.ok
  · have fine : (r.status != St.ok) = false := by simp [ok]
    simp only [if_pos ok, fine]
    rfl
  · have failed : (r.status != St.ok) = true := by simp [ok]
    simp only [if_neg ok, failed]
    rfl

theorem State.solverEnd_eq : s.solverEnd k r bank withheld =
    (((((s.recorded k r.crec (solverRecord r (r.elapsed (r.cycles + bank + withheld)) (r.elapsed (bank + withheld)) s.clock.ns)).countOp k 2 r.work
      (r.elapsed bank) (r.elapsed withheld) (solverErr r.status)).numAdd k r.nsat r.nflush).countOutcome k r.status).logOutcome k r).endEng k 2 r
        (solverErr r.status) (leBytes 4 r.ticket.toNat) := by
  simp only [State.solverEnd, EngRun.elapsed, bne_iff_ne]
  cases solverErr r.status <;> rfl

theorem State.tensorEnd_completes :
    Completes k 0 r (tensorRecord r (r.elapsed (r.cycles + bank + withheld)) (r.elapsed (bank + withheld)) s.clock.ns) (leBytes 4 r.ticket.toNat)
      (r.status != St.ok) s (s.tensorEnd k r bank withheld) :=
  s.tensorEnd_eq k r bank withheld ▸ .of_countOp (by simp [tensorRecord]) (State.books_countEvents _ k r (by decide))

theorem State.elemEnd_completes :
    Completes k 1 r (elemRecord r (r.elapsed (r.cycles + bank + withheld)) s.clock.ns) (leBytes 4 r.ticket.toNat)
      (r.status != St.ok) s (s.elemEnd k r bank withheld) :=
  s.elemEnd_eq k r bank withheld ▸ .of_countOp (by simp [elemRecord]) (State.books_countEvents _ k r (by decide))

theorem State.solverEnd_completes :
    Completes k 2 r (solverRecord r (r.elapsed (r.cycles + bank + withheld)) (r.elapsed (bank + withheld)) s.clock.ns) (leBytes 4 r.ticket.toNat)
      (solverErr r.status) s (s.solverEnd k r bank withheld) :=
  s.solverEnd_eq k r bank withheld ▸ .of_countOp (by simp [solverRecord]) ((State.books_numAdd _ _ _ (by decide)).trans <|
    (State.books_countOutcome _ _ (by decide)).trans (State.books_logOutcome _ r (by decide)))

/-- Pushes, pops and their overflows and drops. -/
def State.countBob (s : State) (k : TileId) (r : EngRun) : State :=
  if r.status ≠ St.ok then s
  else if r.work = 1 then
    let s := s.countWrap (tfld k F.BOBBIN_OPS_PUSHES) 1
    if bitN r.x3 1 then s.countWrap (tfld k F.BOBBIN_SPILL_OVERFLOWS) 1 else s
  else if r.work = 2 then
    let s := s.countWrap (tfld k F.BOBBIN_OPS_POPS) 1
    if bitN r.x3 0 then s.countWrap (tfld k F.BOBBIN_SPILL_DROPS) 1 else s
  else s

theorem State.countBob_books : Books k [engStat 3] s (s.countBob k r) := by
  have set : ∀ (u : State) (f : Fld) (v : Nat), f.off = 0x5018 ∨ f.off = 0x5020 → Books k [engStat 3] u (u.setFld (tfld k f) v) :=
    fun u f v h => Books.setFld u v (by omega) (by simp only [List.mem_singleton, engStat, engRegs, F.BOBBIN_STAT_ERR]; omega)
  unfold State.countBob
  split
  · exact .refl s
  split
  · simp only []
    split
    · exact (set s _ _ (.inl rfl)).trans (set _ _ _ (.inr rfl))
    · exact set s _ _ (.inl rfl)
  split
  · simp only []
    split
    · exact (set s _ _ (.inl rfl)).trans (set _ _ _ (.inr rfl))
    · exact set s _ _ (.inl rfl)
  · exact .refl s

theorem State.bobEnd_completes :
    Completes k 3 r (bobRecord r s.clock.ns) (leBytes 4 r.ticket.toNat ++ leBytes 2 r.x1) (r.status != St.ok) s (s.bobEnd k r) :=
  ⟨by simp [bobRecord], _, State.countBob_books (s.recorded k r.crec (bobRecord r s.clock.ns)) k r, fun h => absurd h (by decide), rfl⟩

end

/-! ### The commands -/

section
variable (k : TileId) (bank withheld : Nat) (s : State)

theorem exec_tensorComplete : exec (.tensorComplete k bank withheld) s = .next (((s.tile k).running 0).elim s (s.tensorEnd k · bank withheld)) := by
  show execTensorComplete k bank withheld s = _
  unfold execTensorComplete
  cases (s.tile k).running 0 <;> rfl

theorem exec_elemComplete : exec (.elemComplete k bank withheld) s = .next (((s.tile k).running 1).elim s (s.elemEnd k · bank withheld)) := by
  show execElemComplete k bank withheld s = _
  unfold execElemComplete
  cases (s.tile k).running 1 <;> rfl

theorem exec_solverComplete : exec (.solverComplete k bank withheld) s = .next (((s.tile k).running 2).elim s (s.solverEnd k · bank withheld)) := by
  show execSolverComplete k bank withheld s = _
  unfold execSolverComplete
  cases (s.tile k).running 2 <;> rfl

theorem exec_bobbinComplete : exec (.bobbinComplete k) s = .next (((s.tile k).running 3).elim s (s.bobEnd k)) := by
  show execBobbinComplete k s = _
  unfold execBobbinComplete
  cases (s.tile k).running 3 <;> rfl

end

/-! ### The statement -/

/-- Between s and t operation r of engine n has completed: its record b is the only store, and its status is noted as an error or not. -/
structure OperationEnded (k : TileId) (n : Nat) (r : EngRun) (b detail : List Byte) (err : Bool) (s t : State) : Prop where
  idle : (t.tile k).running n = none
  status : (t.tile k).statusOf n r.ticket = some r.status
  queue : (t.tile k).queue n = (s.tile k).queue n
  others : otherTiles k s t
  memory : memoryAfter s t (r.crec.elim [] (fun a => sramStores k [(a, b)]))
  lastDone : t.fld (tfld k (engLastDone n)) = r.ticket.toNat
  calm : err = false → t.bit (tfld k (engErr n)) = s.bit (tfld k (engErr n)) ∧ t.rings = s.rings
  noted : err = true → t.bit (tfld k (engErr n)) = true ∧ (s.bit (tfld k (engErr n)) = false → t.fld (tfld k (engFirst n)) = r.status.toNat) ∧
    raised s t (tileSrc k) r.status detail false
  counted : n < 3 → t.fld (tfld k (opsFld n err)) = (s.fld (tfld k (opsFld n err)) + 1) % 2 ^ 32

/-- Between s and u the record of an operation has been stored, and the operation counted. -/
structure Booked (k : TileId) (n : Nat) (stores : List (Nat × List Byte)) (s u : State) : Prop where
  tiles : SameTiles s u
  rings : u.rings = s.rings
  memory : memoryAfter s u (sramStores k stores)
  stat : u.reg (engStat n + tileBase k) = s.reg (engStat n + tileBase k)
  stamp : u.stamp = s.stamp ∧ u.eventPick = s.eventPick

theorem SramStored.reg {k : TileId} {l : List (Nat × List Byte)} {s t : State} (h : SramStored k l s t) (o : Nat) : t.reg o = s.reg o :=
  (congrArg (fun u : State => u.reg o) h.only :)

theorem SramStored.booked {k : TileId} {n : Nat} {l : List (Nat × List Byte)} {s t u : State} (h : SramStored k l s t) (g : Books k [engStat n] t u) :
    Booked k n l s u := by
  obtain ⟨stamp, pick⟩ := g.stamp (fun o ho => bookFree_of_stampReg ho) (fun _ => rfl)
  exact ⟨(g.same State.tiles (fun _ => rfl)).trans (congrArg State.tiles h.only :), (g.same State.rings (fun _ => rfl)).trans (congrArg State.rings h.only :),
    fun a ha => (congrFun (g.same State.byteAt (fun _ => rfl)) a).trans (h.reads a ha), (g.regs _ (.inl ⟨engStat n, by simp, rfl⟩)).trans (h.reg _),
    stamp.trans (congrArg State.stamp h.only :), pick.trans (congrArg State.eventPick h.only :)⟩

/-- The end of an operation counts nothing. -/
theorem EngineEnded.fld_ops {k : TileId} {n : Nat} {r : EngRun} {err : Bool} {detail : List Byte} {s t : State} (h : EngineEnded k n r err detail s t) (e : Bool) :
    t.fld (tfld k (opsFld n e)) = s.fld (tfld k (opsFld n e)) := by
  have low := engStat_lt n
  have kept := h.regs (engStat n + 0x18 + tileBase k) (tileOff_not_event (by omega)) (by omega)
  exact congrArg (fun v => bitsOf v (opsFld n e).hi (opsFld n e).lo) kept

section
variable {k : TileId} {n : Nat} {r : EngRun} {s : State} (hq : memQuiet s = true) (hm : memoriesWf s) (late : (s.tile k).lateOwed = [])
  (fresh : (s.tile k).statusOf n r.ticket = none) (room : ∀ a, r.crec = some a → a + 64 ≤ 0x800000) {b detail : List Byte} {err : Bool}
include hq hm late fresh room

theorem Completes.operationEnded {t : State} (h : Completes k n r b detail err s t) : OperationEnded k n r b detail err s t := by
  obtain ⟨u, books, counted, rfl⟩ := h.ends
  have stored := State.recorded_stored (k := k) hq hm.1 room h.short
  have booked := stored.booked books
  have ended := State.endEng_ended (s := u) (by rw [booked.tiles.tile]; exact late) (by rw [booked.tiles.tile]; exact fresh) err detail
  have bit : u.bit (tfld k (engErr n)) = s.bit (tfld k (engErr n)) := congrArg (fun v : BitVec 64 => bitsOf v 0 0 != 0) booked.stat
  refine ⟨ended.idle, ended.status, by rw [ended.queue, booked.tiles.tile], fun j hj => (ended.others j hj).trans (booked.tiles.tile j), fun a ha => ?_,
    ended.lastDone, fun e => ⟨(ended.calm e).1.trans bit, (ended.calm e).2.trans booked.rings⟩, fun e => ?_, fun low => ?_⟩
  · have stores : r.crec.elim [] (fun a => sramStores k [(a, b)]) = sramStores k (recordStores r.crec b) := by cases r.crec <;> rfl
    rw [stores]
    exact (congrFun ended.bytes a).trans (booked.memory a ha)
  · obtain ⟨set, first, event⟩ := ended.noted e
    exact ⟨set, fun clear => first (bit.trans clear), raised_of_stamp booked.stamp event⟩
  · have before : (s.recorded k r.crec b).fld (tfld k (opsFld n err)) = s.fld (tfld k (opsFld n err)) :=
      congrArg (fun v => bitsOf v (opsFld n err).hi (opsFld n err).lo) (stored.reg _)
    rw [ended.fld_ops, counted low, before]

/-- A completion command, by what it makes of a running operation. -/
theorem Completes.command {c : Instr} {f : EngRun → State} {fails : Prop} {stores : List (Nat × Byte)} {done failed : Fld}
    (h : Completes k n r b detail err s (f r)) (run : exec c s = .next (((s.tile k).running n).elim s f)) (hf : fails ↔ err = true)
    (ops : n < 3 → done = opsFld n false ∧ failed = opsFld n true) (hw : r.crec.elim [] (fun a => sramStores k [(a, b)]) = stores) :
    let up := fun (t : State) (f : Fld) => t.fld (tfld k f) = (s.fld (tfld k f) + 1) % 2 ^ 32
    ((s.tile k).running n = some r →
      ∃ t, exec c s = .next t ∧ (t.tile k).running n = none ∧ (t.tile k).statusOf n r.ticket = some r.status ∧
        t.fld (tfld k (engLastDone n)) = r.ticket.toNat ∧ memoryAfter s t stores ∧ (t.tile k).queue n = (s.tile k).queue n ∧ otherTiles k s t ∧
        (¬fails → t.bit (tfld k (engErr n)) = s.bit (tfld k (engErr n)) ∧ t.rings = s.rings ∧ (n < 3 → up t done)) ∧
        (fails → t.bit (tfld k (engErr n)) = true ∧ (s.bit (tfld k (engErr n)) = false → t.fld (tfld k (engFirst n)) = r.status.toNat) ∧
          (n < 3 → up t failed) ∧ raised s t (tileSrc k) r.status detail false)) ∧
    ((s.tile k).running n = none → exec c s = .next s) := by
  obtain ⟨idle, status, queue, others, memory, lastDone, calm, noted, counted⟩ := h.operationEnded hq hm late fresh room
  refine ⟨fun busy => ⟨f r, by rw [run, busy]; rfl, idle, status, lastDone, hw ▸ memory, queue, others, fun fine => ?_, fun wrong => ?_⟩,
    fun none => by rw [run, none]; rfl⟩
  · have fine : err = false := Bool.eq_false_iff.2 (fun e => fine (hf.2 e))
    obtain ⟨bit, rings⟩ := calm fine
    exact ⟨bit, rings, fun low => (ops low).1 ▸ fine ▸ counted low⟩
  · have wrong : err = true := hf.1 wrong
    obtain ⟨bit, first, event⟩ := noted wrong
    exact ⟨bit, first, fun low => (ops low).2 ▸ wrong ▸ counted low, event⟩

end

/-- Settles O35: each completion writes its record, counts, and then ends the operation in one way. -/
theorem engineCompletions : Obligations.EngineCompletions := by
  intro k n r bank withheld s hq hm late fresh room
  obtain rfl | rfl | rfl | rfl : n = 0 ∨ n = 1 ∨ n = 2 ∨ n = 3 := by omega
  · exact (s.tensorEnd_completes k r bank withheld).command (n := 0) hq hm late fresh room (exec_tensorComplete k bank withheld s) bne_iff_ne.symm
      (fun _ => ⟨rfl, rfl⟩) (by cases r.crec; exacts [Option.elim_none _ _, Option.elim_some _ _ _])
  · exact (s.elemEnd_completes k r bank withheld).command (n := 1) hq hm late fresh room (exec_elemComplete k bank withheld s) bne_iff_ne.symm
      (fun _ => ⟨rfl, rfl⟩) (by cases r.crec; exacts [Option.elim_none _ _, Option.elim_some _ _ _])
  · exact (s.solverEnd_completes k r bank withheld).command (n := 2) hq hm late fresh room (exec_solverComplete k bank withheld s) Iff.rfl
      (fun _ => ⟨rfl, rfl⟩) (by cases r.crec; exacts [Option.elim_none _ _, Option.elim_some _ _ _])
  · exact (s.bobEnd_completes k r).command (n := 3) hq hm late fresh room (exec_bobbinComplete k s) bne_iff_ne.symm
      (fun low => absurd low (by decide)) (by cases r.crec; exacts [Option.elim_none _ _, Option.elim_some _ _ _])

end Sys2Proof.Machine
end

section
/-! Bobbin stacks (R205 to R213): BOBBIN_TOP, and what PUSH, POP and RESET make of them. Where an entry stands is the model's layout of
assumption log 17. -/

namespace Sys2Proof.Machine

/-! ### Stacks and BOBBIN_TOP -/

/-- Stack n of tile k is l, and BOBBIN_TOP shows it. -/
def stackShows (k : TileId) (n : Nat) (l : List BobEntry) (t : State) : Prop :=
  (t.tile k).bobStack n = l ∧ t.fld ((tfld k F.BOBBIN_TOP_DEPTH).plus (8 * n)) = l.length % 2 ^ 24 ∧
    t.fld ((tfld k F.BOBBIN_TOP_USED).plus (8 * n)) = (l.map BobEntry.occ).sum % 2 ^ 40

/-- Between s and t every byte of memory, the bobbin queue of tile k and every other tile have stayed. -/
structure StacksOnly (k : TileId) (s t : State) : Prop where
  bytes : t.byteAt = s.byteAt
  queue : (t.tile k).queue 3 = (s.tile k).queue 3
  others : otherTiles k s t

section
variable {k : TileId} {s t u : State}

theorem StacksOnly.refl (s : State) : StacksOnly k s s := ⟨rfl, rfl, fun _ _ => rfl⟩

theorem StacksOnly.trans (h : StacksOnly k s t) (g : StacksOnly k t u) : StacksOnly k s u :=
  ⟨g.bytes.trans h.bytes, g.queue.trans h.queue, fun j hj => (g.others j hj).trans (h.others j hj)⟩

theorem StacksOnly.setFld (h : StacksOnly k s t) (f : Fld) (v : Nat) : StacksOnly k s (t.setFld f v) := ⟨h.bytes, h.queue, h.others⟩

theorem topDepth_eq (k : TileId) (n : Nat) : (tfld k F.BOBBIN_TOP_DEPTH).plus (8 * n) = tfld k ⟨0x5040 + 8 * n, 63, 40⟩ :=
  congrArg (Fld.mk · 63 40) (Nat.add_right_comm ..)

theorem topUsed_eq (k : TileId) (n : Nat) : (tfld k F.BOBBIN_TOP_USED).plus (8 * n) = tfld k ⟨0x5040 + 8 * n, 39, 0⟩ :=
  congrArg (Fld.mk · 39 0) (Nat.add_right_comm ..)

/-- A tile whose stack n is l. -/
def Tile.withStack (x : Tile) (n : Nat) (l : List BobEntry) : Tile := { x with bobStacks := Tab.set n l x.bobStacks }

theorem State.setStack_eq (s : State) (k : TileId) (n : Nat) (l : List BobEntry) : s.setStack k n l =
    ((s.modTile k (·.withStack n l)).setFld (tfld k ⟨0x5040 + 8 * n, 63, 40⟩) l.length).setFld (tfld k ⟨0x5040 + 8 * n, 39, 0⟩) (l.map BobEntry.occ).sum := by
  rw [State.setStack, topDepth_eq, topUsed_eq]
  rfl

theorem State.tile_setStack (s : State) (k : TileId) (n : Nat) (l : List BobEntry) : (s.setStack k n l).tile k = (s.tile k).withStack n l :=
  s.tile_modTile_same k (·.withStack n l)

theorem State.setStack_only (s : State) (k : TileId) (n : Nat) (l : List BobEntry) : StacksOnly k s (s.setStack k n l) :=
  ⟨rfl, (congrArg (Tile.queue · 3) (s.tile_setStack k n l) :), s.otherTiles_modTile k (·.withStack n l)⟩

theorem State.bobStack_setStack (s : State) (k : TileId) (n j : Nat) (l : List BobEntry) :
    ((s.setStack k n l).tile k).bobStack j = if j = n then l else (s.tile k).bobStack j := by
  rw [State.tile_setStack]
  exact Tab.get_set ..

theorem State.setStack_shows (s : State) (k : TileId) (n : Nat) (l : List BobEntry) : stackShows k n l (s.setStack k n l) := by
  refine ⟨(s.bobStack_setStack k n n l).trans (if_pos rfl), ?_, ?_⟩
  · rw [State.setStack_eq, topDepth_eq, State.fld_set_tfld_other _ k _ (Nat.zero_le 39) (show 39 < 64 by decide) (show 40 ≤ 63 by decide)
      (.inr (.inr (show 39 < 40 by decide)))]
    exact State.fld_set_tfld _ k _ (show 40 ≤ 63 by decide) (show 63 < 64 by decide)
  · rw [State.setStack_eq, topUsed_eq]
    exact State.fld_set_tfld _ k _ (Nat.zero_le 39) (show 39 < 64 by decide)

/-- A field outside a stack's BOBBIN_TOP changes nothing of what that shows. -/
theorem stackShows.setOther {n : Nat} {l : List BobEntry} (h : stackShows k n l s) {f : Fld} (v : Nat) (hf : f.off ≠ 0x5040 + 8 * n) :
    stackShows k n l (s.setFld (tfld k f) v) := by
  have other : ∀ a b, (s.setFld (tfld k f) v).fld (tfld k ⟨0x5040 + 8 * n, a, b⟩) = s.fld (tfld k ⟨0x5040 + 8 * n, a, b⟩) := fun a b => by
    rw [State.fld, State.fld, State.reg_setFld_ne _ _ _ _ (fun e => hf (Nat.add_right_cancel e).symm)]
  obtain ⟨stack, depth, used⟩ := h
  rw [topDepth_eq] at depth
  rw [topUsed_eq] at used
  refine ⟨stack, ?_, ?_⟩
  · rw [topDepth_eq, other, depth]
  · rw [topUsed_eq, other, used]

/-- BOBBIN_TOP of another stack is another register. -/
theorem stackShows.setStack_other {n j : Nat} {l : List BobEntry} (h : stackShows k n l s) (hj : n ≠ j) (m : List BobEntry) :
    stackShows k n l (s.setStack k j m) := by
  have moved : stackShows k n l (s.modTile k (·.withStack j m)) :=
    ⟨(s.bobStack_setStack k j n m).trans ((if_neg hj).trans h.1), h.2⟩
  rw [State.setStack_eq]
  exact (moved.setOther (f := ⟨0x5040 + 8 * j, 63, 40⟩) _ (by simp only []; omega)).setOther _ (by simp only []; omega)

/-- Stacks that have been emptied one after the other. -/
theorem State.clearStacks_shows (l : List Nat) (s : State) : StacksOnly k s (l.foldl (fun s n => s.setStack k n []) s) ∧
    ∀ n, n ∈ l ∨ stackShows k n [] s → stackShows k n [] (l.foldl (fun s n => s.setStack k n []) s) := by
  induction l generalizing s with
  | nil => exact ⟨.refl s, fun n h => h.resolve_left List.not_mem_nil⟩
  | cons m l ih =>
    obtain ⟨only, empty⟩ := ih (s.setStack k m [])
    refine ⟨(s.setStack_only k m []).trans only, fun n h => empty n ?_⟩
    by_cases hn : n = m
    · exact .inr (hn ▸ s.setStack_shows k m [])
    · exact h.imp (fun h => (List.mem_cons.1 h).resolve_left hn) (fun h => h.setStack_other hn [])

/-! ### The start of a bobbin operation -/

/-- Command c takes e off the bobbin queue of tile k, and its operation runs with a status. -/
def bobRuns (s : State) (k : TileId) (e : QEntry) (c : Instr) (st : Status) (t : State) : Prop :=
  ∃ r, exec c s = .next t ∧ engineStarted s t k 3 r ∧ r.status = st ∧ r.ticket = e.ticket

variable {e : QEntry} {c : Instr} {st : Status} {crec : Option Nat} {stack tag len flags : Nat}

theorem StacksOnly.bobRuns (h : StacksOnly k t u) (tiles : SameTiles s t) (run : exec c s = .next (u.startBob k e st crec stack tag len flags)) :
    bobRuns s k e c st (u.startBob k e st crec stack tag len flags) :=
  ⟨_, run, State.startEng_started (h.queue.trans (congrArg (Tile.queue · 3) (tiles.tile k))) (fun j hj => (h.others j hj).trans (tiles.tile j)) _, rfl, rfl⟩

theorem State.bobStack_startBob (s : State) (n : Nat) :
    ((s.startBob k e st crec stack tag len flags).tile k).bobStack n = (s.tile k).bobStack n := (congrArg (Tile.bobStack · n) (s.tile_modTile_same k _) :)

theorem State.byteAt_startBob (s : State) (a : Nat) : (s.startBob k e st crec stack tag len flags).byteAt a = s.byteAt a := rfl

theorem stackShows.startBob {n : Nat} {l : List BobEntry} (h : stackShows k n l s) : stackShows k n l (s.startBob k e st crec stack tag len flags) :=
  ⟨(s.bobStack_startBob n).trans h.1, h.2⟩

/-- An operation that fails with FAULTED leaves memory and the stacks. -/
theorem State.bobFault_faults (run : exec c s = .next ((s.bobFault k).startBob k e st crec stack tag len flags)) (n : Nat) :
    ∃ t, bobRuns s k e c st t ∧ t.bit (tfld k F.BOBBIN_STAT_FAULTED) = true ∧ sameMemory s t ∧ (t.tile k).bobStack n = (s.tile k).bobStack n :=
  ⟨_, ((StacksOnly.refl s).setFld _ _).bobRuns (.refl s) run, s.bit_set_tfld k 1 (by decide) (by decide), fun _ => rfl,
    (s.bobFault k).bobStack_startBob n⟩

end

/-! ### The commands -/

/-- A descriptor at the head of the bobbin queue that passes the checks of Table 5-5. -/
structure BobHead (s : State) (k : TileId) (e : QEntry) : Prop where
  head : s.engHead k 3 = some e
  readable : e.bad = false
  checked : s.bobCheck k (BobDesc.of e.desc) = none

section
variable {s : State} {k : TileId} {e : QEntry}

theorem BobHead.bobRun (h : BobHead s k e) {n : Nat} (op : (BobDesc.of e.desc).op = n) : s.bobRun k n =
    if n = 1 then s.bobPush k e (BobDesc.of e.desc) else if n = 2 then s.bobPop k e (BobDesc.of e.desc) else s.bobClear k e (BobDesc.of e.desc) := by
  simp only [State.bobRun, h.head, h.checked]
  rw [if_neg (ne_true_of_eq_false h.readable), if_neg (fun other => other.2.2 op), op]

theorem BobHead.exec_push (h : BobHead s k e) (op : (BobDesc.of e.desc).op = 1) : exec (.push k) s = .next (s.bobPush k e (BobDesc.of e.desc)) :=
  congrArg Host.Outcome.next (h.bobRun op)

theorem BobHead.exec_pop (h : BobHead s k e) (op : (BobDesc.of e.desc).op = 2) : exec (.pop k) s = .next (s.bobPop k e (BobDesc.of e.desc)) :=
  congrArg Host.Outcome.next (h.bobRun op)

theorem BobHead.exec_bobbinReset (h : BobHead s k e) (op : (BobDesc.of e.desc).op = 3) : exec (.bobbinReset k) s = .next (s.bobClear k e (BobDesc.of e.desc)) :=
  congrArg Host.Outcome.next (h.bobRun op)

/-- The payload of a descriptor that passes check 2 lies in partitions of the bobbin controller. -/
theorem State.inParts_of_bobCheck {x : BobDesc} (h : s.bobCheck k x = none) : (s.tile k).inParts 3 x.sram x.len = true := by
  unfold State.bobCheck at h
  simp only [] at h
  split at h
  · cases h
  split at h
  · cases h
  next fields =>
    simp only [Bool.or_eq_true, not_or] at fields
    simpa using fields.2

/-! ### PUSH -/

/-- The payload of a PUSH. -/
def State.pushPayload (s : State) (k : TileId) (x : BobDesc) : List Byte := if x.drop then [] else s.sram k x.sram x.len

/-- What a PUSH stores: the header of R206 and the payload. -/
def State.pushImage (s : State) (k : TileId) (x : BobDesc) : List Byte :=
  bobHeader x.tag x.len x.drop ((((s.tile k).bobStack x.stack).head?.map BobEntry.off).getD (2 ^ 64 - 1)) ++ s.pushPayload k x

theorem State.pushImage_length (s : State) (k : TileId) (x : BobDesc) : (s.pushImage k x).length = 64 + (s.pushPayload k x).length := by
  simp [State.pushImage, bobHeader]
  omega

/-- A PUSH that finds no place. -/
theorem State.bobPush_full {x : BobDesc} (h : bobPlace (s.hbmShare k) (s.lpShare k) (bobOcc x.len x.drop) ((s.tile k).bobStack x.stack) = none) :
    s.bobPush k e x = (s.bobFault k).startBob k e 0x0410 (some x.crec) x.stack 0 0 0 := by
  simp only [State.bobPush, h]

/-- A PUSH that fits, where no word is poisoned. -/
theorem State.bobPush_fits {x : BobDesc} {o : Nat}
    (h : bobPlace (s.hbmShare k) (s.lpShare k) (bobOcc x.len x.drop) ((s.tile k).bobStack x.stack) = some o) (hp : s.poison = [])
    (ok : s.memStatus (s.bobAddr k x.stack o) (64 + (s.pushPayload k x).length) = St.ok) :
    ∃ flags, s.bobPush k e x = ((s.writeBytes (s.bobAddr k x.stack o) (s.pushImage k x)).setStack k x.stack
      (⟨o, bobOcc x.len x.drop, x.tag, x.len, x.drop⟩ :: (s.tile k).bobStack x.stack)).startBob k e St.ok (some x.crec) x.stack x.tag x.len flags := by
  refine ⟨if o < s.hbmShare k then 0 else 2, ?_⟩
  simp only [State.bobPush, h, State.sramBad_clean hp, Bool.and_false]
  rw [if_neg Bool.false_ne_true, ← State.pushPayload, if_neg (not_not_intro ok), State.pushImage]
  cases (s.tile k).bobStack x.stack <;> rfl

/-- Bytes stored from an address below 2 ^ 48 upward. -/
theorem Stored.memoryAfter {t : State} {a : Nat} {d : List Byte} (h : Stored s t a d) (ha : a < 2 ^ 48) :
    memoryAfter s t (storedBytes [⟨BitVec.ofNat 64 a, d.length⟩] d) := by
  have addr : localAddr (BitVec.ofNat 64 a) = a := by
    simp only [localAddr, bitsOf, BitVec.toNat_ofNat]
    omega
  intro x _
  rw [h.reads]
  simp only [storedBytes, List.flatMap_cons, List.flatMap_nil, List.append_nil, addr, afterStores_run]

/-- A PUSH that fits makes its entry the top, and stores its header and payload at the place of R207. -/
theorem State.bobPush_stored {c : Instr} {x : BobDesc} {o : Nat} (run : exec c s = .next (s.bobPush k e x))
    (h : bobPlace (s.hbmShare k) (s.lpShare k) (bobOcc x.len x.drop) ((s.tile k).bobStack x.stack) = some o)
    (hq : memQuiet s = true) (hm : memoriesWf s) (hw : s.wcb = []) (ok : s.memStatus (s.bobAddr k x.stack o) (64 + (s.pushPayload k x).length) = St.ok) :
    ∃ t, bobRuns s k e c St.ok t ∧ stackShows k x.stack (⟨o, bobOcc x.len x.drop, x.tag, x.len, x.drop⟩ :: (s.tile k).bobStack x.stack) t ∧
      memoryAfter s t (storedBytes [⟨BitVec.ofNat 64 (s.bobAddr k x.stack o), 64 + (s.pushPayload k x).length⟩] (s.pushImage k x)) := by
  obtain ⟨dirty, held, poison⟩ := memQuiet_iff.1 hq
  obtain ⟨flags, push⟩ := State.bobPush_fits (e := e) h poison ok
  have sound : NodeSound s := ⟨WcbSound.of_empty hm.1 poison hw _, dirty, by simp [held]⟩
  have kind := State.oneKind_of_memStatus (by omega) ok
  have below : s.bobAddr k x.stack o < 2 ^ 48 := by
    simp only [oneKind, sramWindow] at kind
    omega
  rw [← State.pushImage_length] at kind ⊢
  have only := (s.writeBytes (s.bobAddr k x.stack o) (s.pushImage k x)).setStack_only k x.stack
    (⟨o, bobOcc x.len x.drop, x.tag, x.len, x.drop⟩ :: (s.tile k).bobStack x.stack)
  refine ⟨_, only.bobRuns (s.writeBytes_memoryOnly _ _).tiles (run.trans (congrArg _ push)), (State.setStack_shows _ _ _ _).startBob, fun a ha => ?_⟩
  exact ((State.byteAt_startBob _ a).trans (congrFun only.bytes a)).trans ((sound.writeBytes kind).memoryAfter below a ha)

/-! ### POP -/

/-- A POP of an empty stack. -/
theorem State.bobPop_empty {x : BobDesc} (h : (s.tile k).bobStack x.stack = []) :
    s.bobPop k e x = (s.bobFault k).startBob k e 0x0411 (some x.crec) x.stack 0 0 0 := by simp only [State.bobPop, h]

section
variable {x : BobDesc} {p : BobEntry} {rest : List BobEntry} (h : (s.tile k).bobStack x.stack = p :: rest)
include h

/-- A POP that expects another TAG. -/
theorem State.bobPop_otherTag (tag : p.tag ≠ x.tag) : s.bobPop k e x = (s.bobFault k).startBob k e 0x0412 (some x.crec) x.stack p.tag 0 0 := by
  simp only [State.bobPop, h]
  rw [if_pos tag]

/-- A POP that expects another LEN. -/
theorem State.bobPop_otherLen (tag : p.tag = x.tag) (len : p.len ≠ x.len) :
    s.bobPop k e x = (s.bobFault k).startBob k e 0x0413 (some x.crec) x.stack p.tag 0 0 := by
  simp only [State.bobPop, h]
  rw [if_neg (not_not_intro tag), if_pos len]

/-- A POP that expects the top, where no word is poisoned. -/
theorem State.bobPop_takes (tag : p.tag = x.tag) (len : p.len = x.len) (hp : s.poison = [])
    (ok : s.memStatus (s.bobAddr k x.stack p.off) (64 + if p.drop then 0 else p.len) = St.ok) :
    ∃ flags, s.bobPop k e x = ((if p.drop then s else s.sramWrite k x.sram (s.bytes (s.bobAddr k x.stack p.off + 64) p.len)).setStack k x.stack
      rest).startBob k e St.ok (some x.crec) x.stack p.tag p.len flags := by
  have clean : ∀ a n, s.badRead a n = false := fun a n => by simp [State.badRead, State.badByte, hp]
  refine ⟨(if p.off < s.hbmShare k then 0 else 2) + natOf p.drop, ?_⟩
  simp only [State.bobPop, h, clean]
  rw [if_neg (not_not_intro tag), if_neg (not_not_intro len), if_neg (not_not_intro ok), if_neg Bool.false_ne_true]

end

/-- A store into a tile's SRAM within its partitions, where nothing waits outside memory. -/
theorem State.sramWrite_stored {n a : Nat} {d : List Byte} (hi : (s.tile k).inParts n a d.length = true) (hq : memQuiet s = true) (hm : s.mem.wf = true) :
    SramStored k [(a, d)] s (s.sramWrite k a d) := by
  by_cases none : d = []
  · subst none
    exact ⟨rfl, fun _ _ => rfl⟩
  · exact State.sramWrites_stored (l := [(a, d)]) (by simpa using Tile.inParts_le hi (List.length_pos_iff.2 none)) hq hm

section
variable {c : Instr} {x : BobDesc} {p : BobEntry} {rest : List BobEntry} (run : exec c s = .next (s.bobPop k e x))
  (h : (s.tile k).bobStack x.stack = p :: rest) (tag : p.tag = x.tag) (len : p.len = x.len) (hq : memQuiet s = true)
include run h tag len hq

/-- A POP of the top removes it and copies its payload to SRAM. -/
theorem State.bobPop_stored (drop : p.drop = false) (hm : memoriesWf s) (hi : (s.tile k).inParts 3 x.sram x.len = true)
    (ok : s.memStatus (s.bobAddr k x.stack p.off) (64 + p.len) = St.ok) :
    ∃ t, bobRuns s k e c St.ok t ∧ stackShows k x.stack rest t ∧
      memoryAfter s t (sramStores k [(x.sram, s.bytes (s.bobAddr k x.stack p.off + 64) p.len)]) := by
  obtain ⟨flags, pop⟩ := State.bobPop_takes (e := e) h tag len (memQuiet_iff.1 hq).2.2 (by rwa [drop])
  rw [drop, if_neg Bool.false_ne_true] at pop
  have stored := State.sramWrite_stored (d := s.bytes (s.bobAddr k x.stack p.off + 64) p.len) (by rwa [State.bytes_length, len]) hq hm.1
  have only := (s.sramWrite k x.sram (s.bytes (s.bobAddr k x.stack p.off + 64) p.len)).setStack_only k x.stack rest
  refine ⟨_, only.bobRuns (congrArg State.tiles stored.only :) (run.trans (congrArg _ pop)), (State.setStack_shows _ _ _ _).startBob, fun a ha => ?_⟩
  exact ((State.byteAt_startBob _ a).trans (congrFun only.bytes a)).trans (stored.reads a ha)

/-- A POP of an entry without payload removes it, and changes no memory (R211). -/
theorem State.bobPop_dropped (drop : p.drop = true) (ok : s.memStatus (s.bobAddr k x.stack p.off) 64 = St.ok) :
    ∃ t, bobRuns s k e c St.ok t ∧ stackShows k x.stack rest t ∧ sameMemory s t := by
  obtain ⟨flags, pop⟩ := State.bobPop_takes (e := e) h tag len (memQuiet_iff.1 hq).2.2 (by rwa [drop])
  rw [drop, if_pos rfl] at pop
  have only := s.setStack_only k x.stack rest
  exact ⟨_, only.bobRuns (.refl s) (run.trans (congrArg _ pop)), (State.setStack_shows _ _ _ _).startBob,
    fun a => (State.byteAt_startBob _ a).trans (congrFun only.bytes a)⟩

end

/-! ### RESET -/

/-- The stacks that a RESET empties. -/
def BobDesc.cleared (x : BobDesc) : List Nat := if x.all then [0, 1, 2, 3] else [x.stack]

theorem BobDesc.mem_cleared_of_all {x : BobDesc} (h : x.all = true) {n : Nat} (hn : n < 4) : n ∈ x.cleared := by
  rw [BobDesc.cleared, if_pos h]
  exact List.mem_range.2 hn

/-- A descriptor names one of the four stacks. -/
theorem BobDesc.stack_mem_cleared (d : List Byte) : (BobDesc.of d).stack ∈ (BobDesc.of d).cleared := by
  cases all : (BobDesc.of d).all with
  | true => exact mem_cleared_of_all all (Nat.mod_lt _ (by decide))
  | false => exact (congrArg ((BobDesc.of d).stack ∈ ·) (if_neg (ne_true_of_eq_false all))).mpr (List.mem_singleton_self _)

theorem State.bobClear_eq (x : BobDesc) : s.bobClear k e x =
    ((x.cleared.foldl (fun s n => s.setStack k n []) s).setFld (tfld k F.BOBBIN_STAT_FAULTED) 0).startBob k e St.ok (some x.crec) x.stack 0 0 0 := by
  unfold State.bobClear BobDesc.cleared
  cases x.all <;> rfl

/-- A RESET empties its stacks, clears FAULTED and leaves memory. -/
theorem State.bobClear_cleared {c : Instr} {x : BobDesc} (run : exec c s = .next (s.bobClear k e x)) :
    ∃ t, bobRuns s k e c St.ok t ∧ (∀ n ∈ x.cleared, stackShows k n [] t) ∧ t.bit (tfld k F.BOBBIN_STAT_FAULTED) = false ∧ sameMemory s t := by
  obtain ⟨only, empty⟩ := State.clearStacks_shows (k := k) x.cleared s
  have apart : ∀ n, F.BOBBIN_STAT_FAULTED.off ≠ 0x5040 + 8 * n := fun n => by simp only [F.BOBBIN_STAT_FAULTED]; omega
  rw [State.bobClear_eq] at run
  exact ⟨_, (only.setFld _ _).bobRuns (.refl s) run, fun n hn => ((empty n (.inl hn)).setOther 0 (apart n)).startBob,
    State.bit_set_tfld _ k 0 (by decide) (by decide),
    fun a => (State.byteAt_startBob _ a).trans (congrFun only.bytes a)⟩

end

end Sys2Proof.Machine
end

section
/-! The product schedule (R182 to R189): what the runtime does at a tile where no issued entry is outstanding and the head of the FWD list
is ready. -/

namespace Sys2Proof.Machine

/-! ### A tile written as it reads -/

/-- The state that lists tile k as it reads. -/
def State.relisted (s : State) (k : TileId) : State := s.setTile k (s.tile k)

section
variable (s : State) (k : TileId)

theorem State.tile_relisted (j : TileId) : (s.relisted k).tile j = s.tile j := by
  by_cases own : j = k
  · rw [own]
    exact s.tile_setTile_same k _
  · exact s.tile_setTile_other k j _ own

theorem State.relisted_only : tileOnly k s (s.relisted k) := ⟨rfl, fun j _ => s.tile_relisted k j⟩

theorem State.schedEntry_relisted (h : SchedHdr) (l : Nat) : (s.relisted k).schedEntry k h l = s.schedEntry k h l := by
  unfold State.schedEntry
  rw [State.tile_relisted]
  rfl

theorem State.headReady_relisted (l : Nat) (e : ProdEntry) : (s.relisted k).headReady k l e = s.headReady k l e := by
  unfold State.headReady State.ctrReady
  rw [State.tile_relisted]
  rfl

theorem State.lowestMb_relisted (h : SchedHdr) : (s.relisted k).lowestMb k h = s.lowestMb k h := by
  unfold State.lowestMb
  rw [State.tile_relisted]
  rfl

theorem State.pickList_relisted (h : SchedHdr) : (s.relisted k).pickList k h = s.pickList k h := by
  simp only [State.pickList, State.schedEntry_relisted, State.headReady_relisted, State.lowestMb_relisted, State.tile_relisted]

theorem State.issuePop_relisted {h : SchedHdr} (none : s.issuePop k h = none) : (s.relisted k).issuePop k h = .none := by
  unfold State.issuePop at none ⊢
  rw [State.schedEntry_relisted]
  cases entry : s.schedEntry k h 1 with
  | none => rfl
  | some e =>
    simp only [entry, State.tile_relisted] at none ⊢
    split at none
    · cases none
    · next idle => rw [if_neg idle]

end

/-! ### One action of the runtime -/

section
variable {s : State} {k : TileId} {h : SchedHdr}

/-- With nothing outstanding, no pop and no failure there is nothing to settle. -/
theorem State.settle_idle (out : (s.tile k).sched.out = []) (pop : (s.tile k).sched.pop = none) (failed : (s.tile k).sched.failed = none) :
    (s.settlePop k h).settleAll k h = s.relisted k := by
  have popped : s.settlePop k h = s := by
    unfold State.settlePop
    rw [pop]
    split
    · next e => cases e
    · rfl
  have kept : s.modTile k (fun x => { x with sched := { x.sched with out := [] } }) = s.relisted k := by
    have same : { s.tile k with sched := { (s.tile k).sched with out := [] } } = s.tile k := by rw [← out]
    exact congrArg (s.setTile k) same
  rw [popped, State.settleAll, out, kept]
  simp only [List.foldl_nil, State.tile_relisted, failed]

/-- The runtime of such a tile, where no pop is to be issued, takes the head of the list that R190 names. -/
theorem State.schedStep_takes {l : Nat} {e : ProdEntry} (out : (s.tile k).sched.out = []) (failed : (s.tile k).sched.failed = none)
    (going : (s.tile k).sched.stopUntil = none) (pop : (s.tile k).sched.pop = none) (noPop : s.issuePop k (s.tile k).schedHdr = none)
    (list : s.pickList k (s.tile k).schedHdr = some l) (entry : s.schedEntry k (s.tile k).schedHdr l = some e) (ready : s.headReady k l e = true)
    (room : (s.tile k).engRoom (s.tile k).schedHdr e.engine = true) :
    s.schedStep k = (s.relisted k).issueHead k (s.tile k).schedHdr l e := by
  simp only [State.schedStep, State.settle_idle out pop failed, State.tile_relisted, failed, going, State.issuePop_relisted s k noPop,
    State.pickList_relisted, list, State.schedEntry_relisted, entry, State.headReady_relisted, ready, room]
  simp

/-- The schedule of a tile after the head of the FWD list has been issued to an engine with a ticket. -/
def Sched.issuedFwd (q : Sched) (engine : Nat) (n : Word) : Sched := { (q.addOut 0 (q.at_ 0) engine n).step_ 0 with parts := [] }

theorem Sched.issuedFwd_at (q : Sched) (engine : Nat) (n : Word) : (q.issuedFwd engine n).at_ 0 = q.at_ 0 + 1 := by
  have same : (q.addOut 0 (q.at_ 0) engine n).at_ 0 = q.at_ 0 := by
    unfold Sched.addOut
    split <;> rfl
  rw [← same]
  exact Tab.get_set_same _ _ _ _

theorem Sched.issuedFwd_out {q : Sched} (out : q.out = []) (engine : Nat) (n : Word) : (q.issuedFwd engine n).out = [⟨0, q.at_ 0, engine, [n], none⟩] := by
  have added : q.addOut 0 (q.at_ 0) engine n = { q with out := [⟨0, q.at_ 0, engine, [n], none⟩] } := by
    unfold Sched.addOut
    rw [out]
    rfl
  unfold Sched.issuedFwd
  rw [added]
  rfl

/-- A tile whose FWD head e has been issued to its engine. -/
def Tile.issuedFwd (x : Tile) (e : ProdEntry) : Tile :=
  { x.queued e.engine e.desc e.bad with sched := x.sched.issuedFwd e.engine (BitVec.ofNat 32 (x.tickets e.engine)) }

/-- The head of the FWD list goes to an engine of the tile that has room for it. -/
theorem State.issueHead_fwd {e : ProdEntry} (room : (s.tile k).room e.engine = true) (bank : (descDg e.engine e.desc && (s.tile k).bankStall) = false)
    (unit_ : e.engine < 4) :
    s.issueHead k h 0 e = (s.setTile k ((s.tile k).queued e.engine e.desc e.bad)).setTile k ((s.tile k).issuedFwd e) := by
  have sched : ((s.tile k).queued e.engine e.desc e.bad).sched = (s.tile k).sched := Tile.queued_keeps _ _ _ Tile.sched (fun _ _ _ _ => rfl)
  unfold State.issueHead
  rw [if_neg (fun dx => absurd dx.1 (by decide))]
  simp only [ne_eq, show (0 : Nat) ≠ 2 by decide, not_false_eq_true, if_true, room, bank, Bool.not_false, Bool.and_self, State.enqueue_eq, State.noteTicket, unit_]
  rw [State.modTile, State.tile_setTile_same, sched]
  rfl

theorem State.tileOnly_setTile (s : State) (k : TileId) (x : Tile) : tileOnly k s (s.setTile k x) := ⟨rfl, fun j hj => s.tile_setTile_other k j x hj⟩

/-- The ready head of the FWD list is issued, and nothing but its tile changes. -/
theorem State.schedStep_issuesFwd {e : ProdEntry} (step : s.schedStep k = (s.relisted k).issueHead k h 0 e) (room : (s.tile k).engRoom h e.engine = true)
    (bank : (descDg e.engine e.desc && (s.tile k).bankStall) = false) (unit_ : e.engine < 4) :
    (s.schedStep k).tile k = (s.tile k).issuedFwd e ∧ tileOnly k s (s.schedStep k) := by
  have issue := State.issueHead_fwd (s := s.relisted k) (k := k) (h := h) (e := e)
  rw [State.tile_relisted] at issue
  rw [step, issue (Bool.and_eq_true_iff.1 room).2 bank unit_]
  exact ⟨State.tile_setTile_same _ _ _, tileOnly_trans (s.relisted_only k) (tileOnly_trans (State.tileOnly_setTile _ k _) (State.tileOnly_setTile _ k _))⟩

/-! ### The command -/

theorem exec_scheduleEntryIssue (runs : s.shuttleRuns k = true) (free : (s.tile k).waiting = none) (cur : (s.tile k).cur.isSome = true)
    (mb : (s.tile k).schedHdr.mbcount ≠ 0) (ok : (s.tile k).schedHdr.ok (2 ^ min 2 (s.fld (tfld k F.BOBBIN_HBM_NSTACKS))) = true)
    (alive : s.haltedNode = false) : exec (.scheduleEntryIssue k) s = .next (s.schedStep k) :=
  congrArg Host.Outcome.next (if_pos ⟨runs, free, cur, mb, ok, alive⟩)

theorem exec_scheduleEntryIssue_idle (idle : s.shuttleRuns k = false ∨ (s.tile k).waiting ≠ none ∨ (s.tile k).cur = none) :
    exec (.scheduleEntryIssue k) s = .next s := by
  refine congrArg Host.Outcome.next (if_neg ?_)
  rintro ⟨runs, free, cur, -⟩
  rcases idle with halted | waits | nothing
  · exact Bool.noConfusion (halted.symm.trans runs)
  · exact waits free
  · rw [nothing] at cur
    cases cur

end

/-! ### The statement -/

/-- Settles O36: each bobbin operation by its equation, and the runtime's step by the issue of its FWD head. -/
theorem bobbinsAndSchedule : Obligations.BobbinsAndSchedule := by
  refine ⟨fun k e s head readable => ?_, fun k e s => ?_⟩
  · intro x st top runs faults checked
    have h : BobHead s k e := ⟨head, readable, checked⟩
    refine ⟨fun op none => ?_, fun op o place => ?_, fun op empty => ?_, fun op p rest stack => ⟨?_, ?_, ?_, ?_⟩, fun op => ?_⟩
    · exact State.bobFault_faults ((h.exec_push op).trans (congrArg _ (State.bobPush_full none))) x.stack
    · exact State.bobPush_stored (h.exec_push op) place
    · exact State.bobFault_faults ((h.exec_pop op).trans (congrArg _ (State.bobPop_empty empty))) x.stack
    · exact fun tag => State.bobFault_faults ((h.exec_pop op).trans (congrArg _ (State.bobPop_otherTag stack tag))) x.stack
    · exact fun tag len => State.bobFault_faults ((h.exec_pop op).trans (congrArg _ (State.bobPop_otherLen stack tag len))) x.stack
    · exact fun tag len drop hq hm ok => State.bobPop_stored (h.exec_pop op) stack tag len hq drop hm (State.inParts_of_bobCheck checked) ok
    · exact fun tag len drop hq ok => State.bobPop_dropped (h.exec_pop op) stack tag len hq drop ok
    · obtain ⟨t, ran, empty, clear, same⟩ := State.bobClear_cleared (h.exec_bobbinReset op)
      exact ⟨t, ran, empty _ (BobDesc.stack_mem_cleared e.desc), clear, same, fun all j hj => (empty j (BobDesc.mem_cleared_of_all all hj)).1⟩
  · intro x hdr n
    refine ⟨fun runs free cur mb ok alive out failed going pop noPop list entry ready room _ bank unit_ => ?_, exec_scheduleEntryIssue_idle⟩
    obtain ⟨tile, only⟩ := State.schedStep_issuesFwd (State.schedStep_takes out failed going pop noPop list entry ready room) room bank unit_
    refine ⟨_, exec_scheduleEntryIssue runs free cur mb ok alive, ?_, ?_, ?_, ?_, ?_, only⟩ <;> rw [tile]
    · exact x.queue_queued e.desc e.bad unit_
    · exact x.tickets_queued e.desc e.bad
    · exact x.sched.issuedFwd_at e.engine n
    · exact Sched.issuedFwd_out out e.engine n
    · exact x.queued_keeps e.desc e.bad Tile.pc (fun _ _ _ _ => rfl)

end Sys2Proof.Machine
end

section
/-! Lists of stores into tile SRAM, and stores of images of the solver unit (R262 to R265). -/

namespace Sys2Proof.Machine

/-! ### What a list of stores leaves -/

theorem storedAt_sramAddr (k : TileId) (a : Nat) (d : List Byte) (o : Nat) (v : Byte) : storedAt (sramAddr k a) d (sramAddr k o) v = storedAt a d o v := by
  simp only [storedAt, sramAddr, Nat.add_assoc, Nat.add_le_add_iff_left, Nat.add_lt_add_iff_left, Nat.add_sub_add_left]

/-- What the byte at an offset is after stores in order. -/
def byteAfter (l : List (Nat × List Byte)) (o : Nat) (v : Byte) : Byte := l.foldl (fun v e => storedAt e.1 e.2 o v) v

/-- A byte that no store covers stays. -/
theorem byteAfter_outside {l : List (Nat × List Byte)} {o : Nat} (h : ∀ e ∈ l, o < e.1 ∨ e.1 + e.2.length ≤ o) (v : Byte) : byteAfter l o v = v := by
  induction l generalizing v with
  | nil => rfl
  | cons e l ih =>
    obtain ⟨first, rest⟩ := List.forall_mem_cons.1 h
    have kept : storedAt e.1 e.2 o v = v := if_neg (by omega)
    exact (congrArg (byteAfter l o) kept).trans (ih rest v)

/-- A byte of which all stores that cover it say the same, if one does or it was so before. -/
theorem byteAfter_agreed {l : List (Nat × List Byte)} {o : Nat} {w : Byte} (h : ∀ e ∈ l, e.1 ≤ o → o < e.1 + e.2.length → e.2.getD (o - e.1) 0 = w)
    {v : Byte} (hv : v = w ∨ ∃ e ∈ l, e.1 ≤ o ∧ o < e.1 + e.2.length) : byteAfter l o v = w := by
  induction l generalizing v with
  | nil => exact hv.resolve_right (fun ⟨_, mem, _⟩ => List.not_mem_nil mem)
  | cons e l ih =>
    obtain ⟨first, rest⟩ := List.forall_mem_cons.1 h
    refine ih rest (v := storedAt e.1 e.2 o v) ?_
    by_cases own : e.1 ≤ o ∧ o < e.1 + e.2.length
    · exact .inl ((if_pos own).trans (first own.1 own.2))
    · have kept : storedAt e.1 e.2 o v = v := if_neg own
      refine hv.imp kept.trans (fun ⟨f, hf, cover⟩ => ?_)
      obtain rfl | hf := List.mem_cons.1 hf
      · exact absurd cover own
      · exact ⟨f, hf, cover⟩

section
variable {s : State} {k : TileId}

theorem State.sramWrites_clean (h : s.poison = []) (l : List (Nat × List Byte)) :
    l.foldl (fun s e => s.sramWrite k e.1 e.2) s = { s with mem := l.foldl (fun m e => m.writeN (sramAddr k e.1) e.2) s.mem } := by
  induction l generalizing s with
  | nil => rfl
  | cons e l ih =>
    rw [List.foldl_cons, State.sramWrite_clean h]
    exact ih (s := { s with mem := s.mem.writeN (sramAddr k e.1) e.2 }) h

/-- Where nothing waits outside memory every byte reads as the stores in order leave it. -/
theorem State.byteAt_sramWrites (hq : memQuiet s = true) (hm : s.mem.wf = true) {l : List (Nat × List Byte)}
    (hl : ∀ e ∈ l, 0 < e.2.length → e.1 + e.2.length ≤ 0x800000) (x : Nat) :
    (l.foldl (fun s e => s.sramWrite k e.1 e.2) s).byteAt x = l.foldl (fun v e => storedAt (sramAddr k e.1) e.2 x v) (s.byteAt x) := by
  induction l generalizing s with
  | nil => rfl
  | cons e l ih =>
    obtain ⟨own, others⟩ := List.forall_mem_cons.1 hl
    have clean := State.sramWrite_clean (memQuiet_iff.1 hq).2.2 k e.1 e.2
    have first : (s.sramWrite k e.1 e.2).byteAt x = storedAt (sramAddr k e.1) e.2 x (s.byteAt x) := by
      by_cases none : e.2 = []
      · rw [clean, none]
        exact (if_neg (by simp)).symm
      · exact State.byteAt_sramWrite hq hm (own (List.length_pos_iff.2 none)) x
    rw [List.foldl_cons, List.foldl_cons, ← first]
    exact ih (by rw [clean]; exact hq) (s.wf_sramPut _ _ hm) others

/-- The stores, seen from the tile's offsets. -/
theorem State.sramByte_sramWrites (hq : memQuiet s = true) (hm : s.mem.wf = true) {l : List (Nat × List Byte)}
    (hl : ∀ e ∈ l, 0 < e.2.length → e.1 + e.2.length ≤ 0x800000) (o : Nat) :
    (l.foldl (fun s e => s.sramWrite k e.1 e.2) s).byteAt (sramAddr k o) = byteAfter l o (s.byteAt (sramAddr k o)) := by
  rw [State.byteAt_sramWrites hq hm hl]
  simp only [storedAt_sramAddr]
  rfl

/-- Bytes below the tile's SRAM stay. -/
theorem State.lowByte_sramWrites (hq : memQuiet s = true) (hm : s.mem.wf = true) {l : List (Nat × List Byte)}
    (hl : ∀ e ∈ l, 0 < e.2.length → e.1 + e.2.length ≤ 0x800000) {a : Nat} (ha : a < sramAddr k 0) :
    (l.foldl (fun s e => s.sramWrite k e.1 e.2) s).byteAt a = s.byteAt a := by
  have below : ∀ (d : List Byte) (o : Nat) (v : Byte), storedAt (sramAddr k o) d a v = v := fun d o v => if_neg (by simp only [sramAddr] at ha ⊢; omega)
  rw [State.byteAt_sramWrites hq hm hl]
  simp only [below]
  exact List.foldl_fixed l

/-- The tile's SRAM holds the list that its bytes spell. -/
theorem State.sram_of_bytes {a : Nat} {d : List Byte} (h : ∀ i, i < d.length → s.byteAt (sramAddr k (a + i)) = d.getD i 0) : s.sram k a d.length = d := by
  refine List.ext_getElem (State.bytes_length ..) (fun i hi hd => ?_)
  rw [← List.getD_eq_getElem _ 0 hi, ← List.getD_eq_getElem _ 0 hd, ← h i hd, State.sram, State.getD_bytes _ _ hd]
  exact congrArg s.byteAt (Nat.add_assoc ..)

end

/-! ### Rows of an image -/

theorem wrapN_lt (w : Nat) (i : Int) : wrapN w i < 2 ^ w := by
  have pos : (0 : Int) < ((2 ^ w : Nat) : Int) := by positivity
  have := Int.emod_lt_of_pos i pos
  have := Int.emod_nonneg i pos.ne'
  unfold wrapN
  omega

/-- The bytes of one row of an image: a value of z bytes for each column (R264). -/
def imgRow (z cols : Nat) (v : Nat → Int) : List Byte := (List.range cols).flatMap (fun j => leBytes z (wrapN (8 * z) (v j)))

theorem imgRow_length (z cols : Nat) (v : Nat → Int) : (imgRow z cols v).length = cols * z := by
  simp [imgRow, List.length_flatMap]

/-- A byte of a list made of parts of one size. -/
theorem getD_flatMap_parts {α : Type} {z : Nat} {f : α → List Byte} (hf : ∀ a, (f a).length = z) (l : List α) {j : Nat} (hj : j < l.length) {c : Nat} (hc : c < z) :
    (l.flatMap f).getD (z * j + c) 0 = (f l[j]).getD c 0 := by
  induction l generalizing j with
  | nil => cases hj
  | cons a l ih =>
    rw [List.flatMap_cons]
    cases j with
    | zero => rw [Nat.mul_zero, Nat.zero_add, List.getD_append _ _ _ _ (by rwa [hf])]; rfl
    | succ j =>
      have next : z * (j + 1) + c - (f a).length = z * j + c := by rw [hf, Nat.mul_succ]; omega
      rw [List.getD_append_right _ _ _ _ (by rw [hf, Nat.mul_succ]; omega), next]
      exact ih (by simpa using hj)

theorem imgRow_getD {z cols : Nat} (v : Nat → Int) {j : Nat} (hj : j < cols) {c : Nat} (hc : c < z) :
    (imgRow z cols v).getD (z * j + c) 0 = (leBytes z (wrapN (8 * z) (v j))).getD c 0 := by
  have part := getD_flatMap_parts (f := fun j => leBytes z (wrapN (8 * z) (v j))) (fun _ => leBytes_length _ _) (List.range cols)
    (by rwa [List.length_range]) hc
  rwa [List.getElem_range] at part

/-- The rows that storing an image writes, by their offsets. -/
def imgCells (base rows cols z : Nat) (v : Nat → Nat → Int) : List (Nat × List Byte) :=
  (List.range rows).map (fun i => (base + i * alignUp (cols * z) 64, imgRow z cols (v i)))

theorem State.storeImg_eq (s : State) (k : TileId) (base rows cols z : Nat) (v : Nat → Nat → Int) :
    s.storeImg k base rows cols z v = (imgCells base rows cols z v).foldl (fun s e => s.sramWrite k e.1 e.2) s := by
  rw [imgCells, List.foldl_map]
  rfl

end Sys2Proof.Machine
end

section
/-! The dense operations of the solver unit (R262 to R278): the rows of the output images, the checks of Table 7-3, and what an operation
stores. -/

namespace Sys2Proof.Machine

/-! ### The start of a solver operation -/

/-- The digest elements of an operation, added where it has DG (R269). -/
def State.digested (s : State) (k : TileId) (e : QEntry) (dgEn : Bool) (slot : Nat) (els : List (Nat × Nat)) : State :=
  match e.bank with
  | some p => if dgEn then s.bankAdd k p slot els else s
  | none => s

/-- A digest adds to the tile's banks alone. -/
theorem State.digested_tileOnly (s : State) (k : TileId) (e : QEntry) (dgEn : Bool) (slot : Nat) (els : List (Nat × Nat)) :
    tileOnly k s (s.digested k e dgEn slot els) ∧ ∀ n, ((s.digested k e dgEn slot els).tile k).queue n = (s.tile k).queue n := by
  have same : tileOnly k s s ∧ ∀ n, (s.tile k).queue n = (s.tile k).queue n := ⟨⟨rfl, fun _ _ => rfl⟩, fun _ => rfl⟩
  unfold State.digested
  split
  · split
    · exact s.bankAdd_tileOnly k _ slot els
    · exact same
  · exact same

/-- The start of an operation that adds to a digest changes the tile alone. -/
theorem State.digested_started {s u : State} {k : TileId} (tiles : SameTiles s u) (e : QEntry) (dgEn : Bool) (slot : Nat) (els : List (Nat × Nat)) (n : Nat) (r : EngRun) :
    engineStarted s ((u.digested k e dgEn slot els).startEng k n r) k n r ∧ tileOnly k u ((u.digested k e dgEn slot els).startEng k n r) := by
  obtain ⟨only, queue⟩ := u.digested_tileOnly k e dgEn slot els
  exact ⟨State.startEng_started ((queue n).trans (congrArg (Tile.queue · n) (tiles.tile k))) (fun j hj => (only.2 j hj).trans (tiles.tile j)) r,
    tileOnly_trans only (State.startEng_tileOnly _ k n r)⟩

section
variable {s : State} {k : TileId} {e : QEntry}

/-- The command of the operation at the head of the solver queue executes it. -/
theorem State.solvHead_runs (head : s.engHead k 2 = some e) (readable : e.bad = false) {op : Nat} (hop : (SolvDesc.of e.desc).op = op) (valid : 1 ≤ op ∧ op ≤ 8)
    (run : State → QEntry → SolvDesc → State) : s.solvHead k op run = run s e (SolvDesc.of e.desc) := by
  unfold State.solvHead
  simp only [head]
  rw [if_neg (ne_true_of_eq_false readable), if_neg (by omega), if_pos hop]

/-- The dense operations by their codes (Table 7-2). -/
def denseInstr (k : TileId) (op : Nat) : Instr :=
  if op = 1 then .chol k else if op = 2 then .ldlt k else if op = 3 then .lu k else if op = 4 then .qr k else if op = 5 then .trsv k else .mv k

theorem exec_denseInstr (head : s.engHead k 2 = some e) (readable : e.bad = false) (lo : 1 ≤ (SolvDesc.of e.desc).op) (hi : (SolvDesc.of e.desc).op ≤ 6) :
    exec (denseInstr k (SolvDesc.of e.desc).op) s = .next (s.denseRun k e (SolvDesc.of e.desc)) := by
  have runs : ∀ op, (SolvDesc.of e.desc).op = op → 1 ≤ op ∧ op ≤ 8 →
      (Host.Outcome.next (s.solvHead k op (fun s e x => s.denseRun k e x)) : Host.Outcome State Fault Refusal) = .next (s.denseRun k e (SolvDesc.of e.desc)) :=
    fun op hop valid => congrArg _ (State.solvHead_runs head readable hop valid _)
  obtain op | op | op | op | op | op : (SolvDesc.of e.desc).op = 1 ∨ (SolvDesc.of e.desc).op = 2 ∨ (SolvDesc.of e.desc).op = 3 ∨
      (SolvDesc.of e.desc).op = 4 ∨ (SolvDesc.of e.desc).op = 5 ∨ (SolvDesc.of e.desc).op = 6 := by omega
  all_goals
    rw [op]
    exact runs _ op (by decide)

/-- An operation that fails a check changes nothing but its tile. -/
theorem State.solvFail_started (s : State) (k : TileId) (e : QEntry) (st : Status) (crec : Option Nat) :
    ∃ r, engineStarted s (s.solvFail k e st crec) k 2 r ∧ r.status = st ∧ r.x3 = 0xFFFFFFFF ∧ { s.solvFail k e st crec with tiles := s.tiles } = s :=
  ⟨_, State.startEng_started rfl (fun _ _ => rfl) _, rfl, rfl, rfl⟩

end

/-! ### Places of an image's rows -/

/-- Where row a of an image of batch element b begins (R264). -/
def SolvDesc.rowAt (x : SolvDesc) (i : Img) (b a : Nat) : Nat := x.base i.slot + b * i.size + a * i.pitch

theorem Img.cols_le_pitch (i : Img) : i.cols * i.esz ≤ i.pitch := by
  unfold Img.pitch alignUp
  omega

theorem SolvDesc.rowAt_eq (x : SolvDesc) (i : Img) (b a : Nat) : x.rowAt i b a = x.base i.slot + (b * i.rows + a) * i.pitch := by
  rw [SolvDesc.rowAt, Img.size, Nat.add_mul, Nat.mul_assoc, Nat.add_assoc]

/-- A row lies in the image's region of the batch. -/
theorem SolvDesc.rowAt_add_pitch_le (x : SolvDesc) (i : Img) {b a : Nat} (hb : b < x.batch) (ha : a < i.rows) :
    x.rowAt i b a + i.pitch ≤ x.base i.slot + x.batch * i.size := by
  have row : b * i.rows + a + 1 ≤ x.batch * i.rows := by
    calc b * i.rows + a + 1 ≤ (b + 1) * i.rows := by rw [Nat.succ_mul]; omega
      _ ≤ x.batch * i.rows := Nat.mul_le_mul_right _ hb
  calc x.rowAt i b a + i.pitch = x.base i.slot + (b * i.rows + a + 1) * i.pitch := by rw [SolvDesc.rowAt_eq, Nat.succ_mul, Nat.add_assoc]
    _ ≤ x.base i.slot + x.batch * i.rows * i.pitch := Nat.add_le_add_left (Nat.mul_le_mul_right _ row) _
    _ = x.base i.slot + x.batch * i.size := by rw [Img.size, Nat.mul_assoc]

/-- Numbers written with a quotient and a remainder are written so in one way. -/
theorem quotient_unique {p q r c d : Nat} (hc : c < p) (hd : d < p) (h : q * p + c = r * p + d) : q = r := by
  have left : (q * p + c) / p = q := ((Nat.div_mod_unique (by omega)).2 ⟨by rw [Nat.mul_comm]; omega, hc⟩).1
  have right : (r * p + d) / p = r := ((Nat.div_mod_unique (by omega)).2 ⟨by rw [Nat.mul_comm]; omega, hd⟩).1
  rw [← left, h, right]

/-- Within one image an offset lies in one row of one batch element. -/
theorem SolvDesc.row_unique {x : SolvDesc} {i : Img} {b a b' a' o : Nat} (ha : a < i.rows) (ha' : a' < i.rows)
    (h : x.rowAt i b a ≤ o ∧ o < x.rowAt i b a + i.pitch) (h' : x.rowAt i b' a' ≤ o ∧ o < x.rowAt i b' a' + i.pitch) : b = b' ∧ a = a' := by
  rw [SolvDesc.rowAt_eq] at h h'
  have rows : b * i.rows + a = b' * i.rows + a' :=
    quotient_unique (p := i.pitch) (c := o - (x.base i.slot + (b * i.rows + a) * i.pitch)) (d := o - (x.base i.slot + (b' * i.rows + a') * i.pitch))
      (by omega) (by omega) (by omega)
  obtain rfl := quotient_unique ha ha' rows
  exact ⟨rfl, by omega⟩

/-! ### The checks -/

/-- Output images that pass check 6 of Table 7-3 share no byte. -/
def SolvDesc.apart (x : SolvDesc) (i j : Img) : Prop :=
  overlaps (x.base i.slot) (x.batch * i.size) (x.base j.slot) (x.batch * j.size) = false

section
variable {s : State} {k : TileId} {x : SolvDesc}

/-- The regions of an operation that passes the checks of Table 7-3. -/
theorem State.regions_of_denseCheck (h : s.denseCheck k x = none) :
    (∀ r ∈ x.regions, (s.tile k).inSolver r.1 r.2.1 = true) ∧ regionsClash x.regions (x.op == 5) x.crec = false := by
  unfold State.denseCheck at h
  simp only [] at h
  split at h
  · cases h
  split at h
  · cases h
  split at h
  · cases h
  split at h
  · cases h
  next parts =>
  split at h
  · cases h
  next clash =>
  simp only [List.any_eq_true, not_exists, not_and, Bool.not_eq_true', Bool.not_eq_false] at parts
  exact ⟨parts, Bool.eq_false_iff.2 clash⟩

/-- Regions that do not clash, of an operation other than TRSV. -/
theorem pairwise_of_regionsClash {l : List (Nat × Nat × Bool × Bool)} {crec : Nat} (h : regionsClash l false crec = false) :
    l.Pairwise (fun r q => r.2.2.2 = true → overlaps r.1 r.2.1 q.1 q.2.1 = false) := by
  rw [List.pairwise_iff_getElem]
  intro i j hi hj lt written
  have clear := Bool.eq_false_iff.2 (List.any_eq_false.1 (Bool.or_eq_false_iff.1 h).1 i (List.mem_range.2 hi))
  replace clear := List.any_eq_false.1 clear j (List.mem_range.2 hj)
  simp only [List.getElem?_eq_getElem hi, List.getElem?_eq_getElem hj] at clear
  simpa [written, Nat.ne_of_lt lt] using clear

/-- The output images of an operation that passes the checks. -/
theorem State.outs_apart (h : s.denseCheck k x = none) : (x.imgs.filter Img.wr).Pairwise x.apart := by
  by_cases trsv : x.op = 5
  · have one : ∃ i, x.imgs.filter Img.wr = [i] := by
      simp only [SolvDesc.imgs, trsv]
      split <;> exact ⟨_, rfl⟩
    obtain ⟨i, one⟩ := one
    rw [one]
    exact List.pairwise_singleton _ _
  · have clash := (State.regions_of_denseCheck h).2
    rw [show (x.op == 5) = false by simpa using trsv] at clash
    have apart := List.pairwise_map.1 (pairwise_of_regionsClash clash)
    exact (apart.filter Img.wr).imp_of_mem (fun hi _ clear => clear (List.mem_filter.1 hi).2)

/-- An offset lies in one row of one output image of one batch element. -/
theorem State.outRow_unique (h : s.denseCheck k x = none) {n m : Nat} {i j : Img} (hn : (x.imgs.filter Img.wr)[n]? = some i)
    (hm : (x.imgs.filter Img.wr)[m]? = some j) {b a c d o : Nat} (hb : b < x.batch) (hc : c < x.batch) (ha : a < i.rows) (hd : d < j.rows)
    (hi : x.rowAt i b a ≤ o ∧ o < x.rowAt i b a + i.pitch) (hj : x.rowAt j c d ≤ o ∧ o < x.rowAt j c d + j.pitch) : n = m ∧ b = c ∧ a = d := by
  have pairs := List.pairwise_iff_getElem.1 (State.outs_apart h)
  obtain ⟨hn', en⟩ := List.getElem?_eq_some_iff.1 hn
  obtain ⟨hm', em⟩ := List.getElem?_eq_some_iff.1 hm
  have inI := x.rowAt_add_pitch_le i hb ha
  have inJ := x.rowAt_add_pitch_le j hc hd
  have lowI : x.base i.slot ≤ x.rowAt i b a := by unfold SolvDesc.rowAt; omega
  have lowJ : x.base j.slot ≤ x.rowAt j c d := by unfold SolvDesc.rowAt; omega
  have meets : ¬ x.apart i j ∧ ¬ x.apart j i := by
    simp only [SolvDesc.apart, overlaps, Bool.and_eq_false_iff, decide_eq_false_iff_not]
    omega
  have same : n = m := by
    rcases Nat.lt_trichotomy n m with lt | eq | gt
    · exact absurd (en ▸ em ▸ pairs n m hn' hm' lt) meets.1
    · exact eq
    · exact absurd (en ▸ em ▸ pairs m n hm' hn' gt) meets.2
  subst same
  obtain rfl : i = j := en.symm.trans em
  exact ⟨rfl, SolvDesc.row_unique ha hd hi hj⟩

/-- A row of an output image that is not empty lies in tile SRAM. -/
theorem State.outRow_in_sram (h : s.denseCheck k x = none) {i : Img} (hi : i ∈ x.imgs.filter Img.wr) {b a : Nat} (hb : b < x.batch) (ha : a < i.rows)
    (full : 0 < i.cols * i.esz) : x.rowAt i b a + i.cols * i.esz ≤ 0x800000 := by
  have region : (x.base i.slot, x.batch * i.size, i.rd, i.wr) ∈ x.regions := List.mem_map_of_mem (List.mem_filter.1 hi).1
  have row := x.rowAt_add_pitch_le i hb ha
  have := i.cols_le_pitch
  have low : x.base i.slot ≤ x.rowAt i b a := by unfold SolvDesc.rowAt; omega
  have := Tile.inParts_le ((State.regions_of_denseCheck h).1 _ region) (show 0 < x.batch * i.size by omega)
  simp only at this
  omega

end

/-! ### The stores -/

/-- A value of an output image: 0 in a batch element that failed (R278). -/
def DRes.value (r : DRes) (w : WImg) (a j : Nat) : Int := if r.fail.isSome then 0 else w.at a j

/-- The rows that batch element b stores, by their offsets. -/
def SolvDesc.elemCells (x : SolvDesc) (b : Nat) (r : DRes) : List (Nat × List Byte) :=
  ((x.imgs.filter Img.wr).zip (r.outs ++ List.replicate 4 [])).flatMap (fun p =>
    imgCells (x.base p.1.slot + b * p.1.size) p.1.rows p.1.cols p.1.esz (r.value p.2))

/-- The rows that an operation stores. -/
def State.denseCells (s : State) (k : TileId) (x : SolvDesc) : List (Nat × List Byte) :=
  (List.range x.batch).flatMap (fun b => x.elemCells b (s.denseElem k x b))

/-- The state with the output images stored. -/
def State.denseStored (s : State) (k : TileId) (x : SolvDesc) : State := (s.denseCells k x).foldl (fun s e => s.sramWrite k e.1 e.2) s

theorem State.storeElem_eq (s : State) (k : TileId) (x : SolvDesc) (b : Nat) (r : DRes) :
    s.storeElem k x b r = (x.elemCells b r).foldl (fun s e => s.sramWrite k e.1 e.2) s := by
  rw [SolvDesc.elemCells, List.foldl_flatMap]
  simp only [← State.storeImg_eq]
  rfl

theorem State.denseStored_eq (s : State) (k : TileId) (x : SolvDesc) :
    ((List.range x.batch).map (fun b => (b, s.denseElem k x b))).foldl (fun (u : State) (r : Nat × DRes) => u.storeElem k x r.1 r.2) s = s.denseStored k x := by
  rw [List.foldl_map, State.denseStored, State.denseCells, List.foldl_flatMap]
  simp only [State.storeElem_eq]

/-- The image that output n is stored from. -/
theorem outs_padded (l : List WImg) {n : Nat} (hn : n < 4) : (l ++ List.replicate 4 [])[n]? = some (l.getD n []) := by
  rw [List.getElem?_append]
  split
  · next inside => rw [List.getElem?_eq_getElem inside, List.getD_eq_getElem _ _ inside]
  · next beyond => rw [List.getElem?_replicate_of_lt (by omega), List.getD_eq_default _ _ (by omega)]

/-- An operation has no more than four images. -/
theorem SolvDesc.outs_length (x : SolvDesc) : (x.imgs.filter Img.wr).length ≤ 4 := by
  refine (List.length_filter_le _ _).trans ?_
  unfold SolvDesc.imgs
  split
  case h_5 => split <;> simp
  case h_6 =>
    rw [List.length_append]
    refine Nat.add_le_add_left (?_ : _ ≤ 1) 3
    split
    · exact le_rfl
    · split <;> simp
  all_goals simp

/-- A store of an operation is a row of an output image of a batch element. -/
theorem State.mem_denseCells {s : State} {k : TileId} {x : SolvDesc} {e : Nat × List Byte} : e ∈ s.denseCells k x ↔
    ∃ b < x.batch, ∃ n i, (x.imgs.filter Img.wr)[n]? = some i ∧ ∃ a < i.rows,
      e = (x.rowAt i b a, imgRow i.esz i.cols ((s.denseElem k x b).value ((s.denseElem k x b).outs.getD n []) a)) := by
  have cells : ∀ b (p : Img × WImg), e ∈ imgCells (x.base p.1.slot + b * p.1.size) p.1.rows p.1.cols p.1.esz ((s.denseElem k x b).value p.2) ↔
      ∃ a < p.1.rows, e = (x.rowAt p.1 b a, imgRow p.1.esz p.1.cols ((s.denseElem k x b).value p.2 a)) := by
    intro b p
    simp only [imgCells, List.mem_map, List.mem_range]
    exact exists_congr (fun a => and_congr_right (fun _ => eq_comm))
  simp only [State.denseCells, SolvDesc.elemCells, List.mem_flatMap, List.mem_range, cells]
  refine exists_congr (fun b => and_congr_right (fun _ => ⟨fun ⟨p, hp, row⟩ => ?_, fun ⟨n, i, hn, row⟩ => ?_⟩))
  · obtain ⟨n, hn⟩ := List.mem_iff_getElem?.1 hp
    obtain ⟨hi, hw⟩ := List.getElem?_zip_eq_some.1 hn
    have bound : n < (x.imgs.filter Img.wr).length := (List.getElem?_eq_some_iff.1 hi).1
    rw [outs_padded _ (by have := x.outs_length; omega)] at hw
    rw [← Option.some.inj hw] at row
    exact ⟨n, p.1, hi, row⟩
  · have bound : n < (x.imgs.filter Img.wr).length := (List.getElem?_eq_some_iff.1 hn).1
    exact ⟨(i, (s.denseElem k x b).outs.getD n []), List.mem_iff_getElem?.2 ⟨n, List.getElem?_zip_eq_some.2
      ⟨hn, outs_padded _ (by have := x.outs_length; omega)⟩⟩, row⟩

section
variable {s : State} {k : TileId} {x : SolvDesc}

theorem State.denseCells_in_sram (checked : s.denseCheck k x = none) : ∀ e ∈ s.denseCells k x, 0 < e.2.length → e.1 + e.2.length ≤ 0x800000 := by
  intro e he full
  obtain ⟨b, hb, n, i, hi, a, ha, rfl⟩ := State.mem_denseCells.1 he
  rw [imgRow_length] at full ⊢
  exact State.outRow_in_sram checked (List.mem_of_getElem? hi) hb ha full

variable (hq : memQuiet s = true) (hm : s.mem.wf = true) (checked : s.denseCheck k x = none)
include hq hm checked

/-- Every element of an output image holds its value. -/
theorem State.sramNat_denseStored {b n : Nat} {i : Img} (hb : b < x.batch) (hi : (x.imgs.filter Img.wr)[n]? = some i) {a j : Nat} (ha : a < i.rows) (hj : j < i.cols) :
    (s.denseStored k x).sramNat k (x.rowAt i b a + i.esz * j) i.esz =
      wrapN (8 * i.esz) ((s.denseElem k x b).value ((s.denseElem k x b).outs.getD n []) a j) := by
  have value := wrapN_lt (8 * i.esz) ((s.denseElem k x b).value ((s.denseElem k x b).outs.getD n []) a j)
  rw [Nat.pow_mul] at value
  rw [← Nat.mod_eq_of_lt value]
  refine Eq.trans (congrArg leNat ?_) (leNat_leBytes i.esz _)
  have spelled := State.sram_of_bytes (s := s.denseStored k x) (k := k) (a := x.rowAt i b a + i.esz * j)
    (d := leBytes i.esz (wrapN (8 * i.esz) ((s.denseElem k x b).value ((s.denseElem k x b).outs.getD n []) a j)))
  rw [leBytes_length] at spelled
  refine spelled (fun c hc => ?_)
  have column : i.esz * j + c < i.cols * i.esz := by
    calc i.esz * j + c < i.esz * (j + 1) := by rw [Nat.mul_succ]; omega
      _ ≤ i.cols * i.esz := by rw [Nat.mul_comm]; exact Nat.mul_le_mul_right _ hj
  have pitch := i.cols_le_pitch
  rw [State.denseStored, State.sramByte_sramWrites hq hm (State.denseCells_in_sram checked)]
  refine byteAfter_agreed (fun e he lo hi' => ?_) (.inr ⟨_, State.mem_denseCells.2 ⟨b, hb, n, i, hi, a, ha, rfl⟩, ?_⟩)
  · obtain ⟨b', hb', n', i', hn', a', ha', rfl⟩ := State.mem_denseCells.1 he
    simp only [imgRow_length] at lo hi'
    have pitch' := i'.cols_le_pitch
    obtain ⟨rfl, rfl, rfl⟩ := State.outRow_unique checked hi hn' hb hb' ha ha' (o := x.rowAt i b a + i.esz * j + c) (by omega) (by omega)
    obtain rfl : i = i' := Option.some.inj (hi.symm.trans hn')
    simp only [Nat.add_assoc, Nat.add_sub_cancel_left]
    exact imgRow_getD _ hj hc
  · simp only [imgRow_length]
    omega

/-- Bytes outside the rows of the output images stay. -/
theorem State.sramByte_denseStored {o : Nat}
    (h : ∀ b, b < x.batch → ∀ i ∈ x.imgs.filter Img.wr, ∀ a, a < i.rows → o < x.rowAt i b a ∨ x.rowAt i b a + i.cols * i.esz ≤ o) :
    (s.denseStored k x).byteAt (sramAddr k o) = s.byteAt (sramAddr k o) := by
  rw [State.denseStored, State.sramByte_sramWrites hq hm (State.denseCells_in_sram checked)]
  refine byteAfter_outside (fun e he => ?_) _
  obtain ⟨b, hb, n, i, hi, a, ha, rfl⟩ := State.mem_denseCells.1 he
  rw [imgRow_length]
  exact h b hb i (List.mem_of_getElem? hi) a ha

theorem State.lowByte_denseStored {a : Nat} (ha : a < sramAddr k 0) : (s.denseStored k x).byteAt a = s.byteAt a :=
  State.lowByte_sramWrites hq hm (State.denseCells_in_sram checked) ha

end

/-! ### The operation -/

section
variable {s : State} {k : TileId} {e : QEntry} {x : SolvDesc}

theorem State.denseBad_clean (h : s.poison = []) : s.denseBad k x = false := by simp [State.denseBad, State.sramBad_clean h]

/-- The batch elements that failed. -/
def State.denseFailed (s : State) (k : TileId) (x : SolvDesc) : List Nat := (List.range x.batch).filter (fun b => (s.denseElem k x b).fail.isSome)

/-- An operation that passes its checks, where no word is poisoned. -/
theorem State.denseRun_stores (checked : s.denseCheck k x = none) (hp : s.poison = []) : ∃ r els,
    s.denseRun k e x = ((s.denseStored k x).digested k e x.dgEn x.dgSlot els).startEng k 2 r ∧
      r.status = ((s.denseFailed k x).head?.bind (fun b => (s.denseElem k x b).fail)).getD St.ok ∧ r.x2 = (s.denseFailed k x).length := by
  have failed : ((List.range x.batch).map (fun b => (b, s.denseElem k x b))).filter (fun (r : Nat × DRes) => r.2.fail.isSome) =
      (s.denseFailed k x).map (fun b => (b, s.denseElem k x b)) := List.filter_map
  unfold State.denseRun
  simp only [checked, State.denseBad_clean hp, State.denseStored_eq, failed]
  rw [if_neg Bool.false_ne_true]
  refine ⟨_, _, rfl, ?_, List.length_map _⟩
  cases s.denseFailed k x <;> rfl

/-- A descriptor that fails a check. -/
theorem State.denseRun_refused {st : Status} (h : s.denseCheck k x = some st) : ∃ crec, s.denseRun k e x = s.solvFail k e st crec := by
  unfold State.denseRun
  simp only [h]
  exact ⟨_, rfl⟩

end

end Sys2Proof.Machine
end

section
/-! Pattern programs on the solver unit (R279 to R296): ASSEMBLE and SOLVE store within the regions that they write, and SOLVE numbers its
deadline and heads its solution record. -/

namespace Sys2Proof.Machine

/-! ### Stores within a set of offsets -/

/-- Nothing is poisoned, and memory is in canonical form. -/
structure SramClean (s : State) : Prop where
  poison : s.poison = []
  wf : s.mem.wf = true

/-- Between s and t bytes of tile k's SRAM at offsets in P have been stored, and free values taken; no more. -/
structure SramWithin (k : TileId) (P : Nat → Prop) (s t : State) : Prop where
  rest : { t with mem := s.mem, free := s.free } = s
  wf : t.mem.wf = true
  bytes : ∀ o, ¬P o → t.byteAt (sramAddr k o) = s.byteAt (sramAddr k o)

namespace SramWithin
variable {k : TileId} {P Q : Nat → Prop} {s t u : State}

theorem same {α : Type} (h : SramWithin k P s t) (f : State → α) (hf : ∀ (s : State) m n, f { s with mem := m, free := n } = f s) : f t = f s :=
  (hf t s.mem s.free).symm.trans (congrArg f h.rest)

theorem clean (h : SramWithin k P s t) (hc : SramClean s) : SramClean t := ⟨(h.same State.poison (fun _ _ _ => rfl)).trans hc.poison, h.wf⟩

theorem quiet (h : SramWithin k P s t) (hq : memQuiet s = true) : memQuiet t = true := (h.same memQuiet (fun _ _ _ => rfl)).trans hq

theorem tiles (h : SramWithin k P s t) : SameTiles s t := h.same State.tiles (fun _ _ _ => rfl)

theorem refl (hm : s.mem.wf = true) : SramWithin k P s s := ⟨rfl, hm, fun _ _ => rfl⟩

theorem trans (h : SramWithin k P s t) (g : SramWithin k P t u) : SramWithin k P s u :=
  ⟨(congrArg (fun v : State => { v with mem := s.mem, free := s.free }) g.rest :).trans h.rest, g.wf, fun o ho => (g.bytes o ho).trans (h.bytes o ho)⟩

theorem foldl {α : Type} {f : State → α → State} {l : List α} (hc : SramClean s) (hf : ∀ u, SramClean u → ∀ x ∈ l, SramWithin k P u (f u x)) :
    SramWithin k P s (l.foldl f s) :=
  List.foldlRecOn l f (refl hc.wf) (fun _ h x hx => h.trans (hf _ (h.clean hc) x hx))

theorem sramWrite {a : Nat} {d : List Byte} (hc : SramClean s) (hP : ∀ o, a ≤ o → o < a + d.length → P o) : SramWithin k P s (s.sramWrite k a d) := by
  refine ⟨?_, s.wf_sramPut _ _ hc.wf, fun o ho => ?_⟩
  · rw [State.sramWrite_clean hc.poison]
  · have kept : ¬(sramAddr k a ≤ sramAddr k o ∧ sramAddr k o < sramAddr k a + d.length) := fun inside =>
      ho (hP o (by simp only [sramAddr] at inside; omega) (by simp only [sramAddr] at inside; omega))
    simp only [State.sramWrite_clean hc.poison, State.byteAt, State.wcbOf, Memory.read_writeN _ _ _ _ hc.wf, if_neg kept]

theorem undefBytes {a n : Nat} (hc : SramClean s) (hP : ∀ o, a ≤ o → o < a + n → P o) : SramWithin k P s (s.undefBytes k a n) := by
  have drawn : ∀ (n : Nat) (s : State), (s.drawBytes n).1.length = n ∧ ∃ f, (s.drawBytes n).2 = { s with free := f } := by
    intro n
    induction n with
    | zero => exact fun s => ⟨rfl, s.free, rfl⟩
    | succ n ih =>
      intro s
      obtain ⟨len, f, e⟩ := ih { s with free := s.free + 1 }
      exact ⟨congrArg (· + 1) len, f, e⟩
  obtain ⟨len, f, e⟩ := drawn n s
  have taken : SramWithin k P s { s with free := f } := ⟨rfl, hc.wf, fun _ _ => rfl⟩
  refine taken.trans ?_
  rw [State.undefBytes, e]
  exact sramWrite (taken.clean hc) (by rwa [len])

/-- Storing an image whose rows lie in P. -/
theorem storeImg {base rows cols z : Nat} {v : Nat → Nat → Int} (hc : SramClean s)
    (hP : ∀ i < rows, ∀ o, base + i * alignUp (cols * z) 64 ≤ o → o < base + i * alignUp (cols * z) 64 + cols * z → P o) :
    SramWithin k P s (s.storeImg k base rows cols z v) := by
  rw [State.storeImg_eq]
  refine foldl hc (fun u hu e he => sramWrite hu ?_)
  obtain ⟨i, hi, rfl⟩ := List.mem_map.1 he
  rw [imgRow_length]
  exact hP i (List.mem_range.1 hi)

end SramWithin

/-! ### Programs -/

/-- The program image that a descriptor names. -/
def State.progImage (s : State) (k : TileId) (x : SolvDesc) : List Byte := s.sram k x.prog (s.sramNat k (x.prog + 16) 4)

/-- The program that it spells. -/
def progOf (d : List Byte) : Pat := Pat.of (PatHdr.of (bytesAt d)) (bytesAt d)

theorem ok_of_patternOk {x : Tile} {d : List Byte} (h : patternOk x d = true) : (progOf d).ok = true := by
  simp only [patternOk, Bool.and_eq_true] at h
  exact h.2.1

/-- Does an offset lie in a region that the operation writes? -/
def patWritten (x : SolvDesc) (h : PatHdr) (src : List PatSrc) (o : Nat) : Prop := ∃ g ∈ (patRegions x h src).filter (fun r => r.2.2.2), g.1 ≤ o ∧ o < g.1 + g.2.1

/-- An offset apart from the regions of a program's header and sources. -/
theorem not_patWritten {x : SolvDesc} {d : List Byte} {o : Nat}
    (apart : ∀ g ∈ (patRegions x (PatHdr.of (bytesAt d)) ((PatHdr.of (bytesAt d)).srcs (bytesAt d))).filter (fun r => r.2.2.2), o < g.1 ∨ g.1 + g.2.1 ≤ o) :
    ¬patWritten x (progOf d).h (progOf d).src o := by
  have sources : (progOf d).src = (PatHdr.of (bytesAt d)).srcs (bytesAt d) := by rw [progOf, Pat.of]
  rw [sources]
  rintro ⟨g, hg, inside⟩
  have := apart g hg
  omega

/-- Bytes of a part of one batch element's share lie in the region of the batch. -/
theorem batchPart {base n b size o : Nat} (hb : b < n) (lo : base + b * size ≤ o) (hi : o < base + b * size + size) : base ≤ o ∧ o < base + n * size := by
  have := Nat.mul_le_mul_right size (Nat.succ_le_of_lt hb)
  rw [Nat.succ_mul] at this
  omega

theorem alignUp_eq_ceilDiv (n : Nat) : alignUp (n * 8) 64 = 64 * ceilDiv n 8 := by
  unfold alignUp ceilDiv
  omega

theorem vecBytes_length (n : Nat) (w : WImg) : (vecBytes n w).length = 8 * n := by
  simp [vecBytes, List.length_flatMap, Nat.mul_comm]

namespace Pat
variable {p : Pat} (h : p.ok = true)
include h

/-- Each block lies in its batch element's share of A and F (R283). -/
theorem block_le_aSize {i : Nat} (hi : i < p.blk.length) : 64 * (p.block i).off + p.rows i * (64 * ceilDiv (p.cols i) 8) ≤ p.h.aSize := by
  simp only [Pat.ok, Bool.and_eq_true, List.all_eq_true, decide_eq_true_eq] at h
  obtain ⟨⟨⟨⟨⟨⟨⟨-, blocks⟩, -⟩, -⟩, -⟩, -⟩, -⟩, -⟩ := h
  have listed : p.block i ∈ p.blk := by
    rw [Pat.block, List.getD_eq_getElem _ _ hi]
    exact List.getElem_mem hi
  exact (blocks _ listed).2

/-- A row of a block lies in its batch element's share. -/
theorem row_in_share {base i r o : Nat} (hi : i < p.blk.length) (hr : r < p.rows i)
    (lo : base + 64 * (p.block i).off + r * (64 * ceilDiv (p.cols i) 8) ≤ o)
    (hi' : o < base + 64 * (p.block i).off + r * (64 * ceilDiv (p.cols i) 8) + 8 * p.cols i) : base ≤ o ∧ o < base + p.h.aSize := by
  have block := block_le_aSize h hi
  have rows := Nat.mul_le_mul_right (64 * ceilDiv (p.cols i) 8) (Nat.succ_le_of_lt hr)
  have cols : 8 * p.cols i ≤ 64 * ceilDiv (p.cols i) 8 := by unfold ceilDiv; omega
  rw [Nat.succ_mul] at rows
  omega

/-- The place of a term lies in A or in b (R285). -/
theorem dst_of_mem_term {a : PatTerm} (ha : a ∈ p.term) :
    (a.dst / 2 ^ 30 = 0 ∧ 8 * a.dst + 8 ≤ p.h.aSize) ∨ (a.dst / 2 ^ 30 = 1 ∧ a.dst % 2 ^ 30 < p.h.n) := by
  have terms : ∀ l, p.termsOk l = true → ∀ a ∈ l, p.termOk a = true := by
    intro l
    induction l with
    | nil => exact fun _ _ => nofun
    | cons b l ih =>
      intro ok a ha
      cases l with
      | nil => exact List.mem_singleton.1 ha ▸ ok
      | cons c l =>
        simp only [Pat.termsOk, Bool.and_eq_true] at ok
        obtain ⟨⟨⟨first, -⟩, -⟩, others⟩ := ok
        obtain rfl | ha := List.mem_cons.1 ha
        · exact first
        · exact ih others a ha
  simp only [Pat.ok, Bool.and_eq_true] at h
  have ok := terms _ h.2 a ha
  simp only [Pat.termOk, Bool.and_eq_true] at ok
  have place := ok.1.2
  split at place
  · next inA => exact .inl ⟨inA, by simpa using place⟩
  · exact .inr (by simpa using place)

end Pat

/-! ### ASSEMBLE -/

section
variable {k : TileId} {x : SolvDesc} {p : Pat} {s : State} {b : Nat}

theorem patWritten_assemble {h : PatHdr} {src : List PatSrc} (op : x.op = 7) {o : Nat}
    (ho : (h.aReg ≤ o ∧ o < h.aReg + x.batch * h.aSize) ∨ (h.bReg ≤ o ∧ o < h.bReg + x.batch * h.rp)) : patWritten x h src o := by
  have listed : ∀ g ∈ [(h.aReg, x.batch * h.aSize, false, true), (h.bReg, x.batch * h.rp, false, true)], g ∈ (patRegions x h src).filter (fun r => r.2.2.2) := by
    simp [patRegions, op]
  rcases ho with inA | inB
  · exact ⟨_, listed _ (List.mem_cons_self ..), inA⟩
  · exact ⟨_, listed _ (List.mem_cons_of_mem _ (List.mem_cons_self ..)), inB⟩

/-- ASSEMBLE stores one batch element within A and b. -/
theorem SramWithin.assembleStore (ok : p.ok = true) (op : x.op = 7) (hb : b < x.batch) {els : List (Nat × Int)} (hels : ∀ c ∈ els, ∃ a ∈ p.term, c.1 = a.dst)
    (hc : SramClean s) : SramWithin k (patWritten x p.h p.src) s (s.assembleStore k p b els) := by
  have inA : ∀ o, p.h.aReg + b * p.h.aSize ≤ o → o < p.h.aReg + b * p.h.aSize + p.h.aSize → patWritten x p.h p.src o :=
    fun o lo hi => patWritten_assemble op (.inl (batchPart hb lo hi))
  have inB : ∀ o, p.h.bReg + b * p.h.rp ≤ o → o < p.h.bReg + b * p.h.rp + 8 * p.h.n → patWritten x p.h p.src o := fun o lo hi =>
    patWritten_assemble op (.inr (batchPart hb lo (by simp only [PatHdr.rp, ceilDiv] at hi ⊢; omega)))
  have blocks : SramWithin k (patWritten x p.h p.src) s ((List.range p.blk.length).foldl (fun s i => (List.range (p.rows i)).foldl (fun s r =>
      s.sramWrite k (p.h.aReg + b * p.h.aSize + 64 * (p.block i).off + r * (64 * ceilDiv (p.cols i) 8)) (zeros (8 * p.cols i))) s) s) := by
    refine .foldl hc (fun u hu i hi => .foldl hu (fun v hv r hr => .sramWrite hv (fun o lo hi' => ?_)))
    rw [zeros_length] at hi'
    obtain ⟨lo', hi''⟩ := Pat.row_in_share ok (List.mem_range.1 hi) (List.mem_range.1 hr) lo hi'
    exact inA o lo' hi''
  have vector := blocks.trans (.sramWrite (a := p.h.bReg + b * p.h.rp) (d := zeros (8 * p.h.n)) (blocks.clean hc) (by rw [zeros_length]; exact inB))
  refine vector.trans (.foldl (vector.clean hc) (fun u hu c hc => .sramWrite hu (fun o lo hi => ?_)))
  obtain ⟨a, ha, e⟩ := hels c hc
  rw [leBytes_length] at hi
  rw [e] at lo hi
  rcases Pat.dst_of_mem_term ok ha with ⟨dst, room⟩ | ⟨dst, room⟩
  · rw [if_pos dst] at lo hi
    exact inA o (by omega) (by omega)
  · rw [if_neg (by omega)] at lo hi
    exact inB o (by omega) (by omega)

/-- The elements that ASSEMBLE gives a value, by DST (R286). -/
def State.assembled (s : State) (k : TileId) (p : Pat) (b : Nat) : List (Nat × Int) :=
  (s.assembleSums k p b).1.map (fun c => (c.1, (finRound c.2.1 c.2.2 (if c.1 / 2 ^ 30 = 0 then p.h.ea else p.h.eb)).1))

/-- Each of them is the place of a term. -/
theorem State.dst_of_mem_assembled : ∀ c ∈ s.assembled k p b, ∃ a ∈ p.term, c.1 = a.dst := by
  have keys : ∀ c ∈ (s.assembleSums k p b).1, ∃ a ∈ p.term, c.1 = a.dst := by
    refine List.foldlRecOn p.term _ (motive := fun r : Tab ((Int × Ev) × Int) × Nat => ∀ c ∈ r.1, ∃ a ∈ p.term, c.1 = a.dst) (fun _ => nofun) ?_
    intro r ih a ha c hc
    simp only [] at hc
    have cases : c ∈ r.1 ∨ c.1 = a.dst := by
      split at hc <;> exact (mem_tabSet hc).symm.imp_right (congrArg Prod.fst)
    exact cases.elim (ih c) (fun e => ⟨a, ha, e⟩)
  intro c hc
  obtain ⟨d, hd, rfl⟩ := List.mem_map.1 hc
  exact keys d hd

theorem State.assembleRun_stores (e : QEntry) (hp : s.poison = []) : ∃ r,
    s.assembleRun k e x p = ((List.range x.batch).foldl (fun u b => u.assembleStore k p b (s.assembled k p b)) s).startEng k 2 r ∧
      r.status = St.ok ∧ r.ticket = e.ticket ∧ r.crec = some x.crec := by
  have clean : (List.range x.batch).any (fun b => p.term.any (fun a => s.termBad k (p.src.getD a.src ⟨3, 0, 0, 0, 0, 0, false⟩) b a.index)) = false := by
    have terms : ∀ y b i, s.termBad k y b i = false := by
      intro y b i
      unfold State.termBad
      split <;> simp [State.sramBad_clean hp]
    simp [terms]
  unfold State.assembleRun
  simp only [clean, List.foldl_map, List.map_map]
  rw [if_neg Bool.false_ne_true]
  exact ⟨_, rfl, rfl, rfl, rfl⟩

end

/-! ### The number of a deadline, and the rejection of a warm start -/

/-- The state without its registers and event rings. -/
def State.lessNotes (s : State) : State := { s with regs := [], rings := ⟨[], 0, [], []⟩ }

/-- WARM_START_REJECTED, where a SOLVE notes it (R290). -/
def State.solveNoted (s : State) (k : TileId) (wsr : Bool) : State :=
  if wsr then (s.count (tfld k F.SOLVER_OUTCOME_WSR) 1).raise (tileSrc k) 0x0306 [] else s

section
variable (s : State) (k : TileId) (x : SolvDesc)

theorem State.solveNoted_keeps (wsr : Bool) : Keeps State.lessNotes (fun o => o = F.SOLVER_SEQ_SEQ.off + tileBase k) s (s.solveNoted k wsr) := by
  unfold State.solveNoted
  split
  · have counted : Keeps State.lessNotes (fun o => o = F.SOLVER_SEQ_SEQ.off + tileBase k) s (s.count (tfld k F.SOLVER_OUTCOME_WSR) 1) :=
      .setFld s _ (fun e => absurd (Nat.add_right_cancel e) (by decide)) (fun _ => rfl)
    obtain ⟨rest, regs⟩ := (s.count (tfld k F.SOLVER_OUTCOME_WSR) 1).raise_frame (tileSrc k) 0x0306 []
    exact counted.trans ⟨(congrArg State.lessNotes rest :), fun o ho => regs o (ho ▸ tileOff_not_event (by decide))⟩
  · exact .refl s

theorem State.takeSeq_keeps : Keeps State.lessNotes (fun _ => False) s (s.takeSeq k x).1 := by
  unfold State.takeSeq
  split
  · exact .refl s
  · exact .setFld s _ id (fun _ => rfl)

/-- A SOLVE with a deadline takes the tile's next number (R294). -/
theorem State.takeSeq_seq : (x.dl = 0 → (s.takeSeq k x).2 = none ∧ (s.takeSeq k x).1.fld (tfld k F.SOLVER_SEQ_SEQ) = s.fld (tfld k F.SOLVER_SEQ_SEQ)) ∧
    (x.dl ≠ 0 → (s.takeSeq k x).2 = some (s.fld (tfld k F.SOLVER_SEQ_SEQ)) ∧
      (s.takeSeq k x).1.fld (tfld k F.SOLVER_SEQ_SEQ) = (s.fld (tfld k F.SOLVER_SEQ_SEQ) + 1) % 2 ^ 32) := by
  unfold State.takeSeq
  refine ⟨fun dl => ?_, fun dl => ?_⟩
  · rw [if_pos dl]
    exact ⟨rfl, rfl⟩
  · rw [if_neg dl]
    exact ⟨rfl, s.fld_set_tfld k (f := F.SOLVER_SEQ_SEQ) _ (by decide) (by decide)⟩

theorem State.bit_takeSeq_replay : (s.takeSeq k x).1.bit (tfld k F.SOLVER_STAT_REPLAY) = s.bit (tfld k F.SOLVER_STAT_REPLAY) := by
  unfold State.takeSeq
  split
  · rfl
  · exact s.bit_set_tfld_other k _ (by decide) (by decide) (by decide) (by decide)

end

/-! ### SOLVE -/

/-- The state with F and the work area of every batch element stored. -/
def State.solveWorked (s : State) (k : TileId) (p : Pat) (batch : Nat) (r : SolvRes) : State :=
  ((List.range batch).zip r.els).foldl (fun (s : State) (c : Nat × SolvSt) => s.storeWork k p c.1 r c.2) s

/-- The header of the solution record (R289), for the tile's current pick. -/
def State.recordHeader (s : State) (k : TileId) (h : PatHdr) (batch n : Nat) (st : Status) : List Byte := solHeader h (((s.tile k).cur).getD noPick) batch n st

/-- The state with the solution record stored: undefined where a replay finds no outcome to follow (R295). -/
def State.solveRecorded (s : State) (k : TileId) (x : SolvDesc) (p : Pat) (r : SolvRes) (miss : Bool) : State :=
  if miss then s.undefBytes k (x.base 0) (64 + x.batch * p.h.rp)
  else ((List.range x.batch).zip r.els).foldl (fun (s : State) (c : Nat × SolvSt) => s.sramWrite k (x.base 0 + 64 + c.1 * p.h.rp) (vecBytes p.h.n c.2.x))
    (s.sramWrite k (x.base 0) (s.recordHeader k p.h x.batch r.k r.status))

section
variable {k : TileId} {x : SolvDesc} {p : Pat} {s : State} {r : SolvRes}

theorem State.recordHeader_length (h : PatHdr) (batch n : Nat) (st : Status) : (s.recordHeader k h batch n st).length = 64 := by
  simp [State.recordHeader, solHeader]

theorem patWritten_solve {h : PatHdr} {src : List PatSrc} (op : x.op = 8) {o : Nat}
    (ho : (h.fReg ≤ o ∧ o < h.fReg + x.batch * h.aSize) ∨ (h.work ≤ o ∧ o < h.work + x.batch * h.workSize) ∨
      (x.base 0 ≤ o ∧ o < x.base 0 + (64 + x.batch * h.rp))) : patWritten x h src o := by
  have listed : ∀ g ∈ [(h.fReg, x.batch * h.aSize, false, true), (h.work, x.batch * h.workSize, false, true), (x.base 0, 64 + x.batch * h.rp, true, true)],
      g ∈ (patRegions x h src).filter (fun r => r.2.2.2) := by simp [patRegions, op]
  rcases ho with inF | inWork | inRecord
  · exact ⟨_, listed _ (List.mem_cons_self ..), inF⟩
  · exact ⟨_, listed _ (List.mem_cons_of_mem _ (List.mem_cons_self ..)), inWork⟩
  · exact ⟨_, listed _ (List.mem_cons_of_mem _ (List.mem_cons_of_mem _ (List.mem_cons_self ..))), inRecord⟩

/-- SOLVE stores F and the work area of one batch element within their regions (R280, Table 7-8). -/
theorem SramWithin.storeWork (ok : p.ok = true) (op : x.op = 8) {b : Nat} (hb : b < x.batch) (q : SolvSt) (hc : SramClean s) :
    SramWithin k (patWritten x p.h p.src) s (s.storeWork k p b r q) := by
  have inF : ∀ {o}, p.h.fReg + b * p.h.aSize ≤ o ∧ o < p.h.fReg + b * p.h.aSize + p.h.aSize → patWritten x p.h p.src o :=
    fun ⟨lo, hi⟩ => patWritten_solve op (.inl (batchPart hb lo hi))
  have inWork : ∀ off len, off + len ≤ p.h.workSize → ∀ o, p.h.work + b * p.h.workSize + off ≤ o → o < p.h.work + b * p.h.workSize + off + len →
      patWritten x p.h p.src o := fun off len room o lo hi => patWritten_solve op (.inr (.inl (batchPart hb (by omega) (by omega))))
  have vector : 0 + 8 * p.h.n ≤ p.h.workSize ∧ p.h.rp + 8 * p.h.n ≤ p.h.workSize ∧ 2 * p.h.rp + p.h.n ≤ p.h.workSize := by
    simp only [PatHdr.workSize, PatHdr.rp, ceilDiv]
    omega
  obtain ⟨roomR, roomD, roomP⟩ := vector
  unfold State.storeWork
  simp only []
  split
  · have blocks : SramWithin k (patWritten x p.h p.src) s ((List.range p.blk.length).foldl (fun s i =>
        s.storeImg k (p.h.fReg + b * p.h.aSize + 64 * (p.block i).off) (p.rows i) (p.cols i) 8 (fun a c => (q.blk i).at a c)) s) := by
      refine .foldl hc (fun u hu i hi => .storeImg hu (fun a ha o lo hi' => inF ?_))
      rw [alignUp_eq_ceilDiv] at lo hi'
      exact Pat.row_in_share ok (List.mem_range.1 hi) ha lo (by omega)
    have resid := blocks.trans (.sramWrite (d := vecBytes p.h.n q.r) (blocks.clean hc) (by rw [vecBytes_length]; exact inWork 0 _ roomR))
    have corr : ∀ u, SramWithin k (patWritten x p.h p.src) s u → SramWithin k (patWritten x p.h p.src) s
        (if r.dValid then u.sramWrite k (p.h.work + b * p.h.workSize + p.h.rp) (vecBytes p.h.n q.d)
          else u.undefBytes k (p.h.work + b * p.h.workSize + p.h.rp) (8 * p.h.n)) := by
      intro u hu
      split
      · exact hu.trans (.sramWrite (hu.clean hc) (by rw [vecBytes_length]; exact inWork _ _ roomD))
      · exact hu.trans (.undefBytes (hu.clean hc) (inWork _ _ roomD))
    have pivots := corr _ resid
    split
    · exact pivots.trans (.sramWrite (pivots.clean hc) (by rw [List.length_map, List.length_range]; exact inWork _ _ roomP))
    · exact pivots
  · have blocks : SramWithin k (patWritten x p.h p.src) s (s.undefBlocks k (p.h.fReg + b * p.h.aSize) p) :=
      .foldl hc (fun u hu i hi => .foldl hu (fun v hv a ha => .undefBytes hv (fun o lo hi' =>
        inF (Pat.row_in_share ok (List.mem_range.1 hi) (List.mem_range.1 ha) lo hi'))))
    have resid := blocks.trans (.undefBytes (blocks.clean hc) (inWork 0 _ roomR))
    have corr := resid.trans (.undefBytes (resid.clean hc) (inWork _ _ roomD))
    exact corr.trans (.undefBytes (corr.clean hc) (inWork _ _ roomP))

theorem SramWithin.solveWorked (ok : p.ok = true) (op : x.op = 8) (hc : SramClean s) :
    SramWithin k (patWritten x p.h p.src) s (s.solveWorked k p x.batch r) :=
  .foldl hc (fun _ hu c hc' => .storeWork ok op (List.mem_range.1 (List.of_mem_zip hc').1) c.2 hu)

/-- The vectors of the solution record stand behind its header. -/
theorem SramWithin.solveVectors (hc : SramClean s) : SramWithin k (fun o => x.base 0 + 64 ≤ o ∧ o < x.base 0 + (64 + x.batch * p.h.rp)) s
    (((List.range x.batch).zip r.els).foldl (fun (s : State) (c : Nat × SolvSt) => s.sramWrite k (x.base 0 + 64 + c.1 * p.h.rp) (vecBytes p.h.n c.2.x)) s) := by
  refine .foldl hc (fun u hu c hc' => .sramWrite hu (fun o lo hi => ?_))
  rw [vecBytes_length] at hi
  have share := batchPart (List.mem_range.1 (List.of_mem_zip hc').1) lo (by simp only [PatHdr.rp, ceilDiv] at hi ⊢; omega)
  omega

theorem SramWithin.solveRecorded (op : x.op = 8) (miss : Bool) (hc : SramClean s) :
    SramWithin k (patWritten x p.h p.src) s (s.solveRecorded k x p r miss) := by
  have inRecord : ∀ o, x.base 0 ≤ o → o < x.base 0 + (64 + x.batch * p.h.rp) → patWritten x p.h p.src o := fun o lo hi => patWritten_solve op (.inr (.inr ⟨lo, hi⟩))
  unfold State.solveRecorded
  split
  · exact .undefBytes hc inRecord
  · have header : SramWithin k (patWritten x p.h p.src) s (s.sramWrite k (x.base 0) (s.recordHeader k p.h x.batch r.k r.status)) :=
      .sramWrite hc (fun o lo hi => inRecord o lo (by rw [State.recordHeader_length] at hi; omega))
    have vectors := SramWithin.solveVectors (k := k) (x := x) (p := p) (r := r) (header.clean hc)
    exact header.trans ⟨vectors.rest, vectors.wf, fun o ho => vectors.bytes o (fun inside => ho (inRecord o (by omega) inside.2))⟩

/-- The solution record opens with its header. -/
theorem State.sram_solveRecorded (hq : memQuiet s = true) (hm : s.mem.wf = true) (room : x.base 0 + 64 ≤ 0x800000) :
    (s.solveRecorded k x p r false).sram k (x.base 0) 64 = s.recordHeader k p.h x.batch r.k r.status := by
  have hc : SramClean s := ⟨(memQuiet_iff.1 hq).2.2, hm⟩
  have length : (s.recordHeader k p.h x.batch r.k r.status).length = 64 := State.recordHeader_length ..
  have vectors := SramWithin.solveVectors (k := k) (x := x) (p := p) (r := r)
    (SramWithin.sramWrite (k := k) (P := fun _ => True) (a := x.base 0) (d := s.recordHeader k p.h x.batch r.k r.status) hc (fun _ _ _ => trivial) |>.clean hc)
  rw [← length]
  refine State.sram_of_bytes (fun i hi => ?_)
  refine (vectors.bytes _ (by omega)).trans ?_
  rw [State.byteAt_sramWrite hq hm (by omega), storedAt_sramAddr, storedAt, if_pos (by omega), Nat.add_sub_cancel_left]

theorem State.solveBad_clean (hp : s.poison = []) : s.solveBad k x p = false := by simp [State.solveBad, State.sramBad_clean hp]

/-- The stores of a SOLVE, where no word is poisoned. -/
def State.solveStored (s : State) (k : TileId) (x : SolvDesc) (p : Pat) (r : SolvRes) (wsr miss : Bool) : State :=
  (((s.takeSeq k x).1.solveNoted k wsr).solveWorked k p x.batch r).solveRecorded k x p r miss

theorem State.solveRun_stores (e : QEntry) (dl : DlPoint) (hp : s.poison = []) : ∃ r wsr miss els run,
    s.solveRun k e x dl p = ((s.solveStored k x p r wsr miss).digested k e x.dgEn x.dgSlot els).startEng k 2 run ∧
      run.ticket = e.ticket ∧ run.crec = some x.crec ∧ run.x3 = (s.takeSeq k x).2.getD 0xFFFFFFFF ∧
      (s.bit (tfld k F.SOLVER_STAT_REPLAY) = false → miss = false ∧ run.status = r.status ∧ run.x2 = r.k) := by
  have poison : (s.takeSeq k x).1.poison = [] := ((s.takeSeq_keeps k x).same State.poison (fun _ => rfl)).trans hp
  unfold State.solveRun
  simp only [State.solveBad_clean poison, s.bit_takeSeq_replay]
  rw [if_neg Bool.false_ne_true]
  exact ⟨_, _, _, _, _, rfl, rfl, rfl, rfl, fun live => by simp [live]⟩


/-- SOLVE stores within its regions; its record opens with the header, and its number is that of R294. -/
theorem State.solveStored_within (ok : p.ok = true) (op : x.op = 8) (hq : memQuiet s = true) (hm : s.mem.wf = true) (wsr miss : Bool) :
    SameTiles s (s.solveStored k x p r wsr miss) ∧ (∀ o, ¬patWritten x p.h p.src o → (s.solveStored k x p r wsr miss).byteAt (sramAddr k o) = s.byteAt (sramAddr k o)) ∧
      (s.solveStored k x p r wsr miss).fld (tfld k F.SOLVER_SEQ_SEQ) = (s.takeSeq k x).1.fld (tfld k F.SOLVER_SEQ_SEQ) ∧
      (miss = false → x.base 0 + 64 ≤ 0x800000 → (s.solveStored k x p r wsr miss).sram k (x.base 0) 64 = s.recordHeader k p.h x.batch r.k r.status) := by
  have seq := s.takeSeq_keeps k x
  have noted := (s.takeSeq k x).1.solveNoted_keeps k wsr
  have notes : Keeps State.lessNotes (fun _ => False) s ((s.takeSeq k x).1.solveNoted k wsr) := seq.trans (noted.weaken (fun _ => rfl) (fun _ => False.elim))
  have quiet : memQuiet ((s.takeSeq k x).1.solveNoted k wsr) = true := (notes.same memQuiet (fun _ => rfl)).trans hq
  have clean : SramClean ((s.takeSeq k x).1.solveNoted k wsr) := ⟨(memQuiet_iff.1 quiet).2.2, (notes.same (fun s => s.mem.wf) (fun _ => rfl)).trans hm⟩
  have worked := SramWithin.solveWorked (k := k) (r := r) ok op clean
  have stored := worked.trans (.solveRecorded (r := r) op miss (worked.clean clean))
  have tiles : SameTiles s ((s.takeSeq k x).1.solveNoted k wsr) := notes.same State.tiles (fun _ => rfl)
  refine ⟨tiles.trans stored.tiles, fun o ho => (stored.bytes o ho).trans (congrFun (notes.same State.byteAt (fun _ => rfl)) _),
    (stored.same (fun s => s.fld (tfld k F.SOLVER_SEQ_SEQ)) (fun _ _ _ => rfl)).trans (noted.fld rfl), fun none room => ?_⟩
  subst none
  refine (State.sram_solveRecorded (worked.quiet quiet) worked.wf room).trans ?_
  rw [State.recordHeader, State.recordHeader, worked.tiles.tile, tiles.tile]

end

/-! ### The command -/

section
variable {s : State} {k : TileId} {e : QEntry} {x : SolvDesc}

/-- ASSEMBLE or SOLVE at the head of the solver queue. -/
theorem exec_patRun (head : s.engHead k 2 = some e) (readable : e.bad = false) (dl : DlPoint) (op : (SolvDesc.of e.desc).op = 7 ∨ (SolvDesc.of e.desc).op = 8) :
    ∃ dl', exec (if (SolvDesc.of e.desc).op = 7 then .assemble k else .solve k dl) s = .next (s.patRun k e (SolvDesc.of e.desc) dl') := by
  rcases op with op | op
  · rw [if_pos op]
    exact ⟨.never, congrArg Host.Outcome.next (State.solvHead_runs head readable op (by decide) (fun s e x => s.patRun k e x .never))⟩
  · rw [if_neg (by omega)]
    exact ⟨dl, congrArg Host.Outcome.next (State.solvHead_runs head readable op (by decide) (fun s e x => s.patRun k e x dl))⟩

/-- The header of the solution record of a SOLVE that passes its checks lies in tile SRAM. -/
theorem State.record_in_sram (h : s.patCheck k x = none) (op : x.op = 8) : x.base 0 + 64 ≤ 0x800000 := by
  unfold State.patCheck at h
  simp only [] at h
  split at h
  · cases h
  split at h
  · cases h
  split at h
  · cases h
  split at h
  · cases h
  split at h
  · cases h
  split at h
  · cases h
  next parts =>
  simp only [List.any_eq_true, not_exists, not_and, Bool.not_eq_true', Bool.not_eq_false] at parts
  have record := Tile.inParts_le (parts (x.base 0, 64 + x.batch * (PatHdr.of (s.patRead k x.prog)).rp, true, true) (by simp [patRegions, op])) (Nat.add_pos_left (by decide) _)
  exact Nat.le_trans (Nat.add_le_add_left (Nat.le_add_right ..) _) record

variable (aligned : x.crec % 64 = 0) (own : (s.tile k).inSolver x.crec 64 = true) (fields : s.solvFields k x = true) (dl : DlPoint)
include aligned own fields

theorem State.patRun_refused {st : Status} (h : s.patCheck k x = some st) : s.patRun k e x dl = s.solvFail k e st (some x.crec) := by
  unfold State.patRun
  simp only [h]
  rw [if_neg (not_not_intro ⟨aligned, own⟩), if_neg (ne_false_of_eq_true fields)]

/-- A program that verifies is executed. -/
theorem State.patRun_verified (h : s.patCheck k x = none) (ok : patternOk (s.tile k) (s.progImage k x) = true) : s.patRun k e x dl =
    if x.op = 7 then s.assembleRun k e x (progOf (s.progImage k x)) else s.solveRun k e x dl (progOf (s.progImage k x)) := by
  unfold State.patRun
  simp only [h]
  rw [if_neg (not_not_intro ⟨aligned, own⟩), if_neg (ne_false_of_eq_true fields)]
  exact if_pos ok

end

/-! ### The statement -/

section
variable {s : State} {k : TileId} {e : QEntry} {x : SolvDesc} {p : Pat} (ok : p.ok = true) (hq : memQuiet s = true) (hm : memoriesWf s)
include ok hq hm

/-- ASSEMBLE stores within A and b, changes no register, and runs with OK. -/
theorem State.assembleRun_stored (op : x.op = 7) : ∃ r, engineStarted s (s.assembleRun k e x p) k 2 r ∧ r.status = St.ok ∧ r.ticket = e.ticket ∧ r.crec = some x.crec ∧
    (∀ o, ¬patWritten x p.h p.src o → (s.assembleRun k e x p).byteAt (sramAddr k o) = s.byteAt (sramAddr k o)) ∧ (s.assembleRun k e x p).regs = s.regs := by
  obtain ⟨r, run, status, ticket, crec⟩ := State.assembleRun_stores (k := k) (x := x) (p := p) e (memQuiet_iff.1 hq).2.2
  have stored : SramWithin k (patWritten x p.h p.src) s ((List.range x.batch).foldl (fun u b => u.assembleStore k p b (s.assembled k p b)) s) :=
    .foldl ⟨(memQuiet_iff.1 hq).2.2, hm.1⟩ (fun _ hu b hb => .assembleStore ok op (List.mem_range.1 hb) State.dst_of_mem_assembled hu)
  rw [run]
  exact ⟨r, State.startEng_started (congrArg (Tile.queue · 2) (stored.tiles.tile k)) (fun j _ => stored.tiles.tile j) r, status, ticket, crec, stored.bytes,
    stored.same State.regs (fun _ _ _ => rfl)⟩

/-- SOLVE stores within its regions, numbers its deadline and heads its record. -/
theorem State.solveRun_stored (op : x.op = 8) (dl : DlPoint) (room : x.base 0 + 64 ≤ 0x800000) : ∃ r, engineStarted s (s.solveRun k e x dl p) k 2 r ∧
    r.ticket = e.ticket ∧ r.crec = some x.crec ∧
    (∀ o, ¬patWritten x p.h p.src o → (s.solveRun k e x dl p).byteAt (sramAddr k o) = s.byteAt (sramAddr k o)) ∧
    r.x3 = (s.takeSeq k x).2.getD 0xFFFFFFFF ∧ (s.solveRun k e x dl p).fld (tfld k F.SOLVER_SEQ_SEQ) = (s.takeSeq k x).1.fld (tfld k F.SOLVER_SEQ_SEQ) ∧
    (s.bit (tfld k F.SOLVER_STAT_REPLAY) = false → (s.solveRun k e x dl p).sram k (x.base 0) 64 = s.recordHeader k p.h x.batch r.x2 r.status) := by
  obtain ⟨r, wsr, miss, els, run, eq, ticket, crec, x3, live⟩ := State.solveRun_stores (k := k) (x := x) (p := p) e dl (memQuiet_iff.1 hq).2.2
  obtain ⟨tiles, bytes, seq, header⟩ := State.solveStored_within (k := k) (r := r) ok op hq hm.1 wsr miss
  obtain ⟨started, only⟩ := State.digested_started tiles e x.dgEn x.dgSlot els 2 run
  rw [eq]
  have reads := (congrArg State.byteAt only.1 :)
  refine ⟨run, started, ticket, crec, fun o ho => (congrFun reads _).trans (bytes o ho), x3,
    (congrArg (fun s : State => s.fld (tfld k F.SOLVER_SEQ_SEQ)) only.1 :).trans seq, fun h => ?_⟩
  obtain ⟨noMiss, status, count⟩ := live h
  rw [status, count]
  exact (State.bytes_congr reads _ _).trans (header noMiss room)

end

/-- A dense operation that passes its checks stores its output images and no other byte. -/
theorem State.denseRun_stored {s : State} {k : TileId} {e : QEntry} {x : SolvDesc} (hq : memQuiet s = true) (checked : s.denseCheck k x = none) :
    ∃ r, engineStarted s (s.denseRun k e x) k 2 r ∧
      r.status = ((s.denseFailed k x).head?.bind (fun b => (s.denseElem k x b).fail)).getD St.ok ∧ r.x2 = (s.denseFailed k x).length ∧
      (s.denseRun k e x).byteAt = (s.denseStored k x).byteAt ∧ { s.denseRun k e x with tiles := s.tiles, mem := s.mem } = s := by
  obtain ⟨r, els, run, status, count⟩ := State.denseRun_stores (k := k) (x := x) (e := e) checked (memQuiet_iff.1 hq).2.2
  have stored : { s.denseStored k x with mem := s.mem } = s := by rw [State.denseStored, State.sramWrites_clean (memQuiet_iff.1 hq).2.2]
  have tiles : SameTiles s (s.denseStored k x) := (congrArg State.tiles stored :)
  obtain ⟨started, only⟩ := State.digested_started tiles e x.dgEn x.dgSlot els 2 r
  rw [run]
  refine ⟨r, started, status, count, (congrArg State.byteAt only.1 :), ?_⟩
  exact (congrArg (fun t : State => { t with tiles := s.tiles, mem := s.mem }) only.1 :).trans (congrArg (fun t : State => { t with tiles := s.tiles }) stored :)

/-- Settles O34: the dense operations by the rows that they store, ASSEMBLE and SOLVE by the regions that their stores lie in. -/
theorem solverOperations : Obligations.SolverOperations := by
  refine ⟨fun k e s head readable => ?_, fun k e dl s head readable => ?_⟩
  · intro x c outs row res bad lo hi
    have run : exec c s = .next (s.denseRun k e x) := exec_denseInstr head readable lo hi
    refine ⟨fun hq hm checked => ?_, fun st refused => ?_⟩
    · obtain ⟨r, started, status, count, reads, rest⟩ := State.denseRun_stored (e := e) hq checked
      refine ⟨_, r, run, started, status, count, fun b hb n i hi a j ha hj => ?_, fun o ho => ?_, fun a ha => ?_, rest⟩
      · exact (congrArg leNat (State.bytes_congr reads _ _)).trans (State.sramNat_denseStored hq hm.1 checked hb hi ha hj)
      · exact (congrFun reads _).trans (State.sramByte_denseStored hq hm.1 checked ho)
      · exact (congrFun reads _).trans (State.lowByte_denseStored hq hm.1 checked ha)
    · obtain ⟨crec, fails⟩ := State.denseRun_refused (e := e) refused
      obtain ⟨r, failed⟩ := s.solvFail_started k e st crec
      exact ⟨_, r, run.trans (congrArg Host.Outcome.next fails), failed⟩
  · intro x c d h regions op aligned own fields
    obtain ⟨dl', run⟩ := exec_patRun head readable dl op
    refine ⟨fun hq hm checked verified => ?_, fun st refused => ?_⟩
    · have verifies := State.patRun_verified (e := e) aligned own fields dl' checked verified
      have ok := ok_of_patternOk verified
      rcases op with op | op
      · obtain ⟨r, started, status, ticket, crec, bytes, regs⟩ := State.assembleRun_stored (k := k) (e := e) ok hq hm op
        rw [if_pos op] at verifies
        exact ⟨_, r, run.trans (congrArg Host.Outcome.next verifies), started, ticket, crec, fun o _ ho => bytes o (not_patWritten ho), fun _ => ⟨status, regs⟩,
          fun other => by omega, fun other => by omega, fun other => by omega⟩
      · obtain ⟨r, started, ticket, crec, bytes, x3, seq, header⟩ :=
          State.solveRun_stored (k := k) (e := e) ok hq hm op dl' (State.record_in_sram checked op)
        obtain ⟨none, some⟩ := s.takeSeq_seq k x
        rw [if_neg (by omega)] at verifies
        refine ⟨_, r, run.trans (congrArg Host.Outcome.next verifies), started, ticket, crec, fun o _ ho => bytes o (not_patWritten ho), fun other => by omega,
          fun _ zero => ?_, fun _ nonzero => ?_, fun _ live => header live⟩
        · obtain ⟨number, kept⟩ := none zero
          exact ⟨by rw [x3, number]; rfl, seq.trans kept⟩
        · obtain ⟨number, next⟩ := some nonzero
          exact ⟨by rw [x3, number]; rfl, seq.trans next⟩
    · obtain ⟨r, started, status, -, rest⟩ := s.solvFail_started k e st (some x.crec)
      exact ⟨_, r, run.trans (congrArg Host.Outcome.next (State.patRun_refused aligned own fields dl' refused)), started, status, rest⟩

end Sys2Proof.Machine
end

section
/-! The rules of the harts (chapter 8): an instruction of a running hart, what changes nothing but one hart, the moves of the program
counter and the traps (R307, R325). -/

namespace Sys2Proof.Machine

/-! ### Running -/

theorem hartRuns_iff {s : State} {h : HartId} : hartRuns s h = true ↔ s.ready 12 = true ∧ (s.hart h).st = .running ∧ (s.hart h).park = none := by
  simp [hartRuns, and_assoc]

theorem hartRuns_of_fvxRuns {s : State} {h : HartId} {op : FvxOp} {f : FvxWord} (hr : fvxRuns s h op f = true) : hartRuns s h = true := by
  simp only [fvxRuns, Bool.and_eq_true] at hr
  exact hr.1.1

theorem fvxOk_of_fvxRuns {s : State} {h : HartId} {op : FvxOp} {f : FvxWord} (hr : fvxRuns s h op f = true) : fvxOk op f = true := by
  simp only [fvxRuns, Bool.and_eq_true] at hr
  exact hr.2

theorem State.coreDo_of_runs {s : State} {h : HartId} (hr : hartRuns s h = true) (f : State → State) : s.coreDo h f = f s := by
  obtain ⟨ready, running, -⟩ := hartRuns_iff.1 hr
  exact if_pos (by simp [ready, running])

/-- The command of each FVX operation runs that operation. -/
theorem exec_fvxInstr (op : FvxOp) (h : HartId) (f : FvxWord) (s : State) : exec (fvxInstr op h f) s = .next (s.coreDo h (fun s => s.fvx h op f)) := by
  cases op <;> rfl

theorem exec_fvxInstr_of_runs {s : State} {h : HartId} {op : FvxOp} {f : FvxWord} (hr : hartRuns s h = true) :
    exec (fvxInstr op h f) s = .next (s.fvx h op f) := by rw [exec_fvxInstr, State.coreDo_of_runs hr]

/-! ### One hart alone -/

theorem hartOnly_refl (h : HartId) (s : State) : hartOnly h s s := ⟨rfl, fun _ _ => rfl⟩

theorem hartOnly_trans {h : HartId} {s t u : State} (a : hartOnly h s t) (b : hartOnly h t u) : hartOnly h s u :=
  ⟨(congrArg (fun v : State => { v with harts := s.harts, free := s.free }) b.1 :).trans a.1, fun k hk => (b.2 k hk).trans (a.2 k hk)⟩

theorem hartOnly_setHart (s : State) (h : HartId) (x : Hart) : hartOnly h s (s.setHart h x) := ⟨rfl, fun _ hk => s.hart_setHart_other _ _ _ hk⟩

theorem hartOnly_modHart (s : State) (h : HartId) (f : Hart → Hart) : hartOnly h s (s.modHart h f) := hartOnly_setHart _ _ _

theorem hartOnly_pass (s : State) (h : HartId) (n : Nat) : hartOnly h s (s.pass h n) := hartOnly_modHart _ _ _

theorem hartOnly_exception (s : State) (h : HartId) (c : Nat) (a : BitVec 64) : hartOnly h s (s.exception h c a) := hartOnly_modHart _ _ _

theorem hartOnly_accessException (s : State) (h : HartId) (c : Nat) (st : Status) (a : BitVec 64) : hartOnly h s (s.accessException h c st a) :=
  hartOnly_trans (hartOnly_modHart s h _) (hartOnly_exception _ _ _ _)

theorem hartOnly_drawFree (s : State) (h : HartId) : hartOnly h s s.drawFree.2 := ⟨rfl, fun _ _ => rfl⟩

/-! ### Program counter and traps -/

/-- The hart past an instruction of n bytes. -/
def Hart.passed (x : Hart) (n : Nat) : Hart := { x with pc := x.pc + BitVec.ofNat 64 n, park := none }

@[simp] theorem State.hart_pass (s : State) (h : HartId) (n : Nat) : (s.pass h n).hart h = (s.hart h).passed n := s.hart_modHart_same h _

/-- A hart that is not parked keeps everything but its program counter. -/
theorem Hart.passed_of_unparked {x : Hart} (hp : x.park = none) (n : Nat) : x.passed n = { x with pc := x.pc + BitVec.ofNat 64 n } := by
  rw [Hart.passed, ← hp]

@[simp] theorem Hart.xreg_passed (x : Hart) (n : Nat) (r : BitVec 5) : (x.passed n).xreg r = x.xreg r := rfl
@[simp] theorem Hart.pred_passed (x : Hart) (n r : Nat) : (x.passed n).pred r = x.pred r := rfl

/-- Between x and y a hart has taken an exception (R307, R325): everything but the trap CSRs, the mode and the program counter stays. -/
structure Trapped (x y : Hart) (cause : Nat) (tval : BitVec 64) : Prop where
  mcause : y.mcause = BitVec.ofNat 64 cause
  mtval : y.mtval = tval
  mepc : y.mepc = x.pc
  pc : y.pc = x.mtvec / 4 * 4
  machine : y.machineMode = true
  park : y.park = none
  rest : { y with mcause := x.mcause, mtval := x.mtval, mepc := x.mepc, pc := x.pc, machineMode := x.machineMode, mstatus := x.mstatus,
                  park := x.park } = x

theorem State.trapped_exception (s : State) (h : HartId) (c : Nat) (a : BitVec 64) : Trapped (s.hart h) ((s.exception h c a).hart h) c a := by
  rw [State.exception, State.hart_modHart_same]
  exact ⟨rfl, rfl, rfl, rfl, rfl, rfl, rfl⟩

/-- An exception of Table 8-2 first keeps its status. -/
theorem State.trapped_accessException (s : State) (h : HartId) (c : Nat) (st : Status) (a : BitVec 64) :
    Trapped { s.hart h with fvrstat := BitVec.setWidth 64 st } ((s.accessException h c st a).hart h) c a := by
  have trap := State.trapped_exception (s.modHart h (fun x => { x with fvrstat := BitVec.setWidth 64 st })) h c a
  rwa [State.hart_modHart_same] at trap

namespace Trapped
variable {b y : Hart} {c : Nat} {a : BitVec 64} (t : Trapped b y c a)
include t

theorem x : y.x = b.x := (congrArg Hart.x t.rest :)
theorem v : y.v = b.v := (congrArg Hart.v t.rest :)
theorem p : y.p = b.p := (congrArg Hart.p t.rest :)
theorem st : y.st = b.st := (congrArg Hart.st t.rest :)
theorem fvrstat : y.fvrstat = b.fvrstat := (congrArg Hart.fvrstat t.rest :)

end Trapped

/-! ### The statement about traps -/

/-- A valid scalar load that is not aligned. -/
theorem State.coreLoad_misaligned {s : State} {h : HartId} {i : CoreMem}
    (ha : ((s.hart h).xreg i.base + BitVec.signExtend 64 i.imm).toNat % sizeBytes i.size ≠ 0) (hf : i.fp = true → (s.hart h).fpOff = false)
    (ok : coreMemBad i false = false) : s.coreLoad h i = s.exception h 4 ((s.hart h).xreg i.base + BitVec.signExtend 64 i.imm) := by
  have valid : (coreMemBad i false || (i.fp && (s.hart h).fpOff)) = false := by
    cases fp : i.fp
    · simp [ok]
    · simp [ok, hf fp]
  unfold State.coreLoad
  simp only [valid]
  exact if_pos ha

/-- A valid scalar store that is not aligned. -/
theorem State.coreStore_misaligned {s : State} {h : HartId} {i : CoreMem}
    (ha : ((s.hart h).xreg i.base + BitVec.signExtend 64 i.imm).toNat % sizeBytes i.size ≠ 0) (hf : i.fp = true → (s.hart h).fpOff = false)
    (ok : coreMemBad i true = false) : s.coreStore h i = s.exception h 6 ((s.hart h).xreg i.base + BitVec.signExtend 64 i.imm) := by
  have valid : (coreMemBad i true || (i.fp && (s.hart h).fpOff)) = false := by
    cases fp : i.fp
    · simp [ok]
    · simp [ok, hf fp]
  unfold State.coreStore
  simp only [valid]
  exact if_pos ha

/-- Settles O8: each case is one exception, and an exception changes its hart alone. -/
theorem hartsTrap : Obligations.HartsTrap := by
  refine ⟨fun op h f s hr bad => ?_, fun h i s hr => ?_⟩
  · have run : s.fvx h op f = s.illegal h (fvxBits op f) := if_pos (by rw [← Bool.not_and, bad]; rfl)
    have trap := State.trapped_exception s h 2 (Config.illegalTval (BitVec.ofNat 64 (fvxBits op f)))
    exact ⟨_, (exec_fvxInstr_of_runs hr).trans (congrArg _ run), trap.mcause, trap.mepc, trap.pc, trap.machine, trap.v, trap.x, trap.p,
      hartOnly_exception _ _ _ _⟩
  · intro x a ha hf
    refine ⟨fun ok => ?_, fun ok => ?_⟩
    · have run : exec (.coreLoad h i) s = .next (s.exception h 4 a) :=
        congrArg Host.Outcome.next ((State.coreDo_of_runs hr _).trans (State.coreLoad_misaligned ha hf ok))
      have trap := State.trapped_exception s h 4 a
      exact ⟨_, run, trap.mcause, trap.mtval, trap.mepc, trap.x, hartOnly_exception _ _ _ _⟩
    · have run : exec (.coreStore h i) s = .next (s.exception h 6 a) :=
        congrArg Host.Outcome.next ((State.coreDo_of_runs hr _).trans (State.coreStore_misaligned ha hf ok))
      have trap := State.trapped_exception s h 6 a
      exact ⟨_, run, trap.mcause, trap.mtval, trap.mepc, trap.x, hartOnly_exception _ _ _ _⟩

end Sys2Proof.Machine
end

section
/-! CSR instructions (R307, R333, R349): what they read, what they write, and where they trap. -/

namespace Sys2Proof.Machine

/-! ### x registers -/

theorem Hart.setX_rest (x : Hart) (r : BitVec 5) (v : BitVec 64) : { x.setX r v with x := x.x } = x := by
  unfold Hart.setX
  split <;> rfl

theorem Hart.xreg_congr {x y : Hart} (h : y.x = x.x) (r : BitVec 5) : y.xreg r = x.xreg r := by rw [Hart.xreg, Hart.xreg, h]

theorem Hart.xreg_setX_same (x : Hart) {r : BitVec 5} (hr : r ≠ 0) (v : BitVec 64) : (x.setX r v).xreg r = v := by
  rw [Hart.xreg_setX, if_pos ⟨rfl, hr⟩]

theorem Hart.xreg_setX_ne (x : Hart) {r k : BitVec 5} (hk : k ≠ r) (v : BitVec 64) : (x.setX r v).xreg k = x.xreg k := by
  rw [Hart.xreg_setX, if_neg (fun e => hk e.1)]

/-! ### The parts of a CSR instruction -/

/-- The operand of a CSR instruction. -/
def csrOperand (x : Hart) (i : CsrInst) : BitVec 64 := if i.useImm then BitVec.setWidth 64 i.rs1 else x.xreg i.rs1

/-- Does a CSR instruction write its CSR? -/
def csrWrites (i : CsrInst) : Bool := i.op == .rw || i.rs1 != 0

/-- What a CSR instruction writes over an old value. -/
def csrNew (x : Hart) (i : CsrInst) (old : BitVec 64) : BitVec 64 :=
  match i.op with
  | .rw => csrOperand x i
  | .rs => old ||| csrOperand x i
  | .rc => old &&& ~~~(csrOperand x i)

/-- The hart after the write of a CSR instruction, if it writes. -/
def csrAfter (x : Hart) (i : CsrInst) (old : BitVec 64) : Hart := if csrWrites i then x.csrWrite i.csr.toNat (csrNew x i old) else x

theorem csrWrites_iff (i : CsrInst) : csrWrites i = true ↔ i.op = .rw ∨ i.rs1 ≠ 0 := by simp [csrWrites]

/-- Between a and y the registers, the predicates and the program counter have stayed. -/
structure RegistersKept (a y : Hart) : Prop where
  x : y.x = a.x
  v : y.v = a.v
  p : y.p = a.p
  pc : y.pc = a.pc

theorem RegistersKept.fpDirty {a y : Hart} (h : RegistersKept a y) : RegistersKept a y.fpDirty := by
  unfold Hart.fpDirty
  exact ⟨h.x, h.v, h.p, h.pc⟩

/-- A CSR write leaves the registers, the predicates and the program counter; one of the three f CSRs also makes FS Dirty. -/
theorem Hart.csrWrite_keeps (x : Hart) (n : Nat) (v : BitVec 64) : RegistersKept x (x.csrWrite n v) := by
  have other : ∀ {c : Prop} [Decidable c] {y z : Hart}, RegistersKept x y → RegistersKept x z → RegistersKept x (if c then y else z) :=
    fun hy hz => iteInduction (fun _ => hy) (fun _ => hz)
  unfold Hart.csrWrite
  refine other ⟨rfl, rfl, rfl, rfl⟩ (other ⟨rfl, rfl, rfl, rfl⟩ (other ⟨rfl, rfl, rfl, rfl⟩ ?_))
  refine other (.fpDirty ⟨rfl, rfl, rfl, rfl⟩) (other (.fpDirty ⟨rfl, rfl, rfl, rfl⟩) (other (.fpDirty ⟨rfl, rfl, rfl, rfl⟩) ?_))
  iterate 7 refine other ⟨rfl, rfl, rfl, rfl⟩ ?_
  exact ⟨rfl, rfl, rfl, rfl⟩

theorem csrAfter_keeps (x : Hart) (i : CsrInst) (old : BitVec 64) : RegistersKept x (csrAfter x i old) :=
  iteInduction (fun _ => x.csrWrite_keeps _ _) (fun _ => ⟨rfl, rfl, rfl, rfl⟩)

/-! ### What a CSR instruction does -/

/-- A part of a hart outside its x registers, program counter and parked instruction. -/
def CsrField (g : Hart → BitVec 64) : Prop := ∀ (y : Hart) (l : Tab (BitVec 64)) (r : BitVec 64) (k : Option Park), g { y with x := l, pc := r, park := k } = g y

/-- What a completed instruction leaves of such a part. -/
theorem CsrField.after {g : Hart → BitVec 64} (hg : CsrField g) (x : Hart) (i : CsrInst) (old : BitVec 64) (n : Nat) :
    g (((csrAfter x i old).setX i.rd old).passed n) = if i.op = .rw ∨ i.rs1 ≠ 0 then g (x.csrWrite i.csr.toNat (csrNew x i old)) else g x := by
  have same : g (((csrAfter x i old).setX i.rd old).passed n) = g (csrAfter x i old) := by
    rw [← hg _ (csrAfter x i old).x (csrAfter x i old).pc (csrAfter x i old).park,
      ← hg (csrAfter x i old) (csrAfter x i old).x (csrAfter x i old).pc (csrAfter x i old).park]
    exact congrArg (fun y : Hart => g { y with pc := (csrAfter x i old).pc, park := (csrAfter x i old).park }) ((csrAfter x i old).setX_rest i.rd old)
  rw [same, csrAfter, apply_ite g]
  exact if_congr (csrWrites_iff i) rfl rfl

section
variable {s : State} {h : HartId} {i : CsrInst} (hr : hartRuns s h = true)
include hr

/-- A CSR that the hart may read, and that takes the write if there is one. -/
theorem exec_fvxCsrAccess_of_read {n : Nat} {old : BitVec 64} (hn : i.csr.toNat = n) (read : s.csrRead h n = some (s, old))
    (ok : i.op = .rw ∨ i.rs1 ≠ 0 → n / 0x400 ≠ 3) :
    ∃ t, (exec (.fvxCsrAccess h i) s = .next t ∧ (t.hart h).pc = (s.hart h).pc + 4 ∧ (i.rd ≠ 0 → (t.hart h).xreg i.rd = old) ∧
        (∀ r : BitVec 5, r ≠ i.rd → (t.hart h).xreg r = (s.hart h).xreg r) ∧ (t.hart h).v = (s.hart h).v ∧ (t.hart h).p = (s.hart h).p ∧ hartOnly h s t) ∧
      ∀ g, CsrField g → g (t.hart h) = if i.op = .rw ∨ i.rs1 ≠ 0 then g ((s.hart h).csrWrite n (csrNew (s.hart h) i old)) else g (s.hart h) := by
  subst hn
  have taken : ¬((i.op == .rw || i.rs1 != 0) && decide (i.csr.toNat / 0x400 = 3)) = true := by
    intro both
    obtain ⟨writes, readOnly⟩ := (Bool.and_eq_true _ _).mp both
    exact ok ((csrWrites_iff i).1 writes) (of_decide_eq_true readOnly)
  have run : s.csrAccess h i = (s.modHart h (fun x => (csrAfter x i old).setX i.rd old)).pass h 4 := by
    unfold State.csrAccess
    simp only [read]
    rw [if_neg taken, ite_self]
    rfl
  have hart : ((s.modHart h (fun x => (csrAfter x i old).setX i.rd old)).pass h 4).hart h = ((csrAfter (s.hart h) i old).setX i.rd old).passed 4 := by
    rw [State.hart_pass, State.hart_modHart_same]
  have kept := csrAfter_keeps (s.hart h) i old
  have rest := (csrAfter (s.hart h) i old).setX_rest i.rd old
  refine ⟨_, ⟨congrArg Host.Outcome.next ((State.coreDo_of_runs hr _).trans run), ?_, fun rd => ?_, fun r hrd => ?_, ?_, ?_,
    hartOnly_trans (hartOnly_modHart _ _ _) (hartOnly_pass _ _ _)⟩, fun g hg => (congrArg g hart).trans (hg.after _ i old 4)⟩
  all_goals rw [hart]
  · exact congrArg (· + 4) ((congrArg Hart.pc rest :).trans kept.pc)
  · rw [Hart.xreg_passed, Hart.xreg_setX_same _ rd]
  · rw [Hart.xreg_passed, Hart.xreg_setX_ne _ hrd, Hart.xreg_congr kept.x]
  · exact (congrArg Hart.v rest :).trans kept.v
  · exact (congrArg Hart.p rest :).trans kept.p

/-- A CSR that the hart has not, may not reach, or may not write. -/
theorem exec_fvxCsrAccess_illegal (run : s.csrAccess h i = s.illegal h (csrBits i)) :
    ∃ t, exec (.fvxCsrAccess h i) s = .next t ∧ (t.hart h).mcause = 2 ∧ (t.hart h).mepc = (s.hart h).pc ∧ (t.hart h).x = (s.hart h).x ∧ hartOnly h s t := by
  have trap := State.trapped_exception s h 2 (Config.illegalTval (BitVec.ofNat 64 (csrBits i)))
  exact ⟨_, congrArg Host.Outcome.next ((State.coreDo_of_runs hr _).trans run), trap.mcause, trap.mepc, trap.x, hartOnly_exception _ _ _ _⟩

theorem exec_fvxCsrAccess_unread {n : Nat} (hn : i.csr.toNat = n) (read : s.csrRead h n = none) :
    ∃ t, exec (.fvxCsrAccess h i) s = .next t ∧ (t.hart h).mcause = 2 ∧ (t.hart h).mepc = (s.hart h).pc ∧ (t.hart h).x = (s.hart h).x ∧ hartOnly h s t := by
  refine exec_fvxCsrAccess_illegal hr ?_
  unfold State.csrAccess
  simp only [hn, read]

end

/-! ### The CSRs of Table 8-6 -/

section
variable (s : State) (h : HartId)

theorem State.csrRead_fvctl : s.csrRead h 0x7C0 = if (s.hart h).machineMode then some (s, (s.hart h).fvctl) else none := rfl
theorem State.csrRead_fvnsat : s.csrRead h 0x800 = if (s.hart h).fvxOn then some (s, (s.hart h).fvnsat) else none := rfl
theorem State.csrRead_fvnflush : s.csrRead h 0x801 = if (s.hart h).fvxOn then some (s, (s.hart h).fvnflush) else none := rfl
theorem State.csrRead_time : s.csrRead h 0xCC1 = some (s, s.clock.ns) := rfl
theorem State.csrRead_fcsr : s.csrRead h 0x003 = if (s.hart h).fpOff then none else some (s, (s.hart h).fcsr) := rfl

end

/-- Settles O17: each CSR by what it reads; one that takes writes, by the field that a write sets. -/
theorem csrAccessReadsAndWrites : Obligations.CsrAccessReadsAndWrites := by
  intro h i s hr x v new writes done trap
  have fvctl : CsrField Hart.fvctl := fun _ _ _ _ => rfl
  have fvnsat : CsrField Hart.fvnsat := fun _ _ _ _ => rfl
  refine ⟨fun e on => ?_, fun e on => ?_, fun e on => ?_, fun e no => ?_, fun e on => ?_, fun e off => ?_, fun e w => ?_, fun e off => ?_, fun e off => ?_⟩
  all_goals have n := congrArg BitVec.toNat e
  · obtain ⟨t, d, field⟩ := exec_fvxCsrAccess_of_read hr n ((s.csrRead_fvctl h).trans (if_pos on)) (fun _ => by decide)
    exact ⟨t, d, field _ fvctl, (field _ fvnsat).trans (ite_self _)⟩
  · obtain ⟨t, d, field⟩ := exec_fvxCsrAccess_of_read hr n ((s.csrRead_fvnsat h).trans (if_pos on)) (fun _ => by decide)
    exact ⟨t, d, field _ fvnsat, (field _ fvctl).trans (ite_self _)⟩
  · obtain ⟨t, d, field⟩ := exec_fvxCsrAccess_of_read hr n ((s.csrRead_fvnflush h).trans (if_pos on)) (fun _ => by decide)
    exact ⟨t, d, field Hart.fvnflush (fun _ _ _ _ => rfl), (field _ fvctl).trans (ite_self _)⟩
  · obtain ⟨t, d, -⟩ := exec_fvxCsrAccess_of_read hr n (s.csrRead_time h) (fun w => absurd w no)
    exact ⟨t, d⟩
  · obtain ⟨t, d, field⟩ := exec_fvxCsrAccess_of_read hr n ((s.csrRead_fcsr h).trans (if_neg (ne_true_of_eq_false on))) (fun _ => by decide)
    exact ⟨t, d, field Hart.fcsr (fun _ _ _ _ => rfl)⟩
  · exact exec_fvxCsrAccess_unread hr n ((s.csrRead_fcsr h).trans (if_pos off))
  · refine exec_fvxCsrAccess_illegal hr ?_
    unfold State.csrAccess
    simp only [n]
    exact if_pos ((Bool.and_eq_true _ _).mpr ⟨(csrWrites_iff i).2 w, rfl⟩)
  · exact exec_fvxCsrAccess_unread hr n ((s.csrRead_fvctl h).trans (if_neg (ne_true_of_eq_false off)))
  · exact exec_fvxCsrAccess_unread hr n ((s.csrRead_fvnsat h).trans (if_neg (ne_true_of_eq_false off)))

end Sys2Proof.Machine
end

section
/-! The threads of a core (R318 to R321): which thread a core starts next, WFI, the end of a time slice, FENCE, and GO (R306). -/

namespace Sys2Proof.Machine

/-! ### Cores and their threads -/

theorem hartOf_toNat (h : HartId) {t : Nat} (ht : t < 8) : (hartOf (coreOf h) t).toNat = 8 * (h.toNat / 8) + t := by
  have own := h.isLt
  exact Nat.mod_eq_of_lt (by simp only [coreOf]; omega)

@[simp] theorem hartOf_own (h : HartId) : hartOf (coreOf h) (threadOf h) = h := by
  refine BitVec.eq_of_toNat_eq ((hartOf_toNat h (Nat.mod_lt _ (by decide))).trans ?_)
  exact Nat.div_add_mod _ _

theorem threadOf_hartOf (h : HartId) {t : Nat} (ht : t < 8) : threadOf (hartOf (coreOf h) t) = t := by
  rw [threadOf, hartOf_toNat h ht]
  omega

theorem coreOf_hartOf (h : HartId) {t : Nat} (ht : t < 8) : coreOf (hartOf (coreOf h) t) = coreOf h := by
  rw [coreOf, hartOf_toNat h ht]
  simp only [coreOf]
  omega

theorem threadOf_lt (h : HartId) : threadOf h < 8 := Nat.mod_lt _ (by decide)

/-- Another thread of the core is another hart. -/
theorem hartOf_ne {h : HartId} {t : Nat} (ht : t < 8) (hn : t ≠ threadOf h) : hartOf (coreOf h) t ≠ h := fun e =>
  hn (by rw [← threadOf_hartOf h ht, e])

/-- The thread i + 1 places after h, in turn. -/
def threadAfter (h : HartId) (i : Nat) : HartId := hartOf (coreOf h) ((threadOf h + 1 + i) % 8)

theorem threadOf_threadAfter (h : HartId) (i : Nat) : threadOf (threadAfter h i) = (threadOf h + 1 + i) % 8 := threadOf_hartOf h (Nat.mod_lt _ (by decide))

theorem threadAfter_seven (h : HartId) : threadAfter h 7 = h := by
  have own := threadOf_lt h
  rw [threadAfter, show (threadOf h + 1 + 7) % 8 = threadOf h by omega, hartOf_own]

theorem threadAfter_ne (h : HartId) {i : Nat} (hi : i < 7) : threadAfter h i ≠ h := by
  have own := threadOf_lt h
  exact hartOf_ne (Nat.mod_lt _ (by decide)) (by omega)

/-! ### The thread that a core starts next -/

/-- The thread that a core starts next is another one of its threads, and ready. -/
theorem nextThread_ready {s : State} {h k : HartId} (hk : nextThread s h = some k) : k ≠ h ∧ (s.hart k).st = .ready ∧ ∃ t, t < 8 ∧ k = hartOf (coreOf h) t := by
  unfold nextThread at hk
  have both := List.find?_some hk
  obtain ⟨other, ready⟩ := (Bool.and_eq_true _ _).mp both
  obtain ⟨i, -, rfl⟩ := List.mem_map.1 (List.mem_of_find?_eq_some hk)
  exact ⟨bne_iff_ne.1 other, eq_of_beq ready, _, Nat.mod_lt _ (by decide), rfl⟩

/-- In u the first ready thread after h is the one that s names, once h itself is not ready or another thread is. -/
theorem find_ready {s u : State} {h : HartId} (others : ∀ k, k ≠ h → u.hart k = s.hart k) (own : (u.hart h).st ≠ .ready ∨ nextThread s h ≠ none) :
    ((List.range 8).find? (fun i => (u.hart (threadAfter h i)).st == .ready)).map (threadAfter h) = nextThread s h := by
  have named : nextThread s h = ((List.range 8).find? (fun i => threadAfter h i != h && (s.hart (threadAfter h i)).st == .ready)).map (threadAfter h) :=
    List.find?_map ..
  have last : List.range 8 = List.range 7 ++ [7] := rfl
  have first : (List.range 7).find? (fun i => (u.hart (threadAfter h i)).st == .ready) =
      (List.range 7).find? (fun i => threadAfter h i != h && (s.hart (threadAfter h i)).st == .ready) := by
    refine List.find?_congr (fun i hi => ?_)
    have other := threadAfter_ne h (List.mem_range.1 hi)
    rw [others _ other, bne_iff_ne.2 other, Bool.true_and]
  rw [last, List.find?_append] at named ⊢
  rw [first]
  have self : [7].find? (fun i => threadAfter h i != h && (s.hart (threadAfter h i)).st == .ready) = none := by simp [threadAfter_seven]
  rw [self, Option.or_none] at named
  cases found : (List.range 7).find? (fun i => threadAfter h i != h && (s.hart (threadAfter h i)).st == .ready) with
  | some i => simp [named, found]
  | none =>
    have none_ : nextThread s h = none := by rw [named, found]; rfl
    have idle := own.resolve_right (not_not_intro none_)
    simp [none_, threadAfter_seven, idle]

/-- A core in which no thread after h is ready starts none. -/
theorem State.startNext_none {u : State} {h : HartId} (hn : (List.range 8).find? (fun i => (u.hart (threadAfter h i)).st == .ready) = none) :
    u.startNext (coreOf h) (threadOf h) = u := by
  unfold State.startNext
  rw [show (List.range 8).find? (fun i => (u.hart (hartOf (coreOf h) ((threadOf h + 1 + i) % 8))).st == .ready) = none from hn]

/-- The thread that a core starts, and its count. -/
theorem State.startNext_some {u : State} {h : HartId} {i : Nat} (hn : (List.range 8).find? (fun i => (u.hart (threadAfter h i)).st == .ready) = some i) :
    u.startNext (coreOf h) (threadOf h) =
      { (u.modHart (threadAfter h i) (fun x => { x with st := .running })).count (corePark (coreOf h) F.CPU_CORE_PARKS_SWITCHES) 1 with
        running := Tab.set (coreOf h) (threadOf (threadAfter h i)) u.running } := by
  unfold State.startNext
  rw [show (List.range 8).find? (fun i => (u.hart (hartOf (coreOf h) ((threadOf h + 1 + i) % 8))).st == .ready) = some i from hn, threadOf_threadAfter]
  rfl

/-- Starting a thread changes harts, the running threads and the core's counts alone. -/
theorem State.startNext_frame (u : State) (c t : Nat) :
    { u.startNext c t with harts := u.harts, running := u.running, regs := u.regs } = u ∧ otherRegs [R.CPU_CORE_PARKS + 8 * c] u (u.startNext c t) := by
  unfold State.startNext
  split
  · exact ⟨rfl, fun _ _ => rfl⟩
  · exact ⟨rfl, fun a ha => State.reg_setFld_ne _ _ _ _ (by simpa [corePark, Fld.plus, F.CPU_CORE_PARKS_SWITCHES, R.CPU_CORE_PARKS] using ha)⟩

/-- Hart h has left its core with what u holds of it, and the core has started the next thread. -/
theorem State.startNext_leaves {s u : State} {h : HartId} (others : ∀ k, k ≠ h → u.hart k = s.hart k) (running : u.running = s.running)
    (count : u.fld (corePark (coreOf h) F.CPU_CORE_PARKS_SWITCHES) = s.fld (corePark (coreOf h) F.CPU_CORE_PARKS_SWITCHES))
    (own : (u.hart h).st ≠ .ready ∨ nextThread s h ≠ none) : hartLeaves s (u.startNext (coreOf h) (threadOf h)) h (u.hart h) := by
  have next := find_ready others own
  cases found : (List.range 8).find? (fun i => (u.hart (threadAfter h i)).st == .ready) with
  | none =>
    rw [found, Option.map_none] at next
    rw [State.startNext_none found]
    exact ⟨rfl, fun k hk => absurd (next.trans hk) (by simp), fun k hk _ => others k hk, fun _ => running⟩
  | some i =>
    rw [found, Option.map_some] at next
    have other := (nextThread_ready next.symm).1
    have started : ∀ k, (u.startNext (coreOf h) (threadOf h)).hart k = (u.modHart (threadAfter h i) (fun x => { x with st := .running })).hart k := by
      rw [State.startNext_some found]
      exact fun _ => rfl
    refine ⟨(started h).trans (State.hart_modHart_other _ _ _ _ other.symm), fun k hk => ?_, fun k hk hn => ?_, fun hn => absurd (next.trans hn) (by simp)⟩
    · obtain rfl := Option.some.inj (next.trans hk)
      refine ⟨(started _).trans ((State.hart_modHart_same _ _ _).trans (by rw [others _ other])), ?_, ?_⟩
      · rw [State.startNext_some found]
        exact Tab.get_set_same ..
      · rw [State.startNext_some found, ← count]
        exact State.fld_count _ _ _ (by simp only [corePark, Fld.plus]; decide) (by simp only [corePark, Fld.plus]; decide)
    · exact (started k).trans ((State.hart_modHart_other _ _ _ _ (fun e => hn (next.symm.trans (congrArg some e.symm)))).trans (others k hk))

/-! ### A thread leaves its core -/

/-- Leaving a core changes harts, the running threads and the core's counts alone. -/
theorem State.leaveCore_frame (u : State) (h : HartId) (st : HartState) :
    { u.leaveCore h st with harts := u.harts, running := u.running, regs := u.regs } = u ∧
      otherRegs [R.CPU_CORE_PARKS + 8 * coreOf h] u (u.leaveCore h st) := by
  obtain ⟨rest, regs⟩ := State.startNext_frame (u.modHart h (fun x => { x with st := st })) (coreOf h) (threadOf h)
  exact ⟨(congrArg (fun t : State => { t with harts := u.harts }) rest :), regs⟩

/-- In u, which differs from s in hart h and more, h leaves its core for another reason than the end of its slice, or for another thread. -/
theorem State.leaveCore_leaves {s u : State} {h : HartId} {st : HartState} (others : ∀ k, k ≠ h → u.hart k = s.hart k) (running : u.running = s.running)
    (count : u.fld (corePark (coreOf h) F.CPU_CORE_PARKS_SWITCHES) = s.fld (corePark (coreOf h) F.CPU_CORE_PARKS_SWITCHES))
    (own : st ≠ .ready ∨ nextThread s h ≠ none) : hartLeaves s (u.leaveCore h st) h { u.hart h with st := st } := by
  have hart := u.hart_modHart_same h (fun x => { x with st := st })
  rw [← hart]
  exact State.startNext_leaves (fun k hk => (State.hart_modHart_other _ _ _ _ hk).trans (others k hk)) running count (by rw [hart]; exact own)

/-! ### WFI and the time slice -/

/-- The only running thread of its core is found. -/
theorem find_running {s : State} {h : HartId} (running : (s.hart h).st = .running) (alone : ∀ k, coreOf k = coreOf h → k ≠ h → (s.hart k).st ≠ .running) :
    (List.range 8).find? (fun t => (s.hart (hartOf (coreOf h) t)).st == .running) = some (threadOf h) := by
  rw [List.find?_range_eq_some]
  refine ⟨by simp [running], List.mem_range.2 (threadOf_lt h), fun t ht => ?_⟩
  have lt := lt_trans ht (threadOf_lt h)
  simpa using alone _ (coreOf_hartOf h lt) (hartOf_ne lt (ne_of_lt ht))

theorem exists_ready_of_nextThread {s : State} {h : HartId} (next : nextThread s h ≠ none) :
    (List.range 8).any (fun t => (s.hart (hartOf (coreOf h) t)).st == .ready) = true := by
  obtain ⟨k, hk⟩ := Option.ne_none_iff_exists'.1 next
  obtain ⟨-, ready, t, ht, rfl⟩ := nextThread_ready hk
  exact List.any_eq_true.2 ⟨t, List.mem_range.2 ht, beq_iff_eq.2 ready⟩

/-- The end of the time slice of a core's one running thread, while another is ready. -/
theorem exec_threadTimeslice {s : State} {h : HartId} (running : (s.hart h).st = .running)
    (alone : ∀ k, coreOf k = coreOf h → k ≠ h → (s.hart k).st ≠ .running) (next : nextThread s h ≠ none) :
    exec (.threadTimeslice (BitVec.ofNat 7 (coreOf h))) s = .next (s.leaveCore h .ready) := by
  have core : (BitVec.ofNat 7 (coreOf h)).toNat = coreOf h := Nat.mod_eq_of_lt (by have := h.isLt; simp only [coreOf]; omega)
  have run : exec (.threadTimeslice (BitVec.ofNat 7 (coreOf h))) s = execThreadTimeslice (BitVec.ofNat 7 (coreOf h)) s := rfl
  rw [run, execThreadTimeslice]
  simp only [core, find_running running alone, hartOf_own]
  rw [if_pos (exists_ready_of_nextThread next)]

/-- Settles O16: WFI and the end of a time slice by what leaving a core does; FENCE is one move of the program counter. -/
theorem threadsAndFence : Obligations.ThreadsAndFence := by
  refine ⟨fun h s hr => ?_, fun h p q s hr => ?_⟩
  · intro parks rest
    obtain ⟨-, running, unparked⟩ := hartRuns_iff.1 hr
    refine ⟨fun machine => ?_, fun alone next => ?_⟩
    · have run : exec (.coreWfi h) s = .next ((s.pass h 4).leaveCore h .wfi) :=
        congrArg Host.Outcome.next ((State.coreDo_of_runs hr _).trans (if_neg (by simp [machine])))
      have leaves := State.leaveCore_leaves (s := s) (u := s.pass h 4) (st := .wfi) (hartOnly_pass s h 4).2 rfl rfl (.inl (by decide))
      rw [State.hart_pass, Hart.passed_of_unparked unparked] at leaves
      obtain ⟨frame, regs⟩ := (s.pass h 4).leaveCore_frame h .wfi
      exact ⟨_, run, leaves, (congrArg (fun t : State => { t with harts := s.harts }) frame :), regs⟩
    · exact ⟨_, exec_threadTimeslice running alone next, State.leaveCore_leaves (fun _ _ => rfl) rfl rfl (.inr next), s.leaveCore_frame h .ready⟩
  · have hart := s.hart_pass h 4
    rw [Hart.passed_of_unparked (hartRuns_iff.1 hr).2.2] at hart
    exact ⟨_, congrArg Host.Outcome.next (State.coreDo_of_runs hr _), hart, hartOnly_pass _ _ _⟩

end Sys2Proof.Machine
end

section
/-! GO of CPU_START (R306). -/

namespace Sys2Proof.Machine

/-! ### Tables over a range -/

/-- A table that lists every key below n. -/
theorem Tab.get_range {α : Type} (d g : Nat → α) {n k : Nat} (hk : k < n) : Tab.get d ((List.range n).map (fun i => (i, g i))) k = g k := by
  have found : ∀ l : List Nat, k ∈ l → Tab.get d (l.map (fun i => (i, g i))) k = g k := by
    intro l
    induction l with
    | nil => exact fun h => absurd h List.not_mem_nil
    | cons i l ih =>
      intro h
      by_cases e : k = i
      · subst e
        exact if_pos rfl
      · exact (if_neg e).trans (ih ((List.mem_cons.1 h).resolve_left e))
  exact found _ (List.mem_range.2 hk)

/-! ### The write of CPU_START -/

/-- CPU_START as the register table has it. -/
def cpuStartReg : RegDesc := ⟨.cpu, 0x8, 0, 1, [⟨63, 2, .rw, .cmp, 0⟩, ⟨1, 1, .ro, .cmp, 0⟩, ⟨0, 0, .wo, .cmp, 0⟩]⟩

theorem regAt_cpuStart : regAt R.CPU_START = some cpuStartReg := by decide +kernel

/-- A write of CPU_START by a firmware processor sets ADDR and leaves STARTED. -/
theorem State.fld_cpuStartWrite (s : State) (p : FwpId) (v : BitVec 64) :
    (s.plainWrite (.fw p) R.CPU_START v).fld F.CPU_START_ADDR = v.toNat / 4 ∧
      (s.plainWrite (.fw p) R.CPU_START v).fld F.CPU_START_STARTED = s.fld F.CPU_START_STARTED := by
  have written : (s.plainWrite (.fw p) R.CPU_START v).reg R.CPU_START = writeFields (.fw p) R.CPU_START (s.reg R.CPU_START) v cpuStartReg.fields := by
    rw [State.plainWrite, regAt_cpuStart]
    exact s.reg_setReg_same _ _
  have field : ∀ f ∈ cpuStartReg.fields, (s.plainWrite (.fw p) R.CPU_START v).fld ⟨R.CPU_START, f.hi, f.lo⟩ =
      writtenField (.fw p) R.CPU_START v f (bitsOf (s.reg R.CPU_START) f.hi f.lo) := fun f hf => by
    rw [State.fld, written]
    exact bitsOf_writeFields regAt_cpuStart hf _ _ _
  have accepted : ∀ a, writerOk (.fw p) R.CPU_START a = true := fun a => rfl
  have small := v.isLt
  refine ⟨(field ⟨63, 2, .rw, .cmp, 0⟩ (by decide)).trans ?_, (field ⟨1, 1, .ro, .cmp, 0⟩ (by decide)).trans ?_⟩
  · rw [writtenField, accepted, bitsOf]
    simp only [if_true, bitsOf]
    omega
  · rw [writtenField, accepted]
    rfl

/-- A write of CPU_START changes no other register and nothing else. -/
theorem State.cpuStartWrite_frame (s : State) (q : Requester) (v : BitVec 64) :
    { s.plainWrite q R.CPU_START v with regs := s.regs } = s ∧ otherRegs [R.CPU_START] s (s.plainWrite q R.CPU_START v) := by
  rw [State.plainWrite, regAt_cpuStart]
  exact ⟨rfl, fun a ha => s.reg_setReg_ne _ _ _ (fun e => ha (List.mem_singleton.2 e))⟩

/-- GO sets STARTED, and changes no other register. -/
theorem State.reg_startHarts (u : State) (a : Nat) : u.startHarts.reg a = (u.setFld F.CPU_START_STARTED 1).reg a := by
  unfold State.startHarts State.reg
  rfl

theorem State.startHarts_rest (u : State) : { u.startHarts with regs := u.regs, harts := u.harts, running := u.running } = u := by
  unfold State.startHarts
  rfl

/-- What the harts are once GO has started them. -/
theorem State.hart_startHarts (u : State) (h : HartId) : u.startHarts.hart h =
    { u.hart h with pc := BitVec.ofNat 64 (4 * u.fld F.CPU_START_ADDR), machineMode := true, st := if threadOf h = 0 then .running else .ready } := by
  unfold State.startHarts
  simp only []
  rw [State.hart, Tab.get_range _ _ h.isLt, BitVec.ofNat_toNat, BitVec.setWidth_eq]
  rfl

/-- Settles O20: the write sets ADDR, and GO lists every hart. -/
theorem goStartsAllHarts : Obligations.GoStartsAllHarts := by
  intro p v s go ready
  obtain ⟨addr, started⟩ := s.fld_cpuStartWrite p v
  obtain ⟨frame, regs⟩ := s.cpuStartWrite_frame (.fw p) v
  have harts : ∀ h, (s.plainWrite (.fw p) R.CPU_START v).hart h = s.hart h := fun h => (congrArg (fun t : State => t.hart h) frame :)
  have service : (s.plainWrite (.fw p) R.CPU_START v).ready 12 = true := (State.ready_congr _ _ 12 (regs _ (by decide))).trans ready
  have run : exec (.cpuStartGo (.fw p) v) s = .next (s.cpuStart (.fw p) v) := rfl
  rw [run]
  have bit : (s.plainWrite (.fw p) R.CPU_START v).bit F.CPU_START_STARTED = s.bit F.CPU_START_STARTED := congrArg (· != 0) started
  refine ⟨fun off => ?_, fun on => ?_⟩
  · have starts : s.cpuStart (.fw p) v = (s.plainWrite (.fw p) R.CPU_START v).startHarts := if_pos (by rw [go, bit, off, service]; rfl)
    rw [starts]
    have rest := congrArg (fun t : State => { t with regs := s.regs, harts := s.harts, running := s.running }) (s.plainWrite (.fw p) R.CPU_START v).startHarts_rest
    refine ⟨_, rfl, ?_, ?_, fun h => ?_, fun a ha => (State.reg_startHarts _ a).trans ?_,
      rest.trans (congrArg (fun t : State => { t with harts := s.harts, running := s.running }) frame :)⟩
    · rw [State.bit, State.fld, State.reg_startHarts, ← State.fld, State.fld_setFld _ F.CPU_START_STARTED 1 (by decide) (by decide)]
      decide
    · rw [State.fld, State.reg_startHarts]
      exact (State.fld_setFld_other _ F.CPU_START_STARTED F.CPU_START_ADDR 1 (by decide) (by decide) (by decide) (by decide)).trans addr
    · rw [State.hart_startHarts, harts, addr, Nat.mul_comm]
    · exact (State.reg_setFld_ne _ F.CPU_START_STARTED _ _ (fun e => ha (List.mem_singleton.2 e))).trans (regs a ha)
  · have stays : s.cpuStart (.fw p) v = s.plainWrite (.fw p) R.CPU_START v := if_neg (by rw [go, bit, on]; exact Bool.false_ne_true)
    rw [stays]
    exact ⟨_, rfl, frame, regs⟩

end Sys2Proof.Machine
end

section
/-! A hart's accesses to the node's own memory (R308 to R317): where no other node holds a line, nothing is poisoned and the node does not
replay, an access completes at once; loads read what every requester reads. -/

namespace Sys2Proof.Machine

/-! ### Elements in the node's own memory -/

/-- A place in the node's own memory. -/
def CorePlace.own : CorePlace → Bool
  | .dram _ => true
  | .window _ => true
  | _ => false

/-- Where an access to the node's own memory goes. -/
def ownPlace (a : Nat) : CorePlace := if sramWindow ≤ a then .window a else .dram a

/-- Element e of hart h lies in memory of the node that is in service. -/
structure OwnEl (s : State) (h : HartId) (e : El) : Prop where
  mapped : s.memStatus (localAddr e.addr) e.n = St.ok
  place : s.corePlace h e.addr e.n = ownPlace (localAddr e.addr)

/-- Memory of this node. -/
theorem State.corePlace_local {s : State} {a : BitVec 64} (space : bitsOf a 63 62 = 0) (node : s.isLocal (BitVec.ofNat 14 (bitsOf a 61 48)) = true)
    (h : HartId) (n : Nat) :
    s.corePlace h a n = if s.memStatus (localAddr a) n = St.ok then ownPlace (localAddr a) else .refused (s.memStatus (localAddr a) n) := by
  unfold State.corePlace
  simp only [space, node]
  exact ite_not ..

/-- Another node, outside the coherence domain. -/
theorem State.corePlace_far {s : State} {a : BitVec 64} (space : bitsOf a 63 62 = 0) (node : s.isLocal (BitVec.ofNat 14 (bitsOf a 61 48)) = false)
    (domain : s.inDomain (BitVec.ofNat 14 (bitsOf a 61 48)) = false ∨ sramWindow ≤ localAddr a) (h : HartId) (n : Nat) :
    s.corePlace h a n = .far (BitVec.ofNat 14 (bitsOf a 61 48)) (localAddr a) := by
  unfold State.corePlace
  simp only [space, node]
  rw [if_neg (by decide), if_neg (by decide), if_neg (by decide)]
  refine if_neg (fun both => ?_)
  obtain ⟨inside, below⟩ := (Bool.and_eq_true _ _).mp both
  exact domain.elim (fun out => Bool.noConfusion (inside.symm.trans out)) (fun above => absurd (of_decide_eq_true below) (not_lt_of_ge above))

/-- Only memory of this node, in service, is a place in its own memory. -/
theorem OwnEl.of_own {s : State} {h : HartId} {e : El} (own : (s.corePlace h e.addr e.n).own = true) : OwnEl s h e := by
  have here : bitsOf e.addr 63 62 = 0 ∧ s.isLocal (BitVec.ofNat 14 (bitsOf e.addr 61 48)) = true := by
    revert own
    unfold State.corePlace
    simp only []
    split
    · exact fun no => absurd no Bool.false_ne_true
    next low =>
    split
    · split
      · exact fun no => absurd no Bool.false_ne_true
      split <;> exact fun no => absurd no Bool.false_ne_true
    next space =>
    split
    · next node => exact fun _ => ⟨by omega, node⟩
    · split <;> exact fun no => absurd no Bool.false_ne_true
  have place := State.corePlace_local here.1 here.2 h e.n
  by_cases mapped : s.memStatus (localAddr e.addr) e.n = St.ok
  · exact ⟨mapped, place.trans (if_pos mapped)⟩
  · rw [place, if_neg mapped] at own
    exact absurd own Bool.false_ne_true

/-- No other node holds a line of this one, nothing is poisoned, and the node does not replay. -/
structure AloneNode (s : State) : Prop where
  dir : s.dir = []
  dirTrans : s.dirTrans = []
  replaying : s.replaying = false
  poison : s.poison = []

theorem alone_of_ownEls {s : State} {h : HartId} {els : List El} (own : ownEls s h els = true) : AloneNode s ∧ ∀ e ∈ els, OwnEl s h e := by
  simp only [ownEls, Bool.and_eq_true, List.isEmpty_iff, List.all_eq_true, Bool.not_eq_true'] at own
  obtain ⟨⟨⟨⟨dir, dirTrans⟩, replaying⟩, poison⟩, places⟩ := own
  refine ⟨⟨dir, dirTrans, replaying, poison⟩, fun e he => .of_own ?_⟩
  have place := places e he
  revert place
  cases s.corePlace h e.addr e.n <;> exact id

/-! ### An access outside replay -/

section
variable {s : State} {h : HartId} (replaying : s.replaying = false) (cmd : CoreCmd) (load : Bool) (op : FarOp)
include replaying

/-- What follows once it is known what an access needs of other nodes. -/
def State.afterNeeds (h : HartId) (load : Bool) (els : List El) (done : State → List Host.Cell → State) (k : Park) (w : Need) : State :=
  if w.tags ≠ [] ∨ w.short = true then w.s.parkHart h { k with waits := w.tags, fails := w.fails }
  else if w.fails ≠ [] then w.s.raiseFails h load els w.fails
  else done w.s k.got

/-- An instruction that has not been parked, none of whose elements is refused. -/
theorem State.coreAccess_unparked (unparked : (s.hart h).park = none) {els : List El} (faultless : ∀ e ∈ els, s.elFault h op e = none)
    (done : State → List Host.Cell → State) :
    s.coreAccess h cmd load op els done = State.afterNeeds h load els done ⟨cmd, [], [], []⟩ (s.coreNeeds h op els []) := by
  have fault : els.findSome? (fun e => (s.elFault h op e).map (fun st => (e, st))) = none :=
    List.findSome?_eq_none_iff.2 (fun e he => by rw [faultless e he]; rfl)
  unfold State.coreAccess
  simp only [unparked, fault, replaying, Option.isSome_none, Bool.false_eq_true, if_false, Bool.false_and, ne_eq, not_true_eq_false]
  rfl

/-- A parked instruction that no reply has failed. -/
theorem State.coreAccess_parked {k : Park} (parked : (s.hart h).park = some k) (whole : k.fails = []) (els : List El) (done : State → List Host.Cell → State) :
    s.coreAccess h cmd load op els done = State.afterNeeds h load els done k (s.coreNeeds h op els k.got) := by
  unfold State.coreAccess
  simp only [parked, whole, replaying, Option.isSome_some, if_true, Bool.false_eq_true, if_false, Bool.false_and, ne_eq, not_true_eq_false]
  rfl

omit replaying in
/-- A parked instruction of which a reply has failed. -/
theorem State.coreAccess_failed {k : Park} (parked : (s.hart h).park = some k) (failed : k.fails ≠ []) (els : List El) (done : State → List Host.Cell → State) :
    s.coreAccess h cmd load op els done = s.raiseFails h load els k.fails := by
  unfold State.coreAccess
  simp only [parked, Option.isSome_some, if_true]
  exact if_pos failed

end

/-! ### What an access to the node's own memory does -/

/-- A fold whose every step leaves its start. -/
theorem foldl_of_fixed {α β : Type} {f : β → α → β} {b : β} {l : List α} (h : ∀ a ∈ l, f b a = b) : l.foldl f b = b := by
  induction l with
  | nil => rfl
  | cons a l ih =>
    obtain ⟨first, rest⟩ := List.forall_mem_cons.1 h
    rw [List.foldl_cons, first, ih rest]

section
variable {s : State} {h : HartId} {e : El} (own : OwnEl s h e)
include own

theorem OwnEl.kind : s.corePlace h e.addr e.n = .window (localAddr e.addr) ∨ s.corePlace h e.addr e.n = .dram (localAddr e.addr) := by
  rw [own.place, ownPlace]
  split
  · exact .inl rfl
  · exact .inr rfl

/-- Nothing is refused, and no window entry is asked. -/
theorem OwnEl.elFault (op : FarOp) : s.elFault h op e = none := by
  unfold State.elFault
  rcases own.kind with place | place <;> rw [place]

/-- A core names the byte by its node-local address. -/
theorem OwnEl.elKey : s.elKey h e = localAddr e.addr := by
  unfold State.elKey
  rcases own.kind with place | place <;> rw [place] <;> rfl

theorem OwnEl.elRead (alone : AloneNode s) (got : List Host.Cell) : s.elRead h got e = (s, some (s.bytes (localAddr e.addr) e.n)) := by
  have readable : s.badRead (localAddr e.addr) e.n = false := by simp [State.badRead, State.badByte, alone.poison]
  unfold State.elRead
  rcases own.kind with place | place <;> rw [place] <;> exact if_neg (ne_true_of_eq_false readable)

theorem OwnEl.elWrite (d : List Byte) : s.elWrite h e d = if sramWindow ≤ localAddr e.addr then s.sramPut (localAddr e.addr) d else s.coreLine (localAddr e.addr) d := by
  unfold State.elWrite
  rw [own.place]
  by_cases window : sramWindow ≤ localAddr e.addr
  · rw [ownPlace, if_pos window, if_pos window]
  · rw [ownPlace, if_neg window, if_neg window]

end

section
variable {s : State} {h : HartId} {els : List El} (alone : AloneNode s) (own : ∀ e ∈ els, OwnEl s h e)
include own

/-- No byte of another node is needed. -/
theorem State.farKeys_own (got : List Host.Cell) : s.farKeys h els got = [] := by
  unfold State.farKeys
  rw [foldl_of_fixed (l := els) (fun e he => ?_)]
  · rfl
  · rcases (own e he).kind with place | place <;> rw [place]

include alone

theorem State.coreNeeds_own (op : FarOp) (got : List Host.Cell) : s.coreNeeds h op els got = ⟨s, [], [], false⟩ := by
  have unheld : ∀ (line : Nat) (write : Bool), (⟨s, [], [], false⟩ : Need).own line write = ⟨s, [], [], false⟩ := fun line write =>
    if_pos (by rw [alone.dir, alone.dirTrans]; rfl)
  unfold State.coreNeeds
  simp only []
  rw [State.farKeys_own own, foldl_of_fixed (l := els) (fun e he => ?_)]
  · rfl
  · rcases (own e he).kind with place | place <;> rw [place]
    exact unheld _ _

/-- An access to the node's own memory completes at once. -/
theorem State.coreAccess_own (unparked : (s.hart h).park = none) (cmd : CoreCmd) (load : Bool) (op : FarOp) (done : State → List Host.Cell → State) :
    s.coreAccess h cmd load op els done = done s [] := by
  rw [State.coreAccess_unparked alone.replaying cmd load op unparked (fun e he => (own e he).elFault op), State.coreNeeds_own alone own]
  rfl

theorem State.readEls_own (got : List Host.Cell) : s.readEls h got els = (s, els.map (fun e => s.bytes (localAddr e.addr) e.n), none) := by
  induction els with
  | nil => rfl
  | cons e l ih =>
    obtain ⟨first, rest⟩ := List.forall_mem_cons.1 own
    rw [State.readEls, first.elRead alone]
    simp only [ih rest]
    rfl

end

end Sys2Proof.Machine
end

section
/-! Stores of a hart to the node's own memory (R312 to R315): what every byte then reads as, and what else they leave. -/

namespace Sys2Proof.Machine

/-! ### Reservations -/

/-- Breaking reservations changes nothing else of any hart. -/
theorem State.hart_breakResv (s : State) (a n : Nat) (k : HartId) : { (s.breakResv a n).hart k with resv := none } = { s.hart k with resv := none } := by
  unfold State.breakResv State.hart
  simp only []
  induction s.harts with
  | nil => rfl
  | cons e l ih =>
    rw [List.map_cons, Tab.get, Tab.get]
    split
    · split
      · split <;> rfl
      · rfl
    · exact ih

/-! ### A store -/

/-- Between s and t the cores have stored the bytes l, in order, into the node's own memory; the memory keeps its form, what a cache holds
modified lies in DRAM, and harts have lost reservations at most. -/
structure CoreStored (s t : State) (l : List (Nat × Byte)) : Prop where
  only : { t with mem := s.mem, dirty := s.dirty, harts := s.harts } = s
  harts : ∀ k, { t.hart k with resv := none } = { s.hart k with resv := none }
  reads : ∀ x, t.byteAt x = afterStores l x (s.byteAt x)
  dirty : ∀ e ∈ t.dirty, e.1 < sramWindow
  wf : t.mem.wf = true

/-- What the cores hold modified and what the guard holds lies in DRAM, nothing is poisoned, and memory is in canonical form. -/
structure CoreSound (s : State) : Prop where
  poison : s.poison = []
  dirty : ∀ e ∈ s.dirty, e.1 < sramWindow
  held : ∀ w ∈ s.heldWrites, w.addr + w.data.length ≤ sramWindow
  wf : s.mem.wf = true

theorem CoreSound.of_caches {s : State} (hc : cachesInDram s = true) (hm : memoriesWf s) (hp : s.poison = []) : CoreSound s := by
  simp only [cachesInDram, Bool.and_eq_true, List.all_eq_true, decide_eq_true_eq] at hc
  exact ⟨hp, hc.1, hc.2, hm.1⟩

namespace CoreStored
variable {s t u : State} {l m : List (Nat × Byte)}

theorem refl (h : CoreSound s) : CoreStored s s [] := ⟨rfl, fun _ => rfl, fun _ => rfl, h.dirty, h.wf⟩

theorem trans (a : CoreStored s t l) (b : CoreStored t u m) : CoreStored s u (l ++ m) where
  only := (congrArg (fun v : State => { v with mem := s.mem, dirty := s.dirty, harts := s.harts }) b.only :).trans a.only
  harts k := (b.harts k).trans (a.harts k)
  reads x := by rw [b.reads, a.reads, afterStores_append]
  dirty := b.dirty
  wf := b.wf

/-- What does not rest on memory, the caches or the harts. -/
theorem same {α : Type} (a : CoreStored s t l) (f : State → α) (hf : ∀ (v : State) m d k, f { v with mem := m, dirty := d, harts := k } = f v) : f t = f s := by
  rw [← hf t s.mem s.dirty s.harts, a.only]

theorem hart_same {α : Type} (a : CoreStored s t l) (k : HartId) (f : Hart → α) (hf : ∀ x r, f { x with resv := r } = f x) : f (t.hart k) = f (s.hart k) := by
  rw [← hf (t.hart k) none, a.harts, hf]

theorem sound (a : CoreStored s t l) (h : CoreSound s) : CoreSound t :=
  ⟨(a.same State.poison (fun _ _ _ _ => rfl)).trans h.poison, a.dirty, by rw [a.same State.heldWrites (fun _ _ _ _ => rfl)]; exact h.held, a.wf⟩

/-- A store moves no element to another place. -/
theorem ownEl (a : CoreStored s t l) {h : HartId} {e : El} (own : OwnEl s h e) : OwnEl t h e := by
  have status : ∀ b n, t.memStatus b n = s.memStatus b n := fun b n => a.same (fun v => v.memStatus b n) (fun _ _ _ _ => rfl)
  have place : t.corePlace h e.addr e.n = s.corePlace h e.addr e.n := by
    have mode := a.hart_same h Hart.dataMachine (fun _ _ => rfl)
    have node : ∀ n, t.isLocal n = s.isLocal n := fun n => a.same (fun v => v.isLocal n) (fun _ _ _ _ => rfl)
    have domain : ∀ n, t.inDomain n = s.inDomain n := fun n => a.same (fun v => v.inDomain n) (fun _ _ _ _ => rfl)
    unfold State.corePlace
    simp only [mode, node, status, domain]
  exact ⟨(status _ _).trans own.mapped, place.trans own.place⟩

end CoreStored

/-! ### A store of the cores into SRAM -/

theorem mod_sramWindow : sramWindow % 64 = 0 := by decide

/-- In the SRAM window a byte reads as memory holds it. -/
theorem CoreSound.byteAt_window {s : State} (h : CoreSound s) {x : Nat} (hx : regionOf x = some .sram) : s.byteAt x = s.mem.read x := by
  have low := sramWindow_le_of_sram hx
  have clean : Tab.find s.dirty (x / 64 * 64) = none := find_eq_none_of_ne (fun e he => by
    have := h.dirty e he
    have := mod_sramWindow
    omega)
  have free : heldByte s.heldWrites x = none := heldByte_of_outside (fun w hw i => by
    have := h.held w hw
    omega)
  simp only [State.byteAt, clean, free]
  exact if_pos hx

/-- A write of memory shows in no byte that it does not reach. -/
theorem State.byteAt_writeN_outside (s : State) (hm : s.mem.wf = true) {a x : Nat} {d : List Byte} (hx : ¬(a ≤ x ∧ x < a + d.length)) :
    State.byteAt { s with mem := s.mem.writeN a d } x = s.byteAt x := by
  simp only [State.byteAt, State.wcbOf, Memory.read_writeN _ _ _ _ hm, if_neg hx]

theorem CoreSound.sramPut {s : State} (h : CoreSound s) {a : Nat} {d : List Byte} (lo : sramWindow ≤ a) (hi : a + d.length ≤ 0x0F0080000000) :
    CoreStored s (s.sramPut a d) (((List.range d.length).map (fun i => a + i)).zip d) := by
  have write : s.sramPut a d = { s with mem := s.mem.writeN a d } := by
    have origin : sramAddr 0 (a - sramWindow) = a := by
      simp only [sramAddr]
      exact Nat.add_sub_cancel' lo
    have stored := State.sramWrite_clean h.poison 0 (a - sramWindow) d
    rwa [State.sramWrite, origin] at stored
  rw [write]
  have wf := Memory.wf_writeN s.mem a d h.wf
  refine ⟨rfl, fun _ => rfl, fun x => ?_, h.dirty, wf⟩
  rw [afterStores_run, storedAt]
  split
  · next inside =>
    have sram : regionOf x = some .sram := regionOf_sram_iff.2 ⟨le_trans lo inside.1, lt_of_lt_of_le inside.2 hi⟩
    have sound : CoreSound { s with mem := s.mem.writeN a d } := ⟨h.poison, h.dirty, h.held, wf⟩
    rw [sound.byteAt_window sram, Memory.read_writeN _ _ _ _ h.wf, if_pos inside]
  · next outside => exact s.byteAt_writeN_outside h.wf outside

/-! ### A store of the cores into a DRAM line -/

theorem cut_one {a : Nat} {d : List Byte} (hd : d ≠ []) (hl : a % 64 + d.length ≤ 64) : cut 64 a d = [(a, d)] := by
  obtain ⟨b, r, rfl⟩ := List.exists_cons_of_ne_nil hd
  rw [cut, List.length_cons, pieces, List.take_of_length_le (by omega), List.drop_of_length_le (by omega)]
  · cases r.length <;> rfl
  · exact hd

/-- A line with some of its bytes replaced. -/
theorem getD_splice {old d : List Byte} {o i : Nat} (ho : o + d.length ≤ old.length) :
    (old.take o ++ d ++ old.drop (o + d.length)).getD i 0 = if o ≤ i ∧ i < o + d.length then d.getD (i - o) 0 else old.getD i 0 := by
  have front : (old.take o).length = o := List.length_take_of_le (by omega)
  by_cases low : i < o
  · rw [if_neg (by omega), List.append_assoc, List.getD_append _ _ _ _ (by omega)]
    simp [List.getD_eq_getElem?_getD, low]
  by_cases high : i < o + d.length
  · rw [if_pos (by omega), List.append_assoc, List.getD_append_right _ _ _ _ (by omega), front, List.getD_append _ _ _ _ (by omega)]
  · rw [if_neg (by omega), List.getD_append_right _ _ _ _ (by rw [List.length_append]; omega), List.length_append, front]
    simp only [List.getD_eq_getElem?_getD, List.getElem?_drop]
    rw [show o + d.length + (i - (o + d.length)) = i by omega]

/-- The line of address a with the bytes d from a upward. -/
def State.lineWith (s : State) (a : Nat) (d : List Byte) : List Byte :=
  (s.bytes (a / 64 * 64) 64).take (a % 64) ++ d ++ (s.bytes (a / 64 * 64) 64).drop (a % 64 + d.length)

/-- A store into a line: the line becomes modified in the caches. -/
theorem State.coreLine_one {s : State} (hp : s.poison = []) {a : Nat} {d : List Byte} (hd : d ≠ []) (hl : a % 64 + d.length ≤ 64) :
    s.coreLine a d = { s.breakResv a d.length with dirty := Tab.set (a / 64 * 64) (s.lineWith a d) s.dirty } := by
  have readable : (s.breakResv a d.length).badRead (a / 64 * 64) 64 = false := by
    have clean : (s.breakResv a d.length).poison = [] := hp
    simp [State.badRead, State.badByte, clean]
  have same : (s.breakResv a d.length).bytes (a / 64 * 64) 64 = s.bytes (a / 64 * 64) 64 := State.bytes_congr rfl _ _
  have offset : a - a / 64 * 64 = a % 64 := by omega
  rw [State.coreLine, cut_one hd hl]
  simp only [List.foldl_cons, List.foldl_nil, readable, same, offset]
  rfl

theorem Tab.mem_set {α : Type} {k : Nat} {v : α} {t : Tab α} {e : Nat × α} (h : e ∈ Tab.set k v t) : e = (k, v) ∨ e ∈ t := by
  induction t with
  | nil => exact .inl (List.mem_singleton.1 h)
  | cons f t ih =>
    rw [Tab.set] at h
    split at h
    · exact List.mem_cons.1 h
    split at h
    · exact (List.mem_cons.1 h).imp_right (List.mem_cons_of_mem _)
    · rcases List.mem_cons.1 h with rfl | h
      · exact .inr List.mem_cons_self
      · exact (ih h).imp_right (List.mem_cons_of_mem _)

theorem CoreSound.coreLine {s : State} (h : CoreSound s) {a : Nat} {d : List Byte} (hd : d ≠ []) (hl : a % 64 + d.length ≤ 64) (ht : a < sramWindow) :
    CoreStored s (s.coreLine a d) (((List.range d.length).map (fun i => a + i)).zip d) := by
  rw [State.coreLine_one h.poison hd hl]
  refine ⟨rfl, s.hart_breakResv a d.length, fun x => ?_, fun e he => ?_, h.wf⟩
  · rw [afterStores_run, storedAt]
    have reads : ∀ l, State.byteAt { s.breakResv a d.length with dirty := Tab.set (a / 64 * 64) l s.dirty } x =
        if x / 64 * 64 = a / 64 * 64 then l.getD (x % 64) 0 else s.byteAt x := by
      intro l
      rw [State.byteAt, Tab.find_set]
      by_cases line : x / 64 * 64 = a / 64 * 64
      · rw [if_pos line, if_pos line]
      · rw [if_neg line, if_neg line]
        rfl
    rw [reads, State.lineWith, getD_splice (by rw [State.bytes_length]; exact hl), State.getD_bytes _ _ (Nat.mod_lt _ (by decide))]
    by_cases line : x / 64 * 64 = a / 64 * 64
    · rw [if_pos line, show a / 64 * 64 + x % 64 = x by omega, show x % 64 - a % 64 = x - a by omega]
      exact if_congr (by omega) rfl rfl
    · rw [if_neg line, if_neg (by omega)]
  · rcases Tab.mem_set he with rfl | old
    · exact lt_of_le_of_lt (Nat.div_mul_le_self _ _) ht
    · exact h.dirty e old

/-! ### A store to one element -/

/-- An element that is stored whole: of 1 to 16 bytes, a power of two, and aligned. -/
def El.whole (e : El) : Prop := 0 < e.n ∧ e.n ∣ 64 ∧ e.n ∣ e.addr.toNat

theorem localAddr_mod {a : BitVec 64} {n : Nat} (hn : n ∣ 64) (ha : n ∣ a.toNat) : n ∣ localAddr a := by
  have big : n ∣ 2 ^ 48 := hn.trans (by decide)
  have low : localAddr a = a.toNat % 2 ^ 48 := by rw [localAddr, bitsOf, pow_zero, Nat.div_one]
  rw [low]
  exact (Nat.dvd_mod_iff big).2 ha

/-- What is aligned to its size crosses no line. -/
theorem aligned_fits {a n : Nat} (unit : n ∣ 64) (aligned : n ∣ a) : a % 64 + n ≤ 64 := by
  obtain ⟨c, hc⟩ := unit
  have multiple : n ∣ a % 64 := (Nat.dvd_mod_iff ⟨c, hc⟩).2 aligned
  obtain ⟨q, hq⟩ := multiple
  have below : q < c := by
    have := Nat.mod_lt a (show 0 < 64 by decide)
    rw [hq, hc] at this
    exact lt_of_mul_lt_mul_left this (Nat.zero_le n)
  calc a % 64 + n = n * (q + 1) := by rw [hq, Nat.mul_succ]
    _ ≤ n * c := Nat.mul_le_mul_left _ below
    _ = 64 := hc.symm

theorem CoreSound.elWrite {s : State} (h : CoreSound s) {k : HartId} {e : El} (own : OwnEl s k e) (whole : e.whole) {d : List Byte} (hd : d.length = e.n) :
    CoreStored s (s.elWrite k e d) (storedBytes [e] d) := by
  obtain ⟨pos, unit, aligned⟩ := whole
  have bytes : storedBytes [e] d = ((List.range d.length).map (fun i => localAddr e.addr + i)).zip d := by rw [hd]; simp [storedBytes]
  have kind := State.oneKind_of_memStatus pos own.mapped
  rw [own.elWrite, bytes]
  by_cases window : sramWindow ≤ localAddr e.addr
  · rw [if_pos window]
    refine h.sramPut window ?_
    rw [hd]
    exact (kind.resolve_left (by omega)).2
  · rw [if_neg window]
    refine h.coreLine (by rintro rfl; simp at hd; omega) ?_ (not_le.1 window)
    rw [hd]
    exact aligned_fits unit (localAddr_mod unit aligned)

/-- Stores to elements in order. -/
theorem CoreSound.writeEls {s : State} (h : CoreSound s) {k : HartId} {els : List El} {ds : List (List Byte)} (own : ∀ e ∈ els, OwnEl s k e)
    (whole : ∀ e ∈ els, e.whole) (hd : ds.map List.length = els.map El.n) : CoreStored s (s.writeEls k els ds) (storedBytes els ds.flatten) := by
  induction els generalizing s ds with
  | nil =>
    obtain rfl : ds = [] := by simpa using hd
    exact .refl h
  | cons e els ih =>
    obtain ⟨d, ds, rfl⟩ : ∃ d r, ds = d :: r := by
      cases ds with
      | nil => simp at hd
      | cons d r => exact ⟨d, r, rfl⟩
    obtain ⟨first, rest⟩ := List.cons.inj hd
    obtain ⟨own1, own2⟩ := List.forall_mem_cons.1 own
    obtain ⟨whole1, whole2⟩ := List.forall_mem_cons.1 whole
    have one := h.elWrite own1 whole1 first
    have more := ih (one.sound h) (fun e he => one.ownEl (own2 e he)) whole2 rest
    have bytes : storedBytes (e :: els) (d :: ds).flatten = storedBytes [e] d ++ storedBytes els ds.flatten := by
      have len : ((List.range e.n).map (fun i => localAddr e.addr + i)).length = d.length := by simp [first]
      simp only [storedBytes, List.flatMap_cons, List.flatMap_nil, List.append_nil, List.flatten_cons]
      exact List.zip_append len
    rw [bytes]
    exact one.trans more

end Sys2Proof.Machine
end

section
/-! AMO, LR and SC on the node's own memory (R315, R317). -/

namespace Sys2Proof.Machine

/-! ### Memory and one hart -/

theorem CoreStored.frame {s t : State} {l : List (Nat × Byte)} (a : CoreStored s t l) (h : HartId) : memoryAndHart h s t :=
  ⟨a.only, fun k _ => a.harts k⟩

theorem memoryAndHart_modHart {h : HartId} {s t : State} (a : memoryAndHart h s t) (f : Hart → Hart) : memoryAndHart h s (t.modHart h f) :=
  ⟨a.1, fun k hk => by rw [State.hart_modHart_other _ _ _ _ hk]; exact a.2 k hk⟩

theorem memoryAndHart_pass {h : HartId} {s t : State} (a : memoryAndHart h s t) (n : Nat) : memoryAndHart h s (t.pass h n) := memoryAndHart_modHart a _

/-- What an instruction leaves that stores l, then changes a reservation and writes register rd. -/
theorem CoreStored.writesX {s u : State} {l : List (Nat × Byte)} (a : CoreStored s u l) (h : HartId) (g : Hart → Hart)
    (hg : ∀ x, { g x with resv := none } = { x with resv := none }) (rd : BitVec 5) (v : BitVec 64) :
    let t := (u.modHart h (fun x => (g x).setX rd v)).pass h 4
    (memoryAfter s t l ∧ (rd ≠ 0 → (t.hart h).xreg rd = v) ∧ (∀ r : BitVec 5, r ≠ rd → (t.hart h).xreg r = (s.hart h).xreg r) ∧
      (t.hart h).pc = (s.hart h).pc + 4 ∧ memoryAndHart h s t) ∧ (t.hart h).resv = (g (u.hart h)).resv := by
  intro t
  have hart : t.hart h = ((g (u.hart h)).setX rd v).passed 4 := by rw [State.hart_pass, State.hart_modHart_same]
  have kept : ∀ {α : Type} (f : Hart → α), (∀ x r, f { x with resv := r } = f x) → f (g (u.hart h)) = f (s.hart h) := fun f hf => by
    rw [← hf (g (u.hart h)) none, hg, hf, a.hart_same h f hf]
  have rest := (g (u.hart h)).setX_rest rd v
  refine ⟨⟨fun x _ => a.reads x, fun hrd => ?_, fun r hr => ?_, ?_, memoryAndHart_pass (memoryAndHart_modHart (a.frame h) _) 4⟩, ?_⟩
  all_goals rw [hart]
  · exact Hart.xreg_setX_same _ hrd v
  · rw [Hart.xreg_passed, Hart.xreg_setX_ne _ hr]
    exact kept (fun x => x.xreg r) (fun _ _ => rfl)
  · exact congrArg (· + 4) ((congrArg Hart.pc rest :).trans (kept Hart.pc (fun _ _ => rfl)))
  · exact (congrArg Hart.resv rest :)

/-! ### One instruction -/

section
variable {s : State} {h : HartId} {i : AmoInst} {a : BitVec 64} {n : Nat} (unparked : (s.hart h).park = none) (alone : AloneNode s)
  (addr : (s.hart h).xreg i.rs1 = a) (size : (if i.dword then 8 else 4) = n) (aligned : a.toNat % n = 0) (own : OwnEl s h ⟨a, n⟩)
include unparked alone addr size aligned own

/-- An AMO stores its result and returns the old value. -/
theorem State.coreAmo_own :
    s.coreAmo h i =
      ((s.elWrite h ⟨a, n⟩ (leBytes n (amoResult (8 * n) i.op (leNat (s.bytes (localAddr a) n)) (((s.hart h).xreg i.rs2).toNat % 2 ^ (8 * n))))).modHart h
        (fun x => x.setX i.rd (signExt (8 * n) (leNat (s.bytes (localAddr a) n))))).pass h 4 := by
  have access := fun op done => State.coreAccess_own alone (List.forall_mem_singleton.2 own) unparked (.amo i) false op done
  unfold State.coreAmo
  simp only [addr, size]
  rw [if_neg (not_not_intro aligned)]
  rcases own.kind with place | place <;> simp only [place, access, own.elRead alone]

/-- LR returns the value and reserves it. -/
theorem State.coreLr_own (dram : localAddr a < sramWindow) :
    s.coreLrSc h false i =
      (s.modHart h (fun x => { x with resv := some (localAddr a, n) }.setX i.rd (signExt (8 * n) (leNat (s.bytes (localAddr a) n))))).pass h 4 := by
  have place : s.corePlace h a n = .dram (localAddr a) := own.place.trans (if_neg (not_le.2 dram))
  have access := fun cmd load op done => State.coreAccess_own alone (List.forall_mem_singleton.2 own) unparked cmd load op done
  unfold State.coreLrSc
  simp only [addr, size]
  rw [if_neg (not_not_intro aligned)]
  simp only [place, access, own.elRead alone, own.elKey, Bool.false_eq_true, if_false]

/-- SC stores under its reservation alone. -/
theorem State.coreSc_own (dram : localAddr a < sramWindow) :
    s.coreLrSc h true i = if (s.hart h).resv = some (localAddr a, n) then
        ((s.elWrite h ⟨a, n⟩ (leBytes n ((s.hart h).xreg i.rs2).toNat)).modHart h (fun x => { x with resv := none }.setX i.rd 0)).pass h 4
      else (s.modHart h (fun x => { x with resv := none }.setX i.rd 1)).pass h 4 := by
  have place : s.corePlace h a n = .dram (localAddr a) := own.place.trans (if_neg (not_le.2 dram))
  have access := fun cmd load op done => State.coreAccess_own alone (List.forall_mem_singleton.2 own) unparked cmd load op done
  unfold State.coreLrSc
  simp only [addr, size]
  rw [if_neg (not_not_intro aligned)]
  simp only [place, access, own.elFault, own.elKey, if_true]
  by_cases reserved : (s.hart h).resv = some (localAddr a, n)
  · simp only [if_pos reserved]
  · simp only [if_neg reserved]

end

/-- Settles O15: each instruction by its equation on the node's own memory, and what a store leaves. -/
theorem coreAtomicsOnOwnMemory : Obligations.CoreAtomicsOnOwnMemory := by
  intro h i s hr hc hm x a n old v aligned els ends
  obtain ⟨alone, own⟩ := alone_of_ownEls els
  have own := List.forall_mem_singleton.1 own
  have unparked := (hartRuns_iff.1 hr).2.2
  have sound := CoreSound.of_caches hc hm alone.poison
  have whole : El.whole ⟨a, n⟩ := by
    refine ⟨?_, ?_, Nat.dvd_of_mod_eq_zero aligned⟩
    · simp only [n]
      split <;> decide
    · simp only [n]
      split <;> decide
  have stored := fun m => sound.elWrite own whole (leBytes_length n m)
  have resv : ∀ (r : Option (Nat × Nat)) (y : Hart), { { y with resv := r } with resv := none } = { y with resv := none } := fun _ _ => rfl
  have runs : ∀ {c : Instr} {f : State → State} {t : State}, exec c s = .next (s.coreDo h f) → f s = t → exec c s = .next t := fun run eq =>
    run.trans (congrArg _ ((State.coreDo_of_runs hr _).trans eq))
  refine ⟨?_, fun dram => ⟨?_, fun reserved => ?_, fun unreserved => ?_⟩⟩
  · have run : exec (.amo h i) s = .next _ := runs rfl (State.coreAmo_own unparked alone rfl rfl aligned own)
    exact ⟨_, run, ((stored _).writesX h id (fun _ => rfl) i.rd _).1⟩
  · have run : exec (.lrSc h false i) s = .next _ := runs rfl (State.coreLr_own unparked alone rfl rfl aligned own dram)
    obtain ⟨ends, kept⟩ := (CoreStored.refl sound).writesX h (fun y => { y with resv := some (localAddr a, n) }) (resv _) i.rd (signExt (8 * n) old)
    exact ⟨_, ⟨run, ends⟩, kept⟩
  all_goals have sc := State.coreSc_own unparked alone rfl rfl aligned own dram
  · have run : exec (.lrSc h true i) s = .next _ := runs rfl (sc.trans (if_pos reserved))
    obtain ⟨ends, kept⟩ := (stored v).writesX h (fun y => { y with resv := none }) (resv _) i.rd 0
    exact ⟨_, ⟨run, ends⟩, kept⟩
  · have run : exec (.lrSc h true i) s = .next _ := runs rfl (sc.trans (if_neg unreserved))
    obtain ⟨ends, kept⟩ := (CoreStored.refl sound).writesX h (fun y => { y with resv := none }) (resv _) i.rd 1
    exact ⟨_, ⟨run, ends⟩, kept⟩

end Sys2Proof.Machine
end

section
/-! REMOTE_AMO (R317, R319, R448, R449): the bytes of another node that an aligned element needs, the request that leaves, and the thread
that parks. -/

namespace Sys2Proof.Machine

/-! ### The bytes of another node -/

theorem Tab.set_above {α : Type} {k : Nat} {v : α} {t : Tab α} (h : ∀ e ∈ t, e.1 < k) : Tab.set k v t = t ++ [(k, v)] := by
  induction t with
  | nil => rfl
  | cons e t ih =>
    obtain ⟨first, rest⟩ := List.forall_mem_cons.1 h
    rw [Tab.set, if_neg (by omega), if_neg (by omega), ih rest]
    rfl

/-- Keys listed in rising order stand in that order. -/
theorem Tab.foldl_set_range (k n : Nat) : (List.range n).foldl (fun (t : Tab Unit) i => Tab.set (k + i) () t) [] = (List.range n).map (fun i => (k + i, ())) := by
  induction n with
  | zero => rfl
  | succ n ih =>
    rw [List.range_succ, List.foldl_append, ih, List.map_append, List.foldl_cons, List.foldl_nil, Tab.set_above]
    · rfl
    · intro e he
      obtain ⟨i, hi, rfl⟩ := List.mem_map.1 he
      exact Nat.add_lt_add_left (List.mem_range.1 hi) k

/-- Consecutive keys within a line are one run. -/
theorem lineRuns_range {k n : Nat} (fits : k % 64 + (n + 1) ≤ 64) : lineRuns ((List.range (n + 1)).map (fun i => k + i)) = [(k, n + 1)] := by
  induction n generalizing k with
  | zero => rfl
  | succ n ih =>
    have shift : (List.range (n + 1)).map ((fun i => k + i) ∘ Nat.succ) = (List.range (n + 1)).map (fun i => k + 1 + i) :=
      List.map_congr_left (fun i _ => by simp only [Function.comp]; omega)
    rw [List.range_succ_eq_map, List.map_cons, List.map_map, shift, lineRuns, ih (k := k + 1) (by omega)]
    exact if_pos ⟨rfl, by omega⟩

theorem localAddr_lt (a : BitVec 64) : localAddr a < 2 ^ 48 := bitsOf_lt a 47 0

theorem keyAddr_farKey (n : NodeId) {a : Nat} (ha : a < 2 ^ 48) : keyAddr (farKey n a) = a := by
  simp only [keyAddr, farKey]
  omega

theorem keyNode_farKey (n : NodeId) {a : Nat} (ha : a < 2 ^ 48) : keyNode (farKey n a) = n := by
  have own := n.isLt
  refine BitVec.eq_of_toNat_eq ?_
  simp only [keyNode, farKey, BitVec.toNat_ofNat]
  omega

theorem farKey_mod (n : NodeId) (a : Nat) : farKey n a % 64 = a % 64 := by
  simp only [farKey]
  omega

section
variable {s : State} {h : HartId} {a : BitVec 64} {w : Nat} {n : NodeId} (place : s.corePlace h a w = .far n (localAddr a))
include place

/-- Nothing but the bytes of another node is needed. -/
theorem State.coreNeeds_far (op : FarOp) (got : List Host.Cell) :
    s.coreNeeds h op [⟨a, w⟩] got = (lineRuns (s.farKeys h [⟨a, w⟩] got)).foldl (fun w r => w.run h op r) ⟨s, [], [], false⟩ := by
  unfold State.coreNeeds
  simp only [List.foldl_cons, List.foldl_nil, place]
  rfl

/-- Before any reply every byte is needed. -/
theorem State.farKeys_far : s.farKeys h [⟨a, w⟩] [] = (List.range w).map (fun i => farKey n (localAddr a) + i) := by
  unfold State.farKeys
  simp only [List.foldl_cons, List.foldl_nil, place, Tab.find, Option.isSome_none, Bool.false_eq_true, if_false]
  rw [Tab.foldl_set_range, List.map_map]
  rfl

end

/-! ### The request -/

/-- A request that can leave is sent, and nothing else changes but the stream of its port. -/
theorem State.ask_sent {s : State} {dst : NodeId} {vc opc addr len : Nat} (can : canAsk s dst vc opc addr len = true) (o : Owner) (d : List Byte) :
    ∃ u, s.ask o dst vc opc addr len d = (u, St.ok, s.nextTag) ∧ asked s u o dst vc opc addr len d ∧
      { u with nextTag := s.nextTag, reqs := s.reqs, outbox := s.outbox, ports := s.ports } = s := by
  simp only [canAsk, Bool.and_eq_true, Bool.not_eq_true', decide_eq_true_eq] at can
  obtain ⟨⟨⟨⟨fence, lost⟩, window⟩, path⟩, acked⟩ := can
  obtain ⟨p, path⟩ := Option.isSome_iff_exists.1 path
  let v : State := { s with nextTag := s.nextTag + 1, reqs := s.reqs ++
    [{ msg := (request dst vc opc addr len s.nextTag d).asMsg s.srcNode, sentAt := s.clock.ns.toNat, sends := 1, owner := o }] }
  have sent : v.sendTo (request dst vc opc addr len s.nextTag d) = v.sendOn p (request dst vc opc addr len s.nextTag d) := by
    have now : v.sendTo (request dst vc opc addr len s.nextTag d) = v.sendNow (request dst vc opc addr len s.nextTag d) :=
      if_neg (by simp [show ¬ v.resil.ackedLsn < v.resil.lsn from not_lt.2 acked])
    have free : v.resil.fence.contains (request dst vc opc addr len s.nextTag d).dst = false := fence
    have route : v.pathTo v.srcNode dst vc addr = some p := path
    rw [now, State.sendNow, if_neg (ne_true_of_eq_false free)]
    simp only [request, route]
  have run : s.ask o dst vc opc addr len d = (v.sendOn p (request dst vc opc addr len s.nextTag d), St.ok, s.nextTag) := by
    unfold State.ask
    simp only [fence, lost, window, path, Bool.or_self, Bool.false_eq_true, if_false, Bool.not_true, Bool.and_false]
    exact congrArg (fun t => (t, St.ok, s.nextTag)) sent
  exact ⟨_, run, ⟨rfl, rfl, by rw [path]; rfl⟩, rfl⟩

/-- The payload of an atomic of 8 bytes (Table 10-11). -/
def atomPayload (seq : BitVec 32) (aop x y : Nat) : List Byte := leBytes 4 seq.toNat ++ leBytes 1 aop ++ zeros 3 ++ leBytes 8 x ++ leBytes 8 y

theorem atomPayload_length (seq : BitVec 32) (aop x y : Nat) : (atomPayload seq aop x y).length = 24 := by simp [atomPayload]

theorem amoAop_ne_cas (op : AmoOp) : amoAop op ≠ 5 := by cases op <;> decide

/-- An atomic of 8 bytes takes the next SEQ of its target. -/
theorem State.atomTo_sent {s : State} {n : NodeId} {a aop : Nat} (wide : aop ≠ 5) (sync : s.mustSync = false ∨ n ∈ s.synced)
    (can : canAsk s n 4 3 a 24 = true) (h : HartId) (x y : Nat) :
    let seq := Tab.get (fun _ => 0) s.atomSeq n.toNat
    ∃ u, s.atomTo h n a aop x y = (u, St.ok, s.nextTag) ∧ asked s u (.hart h) n 4 3 a 24 (atomPayload seq aop x y) ∧
      Tab.get (fun _ => 0) u.atomSeq n.toNat = seq + 1 ∧
      { u with nextTag := s.nextTag, reqs := s.reqs, outbox := s.outbox, ports := s.ports, atomSeq := s.atomSeq } = s := by
  intro seq
  obtain ⟨u, run, sent, frame⟩ := State.ask_sent can (.hart h) (atomPayload seq aop x y)
  have synced : (s.mustSync && !s.synced.contains n) = false := by
    rcases sync with off | done
    · simp [off]
    · simp [done]
  have payload : leBytes 4 seq.toNat ++ leBytes 1 aop ++ zeros 3 ++ leBytes 8 x ++ leBytes 8 y = atomPayload seq aop x y := rfl
  have all : s.atomTo h n a aop x y = ({ u with atomSeq := Tab.set n.toNat (seq + 1) u.atomSeq }, St.ok, s.nextTag) := by
    unfold State.atomTo
    simp only [synced, Bool.false_eq_true, if_false, if_neg wide]
    rw [payload, atomPayload_length, run]
    rfl
  exact ⟨_, all, sent, Tab.get_set_same .., (congrArg (fun v : State => { v with atomSeq := s.atomSeq }) frame :)⟩

/-! ### The thread parks -/

/-- A running thread that waits for replies has left its core with the instruction kept, and has been counted. -/
theorem State.parkHart_leaves {s u : State} {h : HartId} (running : (s.hart h).st = .running) (harts : u.harts = s.harts) (threads : u.running = s.running)
    (regs : u.regs = s.regs) (k : Park) :
    hartLeaves s (u.parkHart h k) h { s.hart h with st := .parked, park := some k, remoteCount := (s.hart h).remoteCount + 1 } ∧
      { u.parkHart h k with harts := u.harts, running := u.running, regs := u.regs } = u := by
  have same : ∀ j, u.hart j = s.hart j := fun j => congrArg (fun l => Tab.get (fun _ => Hart.reset) l j.toNat) harts
  let w : State := (u.setHart h { u.hart h with park := some k }).modHart h (fun x => { x with remoteCount := x.remoteCount + 1 })
  let v : State := w.count (corePark (coreOf h) F.CPU_CORE_PARKS_PARKS) 1
  have run : u.parkHart h k = v.leaveCore h .parked := if_neg (by rw [same, running]; decide)
  have hart : v.hart h = { s.hart h with park := some k, remoteCount := (s.hart h).remoteCount + 1 } := by
    have kept : w.hart h = _ := State.hart_modHart_same _ _ _
    rw [State.hart_setHart_same, same] at kept
    exact kept
  have others : ∀ j, j ≠ h → w.hart j = s.hart j := fun j hj =>
    ((State.hart_modHart_other _ _ _ _ hj).trans (State.hart_setHart_other _ _ _ _ hj)).trans (same j)
  have switches : v.fld (corePark (coreOf h) F.CPU_CORE_PARKS_SWITCHES) = s.fld (corePark (coreOf h) F.CPU_CORE_PARKS_SWITCHES) := by
    have own : u.fld (corePark (coreOf h) F.CPU_CORE_PARKS_SWITCHES) = s.fld (corePark (coreOf h) F.CPU_CORE_PARKS_SWITCHES) := by
      rw [State.fld, State.fld, State.reg, State.reg, regs]
    exact (State.fld_setFld_other _ _ _ _ (by simp only [corePark, Fld.plus]; decide) (by simp only [corePark, Fld.plus]; decide)
      (by simp only [corePark, Fld.plus]; decide) (.inr (by simp only [corePark, Fld.plus]; decide))).trans own
  have leaves := State.leaveCore_leaves (u := v) (st := .parked) others threads switches (.inl (by decide))
  obtain ⟨frame, -⟩ := v.leaveCore_frame h .parked
  rw [run]
  rw [hart] at leaves
  exact ⟨leaves, (congrArg (fun t : State => { t with harts := u.harts, regs := u.regs }) frame :)⟩

/-! ### REMOTE_AMO -/

section
variable {s : State} {h : HartId} {i : AmoInst} {a : BitVec 64} {n : NodeId} {v : Nat} (addr : (s.hart h).xreg i.rs1 = a)
  (place : ∀ w, s.corePlace h a w = .far n (localAddr a))
include addr place

/-- An atomic of 8 bytes sends its request, and its thread parks. -/
theorem State.coreAmo_far (operand : ((s.hart h).xreg i.rs2).toNat = v) (unparked : (s.hart h).park = none) (live : s.replaying = false)
    (aligned : a.toNat % 8 = 0) (dword : i.dword = true) (room : s.flights (coreOf h) < 64) (sync : s.mustSync = false ∨ n ∈ s.synced)
    (can : canAsk s n 4 3 (localAddr a) 24 = true) :
    let seq := Tab.get (fun _ => 0) s.atomSeq n.toNat
    ∃ u, s.coreAmo h i = u.parkHart h ⟨.amo i, [s.nextTag], [], []⟩ ∧
      asked s u (.hart h) n 4 3 (localAddr a) 24 (atomPayload seq (amoAop i.op) v 0) ∧ Tab.get (fun _ => 0) u.atomSeq n.toNat = seq + 1 ∧
      { u with nextTag := s.nextTag, reqs := s.reqs, outbox := s.outbox, ports := s.ports, atomSeq := s.atomSeq } = s := by
  intro seq
  have fits : localAddr a % 64 + 8 ≤ 64 := aligned_fits (by decide) (localAddr_mod (by decide) (Nat.dvd_of_mod_eq_zero aligned))
  have window : s.windowMatch n 4 3 (localAddr a) 8 = true := by
    simp only [canAsk, Bool.and_eq_true] at can
    exact can.1.1.2
  have small : v % 2 ^ (8 * 8) = v := Nat.mod_eq_of_lt (operand ▸ ((s.hart h).xreg i.rs2).isLt)
  have fault : s.elFault h (.atom (amoAop i.op) v 0) ⟨a, 8⟩ = none := by
    unfold State.elFault
    rw [place]
    exact if_pos window
  obtain ⟨u, sent, rest⟩ := State.atomTo_sent (amoAop_ne_cas i.op) sync can h v 0
  have needs : s.coreNeeds h (.atom (amoAop i.op) v 0) [⟨a, 8⟩] [] = ⟨u, [s.nextTag], [], false⟩ := by
    rw [State.coreNeeds_far (place 8), State.farKeys_far (place 8), lineRuns_range (by rw [farKey_mod]; exact fits)]
    simp only [List.foldl_cons, List.foldl_nil, Need.run, keyNode_farKey n (localAddr_lt a), keyAddr_farKey n (localAddr_lt a)]
    rw [if_neg (by simpa using room), sent]
    rfl
  refine ⟨u, ?_, rest⟩
  unfold State.coreAmo
  simp only [addr, operand, dword, if_true, Bool.not_true, Bool.false_eq_true, if_false, small]
  rw [if_neg (not_not_intro aligned)]
  simp only [place]
  rw [State.coreAccess_unparked live _ _ _ unparked (List.forall_mem_singleton.2 fault), needs]
  rfl

/-- An atomic of 4 bytes is no request of the fabric. -/
theorem State.coreAmo_farWord (aligned : a.toNat % 4 = 0) (word : i.dword = false) : s.coreAmo h i = s.accessException h 7 St.badDescriptor a := by
  unfold State.coreAmo
  simp only [addr, word, Bool.false_eq_true, if_false]
  rw [if_neg (not_not_intro aligned)]
  simp only [place]
  rfl

end

/-- Settles O18: the aligned atomic by its request and the thread that parks, the others by their exceptions. -/
theorem remoteAmoSendsAtom : Obligations.RemoteAmoSendsAtom := by
  intro h i s hr x a n seq v d space node domain
  obtain ⟨-, running, unparked⟩ := hartRuns_iff.1 hr
  have place : ∀ w, s.corePlace h a w = .far n (localAddr a) := State.corePlace_far space node domain h
  have runs : ∀ {t : State}, s.coreAmo h i = t → exec (.remoteAmo h i) s = .next t := fun eq =>
    congrArg Host.Outcome.next ((State.coreDo_of_runs hr _).trans eq)
  refine ⟨fun aligned dword live room sync can => ?_, fun aligned word => ?_, fun misaligned => ?_⟩
  · obtain ⟨u, run, sent, next, frame⟩ := State.coreAmo_far rfl place rfl unparked live aligned dword room sync can
    obtain ⟨tag, reqs, outbox⟩ := sent
    obtain ⟨leaves, rest⟩ := State.parkHart_leaves (u := u) running (congrArg State.harts frame :) (congrArg State.running frame :)
      (congrArg State.regs frame :) ⟨.amo i, [s.nextTag], [], []⟩
    exact ⟨_, runs run, ⟨(congrArg State.nextTag rest :).trans tag, (congrArg State.reqs rest :).trans reqs, (congrArg State.outbox rest :).trans outbox⟩,
      (congrArg (fun t : State => Tab.get (fun _ => 0) t.atomSeq n.toNat) rest :).trans next, leaves,
      (congrArg State.mem rest :).trans (congrArg State.mem frame :), (congrArg State.tiles rest :).trans (congrArg State.tiles frame :)⟩
  · have four : a.toNat % 4 = 0 := Nat.mod_eq_zero_of_dvd (Dvd.dvd.trans (by decide) (Nat.dvd_of_mod_eq_zero aligned))
    have trap := s.trapped_accessException h 7 St.badDescriptor a
    exact ⟨_, runs (State.coreAmo_farWord rfl place four word), trap.mcause, trap.fvrstat, trap.mepc, hartOnly_accessException _ _ _ _ _⟩
  · have trap := s.trapped_exception h 6 a
    exact ⟨_, runs (if_pos misaligned), trap.mcause, trap.mepc, hartOnly_exception _ _ _ _⟩

end Sys2Proof.Machine
end

section
/-! THREAD_RESUME (R319, R320, R325): the thread that becomes ready or runs, and the load that its replies complete. -/

namespace Sys2Proof.Machine

/-! ### A thread becomes ready -/

/-- No thread of h's core runs or is ready. -/
def coreIdle (s : State) (h : HartId) : Bool :=
  (List.range 8).all (fun i => (s.hart (hartOf (coreOf h) i)).st != .running && (s.hart (hartOf (coreOf h) i)).st != .ready)

/-- A thread of h's core runs. -/
def coreBusy (s : State) (h : HartId) : Bool := (List.range 8).any (fun i => (s.hart (hartOf (coreOf h) i)).st == .running)

theorem coreIdle_iff {s : State} {h : HartId} :
    coreIdle s h = true ↔ ∀ t, t < 8 → (s.hart (hartOf (coreOf h) t)).st ≠ .running ∧ (s.hart (hartOf (coreOf h) t)).st ≠ .ready := by
  simp [coreIdle]

theorem coreBusy_iff {s : State} {h : HartId} : coreBusy s h = true ↔ ∃ t, t < 8 ∧ (s.hart (hartOf (coreOf h) t)).st = .running := by
  simp [coreBusy]

theorem coreIdle_of_busy {s : State} {h : HartId} (busy : coreBusy s h = true) : coreIdle s h = false := by
  obtain ⟨t, ht, running⟩ := coreBusy_iff.1 busy
  exact Bool.eq_false_iff.2 (fun idle => (coreIdle_iff.1 idle t ht).1 running)

/-- Every other thread of an idle core is found unready, so the core starts the one that has become ready. -/
theorem State.startNext_only {v : State} {h : HartId} (ready : (v.hart h).st = .ready) (others : ∀ t, t < 8 → hartOf (coreOf h) t ≠ h →
    (v.hart (hartOf (coreOf h) t)).st ≠ .ready) (t : Nat) : (v.startNext (coreOf h) t).hart h = { v.hart h with st := .running } := by
  have listed : ∃ i, i < 8 ∧ (t + 1 + i) % 8 = threadOf h := ⟨(threadOf h + 15 - t % 8) % 8, Nat.mod_lt _ (by decide), by have := threadOf_lt h; omega⟩
  unfold State.startNext
  split
  · next none_ =>
    obtain ⟨i, hi, own⟩ := listed
    have unready := List.find?_eq_none.1 none_ i (List.mem_range.2 hi)
    rw [own, hartOf_own, ready] at unready
    exact absurd rfl unready
  · next i found =>
    have own : hartOf (coreOf h) ((t + 1 + i) % 8) = h := by
      by_contra other
      have isReady := List.find?_some found
      exact others _ (Nat.mod_lt _ (by decide)) other (eq_of_beq isReady)
    have started := v.hart_modHart_same h (fun x => { x with st := .running })
    simp only [own]
    exact started

/-- A thread whose core is idle runs; one of a core with a running thread becomes ready. -/
theorem State.makeReady_up {s u : State} {h : HartId} (others : ∀ k, k ≠ h → (u.hart k).st = (s.hart k).st) (waits : (s.hart h).st ≠ .running)
    (known : coreIdle s h = true ∨ coreBusy s h = true) :
    (u.makeReady h).hart h = { u.hart h with st := if coreIdle s h then .running else .ready } ∧
      { u.makeReady h with harts := u.harts, running := u.running, regs := u.regs } = u := by
  let v : State := u.modHart h (fun x => { x with st := .ready })
  have own : v.hart h = { u.hart h with st := .ready } := State.hart_modHart_same _ _ _
  have rest : ∀ k, k ≠ h → (v.hart k).st = (s.hart k).st := fun k hk => (congrArg Hart.st (State.hart_modHart_other _ _ _ _ hk)).trans (others k hk)
  rcases known with idle | busy
  · have quiet := coreIdle_iff.1 idle
    have unready : ∀ t, t < 8 → hartOf (coreOf h) t ≠ h → (v.hart (hartOf (coreOf h) t)).st ≠ .ready := fun t ht hk => by
      rw [rest _ hk]
      exact (quiet t ht).2
    have none_ : coreBusy v h = false := by
      refine Bool.eq_false_iff.2 (fun busy => ?_)
      obtain ⟨t, ht, running⟩ := coreBusy_iff.1 busy
      by_cases e : hartOf (coreOf h) t = h
      · rw [e, own] at running
        exact HartState.noConfusion running
      · rw [rest _ e] at running
        exact (quiet t ht).1 running
    have run : u.makeReady h = v.startNext (coreOf h) (Tab.get (fun _ => 0) v.running (coreOf h)) := if_neg (ne_true_of_eq_false none_)
    obtain ⟨frame, -⟩ := v.startNext_frame (coreOf h) (Tab.get (fun _ => 0) v.running (coreOf h))
    rw [run, idle, State.startNext_only (by rw [own]) unready, own]
    exact ⟨rfl, (congrArg (fun t : State => { t with harts := u.harts }) frame :)⟩
  · have busyThen : coreBusy v h = true := by
      obtain ⟨t, ht, running⟩ := coreBusy_iff.1 busy
      have other : hartOf (coreOf h) t ≠ h := fun e => waits (by rw [← e]; exact running)
      exact coreBusy_iff.2 ⟨t, ht, (rest _ other).trans running⟩
    have run : u.makeReady h = v := if_pos busyThen
    rw [run, coreIdle_of_busy busy, own]
    exact ⟨rfl, rfl⟩

/-! ### A parked load -/

section
variable {s : State} {h : HartId} {i : CoreMem} {a : BitVec 64} {n : NodeId} {w : Nat} {k : Park} (ok : coreMemBad i false = false) (fp : i.fp = false)
  (addr : (s.hart h).xreg i.base + BitVec.signExtend 64 i.imm = a) (size : sizeBytes i.size = w) (aligned : a.toNat % w = 0)
  (place : s.corePlace h a w = .far n (localAddr a)) (parked : (s.hart h).park = some k)
include ok fp addr size aligned place parked

/-- Once every byte has arrived the register is written. -/
theorem State.coreLoad_arrived (live : s.replaying = false) (whole : k.fails = [])
    (all : ∀ j, j < w → (Tab.find k.got (farKey n (localAddr a) + j)).isSome = true) :
    let d := (List.range w).map (fun j => (Tab.find k.got (farKey n (localAddr a) + j)).getD 0)
    s.coreLoad h i = (s.modHart h (fun x => x.setX i.reg
      (if i.signed then BitVec.ofInt 64 (signed (8 * w) (leNat d)) else BitVec.ofNat 64 (leNat d)))).pass h (coreLen i) := by
  intro d
  have keys : s.farKeys h [⟨a, w⟩] k.got = [] := by
    unfold State.farKeys
    simp only [List.foldl_cons, List.foldl_nil, place]
    rw [foldl_of_fixed (fun j hj => if_pos (all j (List.mem_range.1 hj)))]
    rfl
  have needs : s.coreNeeds h .load [⟨a, w⟩] k.got = ⟨s, [], [], false⟩ := by
    rw [State.coreNeeds_far place, keys]
    rfl
  have read : s.elRead h k.got ⟨a, w⟩ = (s, some d) := by
    unfold State.elRead
    rw [place]
  have value : ∀ x : Hart, x.setLoad i d = x.setX i.reg (if i.signed then BitVec.ofInt 64 (signed (8 * w) (leNat d)) else BitVec.ofNat 64 (leNat d)) := fun x => by
    have len : d.length = w := by simp [d]
    rw [Hart.setLoad, fp, len]
    rfl
  unfold State.coreLoad
  simp only [addr, size, ok, fp, Bool.false_and, Bool.or_self, Bool.false_eq_true, if_false]
  rw [if_neg (not_not_intro aligned), State.coreAccess_parked live _ _ _ parked whole, needs]
  simp only [State.afterNeeds, ne_eq, not_true_eq_false, Bool.false_eq_true, or_self, if_false, read, value]

/-- A failed reply raises the exception of its status. -/
theorem State.coreLoad_failed {st : Status} (pos : 0 < w) (failed : k.fails = [(farKey n (localAddr a), w, st)]) :
    s.coreLoad h i = s.accessException h (accessCause true st) st a := by
  have key : s.elKey h ⟨a, w⟩ = farKey n (localAddr a) := by
    unfold State.elKey
    rw [place]
  have hit : overlaps (farKey n (localAddr a)) w (farKey n (localAddr a)) w = true := by
    simp [overlaps]
    omega
  unfold State.coreLoad
  simp only [addr, size, ok, fp, Bool.false_and, Bool.or_self, Bool.false_eq_true, if_false]
  rw [if_neg (not_not_intro aligned), State.coreAccess_failed _ _ _ parked (by rw [failed]; exact List.cons_ne_nil _ _), failed]
  unfold State.raiseFails
  simp [key, hit]

end

/-! ### The statement -/

theorem sizeBytes_pos (z : MemSize) : 0 < sizeBytes z := by cases z <;> decide

/-- A parked instruction all of whose replies are in runs again; once it has completed or trapped its thread goes on. -/
theorem exec_threadResume_parked {s : State} {h : HartId} {i : CoreMem} {got : List Host.Cell} {fails : List (Nat × Nat × Status)} (ready : s.ready 12 = true)
    (st : (s.hart h).st = .parked) (park : (s.hart h).park = some ⟨.load i, [], got, fails⟩) (done : ((s.coreLoad h i).hart h).park = none) :
    exec (.threadResume h) s = .next ((s.coreLoad h i).makeReady h) := by
  have run : exec (.threadResume h) s = execThreadResume h s := rfl
  rw [run, execThreadResume]
  simp only [st, park, ready]
  rw [if_neg (by simp)]
  exact congrArg Host.Outcome.next (if_neg (by rw [State.runParked, done]; decide))

/-- Settles O19: the parked load by its equation, and the thread by what becoming ready does. -/
theorem threadResumeCompletesItsInstruction : Obligations.ThreadResumeCompletesItsInstruction := by
  intro h s ready x idle up busy known
  refine ⟨fun wfi => ?_, fun i got fails parked park ok fp live => ?_⟩
  · have run : exec (.threadResume h) s = .next (s.makeReady h) := by
      have run : exec (.threadResume h) s = execThreadResume h s := rfl
      rw [run, execThreadResume]
      simp only [show (s.hart h).st = .wfi from wfi, ready, if_true]
    obtain ⟨hart, frame⟩ := State.makeReady_up (s := s) (u := s) (fun _ _ => rfl) (by rw [show (s.hart h).st = .wfi from wfi]; decide) known
    exact ⟨_, run, (congrArg Hart.st hart :), (congrArg Hart.pc hart :), (congrArg Hart.x hart :), (congrArg State.mem frame :)⟩
  · intro a n w key d space node domain aligned
    have place : s.corePlace h a w = .far n (localAddr a) := State.corePlace_far space node (.inl domain) h w
    have waits : (s.hart h).st ≠ .running := by rw [show (s.hart h).st = .parked from parked]; decide
    refine ⟨fun whole all => ?_, fun st failed => ?_⟩
    · have load := State.coreLoad_arrived ok fp rfl rfl aligned place park live whole all
      have only : hartOnly h s (s.coreLoad h i) := by
        rw [load]
        exact hartOnly_trans (hartOnly_modHart _ _ _) (hartOnly_pass _ _ _)
      have own := congrArg (fun u : State => u.hart h) load
      simp only [State.hart_pass, State.hart_modHart_same] at own
      have kept := (s.hart h).setX_rest i.reg (if i.signed then BitVec.ofInt 64 (signed (8 * w) (leNat d)) else BitVec.ofNat 64 (leNat d))
      obtain ⟨hart, frame⟩ := State.makeReady_up (u := s.coreLoad h i) (fun k hk => congrArg Hart.st (only.2 k hk)) waits known
      rw [own] at hart
      refine ⟨_, exec_threadResume_parked ready parked park (congrArg Hart.park own), (congrArg Hart.st hart :), ?_, (congrArg Hart.park hart :),
        fun hrd => ?_, (congrArg State.mem frame :).trans (congrArg State.mem only.1 :), (congrArg State.outbox frame :).trans (congrArg State.outbox only.1 :)⟩
      · exact (congrArg Hart.pc hart :).trans (congrArg (· + BitVec.ofNat 64 (coreLen i)) (congrArg Hart.pc kept :))
      · exact (congrArg (fun y : Hart => y.xreg i.reg) hart :).trans (Hart.xreg_setX_same _ hrd _)
    · have load := State.coreLoad_failed ok fp rfl rfl aligned place park (sizeBytes_pos _) failed
      have only : hartOnly h s (s.coreLoad h i) := by
        rw [load]
        exact hartOnly_accessException _ _ _ _ _
      have trap := State.trapped_accessException s h (accessCause true st) st a
      rw [← load] at trap
      obtain ⟨hart, frame⟩ := State.makeReady_up (u := s.coreLoad h i) (fun k hk => congrArg Hart.st (only.2 k hk)) waits known
      exact ⟨_, exec_threadResume_parked ready parked park trap.park, (congrArg Hart.st hart :), (congrArg Hart.mcause hart :).trans trap.mcause,
        (congrArg Hart.mtval hart :).trans trap.mtval, (congrArg Hart.mepc hart :).trans trap.mepc, (congrArg Hart.fvrstat hart :).trans trap.fvrstat,
        (congrArg Hart.x hart :).trans trap.x, (congrArg State.mem frame :).trans (congrArg State.mem only.1 :)⟩

end Sys2Proof.Machine
end

section
/-! The vector registers of a hart (R328 to R331): the bytes and the elements of a group after a write, and the frame of an FVX instruction that
writes one. -/

namespace Sys2Proof.Machine

/-! ### Bytes and elements -/

theorem pow_256 (k : Nat) : 256 ^ k = 2 ^ (8 * k) := (Nat.pow_mul 2 8 k).symm

/-- A number spelled with more bytes than it was read from has zeros at the top. -/
theorem leBytes_leNat_add (d : List Byte) (k : Nat) : leBytes (d.length + k) (leNat d) = d ++ zeros k := by
  have bytes := leBytes_leNat (d ++ zeros k)
  have value : leNat (d ++ zeros k) = leNat d := by
    induction d with
    | nil => exact leNat_zeros k
    | cons b d ih => rw [List.cons_append, leNat, leNat, ih (leBytes_leNat _)]
  rwa [value, List.length_append, zeros_length] at bytes

theorem toNat_ofNat_leNat {d : List Byte} {k : Nat} (hd : d.length ≤ k) : (BitVec.ofNat (8 * k) (leNat d)).toNat = leNat d := by
  rw [BitVec.toNat_ofNat, ← pow_256]
  exact Nat.mod_eq_of_lt ((leNat_lt d).trans_le (Nat.pow_le_pow_right (by decide) hd))

theorem getD_elemsOf (w : Nat) {n i : Nat} (hi : i < n) (l : List Byte) : (elemsOf w n l).getD i 0 = leNat ((l.drop (w * i)).take w) := by
  induction n generalizing l i with
  | zero => exact absurd hi (Nat.not_lt_zero i)
  | succ n ih =>
    cases i with
    | zero => rfl
    | succ i => rw [elemsOf, List.getD_cons_succ, ih (Nat.lt_of_succ_lt_succ hi), List.drop_drop, Nat.mul_succ, Nat.add_comm]

/-- The elements that bytes of elements spell, with zeros after them. -/
theorem leNat_elemBytes (w k : Nat) (l : List Nat) (i : Nat) : leNat (((elemBytes w l ++ zeros k).drop (w * i)).take w) = l.getD i 0 % 256 ^ w := by
  induction l generalizing i with
  | nil =>
    have rest : ((elemBytes w [] ++ zeros k).drop (w * i)).take w = zeros (min w (k - w * i)) := by simp [elemBytes, zeros]
    rw [rest, leNat_zeros]
    rfl
  | cons a l ih =>
    have first : elemBytes w (a :: l) ++ zeros k = leBytes w a ++ (elemBytes w l ++ zeros k) := by simp [elemBytes]
    rw [first]
    cases i with
    | zero => rw [Nat.mul_zero, List.drop_zero, List.take_left' (leBytes_length w a), leNat_leBytes, List.getD_cons_zero]
    | succ i => rw [Nat.mul_succ, Nat.add_comm, ← List.drop_drop, List.drop_left' (leBytes_length w a), ih, List.getD_cons_succ]

/-! ### Registers -/

theorem Hart.vbytes_congr {x y : Hart} (v : x.v = y.v) (r n : Nat) : x.vbytes r n = y.vbytes r n := by
  induction n generalizing r with
  | zero => rfl
  | succ n ih => rw [Hart.vbytes, Hart.vbytes, ih, v]

@[simp] theorem Hart.vbytes_length (x : Hart) (r n : Nat) : (x.vbytes r n).length = 64 * n := by
  induction n generalizing r with
  | zero => rfl
  | succ n ih => rw [Hart.vbytes, List.length_append, leBytes_length, ih, Nat.mul_succ, Nat.add_comm]

theorem Hart.setVbytes_rest (x : Hart) (r : Nat) (d : List Byte) (n : Nat) : { x.setVbytes r d n with v := x.v } = x := by
  induction n generalizing x r d with
  | zero => rfl
  | succ n ih => exact (congrArg (fun y : Hart => { y with v := x.v }) (ih _ (r + 1) (d.drop 64)) :)

/-- Registers outside the group stay. -/
theorem vreg_setVbytes_other (x : Hart) {r q n : Nat} (d : List Byte) (hq : q < r ∨ r + n ≤ q) : vreg (x.setVbytes r d n) q = vreg x q := by
  induction n generalizing x r d with
  | zero => rfl
  | succ n ih => exact (ih _ _ (by omega)).trans (Tab.get_set_ne _ _ _ _ _ (by omega))

/-- The bytes of a group after a write: those written, then zeros. -/
theorem Hart.vbytes_setVbytes (x : Hart) (r : Nat) {d : List Byte} {n : Nat} (hd : d.length ≤ 64 * n) :
    (x.setVbytes r d n).vbytes r n = d ++ zeros (64 * n - d.length) := by
  induction n generalizing x r d with
  | zero => simp_all [Hart.vbytes, zeros]
  | succ n ih =>
    have short : (d.take 64).length ≤ 64 := List.length_take_le 64 d
    have first : vreg (x.setVbytes r d (n + 1)) r = BitVec.ofNat 512 (leNat (d.take 64)) :=
      (vreg_setVbytes_other _ _ (.inl (Nat.lt_succ_self r))).trans (Tab.get_set_same _ _ _ _)
    have fits : (BitVec.ofNat 512 (leNat (d.take 64))).toNat = leNat (d.take 64) := toNat_ofNat_leNat (k := 64) short
    have bytes : leBytes 64 (leNat (d.take 64)) = d.take 64 ++ zeros (64 - (d.take 64).length) := by
      rw [← leBytes_leNat_add, Nat.add_sub_cancel' short]
    have rest : (x.setVbytes r d (n + 1)).vbytes (r + 1) n = d.drop 64 ++ zeros (64 * n - (d.drop 64).length) := ih _ (r + 1) (by simp; omega)
    change leBytes 64 (vreg (x.setVbytes r d (n + 1)) r).toNat ++ (x.setVbytes r d (n + 1)).vbytes (r + 1) n = _
    rw [first, fits, bytes, rest]
    by_cases long : 64 ≤ d.length
    · rw [List.length_take_of_le long, Nat.sub_self, List.length_drop, show zeros 0 = [] from rfl, List.append_nil, ← List.append_assoc, List.take_append_drop]
      congr 2
      omega
    · rw [List.take_of_length_le (by omega), List.drop_of_length_le (by omega), List.nil_append, List.append_assoc]
      congr 1
      simp only [zeros, List.replicate_append_replicate]
      congr 1
      simp
      omega

/-! ### Lanes -/

theorem Hart.elems_length (x : Hart) (r w n : Nat) : (x.elems r w n).length = n := elemsOf_length _ _ _

theorem lane_eq (x : Hart) (r : BitVec 5) (w : Nat) {n i : Nat} (hi : i < n) :
    Sys2Proof.lane x r w n i = leNat (((x.vbytes r.toNat (ceilDiv (n * w) 64)).drop (w * i)).take w) := getD_elemsOf w hi _

theorem lane_of_ge (x : Hart) (r : BitVec 5) (w : Nat) {n i : Nat} (hi : n ≤ i) : Sys2Proof.lane x r w n i = 0 :=
  List.getD_eq_default _ _ (by rwa [Hart.elems_length])

theorem lane_congr {x y : Hart} (v : x.v = y.v) (r : BitVec 5) (w n i : Nat) : Sys2Proof.lane x r w n i = Sys2Proof.lane y r w n i := by
  rw [Sys2Proof.lane, Sys2Proof.lane, Hart.elems, Hart.elems, Hart.vbytes_congr v]

/-- A list of the elements by their number. -/
theorem eq_map_range_getD {l : List Nat} {n : Nat} (h : l.length = n) : l = (List.range n).map (fun i => l.getD i 0) := by
  refine List.ext_getElem (by simp [h]) (fun i hi _ => ?_)
  simp [hi]

theorem Hart.elems_eq (x : Hart) (r : BitVec 5) (w n : Nat) : x.elems r.toNat w n = (List.range n).map (Sys2Proof.lane x r w n) :=
  eq_map_range_getD (x.elems_length _ _ _)

theorem getD_map_range {α : Type} (k : Nat → α) {n i : Nat} (hi : i < n) (d : α) : ((List.range n).map k).getD i d = k i := by
  simp [List.getD, hi]

/-- From x to y an instruction has written k into elements 0 to n − 1 of w bytes of a group, and no other register. -/
structure LanesWritten (x y : Hart) (r : BitVec 5) (w n : Nat) (k : Nat → Nat) : Prop where
  lanes : ∀ i, i < n → Sys2Proof.lane y r w n i = k i % 2 ^ (8 * w)
  others : ∀ q, q < r.toNat ∨ r.toNat + ceilDiv (n * w) 64 ≤ q → vreg y q = vreg x q
  rest : { y with v := x.v, fvnsat := x.fvnsat, fvnflush := x.fvnflush } = x

namespace LanesWritten
variable {x y : Hart} {r : BitVec 5} {w n : Nat} {k : Nat → Nat}

theorem congr (a : LanesWritten x y r w n k) {j : Nat → Nat} (same : ∀ i, i < n → k i % 2 ^ (8 * w) = j i % 2 ^ (8 * w)) : LanesWritten x y r w n j :=
  ⟨fun i hi => (a.lanes i hi).trans (same i hi), a.others, a.rest⟩

theorem countEvs (a : LanesWritten x y r w n k) (evs : List Ev) : LanesWritten x (y.countEvs evs) r w n k :=
  ⟨fun i hi => (lane_congr (x := y.countEvs evs) (y := y) rfl r w n i).trans (a.lanes i hi), a.others, a.rest⟩

end LanesWritten

theorem le_mul_ceilDiv (n : Nat) : n ≤ 64 * ceilDiv n 64 := by
  unfold ceilDiv
  omega

/-- The elements of a list, then zeros. -/
theorem lanesWritten_setVbytes (x : Hart) (r : BitVec 5) (w : Nat) {n g : Nat} (group : ceilDiv (n * w) 64 = g) {l : List Nat} (hl : l.length ≤ n) :
    LanesWritten x (x.setVbytes r.toNat (elemBytes w l) g) r w n (fun i => l.getD i 0) where
  lanes i hi := by
    have fits : (elemBytes w l).length ≤ 64 * g := by
      rw [elemBytes_length, ← group]
      exact (Nat.mul_comm w _ ▸ Nat.mul_le_mul_right w hl).trans (le_mul_ceilDiv _)
    rw [lane_eq _ r w hi, group, x.vbytes_setVbytes _ fits, leNat_elemBytes, pow_256]
  others q hq := vreg_setVbytes_other x _ (by rwa [group] at hq)
  rest := (congrArg (fun y : Hart => { y with fvnsat := x.fvnsat, fvnflush := x.fvnflush }) (x.setVbytes_rest r.toNat (elemBytes w l) g) :)

/-- Results under active flags (R331). -/
theorem lanesWritten_putElems (x : Hart) (r : BitVec 5) (w : Nat) (z : Bool) (act : List Bool) {vals : List Nat} {n : Nat} (hn : vals.length = n) :
    LanesWritten x (x.putElems r.toNat w z act vals) r w n (fun i => if act.getD i false then vals.getD i 0 else if z then 0 else Sys2Proof.lane x r w n i) := by
  subst hn
  have put := lanesWritten_setVbytes x r w rfl (Nat.le_of_eq (List.length_map (as := List.range vals.length) (fun i =>
    if act.getD i false then vals.getD i 0 else if z then 0 else Sys2Proof.lane x r w vals.length i)))
  rw [List.length_range] at put
  exact put.congr (fun i hi => by rw [getD_map_range _ hi])

/-- Results under the predicate of an instruction. -/
theorem lanesWritten_masked (x : Hart) (f : FvxWord) (pw w n : Nat) (k : Nat → Nat) :
    LanesWritten x (x.putElems f.vd.toNat w (f.z == 1) ((List.range n).map (x.active f.pg.toNat pw)) ((List.range n).map k)) f.vd w n
      (fun i => masked x f pw w n i (k i)) :=
  (lanesWritten_putElems x f.vd w (f.z == 1) _ (by simp)).congr (fun i hi => by
    rw [getD_map_range _ hi, getD_map_range _ hi]
    simp [masked])

/-- Results with their events. -/
theorem lanesWritten_putResults (x : Hart) (f : FvxWord) (pw w n : Nat) (k : Nat → Nat × Ev) :
    LanesWritten x (x.putResults f.vd.toNat w (f.z == 1) ((List.range n).map (x.active f.pg.toNat pw)) ((List.range n).map k)) f.vd w n
      (fun i => masked x f pw w n i (k i).1) := by
  rw [Hart.putResults, List.map_map]
  exact (lanesWritten_masked x f pw w n (fun i => (k i).1)).countEvs _

/-! ### An instruction -/

/-- An instruction that writes a group and nothing else. -/
theorem writesLanes_of {s : State} {h : HartId} {op : FvxOp} {f : FvxWord} {w n : Nat} {k : Nat → Nat} {y : Hart} (hr : fvxRuns s h op f = true)
    (run : s.fvx h op f = (s.setHart h y).pass h 8) (wr : LanesWritten (s.hart h) y f.vd w n k) : writesLanes op h f s w n k := by
  have hart : (s.fvx h op f).hart h = y.passed 8 := by rw [run, State.hart_pass, State.hart_setHart_same]
  refine ⟨_, exec_fvxInstr_of_runs (hartRuns_of_fvxRuns hr), fun i hi => ?_, fun q hq => ?_, ?_, ?_, ?_, ?_, ?_⟩
  · rw [hart, lane_congr (x := y.passed 8) (y := y) rfl]
    exact wr.lanes i hi
  · rw [hart]
    exact wr.others q hq
  · rw [hart]
    exact congrArg (· + 8) (congrArg Hart.pc wr.rest :)
  · rw [hart]
    exact (congrArg Hart.x wr.rest :)
  · rw [hart]
    exact (congrArg Hart.f wr.rest :)
  · rw [hart]
    exact (congrArg Hart.p wr.rest :)
  · rw [run]
    exact hartOnly_trans (hartOnly_setHart _ _ _) (hartOnly_pass _ _ _)

end Sys2Proof.Machine
end

section
/-! The FVX operations that write vector registers: their equation, and O9, the elementwise ones with the events they count (R331, R334, R348). -/

namespace Sys2Proof.Machine

/-! ### Operations over registers -/

/-- Does an operation leave memory alone? -/
def FvxOp.inRegs (op : FvxOp) : Bool := !op.loads && !op.stores && op != .vldp && op != .vstp && op != .vcas

/-- A valid operation runs by its kind. -/
theorem State.fvx_of_runs {s : State} {h : HartId} {op : FvxOp} {f : FvxWord} (hr : fvxRuns s h op f = true) :
    s.fvx h op f = if op.loads then s.fvxLoad h op f else if op.stores then s.fvxStore h op f
      else if op = .vldp ∨ op = .vstp then s.fvxPred h op f else if op = .vcas then s.fvxCas h f else s.fvxRegs h op f := by
  simp only [fvxRuns, Bool.and_eq_true] at hr
  obtain ⟨⟨-, on⟩, ok⟩ := hr
  exact if_neg (by simp [on, ok])

/-- A valid operation over registers. -/
theorem State.fvx_inRegs {s : State} {h : HartId} {op : FvxOp} {f : FvxWord} (hr : fvxRuns s h op f = true) (regs : op.inRegs = true) :
    s.fvx h op f = s.fvxRegs h op f := by
  simp only [FvxOp.inRegs, Bool.and_eq_true, Bool.not_eq_true', bne_iff_ne] at regs
  obtain ⟨⟨⟨⟨loads, stores⟩, vldp⟩, vstp⟩, vcas⟩ := regs
  simp only [State.fvx_of_runs hr, loads, stores, vldp, vstp, vcas, Bool.false_eq_true, if_false, or_self]

/-- An operation that writes vector registers. -/
theorem State.fvx_vector {s : State} {h : HartId} {op : FvxOp} {f : FvxWord} {y : Hart} (hr : fvxRuns s h op f = true)
    (vector : (s.hart h).fvxVector op f = some y) : s.fvx h op f = (s.setHart h y).pass h 8 := by
  have regs : op.inRegs = true := by cases op <;> cases vector <;> rfl
  have run : s.fvxRegs h op f = (match (s.hart h).fvxVector op f with | some y => s.setHart h y | none => s).pass h 8 := by
    cases op <;> cases vector <;> rfl
  rw [State.fvx_inRegs hr regs, run, vector]

theorem State.hart_vector {s : State} {h : HartId} {op : FvxOp} {f : FvxWord} {y : Hart} (hr : fvxRuns s h op f = true)
    (vector : (s.hart h).fvxVector op f = some y) : (s.fvx h op f).hart h = y.passed 8 := by
  rw [State.fvx_vector hr vector, State.hart_pass, State.hart_setHart_same]

/-! ### Elementwise operations -/

theorem Hart.fvxVector_elem (x : Hart) {op : FvxOp} {f : FvxWord} {e : ElemOp} (elem : op.elem (fvxFmt f).isFloat = some e) :
    x.fvxVector op f = some (x.putResults f.vd.toNat (fvxFmt f).bytes (f.z == 1) ((List.range (fvxCount f)).map (x.active f.pg.toNat (fvxFmt f).bytes))
      ((List.range (fvxCount f)).map (fun i => elem1 e (fvxFmt f) (f.sat == 1) (NMode.of f.nm.toNat) 0 (Sys2Proof.lane x f.va (fvxFmt f).bytes (fvxCount f) i)
        (Sys2Proof.lane x f.vb (fvxFmt f).bytes (fvxCount f) i) (Sys2Proof.lane x f.vc (fvxFmt f).bytes (fvxCount f) i)))) := by
  unfold Hart.fvxVector
  simp only [show op.elem ((fmtOf f).getD .i8).isFloat = some e from elem]
  rfl

/-! ### Events -/

/-- What the flags of a list pick out of another. -/
theorem filterMap_zip_map {α β : Type} (act : Nat → Bool) (k : Nat → α) (g : α → β) (l : List Nat) :
    (List.zip (l.map act) (l.map k)).filterMap (fun p => if p.1 then some (g p.2) else none) = (l.filter act).map (fun i => g (k i)) := by
  induction l with
  | nil => rfl
  | cons a l ih => cases h : act a <;> simp [h, ih]

/-- The event counters after the events of a list, each counter stopping at its largest value (R348). -/
theorem Hart.countEvs_counters (x : Hart) {γ : Type} (on : List γ) (ev : γ → Ev) :
    (x.countEvs (on.map ev)).fvnsat.toNat = min (x.fvnsat.toNat + (on.filter (fun i => (ev i).sat)).length) (2 ^ 64 - 1) ∧
    (x.countEvs (on.map ev)).fvnflush.toNat = min (x.fvnflush.toNat + (on.filter (fun i => (ev i).flush)).length) (2 ^ 64 - 1) := by
  have fits : ∀ m : Nat, (BitVec.ofNat 64 (min m (2 ^ 64 - 1))).toNat = min m (2 ^ 64 - 1) := fun m => by
    rw [BitVec.toNat_ofNat]
    omega
  simp only [Hart.countEvs, fits, countSat, countFlush, List.filter_map, List.length_map, Function.comp_def, and_self]

/-- The counters of an operation rise by the events of its active elements. -/
theorem Hart.putResults_counters (x : Hart) (r w n : Nat) (z : Bool) (act : Nat → Bool) (k : Nat → Nat × Ev) :
    let y := x.putResults r w z ((List.range n).map act) ((List.range n).map k)
    let on := (List.range n).filter act
    y.fvnsat.toNat = min (x.fvnsat.toNat + (on.filter (fun i => (k i).2.sat)).length) (2 ^ 64 - 1) ∧
    y.fvnflush.toNat = min (x.fvnflush.toNat + (on.filter (fun i => (k i).2.flush)).length) (2 ^ 64 - 1) := by
  intro y on
  let put := x.putElems r w z ((List.range n).map act) (((List.range n).map k).map Prod.fst)
  have counters := put.countEvs_counters on (fun i => (k i).2)
  have rest : { put with v := x.v } = x := x.setVbytes_rest _ _ _
  rw [show put.fvnsat = x.fvnsat from (congrArg Hart.fvnsat rest :), show put.fvnflush = x.fvnflush from (congrArg Hart.fvnflush rest :)] at counters
  have run : y = put.countEvs (on.map (fun i => (k i).2)) := congrArg put.countEvs (filterMap_zip_map act k Prod.snd _)
  rwa [run]

/-- Settles O9: one write of the group, and the events of its active elements. -/
theorem fvxElementwise : Obligations.FvxElementwise := by
  refine ⟨fun op e h f s hr elem => ?_, fun op e h f s hr elem => ?_⟩
  · intro x w n
    exact writesLanes_of hr (State.fvx_vector hr (x.fvxVector_elem elem)) (lanesWritten_putResults x f _ _ _ _)
  · intro x w n ev on
    have hart := State.hart_vector hr (x.fvxVector_elem elem)
    obtain ⟨sat, flush⟩ := x.putResults_counters f.vd.toNat w n (f.z == 1) (x.active f.pg.toNat w)
      (fun i => elem1 e (fvxFmt f) (f.sat == 1) (NMode.of f.nm.toNat) 0 (Sys2Proof.lane x f.va w n i) (Sys2Proof.lane x f.vb w n i) (Sys2Proof.lane x f.vc w n i))
    exact ⟨_, exec_fvxInstr_of_runs (hartRuns_of_fvxRuns hr), (congrArg (fun y : Hart => y.fvnsat.toNat) hart).trans sat,
      (congrArg (fun y : Hart => y.fvnflush.toNat) hart).trans flush⟩

end Sys2Proof.Machine
end

section
/-! FVX moves and widening operations (R330, R334, R343 to R346, Tables 8-4 and 8-5): O10, one equation for each operation whose results are not
already listed element by element. -/

namespace Sys2Proof.Machine

/-! ### The group of an instruction -/

theorem Fmt.bytes_dvd (f : Fmt) : f.bytes ∣ 64 := by cases f <;> decide

theorem fvxCount_mul (f : FvxWord) : fvxCount f * (fvxFmt f).bytes = 64 * grp f :=
  Nat.div_mul_cancel ((fvxFmt f).bytes_dvd.trans (Nat.dvd_mul_right _ _))

theorem ceilDiv_mul (g : Nat) : ceilDiv (64 * g) 64 = g := by
  unfold ceilDiv
  omega

theorem ceilDiv_group (f : FvxWord) : ceilDiv (fvxCount f * (fvxFmt f).bytes) 64 = grp f := by rw [fvxCount_mul, ceilDiv_mul]

/-! ### Moves -/

/-- A result beyond the element's width counts modulo the width. -/
theorem masked_mod (x : Hart) (f : FvxWord) (pw w n i v : Nat) : masked x f pw w n i (v % 2 ^ (8 * w)) % 2 ^ (8 * w) = masked x f pw w n i v % 2 ^ (8 * w) := by
  unfold masked
  split
  · exact Nat.mod_mod _ _
  · rfl

theorem vexpandL_length (m : List Bool) (a b : List Nat) : (vexpandL m a b).length = m.length := by
  induction m generalizing a b with
  | nil => rfl
  | cons p m ih => cases p <;> simp [vexpandL, ih]

/-- The active places take the elements of a in order; the others keep those of b. -/
theorem getD_vexpandL {m : List Bool} {i : Nat} (hi : i < m.length) (a b : List Nat) :
    (vexpandL m a b).getD i 0 = if m.getD i false then a.getD ((m.take i).filter id).length 0 else b.getD i 0 := by
  induction m generalizing i a b with
  | nil => exact absurd hi (Nat.not_lt_zero i)
  | cons p m ih =>
    cases i with
    | zero => cases p <;> cases a <;> cases b <;> rfl
    | succ i =>
      have next := ih (Nat.lt_of_succ_lt_succ hi)
      have second : ∀ c : List Nat, ∀ j, (c.drop 1).getD j 0 = c.getD (j + 1) 0 := fun c j => by simp [List.getD]
      cases p <;>
        simp only [vexpandL, Bool.false_eq_true, if_false, if_true, List.getD_cons_succ, next, second, List.take_succ_cons, List.filter_cons, id,
          List.length_cons]

/-- Bytes written into a group, as elements of one byte. -/
theorem lanesWritten_bytes (x : Hart) (r : BitVec 5) {g : Nat} {d : List Byte} (hd : d.length ≤ 64 * g) :
    LanesWritten x (x.setVbytes r.toNat d g) r 1 (64 * g) (fun i => (d.getD i 0).toNat) := by
  have bytes : elemBytes 1 (d.map BitVec.toNat) = d := by
    induction d with
    | nil => rfl
    | cons b d ih =>
      have := ih (Nat.le_of_succ_le hd)
      simp_all [elemBytes, leBytes]
  have wr := lanesWritten_setVbytes x r 1 (n := 64 * g) (g := g) (by rw [Nat.mul_one, ceilDiv_mul]) (l := d.map BitVec.toNat) (by simpa using hd)
  rw [bytes] at wr
  exact wr.congr (fun i _ => by
    congr 1
    simp [List.getD]
    cases d[i]? <;> rfl)

theorem lane_bytes (x : Hart) (r : BitVec 5) {g i : Nat} : Sys2Proof.lane x r 1 (64 * g) i = ((x.vbytes r.toNat g).getD i 0).toNat := by
  by_cases hi : i < 64 * g
  · rw [lane_eq x r 1 hi, Nat.mul_one, ceilDiv_mul, Nat.one_mul]
    have hl : i < (x.vbytes r.toNat g).length := by simpa using hi
    rw [List.drop_eq_getElem_cons hl, List.getD_eq_getElem _ _ hl]
    simp only [List.take_succ_cons, List.take_zero, leNat, Nat.mul_zero, Nat.add_zero]
  · rw [lane_of_ge x r 1 (not_lt.1 hi), List.getD_eq_default _ _ (by simpa using hi)]
    rfl

/-! ### Results in terms of the elements -/

/-- The elements that are active. -/
theorem Hart.filterMap_elems (x : Hart) (r : BitVec 5) (w n : Nat) (act : Nat → Bool) :
    (List.zip ((List.range n).map act) (x.elems r.toNat w n)).filterMap (fun p => if p.1 then some p.2 else none) =
      ((List.range n).filter act).map (Sys2Proof.lane x r w n) := by
  rw [x.elems_eq]
  exact filterMap_zip_map act _ id _

section
variable (x : Hart) (f : FvxWord) {w n : Nat} (width : (fvxFmt f).bytes = w) (count : fvxCount f = n)
include width count

theorem Hart.fvxVector_vsel : x.fvxVector .vsel f = some (x.putElems f.vd.toNat w false ((List.range n).map (fun _ => true)) ((List.range n).map (fun i =>
    if x.active f.pg.toNat w i then Sys2Proof.lane x f.va w n i else Sys2Proof.lane x f.vb w n i))) := by
  subst width count
  refine (congrArg some (congrArg₂ (x.putElems f.vd.toNat _ false) List.map_map (List.map_congr_left (fun i hi => ?_))) :)
  rw [getD_map_range _ (List.mem_range.1 hi)]
  rfl

theorem Hart.fvxVector_vcompress : x.fvxVector .vcompress f =
    some (x.setVbytes f.vd.toNat (elemBytes w (((List.range n).filter (x.active f.pg.toNat w)).map (Sys2Proof.lane x f.va w n))) (grp f)) := by
  subst width count
  exact (congrArg (fun l => some (x.setVbytes f.vd.toNat (elemBytes _ l) (grp f))) (x.filterMap_elems f.va _ _ _) :)

theorem Hart.fvxVector_vcvt {t : Fmt} {e : Int} (format : (fmt2Of f).getD .i8 = t) (scale : signed 18 (x.xreg f.vb).toNat = e) :
    x.fvxVector .vcvt f = some (x.putResults f.vd.toNat t.bytes (f.z == 1) ((List.range n).map (x.active f.pg.toNat (max w t.bytes)))
      ((List.range n).map (fun i => convertNum (some (fvxFmt f)) t (if t.isFx then e else 0) (NMode.of f.nm.toNat)
        (decodeNum (fvxFmt f) (if (fvxFmt f).isFx && !t.isFx then e else 0) (Sys2Proof.lane x f.va w n i))))) := by
  subst width count format scale
  refine (congrArg (fun l => some (x.putResults f.vd.toNat _ _ _ l)) ?_ :)
  exact (congrArg (List.map _) (x.elems_eq f.va _ _)).trans List.map_map

end

section
variable (x : Hart) (f : FvxWord)

theorem Hart.fvxVector_vperm : x.fvxVector .vperm f = some (x.setVbytes f.vd.toNat ((List.range (64 * grp f)).map (fun i =>
    BitVec.ofNat 8 (masked x f 1 1 (64 * grp f) i (Sys2Proof.lane x f.va 1 (64 * grp f) (Sys2Proof.lane x f.vb 1 (64 * grp f) i))))) (grp f)) := by
  refine (congrArg (fun l => some (x.setVbytes f.vd.toNat l (grp f))) (List.map_congr_left (fun i _ => ?_)) :)
  simp only [masked, lane_bytes, apply_ite (BitVec.ofNat 8), BitVec.ofNat_toNat, BitVec.setWidth_eq, List.getD_eq_getElem?_getD, beq_iff_eq]
  rfl

/-- A part of the elements of a group. -/
theorem Hart.take_drop_elems (r : BitVec 5) (w m k : Nat) {i : Nat} (hi : i < m) :
    ((x.elems r.toNat w (m * k)).drop (k * i)).take k = (List.range k).map (fun j => Sys2Proof.lane x r w (m * k) (k * i + j)) := by
  have fits : k * i + k ≤ m * k := by
    rw [← Nat.mul_succ, Nat.mul_comm m]
    exact Nat.mul_le_mul_left k hi
  refine (eq_map_range_getD (n := k) ?_).trans (List.map_congr_left (fun j hj => ?_))
  · rw [List.length_take, List.length_drop, Hart.elems_length]
    omega
  · simp [Sys2Proof.lane, List.getD, List.mem_range.1 hj]

theorem Hart.fvxVector_vdot {t : Fmt} {k m : Nat} (lanes : (dotFmt (fvxFmt f)).getD .i32 = t)
    (sums : (if fvxFmt f = .i8 then 8 else if fvxFmt f = .i16 then 4 else 2) = k) (count : 64 * grp f / t.bytes = m) :
    x.fvxVector .vdot f = some (x.putResults f.vd.toNat t.bytes (f.z == 1) ((List.range m).map (x.active f.pg.toNat t.bytes))
      ((List.range m).map (fun i => dotLane (fvxFmt f) t (f.sat == 1) (NMode.of f.nm.toNat) (Sys2Proof.lane x f.vd t.bytes m i)
        ((List.range k).map (fun j => Sys2Proof.lane x f.va (fvxFmt f).bytes (m * k) (k * i + j)))
        ((List.range k).map (fun j => Sys2Proof.lane x f.vb (fvxFmt f).bytes (m * k) (k * i + j)))))) := by
  subst lanes sums count
  refine (congrArg (fun l => some (x.putResults f.vd.toNat _ _ _ l)) (List.map_congr_left (fun i hi => ?_)) :)
  exact congrArg₂ (dotLane _ _ _ _ _) (x.take_drop_elems f.va _ _ _ (List.mem_range.1 hi)) (x.take_drop_elems f.vb _ _ _ (List.mem_range.1 hi))

theorem Hart.fvxVector_vaccout {t : Fmt} {e : Int} (format : (fmt2Of f).getD .fx64 = t) (scale : signed 18 (x.xreg f.vb).toNat = e) :
    x.fvxVector .vaccout f = some (x.putResults f.vd.toNat t.bytes (f.z == 1) ((List.range (8 * grp f)).map (x.active f.pg.toNat 16))
      ((List.range (8 * grp f)).map (fun i => convertNum none t (if t.isFx then e else 0) (NMode.of f.nm.toNat)
        (Num.ofInt (signed 128 (Sys2Proof.lane x f.va 16 (8 * grp f) i)) (if t.isFx then 0 else e))))) := by
  subst format scale
  refine (congrArg (fun l => some (x.putResults f.vd.toNat _ _ _ l)) ?_ :)
  refine (congrArg (List.map _) (x.elems_eq f.va _ _)).trans (List.map_map.trans (List.map_congr_left (fun i _ => ?_)))
  by_cases fx : ((fmt2Of f).getD .fx64).isFx = true
  · simp only [Function.comp, fx, if_true]
    rfl
  · simp only [Function.comp, fx]
    rfl

end

/-- Settles O10: each operation by its equation, element by element. -/
theorem fvxMovesAndWideningOps : Obligations.FvxMovesAndWideningOps := by
  refine ⟨fun h f s => ?_, fun h f s => ?_⟩
  · intro x w n a b act scalar
    refine ⟨fun hr => ?_, fun hr => ?_, fun hr => ?_, fun hr => ?_, fun hr => ?_, fun hr => ?_, fun hr => ?_, fun hr => ?_⟩
    · exact writesLanes_of hr (State.fvx_vector hr rfl) (lanesWritten_masked x f w w n (fun i => clsBits (8 * w) (a i)))
    · have all := lanesWritten_putElems x f.vd w false ((List.range n).map (fun _ => true)) (n := n)
        (vals := (List.range n).map (fun i => if act i then a i else b i)) (by rw [List.length_map, List.length_range])
      refine writesLanes_of hr (State.fvx_vector hr (x.fvxVector_vsel f rfl rfl)) (all.congr (fun i hi => ?_))
      rw [getD_map_range _ hi, getD_map_range _ hi, if_pos rfl]
    · exact writesLanes_of hr (State.fvx_vector hr rfl) (lanesWritten_masked x f w w n (fun i => a (i + f.imm.toNat)))
    · exact writesLanes_of hr (State.fvx_vector hr rfl)
        ((lanesWritten_masked x f w w n (fun _ => scalar % 2 ^ (8 * w))).congr (fun i _ => masked_mod x f w w n i scalar))
    · have new : ((List.range n).map (fun i => if i = f.imm.toNat then scalar % 2 ^ (8 * w) else Sys2Proof.lane x f.vd w n i)).length ≤ n := by simp
      refine writesLanes_of hr (State.fvx_vector hr rfl) ((lanesWritten_setVbytes x f.vd w (ceilDiv_group f) new).congr (fun i hi => ?_))
      rw [getD_map_range _ hi]
      split
      · exact Nat.mod_mod _ _
      · rfl
    · exact writesLanes_of hr (State.fvx_vector hr (x.fvxVector_vperm f)) ((lanesWritten_bytes x f.vd (by simp)).congr (fun i hi => by
        rw [getD_map_range _ hi, BitVec.toNat_ofNat, Nat.mod_mod]))
    · exact writesLanes_of hr (State.fvx_vector hr (x.fvxVector_vcompress f rfl rfl)) (lanesWritten_setVbytes x f.vd w (ceilDiv_group f)
        (by simpa using List.length_filter_le (x.active f.pg.toNat w) (List.range n)))
    · have fits : (vexpandL ((List.range n).map act) (x.elems f.va.toNat w n) (x.elems f.vb.toNat w n)).length ≤ n := by
        rw [vexpandL_length, List.length_map, List.length_range]
      refine writesLanes_of hr (State.fvx_vector hr rfl) ((lanesWritten_setVbytes x f.vd w (ceilDiv_group f) fits).congr (fun i hi => ?_))
      rw [getD_vexpandL (by simpa using hi), getD_map_range _ hi, ← List.map_take, List.take_range, Nat.min_eq_left (Nat.le_of_lt hi), List.filter_map,
        List.length_map]
      rfl
  · intro x fm w n a b sat md wide dot k m to2 e out
    refine ⟨fun hr => ?_, fun hr => ?_, fun hr => ?_, fun hr => ?_, fun hr => ?_, fun hr => ?_⟩
    · exact writesLanes_of hr (State.fvx_vector hr rfl) (lanesWritten_putResults x f _ _ _ (fun i => wideLane fm wide sat md none (a i) (b i)))
    · exact writesLanes_of hr (State.fvx_vector hr rfl)
        (lanesWritten_putResults x f _ _ _ (fun i => wideLane fm wide sat md (some (Sys2Proof.lane x f.vd wide.bytes n i)) (a i) (b i)))
    · exact writesLanes_of hr (State.fvx_vector hr (x.fvxVector_vdot f rfl rfl rfl)) (lanesWritten_putResults x f _ _ _ _)
    · exact writesLanes_of hr (State.fvx_vector hr rfl) (lanesWritten_putResults x f 16 16 n (fun i =>
        (wrapN 128 (accAdd (signed 128 (Sys2Proof.lane x f.vd 16 n i)) (signed 64 (a i) * signed 64 (b i))).1,
          ⟨(accAdd (signed 128 (Sys2Proof.lane x f.vd 16 n i)) (signed 64 (a i) * signed 64 (b i))).2, false⟩)))
    · exact writesLanes_of hr (State.fvx_vector hr (x.fvxVector_vcvt f rfl rfl rfl rfl)) (lanesWritten_putResults x f _ _ _ _)
    · exact writesLanes_of hr (State.fvx_vector hr (x.fvxVector_vaccout f rfl rfl)) (lanesWritten_putResults x f _ _ _ _)

end Sys2Proof.Machine
end

section
/-! FVX operations that write a predicate or an x register (R331, R332, R347): O11. -/

namespace Sys2Proof.Machine

/-! ### Predicates -/

theorem Hart.pred_setPred (x : Hart) {n : Nat} (hn : n ≠ 0) (v : BitVec 64) (r : Nat) : (x.setPred n v).pred r = if r = n then v else x.pred r := by
  by_cases e : r = n
  · rw [if_pos e, Hart.pred, if_neg (e ▸ hn), e]
    exact Tab.get_set_same _ _ _ _
  · have kept : Tab.get (fun _ => 0) (x.setPred n v).p r = Tab.get (fun _ => 0) x.p r := Tab.get_set_ne _ _ _ _ _ e
    rw [if_neg e, Hart.pred, Hart.pred, kept]

/-- A destination predicate is not P0 (R332). -/
theorem predDst_of_fvxRuns {s : State} {h : HartId} {op : FvxOp} {f : FvxWord} (hr : fvxRuns s h op f = true) (dst : (fvxShape op f).vd = .predDst) :
    f.vd.toNat ≠ 0 := by
  have ok := fvxOk_of_fvxRuns hr
  simp only [fvxOk, Bool.and_eq_true, dst, FvxArg.ok, decide_eq_true_eq] at ok
  obtain ⟨⟨⟨⟨-, low, -⟩, -⟩, -⟩, -⟩ := ok
  exact Nat.ne_of_gt low

/-- The predicate of a list of flags takes those of one register. -/
theorem predOf_congr {w : Nat} {b c : Nat → Bool} (same : ∀ i, i < 64 / w → b i = c i) : predOf w b = predOf w c := by
  unfold predOf
  rw [List.map_congr_left (fun i hi => by rw [same i (List.mem_range.1 hi)])]

/-- What an operation answers that writes its destination predicate and nothing else. -/
theorem writesPred_of {s u : State} {h : HartId} {op : FvxOp} {f : FvxWord} {v : BitVec 64} (hr : fvxRuns s h op f = true)
    (dst : (fvxShape op f).vd = .predDst) (drawn : hartOnly h s u)
    (run : s.fvx h op f = (u.setHart h ((s.hart h).setPred f.vd.toNat v)).pass h 8) :
    ∃ t, exec (fvxInstr op h f) s = .next t ∧ (t.hart h).pred f.vd.toNat = v ∧ (∀ r, r ≠ f.vd.toNat → (t.hart h).pred r = (s.hart h).pred r) ∧
      (t.hart h).v = (s.hart h).v ∧ (t.hart h).x = (s.hart h).x ∧ (t.hart h).pc = (s.hart h).pc + 8 ∧ hartOnly h s t := by
  have hart : (s.fvx h op f).hart h = ((s.hart h).setPred f.vd.toNat v).passed 8 := by rw [run, State.hart_pass, State.hart_setHart_same]
  have preds := (s.hart h).pred_setPred (predDst_of_fvxRuns hr dst) v
  have only : hartOnly h s (s.fvx h op f) := run ▸ hartOnly_trans drawn (hartOnly_trans (hartOnly_setHart _ _ _) (hartOnly_pass _ _ _))
  refine ⟨_, exec_fvxInstr_of_runs (hartRuns_of_fvxRuns hr), ?_, fun r other => ?_, ?_, ?_, ?_, only⟩
  all_goals rw [hart]
  · rw [Hart.pred_passed, preds, if_pos rfl]
  · rw [Hart.pred_passed, preds, if_neg other]
  · rfl
  · rfl
  · rfl

/-! ### x registers -/

/-- What an operation answers that writes its destination register and counts events at most. -/
theorem writesX_of {s u : State} {h : HartId} {op : FvxOp} {f : FvxWord} {v : BitVec 64} {y : Hart} {p : BitVec 64 → Prop} (value : p v)
    (hr : fvxRuns s h op f = true) (drawn : hartOnly h s u) (run : s.fvx h op f = (u.setHart h y).pass h 8)
    (regs : y.x = ((s.hart h).setX f.vd v).x) (rest : { y with x := (s.hart h).x, fvnsat := (s.hart h).fvnsat, fvnflush := (s.hart h).fvnflush } = s.hart h) :
    ∃ t, exec (fvxInstr op h f) s = .next t ∧ (f.vd ≠ 0 → p ((t.hart h).xreg f.vd)) ∧ (∀ r : BitVec 5, r ≠ f.vd → (t.hart h).xreg r = (s.hart h).xreg r) ∧
      (t.hart h).xreg 0 = 0 ∧ (t.hart h).v = (s.hart h).v ∧ (t.hart h).p = (s.hart h).p ∧ (t.hart h).pc = (s.hart h).pc + 8 ∧ hartOnly h s t := by
  have hart : (s.fvx h op f).hart h = y.passed 8 := by rw [run, State.hart_pass, State.hart_setHart_same]
  have xreg : ∀ r, ((s.fvx h op f).hart h).xreg r = ((s.hart h).setX f.vd v).xreg r := fun r => by rw [hart, Hart.xreg_passed, Hart.xreg_congr regs]
  have only : hartOnly h s (s.fvx h op f) := run ▸ hartOnly_trans drawn (hartOnly_trans (hartOnly_setHart _ _ _) (hartOnly_pass _ _ _))
  refine ⟨_, exec_fvxInstr_of_runs (hartRuns_of_fvxRuns hr), fun hvd => ?_, fun r other => ?_, Hart.xreg_zero _, ?_, ?_, ?_, only⟩
  · rwa [xreg, Hart.xreg_setX_same _ hvd]
  · rw [xreg, Hart.xreg_setX_ne _ other]
  all_goals rw [hart]
  · exact (congrArg Hart.v rest :)
  · exact (congrArg Hart.p rest :)
  · exact congrArg (· + 8) (congrArg Hart.pc rest :)

/-- An operation that writes an x register, without events. -/
theorem writesX_of_setX {s u : State} {h : HartId} {op : FvxOp} {f : FvxWord} {v : BitVec 64} {p : BitVec 64 → Prop} (value : p v)
    (hr : fvxRuns s h op f = true) (drawn : hartOnly h s u) (run : s.fvx h op f = (u.setHart h ((s.hart h).setX f.vd v)).pass h 8) :
    ∃ t, exec (fvxInstr op h f) s = .next t ∧ (f.vd ≠ 0 → p ((t.hart h).xreg f.vd)) ∧ (∀ r : BitVec 5, r ≠ f.vd → (t.hart h).xreg r = (s.hart h).xreg r) ∧
      (t.hart h).xreg 0 = 0 ∧ (t.hart h).v = (s.hart h).v ∧ (t.hart h).p = (s.hart h).p ∧ (t.hart h).pc = (s.hart h).pc + 8 ∧ hartOnly h s t :=
  writesX_of value hr drawn run rfl
    (congrArg (fun y : Hart => { y with fvnsat := (s.hart h).fvnsat, fvnflush := (s.hart h).fvnflush }) ((s.hart h).setX_rest f.vd v) :)

/-- An operation whose result is free in one case. -/
theorem writesX_of_free {s : State} {h : HartId} {op : FvxOp} {f : FvxWord} {v : BitVec 64} {p : BitVec 64 → Prop} {b : Prop} [Decidable b]
    (any : b → ∀ u, p u) (value : ¬b → p v) (hr : fvxRuns s h op f = true) (run : s.fvx h op f =
      (if b then s.drawFree.2.setHart h ((s.hart h).setX f.vd s.drawFree.1) else s.setHart h ((s.hart h).setX f.vd v)).pass h 8) :
    ∃ t, exec (fvxInstr op h f) s = .next t ∧ (f.vd ≠ 0 → p ((t.hart h).xreg f.vd)) ∧ (∀ r : BitVec 5, r ≠ f.vd → (t.hart h).xreg r = (s.hart h).xreg r) ∧
      (t.hart h).xreg 0 = 0 ∧ (t.hart h).v = (s.hart h).v ∧ (t.hart h).p = (s.hart h).p ∧ (t.hart h).pc = (s.hart h).pc + 8 ∧ hartOnly h s t := by
  by_cases hb : b
  · rw [if_pos hb] at run
    exact writesX_of_setX (any hb _) hr (hartOnly_drawFree s h) run
  · rw [if_neg hb] at run
    exact writesX_of_setX (value hb) hr (hartOnly_refl h s) run

/-! ### Reductions -/

/-- The active elements of the first source. -/
def Hart.activeElems (x : Hart) (f : FvxWord) : List Nat :=
  ((List.range (fvxCount f)).filter (x.active f.pg.toNat (fvxFmt f).bytes)).map (Sys2Proof.lane x f.va (fvxFmt f).bytes (fvxCount f))

section
variable (s : State) (h : HartId) (f : FvxWord)

theorem State.fvxRegs_vredsum : s.fvxRegs h .vredsum f =
    (s.setHart h (((s.hart h).setX f.vd (elemToX (fvxFmt f) (rowSum (fvxFmt f) (f.sat == 1) (NMode.of f.nm.toNat) ((s.hart h).activeElems f)).1)).countEvs
      [(rowSum (fvxFmt f) (f.sat == 1) (NMode.of f.nm.toNat) ((s.hart h).activeElems f)).2])).pass h 8 :=
  (congrArg (fun l => (s.setHart h (((s.hart h).setX f.vd (elemToX (fvxFmt f) (rowSum (fvxFmt f) (f.sat == 1) (NMode.of f.nm.toNat) l).1)).countEvs
    [(rowSum (fvxFmt f) (f.sat == 1) (NMode.of f.nm.toNat) l).2])).pass h 8) ((s.hart h).filterMap_elems f.va _ _ _) :)

theorem State.fvxRegs_extreme (least : Bool) : s.fvxRegs h (if least then .vredmin else .vredmax) f =
    (if ((s.hart h).activeElems f).isEmpty = true then s.drawFree.2.setHart h ((s.hart h).setX f.vd s.drawFree.1)
      else s.setHart h ((s.hart h).setX f.vd (elemToX (fvxFmt f) (rowMax (fvxFmt f) least ((s.hart h).activeElems f))))).pass h 8 := by
  have actives := (s.hart h).filterMap_elems f.va (fvxFmt f).bytes (fvxCount f) ((s.hart h).active f.pg.toNat (fvxFmt f).bytes)
  rw [Hart.activeElems, ← actives]
  cases least <;> rfl

theorem State.fvxRegs_vmvxs : s.fvxRegs h .vmvxs f =
    (if fvxCount f ≤ f.imm.toNat then s.drawFree.2.setHart h ((s.hart h).setX f.vd s.drawFree.1)
      else s.setHart h ((s.hart h).setX f.vd
        (elemToX (fvxFmt f) (Sys2Proof.lane (s.hart h) f.va (fvxFmt f).bytes (fvxCount f) f.imm.toNat)))).pass h 8 := by
  let x := s.hart h
  let a := x.elems f.va.toNat (fvxFmt f).bytes (fvxCount f)
  have length : a.length = fvxCount f := x.elems_length _ _ _
  have run : ∀ o, a[f.imm.toNat]? = o → s.fvxRegs h .vmvxs f = (match o with
      | some v => s.setHart h (x.setX f.vd (elemToX (fvxFmt f) v))
      | none => s.drawFree.2.setHart h (x.setX f.vd s.drawFree.1)).pass h 8 := fun o e => by
    subst e
    rfl
  by_cases out : fvxCount f ≤ f.imm.toNat
  · rw [if_pos out, run _ (List.getElem?_eq_none (by rwa [length]))]
  · have lies : f.imm.toNat < a.length := by rw [length]; exact not_le.1 out
    have elem : a[f.imm.toNat] = Sys2Proof.lane x f.va (fvxFmt f).bytes (fvxCount f) f.imm.toNat := (List.getD_eq_getElem _ 0 lies).symm
    rw [if_neg out, run _ (List.getElem?_eq_getElem lies), elem]

end

/-! ### The statement -/

/-- Settles O11: each operation writes one predicate or one x register. -/
theorem fvxPredicatesAndScalars : Obligations.FvxPredicatesAndScalars := by
  refine ⟨fun h f s => ?_, fun h f s => ?_⟩
  · intro x w n holds writes
    have drawn := hartOnly_refl h s
    refine ⟨fun hr one => ?_, fun hr more => ?_, fun hr => ?_, fun hr => ?_, fun hr => ?_, fun hr => ?_, fun hr => ?_⟩
    · have same : predOf w (fun i => if x.active f.pg.toNat w i then holds i else f.z == 0 && x.active f.vd.toNat w i) =
          predOf w (fun i => if x.active f.pg.toNat w i then holds i else f.z == 0 && (x.pred f.vd.toNat).getLsbD (i * w)) :=
        predOf_congr (fun i hi => by
          have inside : i * w < 64 := (Nat.lt_div_iff_mul_lt' (fvxFmt f).bytes_dvd i).1 hi |>.trans_le' (Nat.le_of_eq (Nat.mul_comm _ _))
          simp only [Hart.active, Nat.mod_eq_of_lt inside])
      rw [same]
      exact writesPred_of hr rfl drawn ((State.fvx_inRegs hr rfl).trans (congrArg (fun u : State => u.pass h 8) (if_pos one)))
    · exact ⟨_, writesPred_of hr rfl (hartOnly_drawFree s h) ((State.fvx_inRegs hr rfl).trans (congrArg (fun u : State => u.pass h 8) (if_neg more)))⟩
    · exact writesPred_of hr rfl drawn (State.fvx_inRegs hr rfl)
    · exact writesPred_of hr rfl drawn (State.fvx_inRegs hr rfl)
    · exact writesPred_of hr rfl drawn (State.fvx_inRegs hr rfl)
    · exact writesPred_of hr rfl drawn (State.fvx_inRegs hr rfl)
    · exact writesPred_of hr rfl drawn (State.fvx_inRegs hr rfl)
  · intro x fm w n on writes
    have drawn := hartOnly_refl h s
    refine ⟨fun hr => ?_, fun hr => ?_, fun hr => ?_, fun hr => ?_, fun hr => ?_⟩
    · exact writesX_of (p := fun v => v = _) rfl hr drawn ((State.fvx_inRegs hr rfl).trans (s.fvxRegs_vredsum h f)) rfl
        (congrArg (fun y : Hart => { y with fvnsat := x.fvnsat, fvnflush := x.fvnflush }) (x.setX_rest f.vd _) :)
    · exact writesX_of_free (p := fun v => on ≠ [] → v = _) (fun none _ some => absurd (List.isEmpty_iff.1 none) some) (fun _ _ => rfl) hr
        ((State.fvx_inRegs hr rfl).trans (s.fvxRegs_extreme h f false))
    · exact writesX_of_free (p := fun v => on ≠ [] → v = _) (fun none _ some => absurd (List.isEmpty_iff.1 none) some) (fun _ _ => rfl) hr
        ((State.fvx_inRegs hr rfl).trans (s.fvxRegs_extreme h f true))
    · exact writesX_of_free (p := fun v => f.imm.toNat < n → v = _) (fun out _ lies => absurd lies (not_lt.2 out)) (fun _ _ => rfl) hr
        ((State.fvx_inRegs hr rfl).trans (s.fvxRegs_vmvxs h f))
    · exact writesX_of_setX (p := fun v => v = _) rfl hr drawn (State.fvx_inRegs hr rfl)

end Sys2Proof.Machine
end

section
/-! FVX loads of the node's own memory (R334, R338, R340): O12. -/

namespace Sys2Proof.Machine

/-! ### The addresses of a load -/

/-- Address of slot j of a vector load; a broadcast reads one element. -/
def Hart.slotAddr (x : Hart) (op : FvxOp) (f : FvxWord) (j : Nat) : BitVec 64 :=
  if op = .vldbc then x.fvxAddr op f 0 0 else x.fvxAddr op f (j / (64 * grp f / fvxW f)) (j % (64 * grp f / fvxW f))

/-- The elements that a vector load reads, in order. -/
def Hart.loadAddrs (x : Hart) (op : FvxOp) (f : FvxWord) : List (BitVec 64) :=
  if op = .vldbc then (if (x.fvxSlots op f).isEmpty then [] else [x.fvxAddr op f 0 0])
  else (x.fvxSlots op f).map (fun j => x.fvxAddr op f (j / (64 * grp f / fvxW f)) (j % (64 * grp f / fvxW f)))

/-- Each of them is the address of an active slot. -/
theorem Hart.mem_loadAddrs {x : Hart} {op : FvxOp} {f : FvxWord} {a : BitVec 64} (ha : a ∈ x.loadAddrs op f) :
    ∃ j ∈ x.fvxSlots op f, a = x.slotAddr op f j := by
  unfold Hart.loadAddrs at ha
  unfold Hart.slotAddr
  by_cases one : op = .vldbc
  · rw [if_pos one] at ha
    cases slots : x.fvxSlots op f with
    | nil =>
      rw [slots] at ha
      exact absurd ha List.not_mem_nil
    | cons j l =>
      rw [slots] at ha
      exact ⟨j, List.mem_cons_self, (List.mem_singleton.1 ha).trans (if_pos one).symm⟩
  · rw [if_neg one] at ha
    obtain ⟨j, hj, e⟩ := List.mem_map.1 ha
    exact ⟨j, hj, by rw [if_neg one, e]⟩

theorem misaligned_none {w : Nat} {l : List (BitVec 64)} (aligned : ∀ a ∈ l, a.toNat % w = 0) : misaligned w l = none :=
  List.find?_eq_none.2 (fun a ha => by simp [aligned a ha])

/-! ### What a load reads -/

/-- The elements of a list of whole elements. -/
theorem elemsOf_flatMap {α : Type} {w : Nat} {g : α → List Byte} {l : List α} (whole : ∀ a, (g a).length = w) :
    elemsOf w l.length (l.flatMap g) = l.map (fun a => leNat (g a)) := by
  induction l with
  | nil => rfl
  | cons a l ih => rw [List.length_cons, List.flatMap_cons, elemsOf, List.take_left' (whole a), List.drop_left' (whole a), ih, List.map_cons]

/-- An element of w bytes reads as w bytes. -/
theorem elParts_bytes_length (s : State) (a : BitVec 64) (w : Nat) : ((elParts a w).flatMap (fun e => s.bytes (localAddr e.addr) e.n)).length = w := by
  unfold elParts
  split
  · next wide => simp [State.bytes_length, wide]
  · simp [State.bytes_length]

section
variable {s : State} {h : HartId} {op : FvxOp} {f : FvxWord} (unparked : (s.hart h).park = none) (alone : AloneNode s)
include unparked alone

/-- A load of the node's own memory writes the values in memory. -/
theorem State.fvxLoad_own (aligned : ∀ a ∈ (s.hart h).loadAddrs op f, a.toNat % fvxW f = 0)
    (own : ∀ a ∈ (s.hart h).loadAddrs op f, ∀ e ∈ elParts a (fvxW f), OwnEl s h e) :
    let vals := ((s.hart h).loadAddrs op f).map (fun a => memValue s a (fvxW f))
    let slots := (s.hart h).fvxSlots op f
    let total := fvxNf op f * (64 * grp f / fvxW f)
    s.fvxLoad h op f = (s.modHart h (fun x => x.putElems f.vd.toNat (fvxW f) (f.z == 1) ((List.range total).map (fun j => slots.contains j))
      ((List.range total).map (fun j => if op = .vldbc then vals.headD 0 else vals.getD (slots.idxOf j) 0)))).pass h 8 := by
  intro vals slots total
  obtain ⟨els, list⟩ : ∃ els, ((s.hart h).loadAddrs op f).flatMap (fun a => elParts a (fvxW f)) = els := ⟨_, rfl⟩
  have ownAll : ∀ e ∈ els, OwnEl s h e := fun e he => by
    rw [← list] at he
    obtain ⟨a, ha, hea⟩ := List.mem_flatMap.1 he
    exact own a ha e hea
  have read : elemsOf (fvxW f) ((s.hart h).loadAddrs op f).length (els.map (fun e => s.bytes (localAddr e.addr) e.n)).flatten = vals := by
    rw [← list, ← List.flatMap_def, List.flatMap_assoc, elemsOf_flatMap (fun a => elParts_bytes_length s a (fvxW f))]
    rfl
  unfold State.fvxLoad
  simp only [← Hart.loadAddrs.eq_1]
  rw [misaligned_none aligned]
  simp only [list, State.coreAccess_own alone ownAll unparked, State.readEls_own alone ownAll, read]
  rfl

end

/-! ### The statement -/

theorem State.fvx_loads {s : State} {h : HartId} {op : FvxOp} {f : FvxWord} (hr : fvxRuns s h op f = true) (loads : op.loads = true) :
    s.fvx h op f = s.fvxLoad h op f := by rw [State.fvx_of_runs hr, if_pos loads]

/-- An active slot of the destination gets the value at its address. -/
theorem Hart.slot_value {x : Hart} {op : FvxOp} {f : FvxWord} (value : BitVec 64 → Nat) {j : Nat} (hj : j ∈ x.fvxSlots op f) :
    (if op = .vldbc then ((x.loadAddrs op f).map value).headD 0 else ((x.loadAddrs op f).map value).getD ((x.fvxSlots op f).idxOf j) 0) =
      value (x.slotAddr op f j) := by
  unfold Hart.loadAddrs Hart.slotAddr
  by_cases one : op = .vldbc
  · have some_ : (x.fvxSlots op f).isEmpty = false := by
      rw [List.isEmpty_eq_false_iff]
      exact List.ne_nil_of_mem hj
    simp only [one] at some_
    simp only [one, if_true, some_, Bool.false_eq_true, if_false]
    rfl
  · have place := List.idxOf_lt_length_of_mem hj
    simp only [if_neg one, List.map_map]
    rw [List.getD_eq_getElem _ _ (by simpa using place), List.getElem_map, List.getElem_idxOf]
    rfl

/-- Settles O12: the access completes at once, and the group gets the values in memory. -/
theorem fvxLoadsFromOwnMemory : Obligations.FvxLoadsFromOwnMemory := by
  intro op h f s hr loads x w n slots addr aligned els
  obtain ⟨alone, own⟩ := alone_of_ownEls els
  have unparked := (hartRuns_iff.1 (hartRuns_of_fvxRuns hr)).2.2
  have run := State.fvxLoad_own (op := op) (f := f) unparked alone
    (fun a ha => by
      obtain ⟨j, hj, rfl⟩ := Hart.mem_loadAddrs ha
      exact aligned j hj)
    (fun a ha e he => by
      obtain ⟨j, hj, rfl⟩ := Hart.mem_loadAddrs ha
      exact own e (List.mem_flatMap.2 ⟨j, hj, he⟩))
  refine writesLanes_of hr ((State.fvx_loads hr loads).trans run)
    ((lanesWritten_putElems x f.vd w (f.z == 1) _ (n := fvxNf op f * n) (by rw [List.length_map, List.length_range])).congr (fun j hj => ?_))
  rw [getD_map_range _ hj, getD_map_range _ hj]
  by_cases active : j ∈ slots
  · rw [if_pos (List.contains_iff_mem.2 active), if_pos (List.contains_iff_mem.2 active), Hart.slot_value (fun a => memValue s a w) active]
    rfl
  · rw [if_neg (fun c => active (List.contains_iff_mem.1 c)), if_neg (fun c => active (List.contains_iff_mem.1 c))]
    simp

end Sys2Proof.Machine
end

section
/-! FVX stores, VLDP, VSTP and VCAS on the node's own memory (R334, R337 to R340): O13. -/

namespace Sys2Proof.Machine

/-! ### The elements of a store -/

theorem fvxW_dvd (f : FvxWord) : fvxW f ∣ 64 := by
  unfold fvxW
  split
  · decide
  · split
    · next t _ => exact t.bytes_dvd
    · decide

/-- The accesses of an aligned element are aligned to their size. -/
theorem elParts_whole {a : BitVec 64} {w : Nat} (unit : w ∣ 64) (aligned : a.toNat % w = 0) {e : El} (he : e ∈ elParts a w) : e.whole := by
  unfold elParts at he
  split at he
  · next wide =>
    rw [wide] at aligned
    have first : 8 ∣ a.toNat := by omega
    have second : 8 ∣ (a + 8).toNat := by
      rw [BitVec.toNat_add, show (8 : BitVec 64).toNat = 8 from rfl]
      omega
    rcases List.mem_cons.1 he with rfl | he
    · exact ⟨Nat.zero_lt_succ 7, ⟨8, rfl⟩, first⟩
    · obtain rfl := List.mem_singleton.1 he
      exact ⟨Nat.zero_lt_succ 7, ⟨8, rfl⟩, second⟩
  · obtain rfl := List.mem_singleton.1 he
    exact ⟨Nat.pos_of_dvd_of_pos unit (by decide), unit, Nat.dvd_of_mod_eq_zero aligned⟩

/-- The data of the accesses of one element. -/
def elData (w : Nat) (d : List Byte) : List (List Byte) := if w = 16 then [d.take 8, d.drop 8] else [d]

theorem elData_flatten (w : Nat) (d : List Byte) : (elData w d).flatten = d := by
  unfold elData
  split <;> simp

theorem elData_lengths (a : BitVec 64) {w : Nat} {d : List Byte} (hd : d.length = w) : (elData w d).map List.length = (elParts a w).map El.n := by
  unfold elData elParts
  split <;> simp [hd]
  omega

/-! ### A store -/

section
variable {s : State} {h : HartId} {op : FvxOp} {f : FvxWord} (unparked : (s.hart h).park = none) (alone : AloneNode s)
include unparked alone

/-- A store to the node's own memory writes its elements in order. -/
theorem State.fvxStore_own {slots : List Nat} {addr : Nat → BitVec 64} (active : (s.hart h).fvxSlots op f = slots)
    (place : ∀ j, (s.hart h).fvxAddr op f (j / (64 * grp f / fvxW f)) (j % (64 * grp f / fvxW f)) = addr j)
    (aligned : ∀ j ∈ slots, (addr j).toNat % fvxW f = 0) (own : ∀ e ∈ slots.flatMap (fun j => elParts (addr j) (fvxW f)), OwnEl s h e) :
    s.fvxStore h op f = (s.writeEls h (slots.flatMap (fun j => elParts (addr j) (fvxW f))) (slots.flatMap (fun j => elData (fvxW f)
      (leBytes (fvxW f) (Sys2Proof.lane (s.hart h) f.vd (fvxW f) (fvxNf op f * (64 * grp f / fvxW f)) j))))).pass h 8 := by
  have regular : misaligned (fvxW f) (slots.map addr) = none := misaligned_none (fun a ha => by
    obtain ⟨j, hj, rfl⟩ := List.mem_map.1 ha
    exact aligned j hj)
  unfold State.fvxStore
  simp only [active, place]
  rw [regular]
  simp only [List.flatMap_map]
  exact State.coreAccess_own alone own unparked _ _ _ _

end

/-! ### The statement -/

section
variable {s : State} {h : HartId} {op : FvxOp} {f : FvxWord}

theorem State.fvx_stores (hr : fvxRuns s h op f = true) (stores : op.stores = true) : s.fvx h op f = s.fvxStore h op f := by
  have loads : op.loads = false := by cases op <;> cases stores <;> rfl
  rw [State.fvx_of_runs hr, if_neg (ne_true_of_eq_false loads), if_pos stores]

theorem State.fvx_pred (hr : fvxRuns s h op f = true) (pred : op = .vldp ∨ op = .vstp) : s.fvx h op f = s.fvxPred h op f := by
  have loads : op.loads = false := by rcases pred with rfl | rfl <;> rfl
  have stores : op.stores = false := by rcases pred with rfl | rfl <;> rfl
  rw [State.fvx_of_runs hr, if_neg (ne_true_of_eq_false loads), if_neg (ne_true_of_eq_false stores), if_pos pred]

theorem State.fvx_cas (hr : fvxRuns s h .vcas f = true) : s.fvx h .vcas f = s.fvxCas h f := State.fvx_of_runs hr

end

section
variable {s : State} {h : HartId} {f : FvxWord} {a : BitVec 64} {n : Nat} (unparked : (s.hart h).park = none) (alone : AloneNode s)
  (aligned : a.toNat % n = 0) (own : OwnEl s h ⟨a, n⟩)
include unparked alone aligned own

/-- VLDP reads a predicate. -/
theorem State.fvxPred_load (size : n = 8) (addr : (s.hart h).xreg f.va + BitVec.ofInt 64 (8 * f.imm.toInt) = a) :
    s.fvxPred h .vldp f = (s.modHart h (fun x => x.setPred f.vd.toNat (BitVec.ofNat 64 (leNat (s.bytes (localAddr a) 8))))).pass h 8 := by
  subst size
  unfold State.fvxPred
  simp only [addr]
  rw [if_neg (not_not_intro aligned), if_pos trivial, State.coreAccess_own alone (List.forall_mem_singleton.2 own) unparked]
  simp only [own.elRead alone]

/-- VSTP stores one. -/
theorem State.fvxPred_store (size : n = 8) (addr : (s.hart h).xreg f.va + BitVec.ofInt 64 (8 * f.imm.toInt) = a) :
    s.fvxPred h .vstp f = (s.elWrite h ⟨a, 8⟩ (leBytes 8 ((s.hart h).pred f.vd.toNat).toNat)).pass h 8 := by
  subst size
  unfold State.fvxPred
  simp only [addr]
  rw [if_neg (not_not_intro aligned), if_neg (by decide), State.coreAccess_own alone (List.forall_mem_singleton.2 own) unparked]

/-- VCAS stores when it finds what it compares with, and returns what it finds. -/
theorem State.fvxCas_own (addr : (s.hart h).xreg f.va = a) (size : (if f.imm = 1 then 16 else 8) = n) :
    s.fvxCas h f = ((if leNat (s.bytes (localAddr a) n) = leNat (((s.hart h).vbytes f.vb.toNat 1).take n) then
      s.elWrite h ⟨a, n⟩ (((s.hart h).vbytes f.vc.toNat 1).take n) else s).modHart h
        (fun x => x.setVbytes f.vd.toNat ((s.bytes (localAddr a) n).take n) 1)).pass h 8 := by
  have access := fun op done => State.coreAccess_own alone (List.forall_mem_singleton.2 own) unparked (.fvx .vcas f) false op done
  unfold State.fvxCas
  simp only [addr, size]
  rw [if_neg (not_not_intro aligned)]
  rcases own.kind with place | place <;> simp only [place, access, own.elRead alone]

end

/-- What an instruction leaves that stores l and nothing else. -/
theorem CoreStored.passed {s u : State} {l : List (Nat × Byte)} (a : CoreStored s u l) (h : HartId) :
    memoryAfter s (u.pass h 8) l ∧ ((u.pass h 8).hart h).pc = (s.hart h).pc + 8 ∧ ((u.pass h 8).hart h).v = (s.hart h).v ∧
      ((u.pass h 8).hart h).x = (s.hart h).x ∧ ((u.pass h 8).hart h).p = (s.hart h).p ∧ memoryAndHart h s (u.pass h 8) := by
  rw [State.hart_pass]
  exact ⟨fun b _ => a.reads b, congrArg (· + 8) (a.hart_same h Hart.pc (fun _ _ => rfl)), a.hart_same h Hart.v (fun _ _ => rfl),
    a.hart_same h Hart.x (fun _ _ => rfl), a.hart_same h Hart.p (fun _ _ => rfl), memoryAndHart_pass (a.frame h) 8⟩

/-- What an instruction leaves that stores l and then writes n bytes into a vector register. -/
theorem CoreStored.returns {s u : State} {l : List (Nat × Byte)} (a : CoreStored s u l) (h : HartId) (r : Nat) {n : Nat} {d : List Byte}
    (length : d.length = n) (fits : n ≤ 64) :
    let t := (u.modHart h (fun x => x.setVbytes r (d.take n) 1)).pass h 8
    ((t.hart h).vbytes r 1).take n = d ∧ memoryAfter s t l ∧ (t.hart h).pc = (s.hart h).pc + 8 ∧ memoryAndHart h s t := by
  intro t
  have hart : t.hart h = ((u.hart h).setVbytes r d 1).passed 8 := by rw [State.hart_pass, State.hart_modHart_same, List.take_of_length_le (Nat.le_of_eq length)]
  have kept := (u.hart h).setVbytes_rest r d 1
  refine ⟨?_, fun b _ => a.reads b, ?_, memoryAndHart_pass (memoryAndHart_modHart (a.frame h) _) 8⟩
  · have bytes : (t.hart h).vbytes r 1 = ((u.hart h).setVbytes r d 1).vbytes r 1 := Hart.vbytes_congr (congrArg Hart.v hart) r 1
    rw [bytes, Hart.vbytes_setVbytes _ _ (length.trans_le fits), List.take_left' length]
  · rw [hart]
    exact congrArg (· + 8) ((congrArg Hart.pc kept :).trans (a.hart_same h Hart.pc (fun _ _ => rfl)))

/-- Settles O13: each instruction by its equation on the node's own memory, and what stores leave. -/
theorem fvxStores : Obligations.FvxStores := by
  refine ⟨fun op h f s hr stores hc hm => ?_, fun h f s hc hm => ?_⟩
  · intro x w n slots addr els aligned ownEls
    obtain ⟨alone, own⟩ := alone_of_ownEls ownEls
    have unparked := (hartRuns_iff.1 (hartRuns_of_fvxRuns hr)).2.2
    have run := State.fvxStore_own (op := op) (f := f) unparked alone rfl (fun _ => rfl) aligned own
    let ds := slots.flatMap (fun j => elData w (leBytes w (Sys2Proof.lane x f.vd w (fvxNf op f * n) j)))
    have whole : ∀ e ∈ els, e.whole := fun e he => by
      obtain ⟨j, hj, part⟩ := List.mem_flatMap.1 he
      exact elParts_whole (fvxW_dvd f) (aligned j hj) part
    have lengths : ds.map List.length = els.map El.n := by
      rw [List.map_flatMap, List.map_flatMap]
      exact congrArg (fun g => slots.flatMap g) (funext (fun j => elData_lengths (addr j) (leBytes_length w _)))
    have data : ds.flatten = slots.flatMap (fun j => leBytes w (Sys2Proof.lane x f.vd w (fvxNf op f * n) j)) := by
      rw [← List.flatMap_id, List.flatMap_assoc]
      exact congrArg (fun g => slots.flatMap g) (funext (fun j => List.flatMap_id.trans (elData_flatten w _)))
    have stored := (CoreSound.of_caches hc hm alone.poison).writeEls own whole lengths
    rw [data] at stored
    exact ⟨_, (exec_fvxInstr_of_runs (hartRuns_of_fvxRuns hr)).trans (congrArg _ ((State.fvx_stores hr stores).trans run)), stored.passed h⟩
  · intro x a c n old
    have runs : ∀ {op : FvxOp} {t : State}, fvxRuns s h op f = true → s.fvx h op f = t → exec (fvxInstr op h f) s = .next t := fun hr eq =>
      (exec_fvxInstr_of_runs (hartRuns_of_fvxRuns hr)).trans (congrArg _ eq)
    refine ⟨fun hr aligned els => ?_, fun hr aligned els => ?_, fun hr aligned els => ?_⟩
    all_goals
      obtain ⟨alone, own⟩ := alone_of_ownEls els
      have own := List.forall_mem_singleton.1 own
      have unparked := (hartRuns_iff.1 (hartRuns_of_fvxRuns hr)).2.2
      have sound := CoreSound.of_caches hc hm alone.poison
    · have run := (State.fvx_pred hr (.inl rfl)).trans (State.fvxPred_load unparked alone aligned own rfl rfl)
      have value : (BitVec.ofNat 64 (leNat (s.bytes (localAddr a) 8))).toNat = leNat (s.bytes (localAddr a) 8) :=
        toNat_ofNat_leNat (k := 8) (Nat.le_of_eq (State.bytes_length s _ _))
      have hart := congrArg (fun t : State => t.hart h) run
      simp only [State.hart_pass, State.hart_modHart_same] at hart
      have only : hartOnly h s (s.fvx h .vldp f) := run ▸ hartOnly_trans (hartOnly_modHart _ _ _) (hartOnly_pass _ _ _)
      refine ⟨_, runs hr rfl, ?_, (congrArg Hart.v hart :), (congrArg Hart.pc hart :), only⟩
      rw [hart, Hart.pred_passed, Hart.pred_setPred _ (predDst_of_fvxRuns hr rfl), if_pos rfl, value]
    · have run := (State.fvx_pred hr (.inr rfl)).trans (State.fvxPred_store unparked alone aligned own rfl rfl)
      have whole : El.whole ⟨a, 8⟩ := ⟨Nat.zero_lt_succ 7, ⟨8, rfl⟩, Nat.dvd_of_mod_eq_zero aligned⟩
      obtain ⟨memory, pc, -, -, -, frame⟩ := (sound.elWrite own whole (leBytes_length 8 (x.pred f.vd.toNat).toNat)).passed h
      exact ⟨_, runs hr run, memory, pc, frame⟩
    · have run := (State.fvx_cas hr).trans (State.fvxCas_own unparked alone aligned own rfl rfl)
      have size : 0 < n ∧ n ∣ 64 ∧ n ≤ 64 := by
        simp only [n]
        split <;> decide
      obtain ⟨pos, unit, fits⟩ := size
      have length : ((x.vbytes f.vc.toNat 1).take n).length = n := List.length_take_of_le (by rwa [Hart.vbytes_length])
      have stored : CoreStored s (if leNat old = leNat ((x.vbytes f.vb.toNat 1).take n) then s.elWrite h ⟨c, n⟩ ((x.vbytes f.vc.toNat 1).take n) else s)
          (if leNat old = leNat ((x.vbytes f.vb.toNat 1).take n) then storedBytes [⟨c, n⟩] ((x.vbytes f.vc.toNat 1).take n) else []) := by
        split
        · exact sound.elWrite own ⟨pos, unit, Nat.dvd_of_mod_eq_zero aligned⟩ length
        · exact .refl sound
      exact ⟨_, runs hr run, stored.returns h f.vd.toNat (State.bytes_length s _ _) fits⟩

end Sys2Proof.Machine
end
